-- ==== Sys2Proof/Word.lean ====
section
/-!
DEFINITION. The words of the block: bytes, 32-bit registers, byte strings, and the indices that the spec's numbered
units give (00 R17).
-/
namespace Sys2Proof

/-- One byte. -/
abbrev Byte := BitVec 8
/-- A byte string, the first byte first (00 R14). -/
abbrev Bytes := List Byte
/-- One register (18 R644). -/
abbrev Word := BitVec 32
/-- A slice, 0-3 (00 Table 0-3). -/
abbrev SliceId := Fin 4
/-- A lane or port index k within a slice and side (02 R116). -/
abbrev PortIx := Fin 8
/-- An association number (00 Table 0-3). -/
abbrev An := Fin 4
/-- A secure channel within its slice (01 R23). -/
abbrev ChIx := Fin 16384
/-- One of 256 instances; 0 is the manager (00 Table 0-3). -/
abbrev InstId := Fin 256

end Sys2Proof
end

