-- ==== Sys2Proof/Machine/Basic.lean ====
section
/-!
DEFINITION. Bit fields of words, byte order, sparse stores and updates of vectors: the helpers every block of the
device uses.
-/
namespace Sys2Proof.Machine

/-- A bit range [hi:lo] of a register (00 R11). -/
structure Field where
  hi : Nat
  lo : Nat
  deriving DecidableEq, Repr

/-- The value of field `f` of `w`, right-aligned. -/
def getF (w : Word) (f : Field) : Nat := (w.toNat >>> f.lo) % 2 ^ (f.hi - f.lo + 1)

/-- The bits that field `f` occupies. -/
def maskF (f : Field) : Word := BitVec.ofNat 32 ((2 ^ (f.hi - f.lo + 1) - 1) <<< f.lo)

/-- `w` with field `f` set to `v`, reduced to the field's width. -/
def putF (w : Word) (f : Field) (v : Nat) : Word :=
  (w &&& ~~~ maskF f) ||| BitVec.ofNat 32 ((v % 2 ^ (f.hi - f.lo + 1)) <<< f.lo)

/-- Bit `i` of `w`. -/
def bitW (w : Word) (i : Nat) : Bool := w.getLsbD i

/-- A Boolean as a one-bit field value. -/
def b2n (b : Bool) : Nat := if b then 1 else 0

/-- `n` bytes of `v`, most significant first (00 R14, wire formats). -/
def beBytes : Nat → Nat → Bytes
  | 0, _ => []
  | n + 1, v => BitVec.ofNat 8 (v / 256 ^ n) :: beBytes n v

/-- `n` bytes of `v`, least significant first (00 R14, registers and records). -/
def leBytes : Nat → Nat → Bytes
  | 0, _ => []
  | n + 1, v => BitVec.ofNat 8 v :: leBytes n (v / 256)

/-- The number that bytes spell, most significant first. -/
def beVal (bs : Bytes) : Nat := bs.foldl (fun a b => a * 256 + b.toNat) 0

/-- The number that bytes spell, least significant first. -/
def leVal : Bytes → Nat
  | [] => 0
  | b :: bs => b.toNat + 256 * leVal bs

/-- `len` bytes of `bs` from offset `off`. -/
def sub (bs : Bytes) (off len : Nat) : Bytes := (bs.drop off).take len

/-- Byte `i` of `bs`, 0 beyond the end. -/
def byteAt (bs : Bytes) (i : Nat) : Byte := bs.getD i 0

/-- `bs` cut or filled with zero bytes to `n` bytes. -/
def padTo (n : Nat) (bs : Bytes) : Bytes := (bs ++ List.replicate n 0).take n

/-- The exclusive or of two byte strings, as long as the shorter. -/
def xorBytes : Bytes → Bytes → Bytes
  | a :: as, b :: bs => (a ^^^ b) :: xorBytes as bs
  | _, _ => []

/-- `v` clamped to [lo, hi]. -/
def clampN (lo hi v : Nat) : Nat := min (max v lo) hi

/-- Divide, rounding up. -/
def ceilDiv (a b : Nat) : Nat := (a + b - 1) / b

/-- A sparse store: pairs in strictly rising key order. -/
abbrev NMap (α : Type) := List (Nat × α)

namespace NMap
variable {α : Type}

/-- The value stored at `k`. -/
def get? (m : NMap α) (k : Nat) : Option α := (m.find? (fun p => p.1 == k)).map Prod.snd

/-- The value stored at `k`, or `d` where none is stored. -/
def getD (m : NMap α) (k : Nat) (d : α) : α := (get? m k).getD d

/-- `m` with `v` stored at `k`. -/
def put : NMap α → Nat → α → NMap α
  | [], k, v => [(k, v)]
  | p :: m, k, v =>
    if k < p.1 then (k, v) :: p :: m
    else if k = p.1 then (k, v) :: m
    else p :: put m k v

/-- `m` with nothing stored at `k`. -/
def del (m : NMap α) (k : Nat) : NMap α := m.filter (fun p => p.1 != k)

/-- Every key strictly above the one before it. -/
def wf : NMap α → Bool
  | [] => true
  | [_] => true
  | p :: q :: m => decide (p.1 < q.1) && wf (q :: m)

/-- Whether something is stored at `k`. -/
def has (m : NMap α) (k : Nat) : Bool := (get? m k).isSome

end NMap

/-- `v` with `f` applied at index `i`. -/
def upd {α : Type} {n : Nat} (v : Vector α n) (i : Fin n) (f : α → α) : Vector α n := v.set i (f v[i])

/-- The first number from `i` on, at most `n` steps, that `p` holds of. -/
def firstFrom (p : Nat → Bool) : Nat → Nat → Option Nat
  | _, 0 => none
  | i, n + 1 => if p i then some i else firstFrom p (i + 1) n

/-- How often `p` holds in the list. -/
def countP {α : Type} (p : α → Bool) (l : List α) : Nat := (l.filter p).length

/-- The sum of `f` over the list. -/
def sumOf {α : Type} (f : α → Nat) (l : List α) : Nat := l.foldl (fun a x => a + f x) 0

end Sys2Proof.Machine
end

