-- ==== Sys2Proof/Machine/Parser.lean ====
section
/-!
DEFINITION. The header parser (03): from the bytes of a frame, FCS excluded, to the parse result of Table 3-3, with the
first failure of Table 3-2. One header is one step of a small machine; at most 64 steps are taken, since a frame has at most
16 headers.
-/
namespace Sys2Proof.Machine

/-- What the parser looks at next. -/
inductive Hdr where
  | eth | etype (tags : Nat) | tagged (t : Nat) | mpls | nibble | control | ipv4 | ipv6
  | ext (n : Nat) (first : Bool) (exts : Nat) | udp | tcp | vxlan | gtpu (udpLen : Nat) | gtpInner
  | sectag | eapol | ptp
  deriving DecidableEq, Repr

/-- PRS_CFG as applied. -/
structure PrsCfg where
  tpidAlt : Nat
  vxlan : Bool
  gtpu : Bool
  /-- the frame goes on beyond the bytes given (R137) -/
  more : Bool := false
  deriving DecidableEq, Repr

/-- A parse result under construction: fields by ID (03 Table 3-3), FLAGS, failures in parse order as code and header
offset (with the frame length that a length check asks for), and what the parser remembers of the current section. -/
structure Parse where
  fields : NMap Nat := []
  flags : BitVec 16 := 0
  fails : List (Nat × Nat) := []
  depth : Nat := 0
  hdrs : Nat := 0
  inner : Bool := false
  labels : Nat := 0
  /-- end of the payload of the current IP header, and whether an IP header so far is a fragment -/
  ipEnd : Nat := 0
  frag : Bool := false
  /-- source, destination and protocol of the fragmenting header (03 R143) -/
  fragSrc : Nat := 0
  fragDst : Nat := 0
  fragProto : Nat := 0
  fragInner : Bool := false
  /-- as `PrsCfg.more` -/
  more : Bool := false
  /-- the parse stopped for want of bytes that are still to come -/
  needs : Bool := false
  /-- checks 4 and 7 that the frame end is still to answer: code, header offset, frame length asked for (R137) -/
  late : List (Nat × Nat × Nat) := []
  deriving DecidableEq, Repr

namespace Parse

def set (p : Parse) (id v : Nat) : Parse := { p with fields := p.fields.put id v }
/-- A field with an outer and an inner place. -/
def put (p : Parse) (o i v : Nat) : Parse := p.set (if p.inner then i else o) v
/-- A field of the outer section only. -/
def outer (p : Parse) (id v : Nat) : Parse := if p.inner then p else p.set id v
def flag (p : Parse) (i : Nat) : Parse := { p with flags := p.flags ||| BitVec.ofNat 16 (2 ^ i) }
def fail (p : Parse) (code off : Nat) : Parse := { p with fails := p.fails ++ [(code, off)] }
def get (p : Parse) (id : Nat) : Nat := p.fields.getD id 0
def has (p : Parse) (i : Nat) : Bool := p.flags.getLsbD i

end Parse

/-- Big-endian number of `n` bytes at `o`. -/
def beAt (b : Bytes) (o n : Nat) : Nat := beVal (sub b o n)

/-- Whether a header that ends before byte `e` can be parsed (R129, R130): some code of Table 3-2 or TRUNCATED otherwise, or
its bytes are still to come. -/
inductive Room where
  | ok | trunc | short | later
  deriving DecidableEq, Repr

def room (p : Parse) (n e : Nat) : Room :=
  if p.more then (if 256 < e then .trunc else if n < e then .later else .ok)
  else if n < e ∧ n ≤ 256 then .short else if 256 < e then .trunc else .ok

def pTrunc (p : Parse) : Parse × Option Hdr := (p.flag 0, none)
def pFail (p : Parse) (code off : Nat) : Parse × Option Hdr := (p.fail code off, none)
def pNeeds (p : Parse) : Parse × Option Hdr := ({ p with needs := true }, none)

/-- Parse the header from `o` to `e` if limits allow: `bad` is the lowest failing code among its own checks so far, `k`
continues behind it. A header that the byte limit stops is not begun: no check is made on its visible bytes, and the frame
is TRUNCATED (DEDUCED, log entry 129). -/
def header (b : Bytes) (p : Parse) (o e : Nat) (bad : Option Nat) (k : Parse → Parse × Option Hdr) : Parse × Option Hdr :=
  if p.hdrs = 16 then pTrunc p
  else
    match room p b.length e with
    | .trunc => pTrunc p
    | .short => pFail p (bad.getD 15) o
    | .later => pNeeds p
    | .ok =>
      match bad with
      | some c => pFail p c o
      | none => k { p with hdrs := p.hdrs + 1, depth := e }

/-- The first failing code. -/
def firstBad (cs : List (Bool × Nat)) : Option Nat := (cs.find? (fun c => c.1)).map Prod.snd

/-- What follows an IP header by protocol or next header (R119, R123). -/
def afterIp (proto : Nat) : Option Hdr := if proto = 17 then some .udp else if proto = 6 then some .tcp else none
def afterIp6 (proto : Nat) (first : Bool) (exts : Nat) : Option Hdr :=
  if proto = 0 ∨ proto = 43 ∨ proto = 44 ∨ proto = 60 then some (.ext proto first exts) else afterIp proto

/-- Record the outermost fragmenting header (R143). -/
def setFrag (p : Parse) (later : Bool) (ident off src dst proto : Nat) : Parse :=
  if p.frag then p
  else
    let p := (((p.flag (if later then 7 else 6)).set 23 ident).set 24 off)
    { p with frag := true, fragSrc := src, fragDst := dst, fragProto := proto, fragInner := p.inner }

/-- EtherType dispatch (R119, R120, R122). -/
def afterEtype (p : Parse) (t : Nat) : Parse × Option Hdr :=
  if t < 0x600 then (p.flag 15, none)
  else if t = 0x0800 then (p, some .ipv4)
  else if t = 0x86DD then (p, some .ipv6)
  else if p.inner then (p, none)
  else if t = 0x8847 ∨ t = 0x8848 then (p, some .mpls)
  else if t = 0x88E5 then ({ p with depth := p.depth - 2 }, some .sectag)
  else if t = 0x888E then (p, some .eapol)
  else if t = 0x88F7 then (p, some .ptp)
  else (p, none)

/-- Code of a TPID in TAGn. A PRS_CFG.TPID_ALT that equals another recognised EtherType, or lies below 0x0600, is a VLAN tag
all the same (DESIGN CHOICE, log entry 130). -/
def tpidCode (c : PrsCfg) (t : Nat) : Option Nat :=
  if t = 0x8100 then some 0 else if t = 0x88A8 then some 1 else if t = c.tpidAlt then some 2 else none

def hdrEth (b : Bytes) (p : Parse) : Parse × Option Hdr :=
  let o := p.depth
  header b p o (o + 14) none (fun p =>
    let p := (p.put 5 29 (beAt b o 6)).put 6 30 (beAt b (o + 6) 6)
    ({ p.outer 7 0 with depth := o + 12 }, some (.etype 0)))

/-- The EtherType after `tags` tags; the Ethernet header, 12 bytes before the tags, ends behind it. -/
def hdrEtype (c : PrsCfg) (b : Bytes) (p : Parse) (tags : Nat) : Parse × Option Hdr :=
  let o := p.depth
  match room p b.length (o + 2) with
  | .trunc => pTrunc p
  | .short => pFail p 15 (o - 12 - 4 * tags)
  | .later => pNeeds p
  | .ok =>
    let t := beAt b o 2
    match tpidCode c t with
    | none => afterEtype { p.put 11 32 t with depth := o + 2 } t
    | some code =>
      if p.hdrs = 16 ∨ tags = 3 then pTrunc p
      else header b p o (o + 4) none (fun p =>
        let v := code * 2 ^ 16 + beAt b (o + 2) 2
        let p := if p.inner then (if tags = 0 then p.set 31 v else p) else (p.set (8 + tags) v).set 7 (tags + 1)
        (p, some (.etype (tags + 1))))

def hdrMpls (b : Bytes) (p : Parse) : Parse × Option Hdr :=
  let o := p.depth
  let w := beAt b o 4
  header b p o (o + 4) none (fun p =>
    let n := p.labels + 1
    let p := { p.set 12 n with labels := n }
    let p := if n = 1 then p.set 13 (w / 512) else p
    if w / 256 % 2 = 1 then (p.set 14 (w / 512), some .nibble)
    else if n = 8 then pFail p 12 o
    else (p, some .mpls))

/-- The nibble behind the header just parsed, or how the parse ends there (R759). -/
def nibbleAt (b : Bytes) (p : Parse) : Except (Parse × Option Hdr) Nat :=
  if b.length ≤ p.depth ∧ !p.more then .error (p, none)
  else if 256 ≤ p.depth then .error (pTrunc p)
  else if b.length ≤ p.depth then .error (pNeeds p)
  else .ok ((byteAt b p.depth).toNat / 16)

def hdrNibble (b : Bytes) (p : Parse) : Parse × Option Hdr :=
  match nibbleAt b p with
  | .error r => r
  | .ok n =>
    match n with
    | 4 => (p, some .ipv4)
    | 6 => (p, some .ipv6)
    | 0 => (p, some .control)
    | 1 => (p.flag 11, none)
    | _ => (p, none)

/-- The control word of an MPLS section opens the inner section, and INNER is set as soon as it does, as behind VXLAN and
GTP-U, even where no inner header is then parsed (DESIGN CHOICE, log entry 131). -/
def hdrControl (b : Bytes) (p : Parse) : Parse × Option Hdr :=
  header b p p.depth (p.depth + 4) none (fun p => ({ (p.flag 10).flag 9 with inner := true }, some .eth))

def hdrIpv4 (b : Bytes) (p : Parse) : Parse × Option Hdr :=
  let o := p.depth
  let b0 := (byteAt b o).toNat
  let ihl := b0 % 16
  let tl := beAt b (o + 2) 2
  let fo := beAt b (o + 6) 2
  let proto := (byteAt b (o + 9)).toNat
  let later := fo % 8192 ≠ 0
  let bad := firstBad [(decide (o < b.length ∧ b0 / 16 ≠ 4), 1), (decide (o < b.length ∧ ihl < 5), 2),
    (decide (o + 4 ≤ b.length ∧ tl < 4 * ihl), 3)]
  let beyond := o + 4 ≤ b.length ∧ b.length - o < tl ∧ !p.more
  let e := if o < b.length then o + Nat.max 1 (4 * ihl) else o + 20
  header b p o e (bad.orElse (fun _ =>
      if e ≤ b.length ∧ fo % 8192 = 1 ∧ proto = 6 then some (if beyond then 4 else 14)
      else if b.length < e ∧ beyond then some 4 else none)) (fun p =>
    let p := if beyond then p.fail 4 o else if p.more then { p with late := p.late ++ [(4, o, o + tl)] } else p
    let src := beAt b (o + 12) 4
    let dst := beAt b (o + 16) 4
    let p := ((((p.put 15 33 1).put 16 34 src).put 17 35 dst).put 18 36 proto)
    let p := (((p.outer 19 (byteAt b (o + 1)).toNat).outer 20 (byteAt b (o + 8)).toNat).outer 44 o)
    let p := if 5 < ihl then p.flag 5 else p
    let p := { p with ipEnd := o + tl }
    let p := if later ∨ fo / 8192 % 2 = 1 then setFrag p later (beAt b (o + 4) 2) (fo % 8192) src dst proto else p
    (p, if later then none else afterIp proto))

def hdrIpv6 (b : Bytes) (p : Parse) : Parse × Option Hdr :=
  let o := p.depth
  let w := beAt b o 4
  let pl := beAt b (o + 4) 2
  let nh := (byteAt b (o + 6)).toNat
  let beyond := o + 6 ≤ b.length ∧ b.length - o < 40 + pl ∧ !p.more
  let bad := firstBad [(decide (o < b.length ∧ (byteAt b o).toNat / 16 ≠ 6), 5), (decide (o + 6 ≤ b.length ∧ pl = 0), 6)]
  header b p o (o + 40) (bad.orElse (fun _ => if b.length < o + 40 ∧ beyond then some 7 else none)) (fun p =>
    let p := if beyond then p.fail 7 o else if p.more then { p with late := p.late ++ [(7, o, o + 40 + pl)] } else p
    let p := ((((p.put 15 33 2).put 16 34 (beAt b (o + 8) 16)).put 17 35 (beAt b (o + 24) 16)).put 18 36 nh)
    let p := (((p.outer 19 (w / 2 ^ 20 % 256)).outer 20 (byteAt b (o + 7)).toNat).outer 21 (w % 2 ^ 20)).outer 22 0
    let p := p.outer 44 o
    ({ p with ipEnd := o + 40 + pl }, afterIp6 nh true 0))

/-- Bit of EXT_MASK. -/
def extBit (n : Nat) : Nat := if n = 0 then 8 else if n = 43 then 4 else if n = 44 then 2 else 1

def hdrExt (b : Bytes) (p : Parse) (n : Nat) (first : Bool) (exts : Nat) : Parse × Option Hdr :=
  let o := p.depth
  if p.hdrs = 16 ∨ exts = 4 then pTrunc p
  else
    let e := if n = 44 then o + 8 else o + 8 + 8 * (byteAt b (o + 1)).toNat
    let nh := (byteAt b o).toNat
    let bad := firstBad [(decide (p.ipEnd < e), 8), (n == 0 && !first, 9)]
    header b p o e bad (fun p =>
      let p := p.put 18 36 nh
      let p := p.outer 22 (p.get 22 ||| extBit n)
      if n = 44 then
        let fo := beAt b (o + 2) 2
        let src := p.get (if p.inner then 34 else 16)
        let dst := p.get (if p.inner then 35 else 17)
        if fo / 8 = 0 ∧ fo % 2 = 0 then (p.flag 8, afterIp6 nh false (exts + 1))
        else
          let later := fo / 8 ≠ 0
          let p := setFrag p later (beAt b (o + 4) 4) (fo / 8) src dst nh
          -- the protocol of a first fragment behind further extension headers follows the last next header
          (p, if later then none else afterIp6 nh false (exts + 1))
      else (p, afterIp6 nh false (exts + 1)))

def hdrUdp (c : PrsCfg) (b : Bytes) (p : Parse) : Parse × Option Hdr :=
  let o := p.depth
  let len := beAt b (o + 4) 2
  let dp := beAt b (o + 2) 2
  let past := p.ipEnd < o + 8
  let bad :=
    if p.has 6 && decide past then some 14
    else if o + 6 ≤ b.length ∧ (len < 8 ∨ (!p.frag ∧ len ≠ p.ipEnd - o)) then some 10 else none
  header b p o (o + 8) bad (fun p =>
    let p := ((p.put 25 37 (beAt b o 2)).put 26 38 dp).outer 45 o
    if p.inner then (p, none)
    else if dp = 4789 ∧ c.vxlan then (p, some .vxlan)
    else if dp = 2152 ∧ c.gtpu then (p, some (.gtpu len))
    else if dp = 319 ∨ dp = 320 then (p, some .ptp)
    else (p, none))

def hdrTcp (b : Bytes) (p : Parse) : Parse × Option Hdr :=
  let o := p.depth
  let d := (byteAt b (o + 12)).toNat / 16
  let seen := o + 13 ≤ b.length
  let past := p.ipEnd < (if seen then o + 4 * d else o + 20)
  let e := if seen then o + Nat.max 13 (4 * d) else o + 20
  let bad :=
    if p.has 6 && decide past then some 14
    else if (seen ∧ d < 5) ∨ past then some 11 else none
  header b p o e bad (fun p =>
    (((p.put 25 37 (beAt b o 2)).put 26 38 (beAt b (o + 2) 2)).outer 27 (byteAt b (o + 13)).toNat |>.outer 45 o, none))

def hdrVxlan (b : Bytes) (p : Parse) : Parse × Option Hdr :=
  let o := p.depth
  if p.hdrs = 16 then pTrunc p
  else
    match room p b.length (o + 8) with
    | .trunc => pTrunc p
    | .short => pFail p 15 o
    | .later => pNeeds p
    | .ok =>
      if (byteAt b o).getLsbD 3 then
        let p := ((p.flag 13).flag 9).set 28 (beAt b (o + 4) 3)
        ({ p with hdrs := p.hdrs + 1, depth := o + 8, inner := true }, some .eth)
      else (p, none)

/-- What ends a parse inside the chain of GTP-U extension headers. -/
inductive ChainEnd where
  | fifth | trunc | later
  | fail (code : Nat)
  deriving DecidableEq, Repr

/-- The chain of GTP-U extension headers from `o` on (R124): the end of the chain, or what ends the parse. -/
def gtpChain (p : Parse) (b : Bytes) : Nat → Nat → Nat → Except ChainEnd Nat
  | 0, o, nxt => if nxt = 0 then .ok o else .error .fifth
  | n + 1, o, nxt =>
    if nxt = 0 then .ok o
    else
      match room p b.length (o + 1) with
      | .trunc => .error .trunc
      | .short => .error (.fail 15)
      | .later => .error .later
      | .ok =>
        let l := 4 * (byteAt b o).toNat
        if l = 0 then .error (.fail 13)
        else
          match room p b.length (o + l) with
          | .trunc => .error .trunc
          | .short => .error (.fail 15)
          | .later => .error .later
          | .ok => gtpChain p b n (o + l) (byteAt b (o + l - 1)).toNat

/-- Where the fourth extension header of a chain ends. -/
def gtpFour (b : Bytes) : Nat → Nat → Nat
  | 0, o => o
  | n + 1, o => gtpFour b n (o + 4 * (byteAt b o).toNat)

def hdrGtpu (b : Bytes) (p : Parse) (udpLen : Nat) : Parse × Option Hdr :=
  let o := p.depth
  let f := (byteAt b o).toNat
  if p.hdrs = 16 then pTrunc p
  else
    match room p b.length (o + 8) with
    | .trunc => pTrunc p
    | .later => pNeeds p
    | .short => pFail p (if f / 16 % 16 = 3 ∧ o + 4 ≤ b.length ∧ beAt b (o + 2) 2 ≠ udpLen - 8 then 13 else 15) o
    | .ok =>
      if f / 32 ≠ 1 ∨ f / 16 % 2 = 0 then (p, none)
      else
        let bad := beAt b (o + 2) 2 ≠ udpLen - 8
        let e := if f % 8 = 0 then o + 8 else o + 12
        match room p b.length e with
        | .trunc => pTrunc p
        | .later => pNeeds p
        | .short => pFail p (if bad then 13 else 15) o
        | .ok =>
          let nxt := if f / 4 % 2 = 1 then (byteAt b (o + 11)).toNat else 0
          let done := fun (p : Parse) (e : Nat) => { (p.flag 14).set 28 (beAt b (o + 4) 4) with hdrs := p.hdrs + 1, depth := e }
          match gtpChain p b 4 e nxt with
          | .error .fifth =>
            let p := done p (gtpFour b 4 e)
            pTrunc (if bad then p.fail 13 o else p)
          | .error .trunc => pTrunc p
          | .error .later => pNeeds p
          | .error (.fail c) => pFail p (if bad then 13 else c) o
          | .ok e =>
            let p := done p e
            if bad then pFail p 13 o
            else if (byteAt b (o + 1)).toNat = 0xFF then (p, some .gtpInner) else (p, none)

def hdrGtpInner (b : Bytes) (p : Parse) : Parse × Option Hdr :=
  match nibbleAt b p with
  | .error r => r
  | .ok n =>
    match n with
    | 4 => ({ p.flag 9 with inner := true }, some .ipv4)
    | 6 => ({ p.flag 9 with inner := true }, some .ipv6)
    | _ => (p, none)

def hdrSectag (b : Bytes) (p : Parse) : Parse × Option Hdr :=
  let o := p.depth
  let sc := (byteAt b (o + 2)).getLsbD 5
  header b p o (o + if sc then 16 else 8) none (fun p =>
    let p := ((p.flag 2).set 39 (byteAt b (o + 2)).toNat).set 40 (beAt b (o + 4) 4)
    (if sc then p.set 41 (beAt b (o + 8) 8) else p, none))

def hdrEapol (b : Bytes) (p : Parse) : Parse × Option Hdr :=
  header b p p.depth (p.depth + 4) none (fun p => (p.flag 3, none))

def hdrPtp (b : Bytes) (p : Parse) : Parse × Option Hdr :=
  let o := p.depth
  header b p o (o + 34) none (fun p => (((p.flag 4).set 42 ((byteAt b o).toNat % 16)).set 43 o, none))

def hdrStep (c : PrsCfg) (b : Bytes) (p : Parse) : Hdr → Parse × Option Hdr
  | .eth => hdrEth b p
  | .etype n => hdrEtype c b p n
  | .tagged t => afterEtype p t
  | .mpls => hdrMpls b p
  | .nibble => hdrNibble b p
  | .control => hdrControl b p
  | .ipv4 => hdrIpv4 b p
  | .ipv6 => hdrIpv6 b p
  | .ext n f e => hdrExt b p n f e
  | .udp => hdrUdp c b p
  | .tcp => hdrTcp b p
  | .vxlan => hdrVxlan b p
  | .gtpu l => hdrGtpu b p l
  | .gtpInner => hdrGtpInner b p
  | .sectag => hdrSectag b p
  | .eapol => hdrEapol b p
  | .ptp => hdrPtp b p

def parseLoop (c : PrsCfg) (b : Bytes) : Nat → Parse → Hdr → Parse
  | 0, p, _ => p
  | n + 1, p, h =>
    match hdrStep c b p h with
    | (p, none) => p
    | (p, some h) => parseLoop c b n p h

/-- Parse a frame from byte 0. MALFORMED is set when a check failed; `fails.head?` is MAL_REASON with its offset (R133). -/
def parse (c : PrsCfg) (b : Bytes) : Parse :=
  let p := parseLoop c b 64 { more := c.more } .eth
  let p := (p.set 46 p.depth).set 47 p.hdrs
  if p.fails.isEmpty then p else p.flag 1

end Sys2Proof.Machine
end

