-- ==== Sys2Proof/Machine/Types.lean ====
section
/-!
DEFINITION. The kinds of things that the commands name and the state holds: sides, lanes, tables, causes, and what
travels with a command (an image, a message, a descriptor).
-/
namespace Sys2Proof.Machine

/-- A side of the device: d is 0 for the client side and the protect path, 1 for the line side and the verify path
(02 R116, 03 R147, 04 R184). -/
inductive Side where
  | client
  | line
  deriving DecidableEq, Repr

/-- The number d of a side. -/
def sideNum : Side → Nat
  | .client => 0
  | .line => 1

/-- A serial lane (00 Table 0-3). -/
inductive LaneId where
  | lane (d : Side) (s : SliceId) (k : PortIx)
  | twin (i : Fin 4)
  deriving DecidableEq, Repr

/-- Receiver bring-up states of 02 Table 2-2, in the numbering of SDS_LANE_STAT.STATE. -/
inductive LaneStage where
  | off | sigWait | cdr | eq | fecLock | pcsLock | ready
  deriving DecidableEq, Repr

/-- What a READY or rising lane loses (02 R77). -/
inductive LockLoss where
  | signal | cdr | fec | pcs | hiBer
  deriving DecidableEq, Repr

/-- The two peer tables (05 Table 5-1). -/
inductive Tbl where
  | mac
  | lpm
  deriving DecidableEq, Repr

/-- What a received frame carries: the bytes from DA to the last byte before the FCS, whether its FCS was good, and
whether the frame has ended at parse completion (03 R137). -/
structure RxFrame where
  bytes : Bytes
  fcsOk : Bool
  ended : Bool
  deriving DecidableEq, Repr

/-- The corrected symbols over the first 65,536 codewords with the image's receive precoding and with the opposite one; none: no
FEC lock with it (02 R67). -/
structure LockRuns where
  own : Option Nat
  other : Option Nat
  deriving DecidableEq, Repr

/-- A received CTF frame, and, where it is the first of an FEC superframe, whether the alignment marker stood there (10 R386). -/
structure CtfRx where
  marker : Option Bool
  bytes : Bytes
  deriving DecidableEq, Repr

/-- A decision that a fragment entry keeps or a classification gives (04 R179). -/
inductive Decision where
  | channel (c : ChIx) (tc : Bool)
  | drop
  | slow (q : Fin 8)
  | bypass (tc : Bool)
  | timestamp
  | deliverVerified
  | recirc (p : Fin 16)
  deriving DecidableEq, Repr

/-- Slot states (06 Table 6-3). -/
inductive SlotState where
  | empty | loaded | active | retiring | guard | dropping | exported
  deriving DecidableEq, Repr

/-- The number of a slot state. -/
def slotStateNum : SlotState → Nat
  | .empty => 0 | .loaded => 1 | .active => 2 | .retiring => 3 | .guard => 4 | .dropping => 5 | .exported => 6

/-- The slot state of a number below 7. -/
def slotStateOf : Nat → SlotState
  | 0 => .empty | 1 => .loaded | 2 => .active | 3 => .retiring | 4 => .guard | 5 => .dropping | _ => .exported

/-- Slice states (16 Table 16-5). -/
inductive SliceState where
  | absent | off | running | draining | drained | loading
  deriving DecidableEq, Repr

def sliceStateNum : SliceState → Nat
  | .absent => 0 | .off => 1 | .running => 2 | .draining => 3 | .drained => 4 | .loading => 5

/-- Where an input of the protect path enters (06 R230, 01 R36). -/
inductive InSrc where
  | client (k : PortIx)
  | recirc (lport : PortIx)
  | line (k : PortIx)
  deriving DecidableEq, Repr

/-- Instructions of the JTAG port, by name: the spec gives no codes (21 R727, R728). `debug`: any debug instruction. -/
inductive TapInstr where
  | bypass | idcode | sample | preload | extest | clamp | extestPulse | extestTrain | debug
  deriving DecidableEq, Repr

/-- What leaves the device, in the order sent. -/
inductive Output where
  /-- a frame on a port's pins: bytes without FCS, and whether the FCS sent is the right one (03 R139, 20 R695) -/
  | frame (d : Side) (s : SliceId) (k : PortIx) (bytes : Bytes) (fcsOk : Bool)
  /-- a MAC control frame that the device makes itself (02 R100) -/
  | control (s : SliceId) (k : PortIx) (bytes : Bytes)
  /-- a CTF frame as sent, scrambled (10 R384) -/
  | ctf (s : SliceId) (k : PortIx) (bytes : Bytes)
  /-- what the line lane of a CTF frame sends at its pins: PAM4 levels, 0 the lowest (02 R64-R66, 10 R385) -/
  | levels (s : SliceId) (k : PortIx) (symbols : List (BitVec 2))
  /-- the 66-bit blocks that an L1 client port sends for one tributary frame, before its clause's lane coding (10 R391) -/
  | client (s : SliceId) (k : PortIx) (blocks : List (BitVec 66))
  /-- a write to host memory (18) -/
  | dma (addr : BitVec 64) (bytes : Bytes)
  /-- an MSI-X vector of a function (18 R660) -/
  | msix (fn : InstId) (vec : Fin 8)
  /-- an Indigo message: type, sequence, epoch, body and tag (12 R471-R473) -/
  | indigo (type : Nat) (seq : Nat) (epoch : Nat) (body : Bytes) (tag : Bytes)
  /-- a voltage request on AVSBus, in mV (17 R623) -/
  | avs (s : SliceId) (mv : Nat)
  /-- bytes returned on SMBus (21 R724, R725) -/
  | smbus (bytes : Bytes)
  /-- TAP data of a JTAG instruction (21 R727) -/
  | jtag (bytes : Bytes)
  deriving DecidableEq, Repr

end Sys2Proof.Machine
end

