-- ==== Sys2Proof/Machine/SliceTypes.lean ====
section
/-!
DEFINITION. What one slice holds, block by block: lanes and ports (02), parser and classifier (03, 04), peer tables
(05), secure channels and slots (06, 08). Every field's default is its value at slice reset (17 R636).
-/
namespace Sys2Proof.Machine

/-! Lanes and ports (02). -/

/-- When an adaptive receiver loop froze, and under which SDS_RX_CTL in force (02 R87, R89): what names its held value. -/
structure LoopHold where
  draw : Nat
  at_ : Nat
  ctl : Word
  deriving DecidableEq, Repr

/-- One lane receiver and its status (02 R71-R77, R87-R89). -/
structure LaneSt where
  stage : LaneStage := .off
  /-- when the lane entered its step, in ns of ELAPSED (R67, R73) -/
  since : Nat := 0
  precodeDet : Bool := false
  /-- the receive setting in use is the opposite of the image's (R67) -/
  opposite : Bool := false
  mismatch : Bool := false
  eqAtLimit : Bool := false
  sigDet : Bool := false
  retries : BitVec 16 := 0
  /-- consecutive time-outs since the lane was last READY (R73) -/
  consec : Nat := 0
  beenReady : Bool := false
  /-- the loops CTLE, FFE, DFE and thresholds while they are frozen (R87) -/
  frozen : Vector (Option LoopHold) 4 := Vector.replicate 4 none
  deriving DecidableEq, Repr

/-- Output held by received PAUSE or PFC: the instant each priority's hold ends, in ns of ELAPSED (02 R105). -/
structure HoldSt where
  until_ : Vector (Option Nat) 8 := Vector.replicate 8 none
  deriving DecidableEq, Repr

/-- The line-port fault injector (02 R106-R113). -/
structure FiSt where
  armed : Bool := false
  /-- the record of the ARM has been written: frames are counted and selected from then on (R110) -/
  recorded : Bool := false
  /-- PCS_FI_CFG and PCS_FI_SEL as the ARM strobe took them (R110) -/
  cfg : Word := 0
  sel : Word := 0
  /-- frames with a SecTAG counted since arming (R107) -/
  seen : Nat := 0
  /-- frames acted on, saturating at 0xFF_FFFF -/
  acted : BitVec 24 := 0
  deriving DecidableEq, Repr

/-- A protected frame's crypto context, taken with the frame into its engine (01 R38, 06 Table 6-6). -/
structure Prot where
  ch : ChIx
  an : An
  pn : Nat
  key : Bytes
  h : Bytes
  salt : BitVec 96
  ssci : Word
  suite : Fin 4
  confOff : Nat
  encrypt : Bool
  /-- the SecTAG as built, its SL still 0 (06 Table 6-7) -/
  secTag : Bytes
  /-- the SCI of the nonce (06 R227, R240) -/
  sci : BitVec 64
  deriving DecidableEq, Repr

/-- A frame in the device on its way out: its bytes in the clear, where it came in, and what is still to be done. -/
structure EgrFrame where
  bytes : Bytes
  src : InSrc
  inst : InstId
  prio : Fin 8
  /-- none: sent in the clear -/
  prot : Option Prot
  /-- a rule or fragment decision of BYPASS or TIMESTAMP released it (20 R695) -/
  released : Bool
  /-- one-step correction asked for, with the byte offset of the PTP header and whether UDP stands before it (04 R164) -/
  tc : Option (Nat × Bool)
  /-- NS of NOW, and ELAPSED, at the input pin -/
  rxNs : Word
  rxEl : BitVec 96
  /-- the frame's end has come, and the line port has begun to send it (03 R137-R139) -/
  ended : Bool
  started : Bool
  /-- a memory error in one of its buffer cells, found or still to be found (20 R702) -/
  cellErr : Bool
  /-- host-injected or Saffron: never corrected (11 R442) -/
  injected : Bool := false
  /-- already protected and counted by the fault injector: sent as it stands (02 R112) -/
  raw : Bool := false
  /-- it is to end with its FCS inverted (03 R139) -/
  badFcs : Bool := false
  /-- its place among the frames of its input, by arrival (01 R34) -/
  order : Nat := 0
  /-- what its frame end is still to show: code, header offset and frame length that checks 4 and 7 ask for (03 R137) -/
  late : List (Nat × Nat × Nat) := []
  /-- TRUNCATED, to be counted at the frame end unless a late check makes the frame malformed (03 R149) -/
  trunc : Bool := false
  deriving DecidableEq, Repr

/-- A frame that waits for its frame end before it may leave: a protect-path frame that is not bound for protection
(03 R138). -/
structure WaitFrame where
  frame : EgrFrame
  /-- the parse result; none: the bytes so far did not complete the parse -/
  parse : Option Parse
  /-- the code and header offset of a check that the parse has already failed (03 R133) -/
  mal : Option (Nat × Nat)
  /-- what to do at the end if every check passes, and the punt reason and rule of Table 18-8 -/
  dec : Decision
  reason : Nat
  rule : Option Nat
  /-- classifier counters that the frame moves only if it leaves by its action (04 Table 4-6) -/
  cnts : List Nat
  deriving DecidableEq, Repr

/-- A verify-path frame held in an engine: what first pass and slot selection gave (06 Table 6-8). -/
structure VFrame where
  bytes : Bytes
  port : PortIx
  ver : BitVec 16
  inst : InstId
  ch : ChIx
  an : An
  pn : Nat
  key : Bytes
  h : Bytes
  salt : BitVec 96
  ssci : Word
  suite : Fin 4
  confOff : Nat
  sci : BitVec 64
  tci : Byte
  /-- where the SecTAG begins -/
  tagOff : Nat
  /-- the PN field, and whether the SecTAG carries an SCI -/
  pn32 : Word
  secTagLen : Nat
  sl : Nat
  rxNs : Word
  rxEl : BitVec 96
  cellErr : Bool
  order : Nat
  deriving DecidableEq, Repr

/-- A frame in the recirculation queue (04 R176, 03 R128). -/
structure RecFrame where
  bytes : Bytes
  lport : PortIx
  ver : BitVec 16
  inst : InstId
  rcp : Fin 16
  rxCh : Option ChIx
  rxNs : Word
  rxEl : BitVec 96
  order : Nat
  deriving DecidableEq, Repr

/-- A line-port frame held back by the fault injector (02 Table 2-6 HOLD): the frame as it would have gone on. -/
inductive HeldFrame where
  | tx (f : EgrFrame)
  | rx (f : RxFrame)
  deriving DecidableEq, Repr

/-- A client port's flow control (02 R98-R104). -/
structure FlowSt where
  xoff : Bool := false
  pfcXoff : BitVec 8 := 0
  /-- the last 16 response times, ns, newest first; the headroom in force -/
  resp : List Nat := []
  headroom : Option Nat := none
  /-- a response is being measured; the instant of the next repeat of R100, in ns of ELAPSED -/
  measuring : Bool := false
  nextRep : Nat := 0
  deriving DecidableEq, Repr

/-- One port of either side. -/
structure PortSt where
  /-- local-fault and remote-fault ordered sets being received (R79) -/
  localFault : Bool := false
  remoteFault : Bool := false
  hiBer : Bool := false
  deskewFail : Bool := false
  /-- enabled under R53 -/
  enabled : Bool := false
  /-- the egress guard has put the port in Umber until its reset (20 R695) -/
  guardTrip : Bool := false
  hold : HoldSt := {}
  /-- frames dropped at a down or Umber port; outside the length limits or with a bad FCS; at full occupancy (R78, R96, R101) -/
  downDrops : Nat := 0
  macDrops : Nat := 0
  fcDrops : Nat := 0
  flow : FlowSt := {}
  fi : FiSt := {}
  /-- until when a launched frame and its gap fill the wire, in 2⁻³² ns of ELAPSED (11 R454) -/
  wireUntil : Nat := 0
  /-- frames held by the injector, oldest first: further frames to pass, and the instant 1 ms ends, in ns of ELAPSED -/
  fiHeld : List (HeldFrame × Nat × Nat) := []
  queue : List EgrFrame := []
  deriving DecidableEq, Repr

/-! Classifier (04). -/

/-- One rule entry; a free entry is not stored (04 R154, R168, RDATA words 32-35). -/
structure RuleEnt where
  value : BitVec 512
  mask : BitVec 512
  prio : BitVec 16
  addVer : BitVec 16
  delVer : BitVec 16
  addDone : Bool
  retired : Bool
  /-- RDATA word 34: action, TC, QUEUE, RCP, LPM_INNER, MISS -/
  act : Word
  chan : ChIx
  /-- a memory word of the entry is uncorrectable (20 R702) -/
  bad : Bool := false
  deriving DecidableEq, Repr

/-- A fragment-table key (04 R179). -/
structure FragKey where
  dir : Side
  inst : InstId
  src : BitVec 128
  dst : BitVec 128
  proto : Byte
  fragId : Word
  deriving DecidableEq, Repr

/-- A fragment-table entry (04 R179-R183); `expires` in ns of ELAPSED. -/
structure FragEnt where
  key : FragKey
  dec : Decision
  /-- a rule made the decision, and no default action -/
  byRule : Bool
  expires : Nat
  bad : Bool := false
  deriving DecidableEq, Repr

/-! Peer tables (05). -/

/-- The key of a MAC peer table entry. -/
structure MacKey where
  inst : InstId
  vid : BitVec 12
  mac : BitVec 48
  deriving DecidableEq, Repr

/-- A MAC peer table entry (05 Table 5-1, the entry image). -/
structure MacEnt where
  key : MacKey
  static_ : Bool
  hold : Bool
  lport : PortIx
  chan : ChIx
  age : BitVec 12
  mstamp : BitVec 10
  /-- key and result parity good (R191) -/
  parOk : Bool := true
  deriving DecidableEq, Repr

/-- An LPM entry (05 R205). -/
structure LpmEnt where
  inst : InstId
  v4 : Bool
  addr : BitVec 128
  plen : Nat
  lport : PortIx
  chan : ChIx
  keyOk : Bool := true
  resOk : Bool := true
  deriving DecidableEq, Repr

/-- A queued learn (05 R193). -/
structure Learn where
  key : MacKey
  chan : ChIx
  lport : PortIx
  deriving DecidableEq, Repr

/-- A change of the MAC table on its way to both packages (05 R219). -/
inductive MacChange where
  | install (ix : Nat) (e : MacEnt)
  | move (ix : Nat) (e : MacEnt)
  | remove (ix : Nat) (k : MacKey)
  deriving DecidableEq, Repr

/-! Secure channels and association slots (06, 08). -/

/-- A 64-bit counter of Table 6-11: on-chip part and DRAM backing value (19 R675). -/
structure Ctr where
  chip : BitVec 32 := 0
  back : BitVec 64 := 0
  deriving DecidableEq, Repr

/-- An association slot (06 Table 6-2). PN, RES and FLOOR are numbers: NEXT_PN may be one above the last PN of a
64-bit suite. `due` is the end of the window the slot is in, in ns of ELAPSED (08 R323). -/
structure Slot where
  state : SlotState := .empty
  key : Bytes := []
  h : Bytes := []
  salt : BitVec 96 := 0
  ssci : Word := 0
  pn : Nat := 0
  res : Nat := 0
  floor : Nat := 0
  keySrc : Bool := false
  node : Nat := 0
  /-- the node that SOURCE names is gone: one that comes to its index later is another (07 R300, R307) -/
  orphan : Bool := false
  exhausted : Bool := false
  rekeyReq : Bool := false
  jidx : Nat := 0
  due : Option Nat := none
  /-- a reservation for the next block has been requested (09 R349) -/
  resPend : Bool := false
  /-- the reservation that R350 asks for once the outstanding one has applied; 0 none -/
  resWant : Nat := 0
  /-- the key is a direct leaf (07 R292) -/
  leaf : Bool := false
  /-- a slot word is uncorrectable (06 R264) -/
  bad : Bool := false
  deriving DecidableEq, Repr

/-- A change of slot state waiting for the channel's next frame boundary (06 R266, 08 R335). -/
inductive SlotChange where
  | activate (an : An)
  | retire (an : An)
  | clear (an : An)
  deriving DecidableEq, Repr

/-- A channel record (06 Table 6-1, 08 R320). -/
structure ChRec where
  valid : Bool := false
  dirRx : Bool := false
  suite : Fin 4 := 0
  confOff : BitVec 2 := 0
  encrypt : Bool := false
  incSci : Bool := false
  useEs : Bool := false
  validate : BitVec 2 := 0
  replayEn : Bool := false
  learnEn : Bool := false
  priv : Bool := false
  fragMissSlow : Bool := false
  encAn : Option An := none
  bind : BitVec 4 := 0
  inst : InstId := 0
  replayWindow : Word := 0
  sci : BitVec 64 := 0
  eccFail : Bool := false
  learnTx : ChIx := 0
  epochMode : Bool := false
  timeEn : Bool := false
  timer : Fin 8 := 0
  pnEn : Bool := false
  pnShift : BitVec 5 := 0
  lcProf : Fin 4 := 0
  preErr : Bool := false
  parent : BitVec 17 := 0
  epoch : Word := 0
  pnThr : Word := 0
  slots : Vector Slot 4 := Vector.replicate 4 {}
  /-- changes waiting for the next frame boundary, in order -/
  pend : List SlotChange := []
  /-- the ACTIVE slot's missed PN threshold has been counted (08 R314) -/
  thrMissed : Bool := false
  /-- a word of the record is uncorrectable (06 R264) -/
  bad : Bool := false
  deriving DecidableEq, Repr

/-- An SCI hash entry (06 R228). -/
structure SciEnt where
  sci : BitVec 64
  ch : ChIx
  bad : Bool := false
  deriving DecidableEq, Repr

/-- A switch timer (08 R333). -/
structure SwTimer where
  time : Word := 0
  lead : BitVec 16 := 0
  armed : Bool := false
  rxFired : Bool := false
  deriving DecidableEq, Repr

end Sys2Proof.Machine
end

