-- ==== Sys2Proof/Machine/DeviceTypes.lean ====
section
/-!
DEFINITION. What the shared device blocks hold (01 Table 1-7): image and start-up, power, host interface, instances,
twin unit, tamper unit and log, key tree, journal, time base and Saffron, statistics. Defaults are reset values.
-/
namespace Sys2Proof.Machine

/-! Image (16). -/

/-- One lane as a SLICE section sets it (16 Table 16-1). -/
structure LaneCfg where
  enabled : Bool := false
  rate : Fin 8 := 0
  ctf : Bool := false
  tilora : Bool := false
  precTx : Bool := false
  precRx : Bool := false
  polTx : Bool := false
  polRx : Bool := false
  ffe : Word := 0
  deriving DecidableEq, Repr

/-- One port as a SLICE section sets it; `width` is the code 0-3 of PCS_PORT_CFG. -/
structure PortCfg where
  enabled : Bool := false
  width : Fin 4 := 0
  speed : Fin 16 := 0
  fec : Fin 4 := 0
  l1 : Bool := false
  pair : PortIx := 0
  paired : Bool := false
  faultProp : Bool := false
  deriving DecidableEq, Repr

/-- One slice's structure. -/
structure SliceCfg where
  enabled : Bool := false
  cLanes : Vector LaneCfg 8 := Vector.replicate 8 {}
  lLanes : Vector LaneCfg 8 := Vector.replicate 8 {}
  cPorts : Vector PortCfg 8 := Vector.replicate 8 {}
  lPorts : Vector PortCfg 8 := Vector.replicate 8 {}
  deriving DecidableEq, Repr

/-- What an image's sections say (16 Table 16-1). The layout of a section's content is the Image Builder's own, so the
content comes with the bytes (log entry 8). `slices` holds the SLICE sections of a full image; a partial image uses the
one its header names. -/
structure ImgContent where
  ni : Nat := 1
  twin : Bool := false
  spn : BitVec 16 := 0
  sMac : BitVec 64 := 0
  sSci : BitVec 64 := 0
  cap : BitVec 2 := 0
  dramRate : BitVec 3 := 0
  dramRanks : Bool := false
  /-- TL0-TL3 (12 R463) -/
  twinLanes : Vector LaneCfg 4 := Vector.replicate 4 { rate := 5 }
  slices : Vector SliceCfg 4 := Vector.replicate 4 {}
  caseEn : BitVec 8 := 0
  loopEn : BitVec 16 := 0
  loopPrbs : BitVec 16 := 0
  iMin : Vector (BitVec 12) 16 := Vector.replicate 16 0
  iMax : Vector (BitVec 12) 16 := Vector.replicate 16 1
  resp : Vector (Fin 4) 30 := Vector.replicate 30 0
  /-- reset values of RW fields: register address and word -/
  defaults : NMap Word := []
  /-- key hashes for slots 0-3 that ADD_KEYS may fuse -/
  keys : List (Fin 4 × Bytes) := []
  /-- the content of every section can be read; the framing of the sections stands in the image's bytes (16 R596) -/
  formOk : Bool := true
  deriving DecidableEq, Repr

/-- An image as a source returns it. `present` 0: the source holds no image; `readErr`: an uncorrectable read. -/
structure ImageSrc where
  present : Bool := false
  readErr : Bool := false
  bytes : Bytes := []
  content : ImgContent := {}
  deriving DecidableEq, Repr

/-- One key-hash fuse slot (16 R598). -/
structure KeyFuse where
  hash : Bytes := []
  programmed : Bool := false
  revoked : Bool := false
  deriving DecidableEq, Repr

/-- Fuses (00 R2, 07 R301, R305, 16 R598). -/
structure Fuses where
  /-- ZLN-4832: slices 0-3; otherwise ZLN-4816: slices 0-1 -/
  is4832 : Bool := true
  dus : Bytes := List.replicate 32 0
  debugNever : Bool := false
  keys : Vector KeyFuse 4 := Vector.replicate 4 {}
  svn : Nat := 0
  deriving DecidableEq, Repr

/-- IMG_STAT.STATE (16). -/
inductive ImgState where
  | loading | noImage | verified | running
  deriving DecidableEq, Repr

/-- The image unit (16). -/
structure ImgSt where
  state : ImgState := .loading
  source : Fin 4 := 0
  /-- check results: preferred slot, other slot, QSPI, download; 0 not tried (16 Table 16-3) -/
  res : Vector (Fin 16) 4 := Vector.replicate 4 0
  content : ImgContent := {}
  keyIndex : Fin 4 := 0
  svn : Nat := 0
  buildId : Word := 0
  runHash : Bytes := List.replicate 48 0
  sl : Vector SliceState 4 := Vector.replicate 4 .off
  drainUntil : Vector Nat 4 := Vector.replicate 4 0
  powerOff : Vector Bool 4 := Vector.replicate 4 false
  loadUntil : Vector Nat 4 := Vector.replicate 4 0
  /-- a partial image read and being checked: slice and image (SLICE_LOAD to SLICE_LOAD_CHECKED) -/
  checking : Option (SliceId × ImageSrc) := none
  /-- the image that the host buffer holds for the command in hand of IMG_CMD, and of IMG_SLICE_CMD -/
  inHand : ImageSrc := {}
  inHandPart : ImageSrc := {}
  drainDiscard : BitVec 16 := 0
  deriving DecidableEq, Repr

/-! Power (17). -/

/-- One slice rail's voltage loop (17 R623-R626). -/
structure AvsSt where
  requested : BitVec 10 := 750
  reported : BitVec 10 := 0
  slack : BitVec 5 := 0
  emergUntil : Option Nat := none
  failUntil : Option Nat := none
  deriving DecidableEq, Repr

/-- One engine pool: engines by state (01 R44-R49, 17 R628). `lowSince`: load below DOWN_THR since. -/
structure PoolSt where
  inPool : Nat := 0
  rising : Nat := 0
  draining : Nat := 0
  failed : Nat := 0
  load : BitVec 7 := 0
  lowSince : Option Nat := none
  deriving DecidableEq, Repr

/-! Host interface (18). -/

/-- One event ring (18 R655-R657). -/
structure EvtRing where
  en : Bool := false
  run : Bool := false
  head : BitVec 16 := 0
  tail : BitVec 16 := 0
  phase : Bool := true
  overflow : Bool := false
  lost : Word := 0
  lostSince : Nat := 0
  nextFire : Nat := 0
  held : Bool := false
  deriving DecidableEq, Repr

/-- An inject descriptor as read from host memory (18 Table 18-6). -/
structure InjDesc where
  bufAddr : BitVec 64
  length : BitVec 16
  sliceNo : SliceId
  port : PortIx
  ltEn : Bool
  sendLate : Bool
  launchNs : Word
  cookie : BitVec 64
  deriving DecidableEq, Repr

/-- What becomes of the inject descriptor in hand: its frame is being copied; it is held at the head of the ring (13
R509); the mirror has forwarded it with its frame (11 R458). -/
inductive HandPhase where
  | copying | held | forwarded
  deriving DecidableEq, Repr

/-- An inject descriptor in hand, with the frame that the read returned. -/
structure InjHand where
  desc : InjDesc
  bytes : Bytes
  phase : HandPhase
  deriving DecidableEq, Repr

/-- One punt or inject ring (18 R662-R668). -/
structure RingSt where
  en : Bool := false
  run : Bool := false
  result : BitVec 2 := 0
  err : Bool := false
  head : BitVec 16 := 0
  nextFire : Nat := 0
  held : Bool := false
  /-- the inject descriptor in hand (18 R663) -/
  hand : Option InjHand := none
  deriving DecidableEq, Repr

/-! Instances (13). -/

inductive InstState where
  | disabled | enabled | quiescing | quiesced | frozen
  deriving DecidableEq, Repr

/-- The shares of one instance in one slice (13 Table 13-1). -/
structure Share where
  cells : Nat := 0
  weight : Nat := 1
  assocs : Nat := 0
  channels : Nat := 0
  rules : Nat := 0
  deriving DecidableEq, Repr

/-- One instance (13). -/
structure InstSt where
  state : InstState := .disabled
  shares : Vector Share 4 := Vector.replicate 4 {}
  calendar : Nat := 0
  shrinking : Vector Bool 4 := Vector.replicate 4 false
  quiesceUntil : Nat := 0
  /-- a function-level reset waits for QUIESCED (13 R519) -/
  flrPend : Bool := false
  pending : Bool := false
  respReady : Bool := false
  overrun : Bool := false
  /-- the copy of the request in the PF mailbox of this instance (13 R499) -/
  mbox : List Word := List.replicate 16 0
  /-- VF counters of 19 Table 19-4 and the latched high word -/
  vfCnt : Vector (BitVec 64) 8 := Vector.replicate 8 0
  vfLatch : Vector Word 8 := Vector.replicate 8 0
  rings : Vector RingSt 16 := Vector.replicate 16 {}
  /-- the inject ring that was served last (18 R665) -/
  injLast : Fin 16 := 15
  /-- set by a RESTORE: the instant from which the window time of its slots stands still until THAW (R525) -/
  restoredAt : Option Nat := none
  deriving DecidableEq, Repr

/-! Key tree (07). -/

/-- A node record (07 Table 7-1); USERS and CHILDREN are counted. -/
structure Node where
  key : Bytes
  mordant : Bytes
  root : Bool
  cinnabar : Bool
  type : Fin 8
  depth : Fin 8
  leafType : Fin 8
  parent : Nat
  owner : InstId
  kcv : Bytes
  bad : Bool := false
  deriving DecidableEq, Repr

/-- The key tree (07). -/
structure KtrSt where
  nodes : NMap Node := []
  fpKey : Bytes := List.replicate 32 0
  macKey : Bytes := List.replicate 32 0
  /-- the node a capsule SAVE or RESTORE in progress uses -/
  capNode : Option Nat := none
  deriving DecidableEq, Repr

/-! Journal (09). -/

/-- A journal record (09 Table 9-5). -/
structure JRec where
  seq : BitVec 56
  tomb : Bool
  kind : Fin 16
  fp : Bytes
  value : Nat
  deriving DecidableEq, Repr

/-- What a record is written for; a tributary is named by 256 k + i. -/
inductive JUse where
  /-- a reservation for an association slot or tributary key position: the requested RES (R349, R350) -/
  | reserveSlot (s : SliceId) (ch : ChIx) (an : An) (req : Nat)
  | reserveTrib (s : SliceId) (t : Nat) (pos : Fin 2) (tx : Bool) (req : Nat)
  /-- an installation with the slot as it will be: `src` 0 SA_LOAD, 1 pre-install, 2 ARC_LOAD, 3 RESTORE -/
  | load (src : Fin 4) (s : SliceId) (ch : ChIx) (an : An) (slot : Slot)
  /-- one of the two records of a tributary INSTALL: kind 3 (`tx`) or 4 (10 R396) -/
  | install (s : SliceId) (t : Nat) (pos : Fin 2) (tx : Bool)
  /-- a tombstone of R360, of DESTROY, of TOMB_DORMANT -/
  | tombAuto
  | destroy
  | tombDormant
  /-- the record of a slot that the resynchronisation stream has set (R358) -/
  | adopt (s : SliceId) (ch : ChIx) (an : An)
  /-- one of the two records of a tributary key that the stream has set -/
  | adoptTrib (s : SliceId) (t : Nat) (pos : Fin 2) (tx : Bool)
  /-- its slot or tributary has left its last user state (R351) -/
  | dropped
  deriving DecidableEq, Repr

/-- A request to the journal: the record wanted (SEQ is given when it is written) and its use. -/
structure JReq where
  cls : Fin 3
  kind : Fin 16
  tomb : Bool
  fp : Bytes
  value : Nat
  use : JUse
  tries : Nat := 0
  deriving DecidableEq, Repr

/-- The journal (09). `index` maps a ring position to the held record there. -/
structure JnlSt where
  ready : Bool := false
  damaged : Bool := false
  acked : Bool := false
  closed : Bool := false
  index : NMap JRec := []
  head : Nat := 0
  nextSeq : BitVec 56 := 1
  failingSince : Option Nat := none
  /-- how often a ring position has failed since the last power-on reset (R371) -/
  badPos : NMap Nat := []
  reqs : List JReq := []
  /-- a record that has failed its read-back and is written again with this SEQ (R371) -/
  writing : Option (JReq × BitVec 56) := none
  /-- committed reservations that wait for the step-epoch boundary (R351) -/
  applies : List JUse := []
  /-- a write that was in progress as a tamper record came has ended: until that record is written no other starts (15 R579;
  log entry 157) -/
  passed : Bool := false
  /-- a record of the TOMB_DORMANT in progress has failed twice -/
  tombFail : Bool := false
  deriving DecidableEq, Repr

/-- A RESTORE whose slots are being journalled (13 R524, R525): target, WRAP node, the capsule's records with section
number and type, how many journal records are missing, and the slots whose records are committed. -/
structure RestoreSt where
  inst : InstId
  node : Nat
  recs : List (Nat × Nat × Bytes)
  left : Nat
  slots : List (SliceId × ChIx × An × Slot) := []
  deriving DecidableEq, Repr

/-! Tamper unit and log (15). -/

/-- A Verdigris record before it is written (15 Table 15-6), without SEQ, BOOT and CHAIN. -/
structure LogRec where
  bootNs : BitVec 64
  tsuNs : Word
  source : Fin 256
  flags : Byte
  groupSize : Byte
  groupIndex : Byte
  detail : Bytes
  /-- the injector whose ARM the record is of: port, and whether it is that of a CTF lane (02 R110, 10 R421) -/
  armOf : Option (SliceId × PortIx × Bool) := none
  /-- the first record of a group whose response is ZEROISE (15 R576) -/
  zeroise : Bool := false
  deriving DecidableEq, Repr

/-- One tamper source (15 R570, R580). -/
structure TmpSrc where
  /-- its cause is present, or has not been absent for 1 ms -/
  present : Bool := false
  /-- the one detector that reports its trip, 0 A and 1 B, and since when; none where neither does, or both (R569) -/
  alone : Option (Fin 3 × Nat) := none
  /-- its SQUELCH is in force -/
  squelching : Bool := false
  /-- the second of ELAPSED it last alarmed in, its alarms of that second, and those that wrote no record (R580) -/
  secStart : Nat := 0
  secCount : Nat := 0
  suppressed : Nat := 0
  deriving DecidableEq, Repr

/-- The tamper unit (15). -/
structure TmpSt where
  resp : Vector (Fin 4) 30 := Vector.replicate 30 0
  locked : Bool := false
  checked : Bool := false
  squelched : Bool := false
  inForce : Fin 4 := 0
  src : Vector TmpSrc 30 := Vector.replicate 30 {}
  /-- the instant of a ZEROISE that waits for the first record of its group, in ns of ELAPSED; its clearing has begun -/
  zeroisePend : Option Nat := none
  zeroising : Bool := false
  delays : Vector (BitVec 5) 16 := Vector.replicate 16 0
  seeds : Vector (BitVec 15) 16 := Vector.replicate 16 0
  deriving DecidableEq, Repr

/-- The evidence log (15). `queue`: records to be written, in order. -/
structure EvlSt where
  ready : Bool := false
  head : Nat := 0
  nextSeq : Word := 0
  queue : List LogRec := []
  /-- how often the record at the front has failed its read-back: two tries a position (R586) -/
  tries : Nat := 0
  /-- an APPEND waits for its record -/
  appendPend : Bool := false
  deriving DecidableEq, Repr

/-! Time base and Saffron (11). -/

/-- A held Saffron frame (11 R448-R450); `stage` none: in DRAM. -/
inductive SafStage where
  | dram | staged | parsed | accessed
  deriving DecidableEq, Repr

structure SafFrame where
  inst : InstId
  s : SliceId
  k : PortIx
  launch : Word
  sendLate : Bool
  bytes : Bytes
  stage : SafStage
  /-- the frame after classification and slot access, bound for this line port -/
  out : Option (PortIx × EgrFrame)
  /-- its channel while it waits for the slot access -/
  chan : Option (ChIx × Bool)
  order : Nat
  /-- the descriptor and the cells of the Saffron store that hold it (14 R540) -/
  desc : Nat := 0
  cells : List Nat := []
  deriving DecidableEq, Repr

/-- The time base (11). -/
structure TsuSt where
  now : BitVec 64 := 0
  elapsed : BitVec 96 := 0
  ticks : Nat := 0
  slewLeft : Nat := 0
  slewInc : BitVec 64 := 0
  /-- ABORT has been written: the slew ends at the next tick (R433) -/
  abort : Bool := false
  fracLatch : Word := 0
  stepPend : Option (Bool × BitVec 64) := none
  ppsCapNs : Word := 0
  ppsCapFrac : Word := 0
  ppsEdges : BitVec 16 := 0
  ppsIgnored : BitVec 16 := 0
  ppsLast : Option Nat := none
  /-- an accepted edge of PPS_IN waits for the next tick (R438) -/
  ppsPend : Bool := false
  ppsOutHigh : Bool := false
  ppsFallAt : Nat := 0
  deriving DecidableEq, Repr

/-! Twin unit (12). -/

inductive TwinState where
  | off | start | alone | syncing | standby | active | halted
  deriving DecidableEq, Repr

/-- The items of a HELLO body (12 Table 12-5), as sent by the partner. -/
structure Hello where
  runHash : Bytes
  devid : Word
  debug : Bool
  twinState : TwinState
  rootValid : BitVec 16
  rootKcv : Bytes
  linkNode : Nat
  linkKcv : Bytes
  rand : Bytes
  deriving DecidableEq, Repr

/-- The digests of one epoch: client ports, line ports, and host traffic of each slice (12 R481). -/
structure DigestSet where
  cl : Vector (BitVec 64) 32 := Vector.replicate 32 0
  ll : Vector (BitVec 64) 32 := Vector.replicate 32 0
  host : Vector (BitVec 64) 4 := Vector.replicate 4 0
  deriving DecidableEq, Repr

end Sys2Proof.Machine
end

