-- ==== Sys2Proof/Machine/BulkTypes.lean ====
section
/-!
DEFINITION. What the CTF path and TSI of a slice hold (10), what the memory encryption engine and DDR5 controller hold
(14), the counters of the PMU (19), and the twin unit (12). Defaults are reset values.
-/
namespace Sys2Proof.Machine

/-! CTF and TSI (10). -/

/-- Key position states (10 Table 10-4). -/
inductive PosState where
  | empty | loaded | inUse | revoked
  deriving DecidableEq, Repr

/-- A key position of a tributary (10 R395-R398): S and RES of kind 3, next accepted count and RES of kind 4. -/
structure KeyPos where
  state : PosState := .empty
  an : An := 0
  key : Bytes := []
  h : Bytes := []
  node : Nat := 0
  /-- that node is gone (07 R300, R307) -/
  orphan : Bool := false
  txStart : Nat := 0
  txRes : Nat := 0
  rxNext : Nat := 0
  rxRes : Nat := 0
  txPend : Bool := false
  rxPend : Bool := false
  txWant : Nat := 0
  rxWant : Nat := 0
  /-- the start of kind 3 exceeded its request, and the lane has still to jump (R397) -/
  jump : Bool := false
  txIdx : Nat := 0
  rxIdx : Nat := 0
  deriving DecidableEq, Repr

/-- Performance monitoring of a lane or tributary (10 R418-R420): errored blocks and defect of the second in progress,
seconds that ended and are not yet classified, and availability. -/
structure PerfSt where
  eb : Word := 0
  es : Word := 0
  ses : Word := 0
  uas : Word := 0
  curEb : Nat := 0
  curDefect : Bool := false
  /-- ended seconds, oldest first: errored blocks, defect, end in ns of ELAPSED -/
  hist : List (Nat × Bool × Nat) := []
  unavail : Bool := false
  deriving DecidableEq, Repr

/-- A receive slip buffer (10 R408): waiting frames with their arrival in ns of ELAPSED, oldest first; a frame that Umber
fill replaces is none (log entry 17). -/
structure SlipSt where
  frames : List (Option Bytes × Nat) := []
  started : Bool := false
  last : Option Bytes := none
  deriving DecidableEq, Repr

/-- A tributary (10 R388, R395, R411, TSI_TRIB_DATA). -/
structure TribSt where
  cport : PortIx := 0
  inst : InstId := 0
  txLabel : Byte := 0
  expLabel : Byte := 0
  tribId : BitVec 16 := 0
  salt : BitVec 96 := 0
  node : Nat := 0
  pos : Vector KeyPos 2 := Vector.replicate 2 {}
  txPos : Option (Fin 2) := none
  rxPos : Option (Fin 2) := none
  /-- the AN last sent, kept during Umber fill (R398) -/
  lastAn : An := 0
  /-- an INSTALL in progress: position, the key position as it will be, and which of its records are not committed yet -/
  installing : Option (Fin 2 × KeyPos × Bool × Bool) := none
  /-- TX_POS moves at the first multiframe boundary at or above this frame count (R399) -/
  switchFc : Option Nat := none
  /-- revocation takes effect at the tributary's next frame (R402) -/
  revoke : Vector Bool 2 := Vector.replicate 2 false
  /-- label receiver: last label and slot count, times in a row, and the accepted pair (R411) -/
  labSeen : Option (Byte × Byte) := none
  labCount : Nat := 0
  /-- the frame count with which the last label came -/
  labFc : Nat := 0
  labAcc : Option (Byte × Byte) := none
  slip : SlipSt := {}
  perf : PerfSt := {}
  nSlip : Word := 0
  nTagFail : Word := 0
  nNoKey : Word := 0
  nReplay : Word := 0
  nUnres : Word := 0
  deriving DecidableEq, Repr

/-- A pending frame count jump (10 R397): J, the transmit reservation that it needs, and the positions whose record of it must
still commit. -/
structure JumpSt where
  target : Nat
  need : Nat
  waits : List (Nat × Fin 2)
  deriving DecidableEq, Repr

/-- Where a lane transmitter stands in its code (02 R66, 10 R385): message bits that do not fill a codeword yet, and the last
precoded symbol; none: the precoder has sent nothing since reset. -/
structure LineCode where
  bits : List Bool := []
  last : Option (BitVec 2) := none
  deriving DecidableEq, Repr

/-- A CTF lane (10). -/
structure CtfLaneSt where
  fc : BitVec 56 := 0
  rxFc : BitVec 56 := 0
  txPhase : Bool := false
  rxPhase : Bool := false
  lock : Bool := false
  /-- frames received since frame lock -/
  good : Nat := 0
  badFaw : Nat := 0
  /-- frames in a row whose FAW was found while the lane seeks frame lock, and when it began to (R386) -/
  goodFaw : Nat := 0
  seekAt : Nat := 0
  /-- superframes in a row without their alignment marker (R386) -/
  noMarker : Nat := 0
  lof : Bool := false
  rdiRx : Bool := false
  mapMis : Nat := 0
  traceBuf : Option Bytes := none
  traceCand : Bytes := []
  traceCount : Nat := 0
  traceAcc : Option Bytes := none
  traceTx : Bytes := List.replicate 64 0x20
  jump : Option JumpSt := none
  code : LineCode := {}
  bipTx : Word := 0
  bipRx : Word := 0
  fi : FiSt := {}
  swapFc : Option Nat := none
  perf : PerfSt := {}
  fcLatch : Word := 0
  rxLatch : Word := 0
  deriving DecidableEq, Repr

/-- One connection memory of one lane: active and standby page; a slot that is not stored is unassigned, 0xFF
(log entry 4). -/
structure TsiMem where
  active : NMap Nat := []
  standby : NMap Nat := []
  deriving DecidableEq, Repr

/-- CTF and TSI of a slice (10). `trib` is keyed by 256 k + i. -/
structure CtfSt where
  lanes : Vector CtfLaneSt 8 := Vector.replicate 8 {}
  tx : Vector TsiMem 8 := Vector.replicate 8 {}
  rx : Vector TsiMem 8 := Vector.replicate 8 {}
  trib : NMap TribSt := []
  /-- blocks of each client port, collected and not yet carried (R388, R390) -/
  blocks : Vector (List (BitVec 66)) 8 := Vector.replicate 8 []
  swapPend : Bool := false
  /-- frame timing correction still to be made, in ps (R409, R410) -/
  corr : Int := 0
  /-- all corrections made so far, in ps -/
  phase : Int := 0
  alignArmed : Bool := false
  lastOff : BitVec 14 := 0
  ignored : BitVec 16 := 0
  secStart : Nat := 0
  deriving DecidableEq, Repr

/-! MEE and DRC (14). -/

/-- An archive entry (14 R559). -/
structure ArcEnt where
  inst : InstId
  dirRx : Bool
  suite : Fin 4
  key : Bytes
  salt : BitVec 96
  ssci : Word
  pn : Nat
  deriving DecidableEq, Repr

/-- A tree node in the counter cache: the counters of its eight children, and whether it differs from DRAM. -/
structure NodeLine where
  ctrs : List (BitVec 56) := List.replicate 8 0
  dirty : Bool := false
  deriving DecidableEq, Repr

/-- A line in the write-back cache: its plaintext as far as written, and which bytes are. -/
structure WbLine where
  bytes : Bytes := List.replicate 64 0
  mask : BitVec 64 := 0
  deriving DecidableEq, Repr

/-- The MEE and the DRC (14). -/
structure MeeSt where
  ready : Bool := false
  km : Bytes := List.replicate 32 0
  hm : Bytes := List.replicate 16 0
  root : NMap (BitVec 56) := []
  /-- the counter cache, by physical line of the node -/
  cache : NMap NodeLine := []
  /-- the write-back cache, by data line -/
  wb : NMap WbLine := []
  /-- stored lines by physical line number, 64 bytes each; a line that is not stored holds what was there before -/
  dram : NMap Bytes := []
  /-- when a line was last written, in ns of ELAPSED (R547) -/
  lastWrite : NMap Nat := []
  /-- the bytes that the last read released to its requester -/
  lastRead : Bytes := []
  /-- results that twin mode holds back until their release epoch: epoch, line, bytes (R552) -/
  held : List (Nat × Nat × Bytes) := []
  arc : NMap ArcEnt := []
  trained : Bool := false
  trainFail : BitVec 4 := 0
  /-- bit 2 × subchannel + rank: above 85 °C (R534) -/
  hot : BitVec 8 := 0
  /-- tries each subchannel has had (R533) -/
  tries : Vector Nat 4 := Vector.replicate 4 0
  failWord : Word := 0
  failLine : Word := 0
  /-- lines corrected per position in the window in progress: key subchannel, rank, position (R555) -/
  suspects : NMap (List Nat) := []
  suspectSec : Nat := 0
  suspectAt : NMap Nat := []
  retrainAt : Nat := 0
  deriving DecidableEq, Repr

/-! PMU (19). -/

/-- Bandwidth counts of one port and direction in one window (19 R679, R680). -/
structure BwCnt where
  oct : Nat := 0
  fr : Nat := 0
  subOct : Nat := 0
  subFr : Nat := 0
  pkOct : Nat := 0
  pkFr : Nat := 0
  deriving DecidableEq, Repr

/-- The slice performance counters (19 R682). -/
structure PcSt where
  cyc : BitVec 64 := 0
  cnt : Vector (BitVec 48) 8 := Vector.replicate 8 0
  run : Bool := false
  ovf : BitVec 8 := 0
  cycLatch : Word := 0
  pcLatch : Vector Word 8 := Vector.replicate 8 0
  deriving DecidableEq, Repr

/-- A snapshot being taken (19 R670-R673). -/
structure SnapSt where
  vals : NMap (BitVec 64)
  ns : Word
  el : BitVec 64
  deriving DecidableEq, Repr

/-- The PMU (19). -/
structure PmuSt where
  acc : NMap (BitVec 64) := []
  prev : NMap Word := []
  visible : NMap (BitVec 64) := []
  taking : Option SnapSt := none
  /-- when the next scheduled snapshot is due, in ns of ELAPSED -/
  nextAt : Nat := 100000000
  bw : NMap BwCnt := []
  bwLatched : NMap BwCnt := []
  winStart : Nat := 0
  subStart : Nat := 0
  pc : Vector PcSt 4 := Vector.replicate 4 {}
  deriving DecidableEq, Repr

/-! Twin unit (12). -/

/-- The header fields of an Indigo message that the receiver uses (12 R471). -/
structure MsgHdr where
  flags : Byte
  seq : BitVec 64
  epoch : Word
  tag : Bytes
  deriving DecidableEq, Repr

/-- What the mirror forwards: a write, or an inject descriptor with its frame and NS of NOW at its read (11 R447, 12 R478, R479). -/
inductive MirOp where
  | write (addr : Nat) (value : Word)
  | inject (i : InstId) (r : Fin 16) (x : InjDesc) (f : Bytes) (ns : Word)
  deriving DecidableEq, Repr

/-- One forwarded write or descriptor, and the epoch at whose start it applies (12 R479). -/
structure MirWrite where
  epoch : Nat
  op : MirOp
  deriving DecidableEq, Repr

/-- What a journal high-water mark is of: an association slot, or a direction of a tributary's key position. -/
inductive MarkOf where
  | slot (ch : ChIx) (an : An)
  | pos (t : Nat) (p : Fin 2) (tx : Bool)
  deriving DecidableEq, Repr

/-- One section of the resynchronisation stream (12 R491); `words` are register addresses and values for 1, node numbers
and images for 2, and so on. -/
inductive CapItem where
  | config (addr : Nat) (value : Word)
  /-- the applied value of a shadowed register -/
  | applied (addr : Nat) (value : Word)
  /-- an instance map entry, and the rule versions of a slice -/
  | imap (s : SliceId) (key inst : Nat)
  | versions (s : SliceId) (current oldest : BitVec 16) (commits : Nat)
  /-- an instance, its rings apart: they are empty at a new owner (R478) -/
  | instOf (i : InstId) (x : InstSt)
  /-- a connection memory of a TSI: transmit or receive -/
  | page (s : SliceId) (tx : Bool) (k : PortIx) (m : TsiMem)
  | rule (s : SliceId) (d : Side) (ix : Nat) (r : RuleEnt)
  | channel (s : SliceId) (ch : ChIx) (r : ChRec)
  | node (n : Nat) (r : Node)
  | mac (s : SliceId) (ix : Nat) (e : MacEnt)
  | lpm (s : SliceId) (ix : Nat) (e : LpmEnt)
  | archive (n : Nat) (e : ArcEnt)
  | saffron (f : SafFrame)
  | cut (epoch : Nat)
  | slot (s : SliceId) (ch : ChIx) (an : An) (r : Slot) (wrapped : Bytes)
  /-- a tributary, the keys of its positions wrapped -/
  | trib (s : SliceId) (t : Nat) (x : TribSt) (wrapped : List Bytes)
  /-- a high-water mark: what the key is in, its RES, and the reservation that it has requested, 0 none (09 R358) -/
  | highWater (s : SliceId) (m : MarkOf) (res want : Nat)
  | headroom (s : SliceId) (k : PortIx) (h : Nat)
  /-- age tick, forwarding millisecond, milliseconds into the tick and its length (05 R199, R200) -/
  | ages (s : SliceId) (tick : BitVec 12) (ms tickMs tickLen : Nat)
  | slipRead (s : SliceId) (t : Nat) (started : Bool)
  | ctfFc (s : SliceId) (k : PortIx) (fc : BitVec 56)
  | time (now : BitVec 64) (elapsed : BitVec 96) (ticks : Nat)
  /-- state that forwarded writes set outside the registers: tamper responses and LOCK, switch timers, the peer tables' MAINT and
  SEARCH, injectors, page swaps and jumps of a CTF lane, frame timing, slice states, running counters, an update taken -/
  | tamper (resp : Vector (Fin 4) 30) (locked : Bool)
  | timer (s : SliceId) (i : Fin 8) (t : SwTimer)
  | tables (s : SliceId) (maint : Vector Bool 2) (search : Vector (Option (List Word × List Word × Nat)) 2)
  | inject (s : SliceId) (k : PortIx) (ctf : Bool) (f : FiSt)
  | ctfLane (s : SliceId) (k : PortIx) (txPhase rxPhase : Bool) (swapFc : Option Nat) (jump : Option JumpSt)
  | ctfTiming (s : SliceId) (swapPend alignArmed : Bool) (corr phase : Int) (lastOff : BitVec 14)
  | slice (s : SliceId) (q : SliceState) (powerOff : Bool)
  | counters (s : SliceId) (run : Bool)
  | update (u : Option (Word × NMap Word))
  /-- the bytes of a capsule that a RESTORE on both packages reads (13 R529) -/
  | restoreBytes (bs : Bytes)
  /-- an image that the owning package has read for a forwarded command of IMG_CMD, or of IMG_SLICE_CMD (16 R614) -/
  | image (part : Bool) (img : ImageSrc)
  deriving DecidableEq, Repr

/-- The twin unit (12). Instants in ns of ELAPSED. -/
structure TwinSt where
  state : TwinState := .off
  own : Bool := false
  /-- TWN_OWN_N_I asserted as seen, and since when it has been deasserted -/
  partnerOwn : Bool := false
  partnerSince : Nat := 0
  /-- client and line transmitters enabled, TWN_SEL_O high -/
  txEn : Bool := false
  sel : Bool := false
  assertedAt : Option Nat := none
  /-- CLAIM in progress until, a switchover being taken over, SWITCH pending at the epoch -/
  claimUntil : Option Nat := none
  takingOver : Bool := false
  switchAt : Option Nat := none
  /-- a switchover in its steps 1-6 until -/
  switchingUntil : Option Nat := none
  candidateUntil : Option Nat := none
  /-- a JOIN in progress waits for the partner's HELLO until -/
  joinUntil : Option Nat := none
  keyed : Bool := false
  sessKey : Bytes := []
  txSeq : Nat := 0
  rxSeq : Nat := 0
  /-- sequences that have not come, and the latest epoch in which each can have been sent until that is judged (R474) -/
  missing : List (Nat × Option Nat) := []
  linkNode : Option Nat := none
  partner : Option Hello := none
  rand : Bytes := []
  mismatch : Fin 8 := 0
  epoch : Nat := 0
  /-- own and partner's tick counts at the boundary that began each epoch (R476) -/
  partnerTicks : NMap Nat := []
  ownTicks : NMap Nat := []
  matchCount : Nat := 0
  cutEpoch : Option Nat := none
  dig : DigestSet := {}
  ownDig : NMap DigestSet := []
  partnerDig : NMap DigestSet := []
  testing : Bool := false
  testEpoch : Nat := 0
  finding : Bool := false
  partnerFinding : Bool := false
  unexplained : List Nat := []
  divLast : Word := 0
  lastHb : Nat := 0
  hbLost : Bool := false
  partnerState : TwinState := .off
  /-- the epoch at whose start the package became ACTIVE -/
  activeFrom : Nat := 0
  healthPartner : Word := 0
  tsuOffset : Bool := false
  /-- since when the partner's NOW has been more than 10 ns off, in ns of ELAPSED (11 R456) -/
  offSince : Option Nat := none
  sramUncorr : Bool := false
  engFail : Bool := false
  /-- READY bits of the partner's input lanes, client then line -/
  partnerReady : BitVec 64 := 0
  mirrorQ : List MirWrite := []
  learnQ : List (Nat × SliceId × MacChange) := []
  /-- the resynchronisation stream still to be sent, the active's side -/
  stream : List CapItem := []
  streaming : Bool := false
  lastHello : Nat := 0
  lastHbSent : Nat := 0
  lastTime : Nat := 0
  lastAck : Nat := 0
  deriving DecidableEq, Repr

/-- An error in one symbol of one beat of a DRAM burst (14 R535): beat, device of the rank, and the bits wrong. -/
structure BeatErr where
  beat : Fin 16
  pos : Fin 10
  err : BitVec 4
  deriving DecidableEq, Repr

end Sys2Proof.Machine
end

