-- ==== Sys2Proof/Syntax.lean ====
section
/-!
DEFINITION. The commands: one constructor for every row of the table of operations and events, with the row's operands.
-/
namespace Sys2Proof
open Sys2Proof.Machine

/-- A command: a write or read of a register, a frame or signal at a pin, a message, or the end of something the device
does on its own. -/
inductive Instr where
  /-- A frame arriving on a client port is written into buffer cells, parsed, classified, and handed to the SAE and the engine pool on the protect path. (01 R28) -/
  | clientFrameRx (s : SliceId) (k : PortIx) (f : RxFrame)
  /-- The end of a cut-through protect-path frame triggers its late length checks. (03 R137) -/
  | protectFrameEnd (s : SliceId) (k : PortIx) (f : RxFrame)
  /-- A queued frame is granted its output port and is sent. (01 R34) -/
  | frameEgressGrant (d : Side) (s : SliceId) (k : PortIx) (q : Fin 8)
  /-- A frame arriving on a line port is parsed, its SecTAG checked, its channel and slot found, and it is sent to an engine. (06 R251) -/
  | lineFrameRx (s : SliceId) (k : PortIx) (f : RxFrame)
  /-- When the engine's ICV check completes, the replay commit is made and the frame is parsed again, classified and delivered. (06 R256) -/
  | finalReplayCommit (s : SliceId) (ch : ChIx)
  /-- A recirculated frame leaves the recirculation queue and enters the protect-path parser. (01 R32) -/
  | recircEntry (s : SliceId)
  /-- The learn engine takes the learn at the head of the queue and installs, refreshes or moves the entry, or refuses it. (05 R197) -/
  | learn (s : SliceId)
  /-- A received PAUSE or PFC frame is consumed and holds the port's output. (02 R105) -/
  | rxPauseFrame (d : Side) (s : SliceId) (k : PortIx) (f : RxFrame)
  /-- The pause time that a received PAUSE or PFC frame requested runs out. (02 R105) -/
  | pauseHoldEnd (d : Side) (s : SliceId) (k : PortIx) (q : Fin 8)
  /-- Every QUANTA/2 quanta in XOFF, the PAUSE or PFC frame is sent again. (02 R100) -/
  | pauseRepeat (s : SliceId) (k : PortIx)
  /-- The client's response time is measured at the first quiet 1 µs interval, and H is recomputed. (02 R102) -/
  | headroomMeasure (s : SliceId) (k : PortIx) (ns : Nat)
  /-- A fragment-table entry expires 100 ms after it was stored or last hit. (04 R183) -/
  | fragAged (s : SliceId) (ix : Nat)
  /-- A held frame is released after HOLD_M further frames or after 1 ms. (02 R106) -/
  | fiHoldRelease (s : SliceId) (k : PortIx)
  /-- ARM arms the line-port fault injector and writes a Verdigris record. (02 R110) -/
  | fiArm (s : SliceId) (k : PortIx) (other : Bool)
  /-- DISARM disarms the line-port injector, releases a held frame and writes a record. (02 R112) -/
  | fiDisarm (s : SliceId) (k : PortIx) (other : Bool)
  /-- Signal detect on a lane receiver starts bring-up. (02 R71) -/
  | laneSignalDetect (l : LaneId)
  /-- A bring-up step completes and the lane moves to the next step. `own`, `other`: FEC symbols corrected over the first 65,536
  codewords under the image's receive precoder setting and under the opposite one, none without lock (R67). (02 R71) -/
  | laneStepDone (l : LaneId) (runs : LockRuns)
  /-- After 5 ms without FEC lock, the receiver tries the opposite precoder setting. (02 R67) -/
  | precoderTryTimeout (l : LaneId)
  /-- A bring-up step that exceeds its timeout returns the lane to step 1. (02 R73) -/
  | laneTimeout (l : LaneId)
  /-- Loss of signal, CDR, FEC or PCS lock returns the lane to an earlier bring-up step, and the port goes down. (02 R77) -/
  | lossOfLock (l : LaneId) (c : LockLoss)
  /-- A loop that has stayed at a limit for 1 ms sets EQ_AT_LIMIT. (02 R89) -/
  | eqAtLimit (l : LaneId) (on : Bool)
  /-- OP READ returns an instance map entry. (03 R148) -/
  | prsImapRead (s : SliceId) (d : Side) (k : PortIx) (vid : BitVec 12)
  /-- OP WRITE sets an instance map entry. (03 R148) -/
  | prsImapWrite (s : SliceId) (d : Side) (k : PortIx) (vid : BitVec 12) (i : InstId)
  /-- A key extractor write takes effect only while the table is empty. (04 R153) -/
  | clsKprofWrite (s : SliceId) (d : Side) (e : Fin 14) (v : Word)
  /-- READ loads CLS_RDATA from a rule entry. (04 R185) -/
  | ruleRead (s : SliceId) (d : Side) (ix : BitVec 13)
  /-- WRITE installs a rule with ADD_VER equal to the pending version. (04 R168) -/
  | ruleWrite (s : SliceId) (d : Side) (ix : BitVec 13)
  /-- RETIRE sets DEL_VER to CURRENT and sets RETIRED. (04 R168) -/
  | ruleRetire (s : SliceId) (d : Side) (ix : BitVec 13)
  /-- CANCEL undoes a pending WRITE or RETIRE. (04 R168) -/
  | ruleCancel (s : SliceId) (d : Side) (ix : BitVec 13)
  /-- A COMMIT strobe is accepted, or refused with BUSY. (04 R170) -/
  | commit (s : SliceId)
  /-- CURRENT advances by one at the slice's next safe point. (04 R169) -/
  | commitApply (s : SliceId)
  /-- READ returns a peer-table entry image by index. (05 R215) -/
  | tblRead (s : SliceId) (t : Tbl) (ix : BitVec 18)
  /-- WRITE replaces the result of an existing entry, selected by key. (05 R215) -/
  | tblWrite (s : SliceId) (t : Tbl)
  /-- INSERT adds a new peer-table entry. (05 R215) -/
  | tblInsert (s : SliceId) (t : Tbl)
  /-- DELETE removes an entry selected by key. (05 R215) -/
  | tblDelete (s : SliceId) (t : Tbl)
  /-- LOOKUP returns the matching entry's result and index. (05 R215) -/
  | tblLookup (s : SliceId) (t : Tbl)
  /-- SEARCH finds the first entry whose image matches data under mask, in MAINT. (05 R215) -/
  | search (s : SliceId) (t : Tbl) (ix : BitVec 18)
  /-- NEXT continues the latched SEARCH from the index after the last one found. (05 R215) -/
  | next (s : SliceId) (t : Tbl)
  /-- FLUSH_PORT removes the entries that name a line port. (05 R215) -/
  | flushPort (s : SliceId) (t : Tbl) (st : Bool)
  /-- FLUSH_INSTANCE removes an instance's entries. (05 R215) -/
  | flushInstance (s : SliceId) (t : Tbl) (st : Bool)
  /-- A write to FWD_TBL_MODE requests entry into MAINT or exit from it. (05 R214) -/
  | fwdTblModeWrite (s : SliceId) (m : Bool) (l : Bool)
  /-- MAINT takes effect once the learn or command in progress completes. (05 R214) -/
  | maintEnter (s : SliceId) (t : Tbl)
  /-- The forwarding millisecond counter advances every 1,000,000 ns. (05 R199) -/
  | msCounterAdvance (s : SliceId)
  /-- TICK advances every AGE_TICK milliseconds. (05 R200) -/
  | ageTick (s : SliceId)
  /-- The background sweep visits an entry, removing it if over age or clearing HOLD. (05 R201) -/
  | sweepVisit (s : SliceId) (ix : BitVec 18)
  /-- The scrubber checks the key parity of each LPM entry every 16 ms. (05 R209) -/
  | lpmScrub (s : SliceId) (ix : BitVec 14) (keyBad : Bool)
  /-- CH_READ moves a channel image into SAE_CH_DATA. (06 R271) -/
  | chRead (s : SliceId) (ch : ChIx)
  /-- CH_WRITE creates or changes a channel record. (06 R229) -/
  | chWrite (s : SliceId) (ch : ChIx)
  /-- CH_DELETE removes a channel whose slots are all EMPTY. (06 R271) -/
  | chDelete (s : SliceId) (ch : ChIx)
  /-- SA_READ fills SAE_SA_DATA from a slot. (06 R271) -/
  | saRead (s : SliceId) (ch : ChIx) (an : An)
  /-- SA_LOAD loads an EMPTY slot with a key, computes H and applies the start rule. (06 R237) -/
  | saLoad (s : SliceId) (ch : ChIx) (an : An)
  /-- SA_ACTIVATE makes a LOADED slot ACTIVE at the next frame boundary. (06 R266) -/
  | saActivate (s : SliceId) (ch : ChIx) (an : An)
  /-- SA_RETIRE moves an ACTIVE or RETIRING slot to GUARD. (08 R325) -/
  | saRetire (s : SliceId) (ch : ChIx) (an : An)
  /-- SA_CLEAR empties a slot and zeroises KEY and H. (06 R271) -/
  | saClear (s : SliceId) (ch : ChIx) (an : An)
  /-- SCI_FIND looks up an SCI in the slice's SCI hash. (06 R271) -/
  | sciFind (s : SliceId)
  /-- A commanded slot state change takes effect at the channel's next frame boundary. (06 R266) -/
  | slotChangeApply (s : SliceId) (ch : ChIx)
  /-- ROOT_WRITE writes a root key into a root slot. (07 R279) -/
  | rootWrite (n : BitVec 17)
  /-- DERIVE creates a node from a parent and a mordant. (07 R287) -/
  | derive (n : BitVec 17)
  /-- READ returns a node record without its key. (07 R278) -/
  | nodeRead (n : BitVec 17)
  /-- INVALIDATE frees a subtree and, with FORCE, revokes its users. (07 R296) -/
  | invalidate (n : BitVec 17) (force : Bool)
  /-- ARM arms a switch timer within the allowed range. (08 R334) -/
  | timerArm (s : SliceId) (t : Fin 8) (other : Bool) (lead : BitVec 16)
  /-- DISARM cancels both fires of a switch timer that are still to come. (08 R342) -/
  | timerDisarm (s : SliceId) (t : Fin 8) (other : Bool) (lead : BitVec 16)
  /-- A switch timer's receive fire switches the receive channels that name it. (08 R333) -/
  | rxFire (s : SliceId) (t : Fin 8)
  /-- A switch timer's transmit fire switches the transmit channels, disarms the timer and raises an event. (08 R333) -/
  | timerFired (s : SliceId) (t : Fin 8)
  /-- The sweep visits each channel every millisecond and applies its due overlap and guard transitions. (08 R324) -/
  | lifecycleSweep (s : SliceId) (ch : ChIx)
  /-- In epoch mode, the device loads the EMPTY slot of the next epoch with direct leaves. (08 R327) -/
  | preInstall (s : SliceId) (ch : ChIx)
  /-- A journal record write completes its read-back and is committed. (09 R370) -/
  | journalCommit (ok : Bool)
  /-- 1 ms after a commit failure with no commit, the device enters the Carmine halt. (09 R372) -/
  | journalHaltTimeout
  /-- The post-reset scan of the ring completes, rebuilds the index and reports READY. (09 R366) -/
  | journalScanDone (bad : List Nat)
  /-- READ returns a ring position's record. (09 R378) -/
  | pnjRead (ix : BitVec 18)
  /-- FIND returns the position of the held record of a fingerprint. (09 R378) -/
  | find
  /-- DESTROY makes a dormant record a tombstone. (09 R360) -/
  | destroy
  /-- TOMB_DORMANT makes every dormant record a tombstone. (09 R360) -/
  | tombDormant
  /-- ACK_DAMAGE clears the refusal of installations caused by DAMAGED. (09 R368) -/
  | ackDamage
  /-- At each 10 µs transmit frame boundary, the device seals and maps tributaries, reads slip buffers and applies multiframe
  changes. `blocks`: the blocks of each L1 client port since the last boundary; none: of an uncorrectable codeword (R390). (10 R380) -/
  | ctfFrameBoundary (s : SliceId) (blocks : List (PortIx × List (Option (BitVec 66))))
  /-- A received CTF frame is checked, and each tributary frame is opened and written to its slip buffer. `marker`: for the
  first frame of a FEC superframe, whether the alignment marker stood before it (R386). (10 R400) -/
  | ctfFrameRx (s : SliceId) (k : PortIx) (f : CtfRx)
  /-- An FSYNC_IN edge is measured and sets the pending frame correction. (10 R409) -/
  | fsyncEdge (s : SliceId) (off : Int)
  /-- ALIGN arms the acceptance of the next FSYNC_IN edge whatever its offset. (10 R410) -/
  | align (s : SliceId)
  /-- A performance second starts at a PPS_IN edge, or 1.0001 s after the last. (10 R418) -/
  | perfSecond
  /-- 10 s after a second ends, it is added to ES, SES or UAS. (10 R420) -/
  | perfSecondClassify
  /-- A write to the expected trace takes effect at once and clears the accepted trace. (10 R415) -/
  | traceExpWrite (s : SliceId) (k : PortIx) (w : Fin 4) (v : Word)
  /-- ARM arms a CTF lane injector. (10 R421) -/
  | ctfFiArm (s : SliceId) (k : PortIx) (other : Bool)
  /-- DISARM disarms a CTF lane injector. (10 R421) -/
  | ctfFiDisarm (s : SliceId) (k : PortIx) (other : Bool)
  /-- READ returns a tributary image. (10 R424) -/
  | tribRead (s : SliceId) (k : PortIx) (i : Byte)
  /-- WRITE creates or changes a tributary. (10 R424) -/
  | tribWrite (s : SliceId) (k : PortIx) (i : Byte)
  /-- INSTALL loads a TRIB node into an EMPTY key position, under the start rule. (10 R396) -/
  | install (s : SliceId) (k : PortIx) (i : Byte) (an : An)
  /-- SWITCH schedules TX_POS to move to the LOADED position. (10 R399) -/
  | tribSwitch (s : SliceId) (k : PortIx) (i : Byte)
  /-- CLEAR makes a REVOKED or LOADED position EMPTY. (10 R402) -/
  | tribClear (s : SliceId) (k : PortIx) (i : Byte) (an : An)
  /-- DELETE removes a tributary with empty positions that is absent from every page. (10 R424) -/
  | tribDelete (s : SliceId) (k : PortIx) (i : Byte)
  /-- PM_READ fills TSI_TRIB_PM with the tributary's counters. (10 R424) -/
  | pmRead (s : SliceId) (k : PortIx) (i : Byte)
  /-- READ returns a connection memory entry. (10 R425) -/
  | pageRead (s : SliceId) (d : Side) (act : Bool) (k : PortIx) (slot : Byte)
  /-- WRITE sets a standby page entry. (10 R403) -/
  | pageWrite (s : SliceId) (d : Side) (k : PortIx) (slot : Byte) (i : Byte)
  /-- COPY copies the active pages to the standby pages. (10 R425) -/
  | copy (s : SliceId) (d : Side)
  /-- SWAP checks the transmit standby page and schedules the page exchange. (10 R404) -/
  | swap (s : SliceId)
  /-- NS wraps to 0 and a WRAP event is raised. (11 R429) -/
  | wrap
  /-- A read of TSU_NOW_NS returns NS and latches the fraction. (11 R430) -/
  | tsuNowRead
  /-- STEP sets NOW, or adds an offset to it, at the next tick. (11 R432) -/
  | step (mode : Bool) (force : Bool) (other : Bool)
  /-- SLEW starts a slew increment for a number of ticks. (11 R433) -/
  | slew (other : Bool)
  /-- ABORT ends a running slew. (11 R433) -/
  | abort (other : Bool)
  /-- The slew tick count runs out, the TSU returns to TSU_INC, and an event is raised. (11 R433) -/
  | slewDone
  /-- A PPS_IN edge latches NOW and raises an event. (11 R438) -/
  | ppsIn
  /-- PPS_OUT rises when NOW reaches TSU_PPSO_TIME, which then advances by 1 s. (11 R439) -/
  | ppsOutRise
  /-- PPS_OUT falls after WIDTH_US. (11 R439) -/
  | ppsOutFall
  /-- A held frame moves to its slice's on-chip stage 100 µs before L, or when the stage has room. (11 R449) -/
  | saffronStage (s : SliceId)
  /-- A staged frame enters the protect-path parser within [L − 8 µs, L − 5 µs]. (11 R449) -/
  | saffronParserEntry (s : SliceId)
  /-- A staged frame makes its slot access within [L − 5 µs, L − 2 µs]. (11 R450) -/
  | saffronSlotAccess (s : SliceId)
  /-- A launched frame starts at the line pin at L. (11 R451) -/
  | saffronLaunch (s : SliceId) (k : PortIx)
  /-- A frame not staged by L − 10 µs is dropped, or sent without a launch time. (11 R453) -/
  | late (n : Nat)
  /-- CLAIM lets a package in START assert ownership. (12 R465) -/
  | claim
  /-- JOIN compares HELLOs, keys the session and starts SYNCING. (12 R472) -/
  | join
  /-- SWITCH on the active hands ownership to the standby at the epoch after next. (12 R487) -/
  | twinSwitch
  /-- LEAVE moves a STANDBY or SYNCING package to START. (12 R468) -/
  | leave
  /-- A change of TWN_OWN_N_I is seen through the synchroniser. (12 R465) -/
  | ownLineChange (on : Bool)
  /-- After the partner's line has been deasserted for 10 µs, the package asserts ownership. (12 R465) -/
  | ownAssert
  /-- 2 µs after asserting ownership, transmitters are enabled and TWN_SEL_O rises. (12 R465) -/
  | ownTxEnable
  /-- At each 8.192 µs epoch boundary, mirrored changes apply and digests are compared. (12 R476) -/
  | stepEpochBoundary
  /-- The divergence test ends in a switchover or a resynchronisation of the standby. (12 R484) -/
  | divergenceTestDone (own : Bool) (partner : Bool)
  /-- A HELLO message is received in the clear. (12 R472) -/
  | hello (h : Hello)
  /-- A HEARTBEAT message is received. (12 R474) -/
  | heartbeat (m : MsgHdr) (st : TwinState) (seen : Bool)
  /-- A STEP message is received and its tick count is compared. (12 R476) -/
  | indigoStep (m : MsgHdr) (ticks : Nat)
  /-- A DIGEST message with the partner's epoch digests is received. (12 R481) -/
  | digest (m : MsgHdr) (x : DigestSet)
  /-- A HEALTH message is received and TWN_HEALTH_PARTNER is updated. (12 R483) -/
  | health (m : MsgHdr) (w : Word) (ready : BitVec 64)
  /-- A MIRROR message with forwarded writes is received. (12 R479) -/
  | mirror (m : MsgHdr) (ws : List MirWrite)
  /-- A LEARN message with learned table changes is received. (05 R219) -/
  | learnMessage (m : MsgHdr) (s : SliceId) (cs : List MacChange)
  /-- A TIME message is received and the standby's TSU follows it. (11 R456) -/
  | timeMessage (m : MsgHdr) (ns frac : Word)
  /-- A CAPSULE message of the resynchronisation stream is received and applied. (12 R491) -/
  | capsule (m : MsgHdr) (xs : List CapItem)
  /-- An ACK message is received and missing messages are retransmitted. (12 R474) -/
  | ackMessage (m : MsgHdr) (high : BitVec 64) (missing : List Nat)
  /-- A HELLO is sent every 1 ms while the link is up and not keyed. (12 R470) -/
  | helloSend
  /-- A HEARTBEAT is sent every 1 µs of ELAPSED. (12 R470) -/
  | heartbeatSend
  /-- A TIME sample is sent every 1 µs. (12 R470) -/
  | timeSend
  /-- An ACK is sent every 1 µs. (12 R470) -/
  | ackSend
  /-- The active sends the next part of the resynchronisation stream as the link allows. (12 R491) -/
  | capsuleStreamSend (n : Nat)
  /-- Sixteen heartbeat periods without a valid HEARTBEAT are a heartbeat loss. (12 R475) -/
  | hbLost
  /-- A standby that has not taken over within 1 ms of heartbeat loss moves to START. (12 R475) -/
  | candidacyEnd
  /-- DOORBELL copies the VF request to the PF mailbox and raises MBX_REQ. (13 R499) -/
  | doorbell (i : InstId)
  /-- READ gives the manager the pending request of an instance. (13 R501) -/
  | mbxRead (i : InstId)
  /-- RESPOND copies the response to the VF, clears PENDING and signals vector 0. (13 R501) -/
  | respond (i : InstId)
  /-- A read of VF_MBX_CTL clears RESP_READY and OVERRUN. (18 R654) -/
  | vfMbxCtlRead (i : InstId)
  /-- ENABLE makes a DISABLED or QUIESCED instance ENABLED. (13 R513) -/
  | enable (i : InstId)
  /-- QUIESCE stops an instance's admission and inject reading and discards its Saffron frames. (13 R514) -/
  | quiesce (i : InstId)
  /-- With no frame of the instance left, the instance becomes QUIESCED. (13 R514) -/
  | quiesceDone (i : InstId)
  /-- At 100 µs the instance's remaining frames are discarded and it becomes QUIESCED. (13 R514) -/
  | quiesceTimeout (i : InstId)
  /-- FREEZE makes a QUIESCED instance FROZEN and stops its lifecycle. (13 R520) -/
  | freeze (i : InstId)
  /-- THAW returns a FROZEN instance to QUIESCED. (13 R520) -/
  | thaw (i : InstId)
  /-- RESET clears all state of a QUIESCED instance and makes it DISABLED. (13 R516) -/
  | instanceReset (i : InstId)
  /-- REMOVE acts as RESET and also zeroes the instance's shares. (13 R517) -/
  | remove (i : InstId)
  /-- SAVE writes a FROZEN instance's capsule and exports its slots. (13 R521) -/
  | save (i : InstId)
  /-- RESTORE checks a capsule and rebuilds it as a DISABLED instance. (13 R524) -/
  | restore (i : InstId) (cap : Bytes)
  /-- SHARE_WRITE sets an instance's shares for a slice. (13 R506) -/
  | shareWrite (i : InstId) (s : SliceId)
  /-- SHARE_READ fills VIM_SHARE and VIM_USE. (13 R530) -/
  | shareRead (i : InstId) (s : SliceId)
  /-- STATE_READ returns an instance's state. (13 R530) -/
  | stateRead (i : InstId)
  /-- A VF function-level reset quiesces and resets the instance according to its state. (13 R519) -/
  | vfFlr (i : InstId)
  /-- A held inject descriptor proceeds once the instance's occupancy falls below CELLS. (13 R509) -/
  | heldDescriptorResume (i : InstId) (r : Fin 16)
  /-- PARK copies a LOADED slot into the archive and empties the slot. (14 R559) -/
  | park (e : BitVec 20) (s : SliceId) (ch : ChIx) (an : An)
  /-- LOAD loads an archive entry into an EMPTY slot, as SA_LOAD does. (14 R560) -/
  | arcLoad (e : BitVec 20) (s : SliceId) (ch : ChIx) (an : An)
  /-- READ returns the status of an archive entry. (14 R562) -/
  | arcRead (e : BitVec 20)
  /-- DELETE frees an archive entry. (14 R562) -/
  | arcDelete (e : BitVec 20)
  /-- DRAM training completes, or fails and halts the device. (14 R533) -/
  | dramTrained (failed : BitVec 4)
  /-- Every 100 ms the DQS interval oscillator of each rank is retrained. (14 R534) -/
  | dqsRetrain
  /-- A DRAM burst completes and the line is corrected, verified and released. (14 R549) -/
  | meeReadDone (p : Nat) (rank : Bool) (errs : List BeatErr)
  /-- The patrol scrub reads and corrects each written line every PATROL_H hours. (14 R554) -/
  | patrolScrub (p : Nat) (rank : Bool) (errs : List BeatErr)
  /-- A tamper source trips, and its alarm group is handled under its strongest response. (15 R576) -/
  | tamperTrip (srcs : List (Fin 30 × Fin 3))
  /-- A group's Verdigris record commits, and ZEROISE clearing starts. (15 R576) -/
  | tamperRecordCommit (ok : Bool)
  /-- The clearing of the keys of Table 15-4 completes. (15 R576) -/
  | zeroiseDone
  /-- Detectors that disagree for 10 ms trip source 29. (15 R569) -/
  | monitor (n : Fin 30) (det : Fin 3)
  /-- A cause absent for 1 ms re-arms its source's alarm. (15 R570) -/
  | causeCleared (n : Fin 30)
  /-- LOCK locks the tamper responses against lowering. (15 R573) -/
  | lock (other : Bool)
  /-- ACK ends a SQUELCH once its causes are absent. (15 R574) -/
  | tamperAck (other : Bool)
  /-- A write to TMP_RESP sets responses, or only raises them after LOCK. (15 R573) -/
  | tmpRespWrite (hi : Bool) (v : Word)
  /-- The 1 ms tamper start-up check ends, sets CHECKED and raises alarms for causes present. (15 R581) -/
  | startupCheckDone (causes : BitVec 30) (delays : Vector (BitVec 8) 16)
  /-- READ returns a Verdigris record. (15 R592) -/
  | logRead (ix : BitVec 16)
  /-- APPEND writes a source-40 record with the manager's detail. (15 R584) -/
  | append
  /-- VERIFY recomputes the chain from INDEX to the head and counts the outcomes. (15 R590) -/
  | verify (ix : BitVec 16)
  /-- A Verdigris record write is read back, and is committed or retried. (15 R586) -/
  | evlRecordCommit (ok : Bool)
  /-- The log scan after reset sets the head and READY, and writes the held records. (15 R588) -/
  | evlScanDone
  /-- PORESET_N rises and the start-up sequence begins. (16 R606) -/
  | powerOnReset (primary : Bool) (debug : Bool) (trng : Bool)
  /-- The supply monitor finds a rail below its threshold and starts a power-on reset. (17 R634) -/
  | supplyMonitorReset (trng : Bool)
  /-- RESET_N held low for 1 µs starts a device reset. (17 R634) -/
  | deviceReset (trng : Bool)
  /-- A write of 0xD1 to GLB_RESET starts a device reset. (17 R634) -/
  | glbReset (key : Byte) (trng : Bool)
  /-- An image source is read and checked, and the first valid image is loaded. (16 R602) -/
  | imageSourceTry
  /-- The device conditions of R53 hold, STATE becomes RUNNING, and BOOT_DONE is raised. (16 R606) -/
  | bootDone
  /-- DOWNLOAD reads and checks a full image from host memory in NO_IMAGE. (16 R603) -/
  | download (img : ImageSrc)
  /-- STAGE checks a full image and writes it into an MRAM slot. (16 R604) -/
  | stage (slot : Bool) (img : ImageSrc)
  /-- SET_PREF sets the preferred MRAM slot. (16 R604) -/
  | setPref (slot : Bool)
  /-- ADVANCE_SVN blows fuses up to the running image's SVN. (16 R599) -/
  | advanceSvn
  /-- ADD_KEYS fuses the key hashes that the running image lists. (16 R600) -/
  | addKeys
  /-- REVOKE_KEY blows a key's revocation bit. (16 R601) -/
  | revokeKey (k : Fin 4)
  /-- DRAIN stops admission on a slice and starts draining it. (16 R610) -/
  | drain (s : SliceId) (off : Bool)
  /-- With no frame left, the slice becomes DRAINED, or OFF with POWER_OFF. (16 R610) -/
  | drainDone (s : SliceId)
  /-- At 100 µs the slice's remaining frames are discarded and it becomes DRAINED. (16 R610) -/
  | drainTimeout (s : SliceId)
  /-- LOAD reads a partial image for a DRAINED or OFF slice and starts its checks. (16 R611) -/
  | sliceLoad (s : SliceId) (img : ImageSrc)
  /-- The checks of a partial image end, and on success the slice is reset and reconfigured. (16 R611) -/
  | sliceLoadChecked
  /-- A LOADING slice becomes RUNNING when its lanes are READY, or at 150 ms. (16 R611) -/
  | sliceRunning (s : SliceId)
  /-- RESUME returns a DRAINED slice to RUNNING unchanged. (16 R611) -/
  | resume (s : SliceId)
  /-- At each 100 µs interval, the voltage loop requests a step up or down. (17 R623) -/
  | avsInterval (s : SliceId) (slack : BitVec 5) (emerg : Bool) (ack : Bool) (mv : BitVec 10)
  /-- 1 ms after an emergency, the loop resumes. (17 R624) -/
  | avsEmergEnd (s : SliceId)
  /-- After the 100 ms hold, the loop tries again. (17 R626) -/
  | avsHoldEnd (s : SliceId)
  /-- At each 10 µs window, the engine-pool loop powers an engine up or removes one. (17 R628) -/
  | engineLoopWindow (s : SliceId) (d : Side) (load : BitVec 7)
  /-- A removed engine finishes its frames and is power-gated. (01 R44) -/
  | engineDrainDone (s : SliceId) (d : Side)
  /-- A powered-up engine's known-answer test ends, and the engine rejoins the pool or stays out. (01 R45) -/
  | engineKatDone (s : SliceId) (d : Side) (ok : Bool)
  /-- PWR_PORT_RST RESET takes a port down and starts its reset. (17 R638) -/
  | portReset (s : SliceId) (d : Side) (k : PortIx)
  /-- The port reset completes and BUSY clears. (17 R638) -/
  | portResetDone
  /-- A PLL loses lock, halting the device or taking its lanes out of READY. (17 R633) -/
  | pllUnlock (pll : Nat) (lanes : Option (SliceId × Side))
  /-- PWRFAIL_N falls, and the 100 ns glitch filter starts. (17 R640) -/
  | pwrfailNFall
  /-- PWRFAIL_N returning high within 100 ns is ignored and counted. (17 R640) -/
  | pwrfailGlitch
  /-- After 100 ns of PWRFAIL_N low, the hold-up sequence of Table 9-6 runs. (09 R375) -/
  | holdUp
  /-- A write to a register that has no row of its own stores its value, shadowed or effective. (18 R648) -/
  | registerWrite (fn : InstId) (a : Nat) (be : BitVec 4) (v : Word)
  /-- A write to GLB_UPDATE takes the written values of the named groups. (18 R649) -/
  | glbUpdate (mask : Word)
  /-- At one core tick, the named groups copy written values to applied values. (18 R649) -/
  | updateApply
  /-- Setting EN in HIF_EVT_CFG starts an event ring empty at entry 0. (18 R655) -/
  | evtRingEnable (j : Fin 4) (v : Word)
  /-- Software advances HEAD, and an overflowed ring writes its EVENTS_LOST record. (18 R656) -/
  | evtHeadWrite (j : Fin 4) (h : BitVec 16)
  /-- At the end of MOD_US, a vector held back fires. (18 R657) -/
  | msixModerationEnd (evt : Bool) (i : InstId) (r : Fin 16)
  /-- Setting EN starts a punt or inject ring at entry 0. (18 R663) -/
  | ringEnable (i : InstId) (r : Fin 16)
  /-- Clearing EN stops a ring after the descriptor in hand. (18 R663) -/
  | ringDisable (i : InstId) (r : Fin 16)
  /-- The descriptor in hand completes and RUN clears. (18 R663) -/
  | ringStopped (i : InstId) (r : Fin 16)
  /-- A read of RING_CTL on a VF page clears ERR. (18 R654) -/
  | ringCtlRead (i : InstId) (r : Fin 16)
  /-- A read of VF_RING_ERR clears its bits. (18 R654) -/
  | vfRingErrRead (i : InstId)
  /-- The device reads the next inject descriptor and refuses it, accepts a launch, or copies the frame. (18 R666) -/
  | injectDescriptorRead (i : InstId) (r : Fin 16) (x : InjDesc) (f : Bytes)
  /-- The frame copy completes, the completion is written, and the frame enters the parser. (18 R667) -/
  | injectFrameCopied (i : InstId) (r : Fin 16) (f : Bytes)
  /-- A DMA completed with an error stops the ring and raises DMA_ERR. (18 R664) -/
  | dmaErr (i : InstId) (r : Fin 16)
  /-- A PF function-level reset disables the event rings and instance 0's rings. (18 R661) -/
  | pfFlr
  /-- PCIE_PERST_N low resets the endpoint and acts as a PF FLR and a clear of VF Enable. (21 R722) -/
  | pciePerst
  /-- A read of CTF_FC word 0 or 2 latches the word after it. (18 R646) -/
  | ctfFcRead (s : SliceId) (k : PortIx) (rx : Bool)
  /-- Every SAMPLE_MS, the central reader takes a snapshot at one tick. (19 R670) -/
  | snapshot
  /-- The SNAP strobe takes a snapshot at once. (19 R670) -/
  | snap
  /-- A completed snapshot becomes visible and SNAP_SEQ increments. (19 R673) -/
  | snapshotVisible
  /-- An on-chip counter part reaching 2^31 is flushed into its DRAM backing value. (19 R675) -/
  | counterFlush (kind : Fin 4) (s : SliceId) (key : Nat)
  /-- PMU_SC_CMD READ returns every counter of one scope at one tick. (19 R676) -/
  | scRead (kind : Fin 4) (s : SliceId) (ch : ChIx) (an : An)
  /-- VF_SC_CMD READ returns the tenant's channel or slot counters. (19 R686) -/
  | vfScRead (i : InstId) (kind : Fin 4) (s : SliceId) (ch : ChIx) (an : An)
  /-- A read of VF_STAT_LO latches the high word. (19 R685) -/
  | vfStatRead (i : InstId) (n : Fin 8)
  /-- At each window end, bandwidth counts are latched and BW_SEQ increments. (19 R680) -/
  | bwWindowEnd
  /-- START sets RUN for the slice's nine counters. (19 R682) -/
  | pcStart (s : SliceId) (other : Bool)
  /-- STOP clears RUN for the slice's nine counters. (19 R682) -/
  | pcStop (s : SliceId) (other : Bool)
  /-- CLEAR zeroes the slice's nine counters and OVF. (19 R682) -/
  | pcClear (s : SliceId) (other : Bool)
  /-- A programmable counter wraps at 2^48 and sets OVF. (19 R682) -/
  | pcWrap (s : SliceId) (i : Fin 8)
  /-- A read of PMU_CYC_LO or PMU_PC_LO latches its high word. (19 R682) -/
  | pmuCounterRead (s : SliceId) (i : Option (Fin 8))
  /-- A write to GLB_UMBER_CL or GLB_UMBER_LL puts ports in, or takes them out of, the Umber state. (20 R693) -/
  | glbUmberWrite (d : Side) (mask : Word)
  /-- The background scrub visits SECDED words and corrects errors, or handles uncorrectable ones. (20 R701) -/
  | sramScrub (code : Fin 14) (s : SliceId) (ix : Nat) (ue : Bool)
  /-- An SMBus Block Read returns the register that the command code names. (21 R724) -/
  | smbusBlockRead (cmd : Byte)
  /-- The device answers the Alert Response Address while it drives SMB_ALERT_N. (21 R725) -/
  | alertResponse
  /-- A TAP instruction takes effect, or is replaced by BYPASS outside device reset. (21 R728) -/
  | jtagInstruction (i : TapInstr) (rstLow : Bool) (data : Bytes)
  /-- The MEE writes a merged line from its write-back cache to DRAM under its next counter, at most once per 1.024 µs per line, releasing waiting writers and failing with COUNTER_MAX at the last counter value. (14 R547) -/
  | meeWriteBack (p : Nat)
  /-- A rank's MR4 temperature report crosses 85 °C, and the DRC doubles or restores that rank's refresh rate and sets or clears DRC_STAT.HOT. (14 R534) -/
  | mr4TemperatureReport (sub : Fin 4) (rank : Bool) (hot : Bool)
  /-- The host clears VF Enable in the SR-IOV capability, and every VF's instance is quiesced and reset according to its state. (13 R519) -/
  | vfEnableClear
  /-- The PCI Express link trains to the highest common rate and width, or is lost, and HIF_PCIE_STAT.LINK_UP follows it. (18 R658) -/
  | pcieLinkTraining (up : Bool) (speed : Fin 8) (width : Fin 16)
  /-- A port whose lanes stay READY starts or stops receiving local-fault or remote-fault ordered sets, which sets LOCAL_FAULT or REMOTE_FAULT and, with FAULT_PROP, makes the paired port send local-fault ordered sets. (02 R79) -/
  | linkFaultSignallingRx (d : Side) (s : SliceId) (k : PortIx) (lf : Bool) (rf : Bool)
  deriving DecidableEq, Repr

end Sys2Proof
end

