-- ==== Sys2Proof/Decode.lean ====
section
/-!
DEFINITION. The words that spell commands. No row of the table of operations and events gives bits, so no word spells one.
-/
namespace Sys2Proof

/-- The command that a word of `nbits` bits spells: none, for every word. -/
def decodeTableWord (_nbits _w : Nat) : Option Instr := none

end Sys2Proof
end

