-- ==== Sys2Proof/Config.lean ====
section
/-!
DEFINITION. What the spec leaves open: free values, drawn with the counter State.freeCount, and layouts that it does not
give. None has a body, so no proof can see a value (log entries 1, 6, 8, 9).
-/
namespace Sys2Proof
open Sys2Proof.Machine

/-- The n-th draw of the CTR_DRBG or TRNG: 32 bytes (07 R306); a draw of fewer bytes takes the first ones. -/
opaque Config.random : Nat → BitVec 256
/-- The n-th value that the spec leaves open otherwise. -/
opaque Config.free : Nat → BitVec 64
/-- The body of an Indigo message other than HELLO, from its type and items in order (12 Table 12-4 gives no layout). -/
opaque Config.indigoBody : Nat → List Nat → Bytes
/-- The bytes of an archive entry in DRAM, 128 of them (14 Table 14-3 gives no layout). -/
opaque Config.archiveBytes : ArcEnt → Bytes
/-- The bytes of a Saffron descriptor in DRAM, 64 of them. -/
opaque Config.saffronDescriptor : SafFrame → Bytes
/-- The 32 bytes that stand before a held Saffron frame in its cells (14 R540). -/
opaque Config.saffronHead : SafFrame → Bytes
/-- The place of a counter's backing value in the statistics region of DRAM, by kind, slice and counter (14 Table 14-3). -/
opaque Config.statPlace : Nat → Nat → Nat → Nat
/-- The first root exponent of the RS(10,8) code (14 R535). -/
opaque Config.rsRoot : Nat
/-- The index within its zone at which an LPM INSERT lands, from the number drawn and the free places (05 R207). -/
opaque Config.lpmPlace : Nat → Nat → Nat
/-- The value of an adaptive receiver loop or of its SNR: from the lane, the draws and the instant, and which value (02 R87;
measured, not computed). -/
opaque Config.rxLoop : Nat → Nat → Nat → Nat → Nat
/-- The symbol that a lane's precoder takes as the one before its first, by slice and lane (02 R66). -/
opaque Config.precoderStart : Nat → Nat → BitVec 2
/-- The DETAIL bytes of a log record that names `items`, by source (15 Table 15-6 gives no layout). -/
opaque Config.detail : Nat → List Nat → Bytes
/-- Whether the board's REFCLK_TWIN has down-spread (11 Table 11-1). -/
opaque Config.refclkSpread : Bool
/-- The fixed number of clocks from a frame's grant to its exit from the step-synchronised core, through engine and MAC, in 2⁻¹⁶
ns: by whether the port is a line port, SPEED and WIDTH (11 R443, R444; the spec gives no number). -/
opaque Config.coreExit : Bool → Nat → Nat → Nat
/-- Fixed delay between a pin and the step-synchronised core, in 2⁻¹⁶ ns, by SPEED, WIDTH and whether the port sends
(11 R445). -/
opaque Config.pinDelay : Nat → Nat → Bool → Nat
/-- TMP_LOOP_n.DELAY after a measured delay of more than 31 ticks (21 R734; its field holds 31 at most). -/
opaque Config.loopDelay : BitVec 8 → BitVec 5
/-- What the boundary-scan register captures, by draw (21 R727; its length and order are not given). -/
opaque Config.boundaryScan : Nat → Bytes

end Sys2Proof
end

