-- ==== Sys2Proof/Machine/Coding.lean ====
section
/-!
DEFINITION. From a bit stream to the levels at a lane's pins (02 R64-R66), the RS(544,514) code and the FEC superframe of a
CTF lane (10 R385, R416).
-/
namespace Sys2Proof.Machine

/-! Pins (02 R64-R66). -/

/-- Gray mapping of a pair of bits, the first one first (R65; IEEE 802.3 clause 120.5.7). -/
def grayLevel (a b : Bool) : BitVec 2 :=
  match a, b with
  | false, false => 0 | false, true => 1 | true, true => 2 | true, false => 3

/-- Levels of successive pairs of bits. -/
def pam4Levels : List Bool → List (BitVec 2)
  | a :: b :: bs => grayLevel a b :: pam4Levels bs
  | _ => []

/-- The 1/(1+D) mod 4 precoder, from the symbol sent last: each symbol less the one before it (R66). -/
def precode : BitVec 2 → List (BitVec 2) → List (BitVec 2)
  | _, [] => []
  | p, g :: gs => (g - p) :: precode (g - p) gs

/-- Inverted polarity turns the sign of a symbol round (R64). -/
def atPin (inv : Bool) (x : BitVec 2) : BitVec 2 := if inv then 3 - x else x

/-- What a PAM4 lane sends for `bits`, and the symbol that its precoder sent last. -/
def lanePins (precoded inverted : Bool) (last : BitVec 2) (bits : List Bool) : List (BitVec 2) × BitVec 2 :=
  let ls := pam4Levels bits
  let ls := if precoded then precode last ls else ls
  (ls.map (atPin inverted), if precoded then ls.getLastD last else last)

/-! RS(544,514) over GF(2^10) (10 R385; IEEE 802.3 clause 119.2.4.6). -/

/-- Product in GF(2^10) of x^10 + x^3 + 1, by the bits of `b` from the highest. -/
def gfMulAux (a : BitVec 10) : Nat → BitVec 10 → BitVec 10 → BitVec 10
  | 0, _, acc => acc
  | n + 1, b, acc =>
    let dbl := (acc <<< 1) ^^^ (if acc.getLsbD 9 then 0x009 else 0)
    gfMulAux a n b (if b.getLsbD n then dbl ^^^ a else dbl)
def gfMul (a b : BitVec 10) : BitVec 10 := gfMulAux a 10 b 0

/-- α^n. -/
def gfPow : Nat → BitVec 10
  | 0 => 1
  | n + 1 => gfMul 2 (gfPow n)

/-- A polynomial, highest power first and its leading 1 left out, times x - r. -/
def gfTimesRoot (r : BitVec 10) (g : List (BitVec 10)) : List (BitVec 10) :=
  List.zipWith (fun a b => a ^^^ gfMul r b) (g ++ [0]) (1 :: g)

/-- The generator, the product of x - α^j for j below 30, without its leading 1. -/
def rsGen : List (BitVec 10) := (List.range 30).foldl (fun g j => gfTimesRoot (gfPow j) g) []

/-- One more message symbol enters the division by the generator; the remainder stands highest power first. -/
def rsStep (rem : List (BitVec 10)) (m : BitVec 10) : List (BitVec 10) :=
  let f := m ^^^ rem.headD 0
  if f = 0 then rem.drop 1 ++ [0]
  else List.zipWith (fun a g => a ^^^ gfMul f g) (rem.drop 1 ++ [0]) rsGen

/-- The 30 parity symbols of a message, the first one first. -/
def rsParity (ms : List (BitVec 10)) : List (BitVec 10) := ms.foldl rsStep (List.replicate 30 0)

/-- A symbol of ten bits, the first of them in bit 0 (IEEE 802.3 clause 91.5.2.7). -/
def symOfBits (bs : List Bool) : BitVec 10 := bs.foldr (fun b a => (a <<< 1) ||| (if b then 1 else 0)) 0
def bitsOfSym (x : BitVec 10) : List Bool := (List.range 10).map x.getLsbD

/-- The first `n` symbols of a bit stream. -/
def symbolsOf : Nat → List Bool → List (BitVec 10)
  | 0, _ => []
  | n + 1, bs => symOfBits (bs.take 10) :: symbolsOf n (bs.drop 10)

/-- A codeword: 5,140 payload bits, then the parity. -/
def rsCodeword (bs : List Bool) : List Bool := bs.take 5140 ++ (rsParity (symbolsOf 514 bs)).flatMap bitsOfSym

/-- The codewords that `n` payloads fill, and the bits left over. -/
def rsEncode : Nat → List Bool → List Bool × List Bool
  | 0, bs => ([], bs)
  | n + 1, bs =>
    let r := rsEncode n (bs.drop 5140)
    (rsCodeword bs ++ r.1, r.2)

/-! FEC superframe (10 R385, R416). -/

/-- Bits of a number, most significant first. -/
def bitsBe (n v : Nat) : List Bool := (List.range n).map (fun i => v.testBit (n - 1 - i))

/-- Bits of bytes, bit 7 of each first. -/
def bitsOfBytes (bs : Bytes) : List Bool := bs.flatMap (fun b => bitsBe 8 b.toNat)

/-- The alignment marker: twenty 64-bit words, each the complement of the one before. -/
def superMarker : List Bool :=
  (List.range 20).flatMap (fun i => bitsBe 64 (if i % 2 = 0 then 0x5A3CC3A50FF09669 else 0xA5C33C5AF00F6996))

/-- `n` bits of PRBS-31, x^31 + x^28 + 1. -/
def prbs31 : Nat → BitVec 31 → List Bool
  | 0, _ => []
  | n + 1, r =>
    let o := r.getLsbD 30 != r.getLsbD 27
    o :: prbs31 n ((r <<< 1) ||| (if o then 1 else 0))

/-- What stands before the CTF frames of a superframe. -/
def superHead : List Bool := superMarker ++ prbs31 61220 (BitVec.allOnes 31)

/-- Frames in a superframe: 8, or 16 on a Tilora lane. -/
def superFrames (tilora : Bool) : Nat := if tilora then 16 else 8

/-- The lane sends the frame with count `fc`, scrambled: the superframe's head before its first frame, codewords, levels. -/
def codeFrame (c : LaneCfg) (start : BitVec 2) (x : LineCode) (fc : Nat) (frame : Bytes) : List (BitVec 2) × LineCode :=
  let bits := x.bits ++ (if fc % superFrames c.tilora = 0 then superHead else []) ++ bitsOfBytes frame
  let (coded, rest) := rsEncode (bits.length / 5140) bits
  let (ls, last) := lanePins c.precTx c.polTx (x.last.getD start) coded
  (ls, { bits := rest, last := some last })

end Sys2Proof.Machine
end

