-- ==== Sys2Proof/Machine/Crypto.lean ====
section
/-!
DEFINITION. The cipher, hash and check functions that the spec takes from published standards (00 R18): AES and GCM
(FIPS 197, SP 800-38D), CMAC (SP 800-38B), key wrap (RFC 3394), SHA-384 (FIPS 180-4), ECDSA P-384 (FIPS 186-5), CRC-32,
CRC-32C, CRC-64, the PRBS of the scramblers.
-/
namespace Sys2Proof.Machine

/-! AES. A block is 16 bytes; a key is 16 or 32 bytes. -/

/-- Multiply by x in GF(2^8). -/
def xtime (b : Byte) : Byte := (b <<< 1) ^^^ (if b.getLsbD 7 then 0x1B else 0)

/-- `b` times the polynomial whose low `n` bits are those of `c`. -/
def gmulAux : Nat → Byte → Byte → Byte
  | 0, _, _ => 0
  | n + 1, b, c => if c = 0 then 0 else (if c.getLsbD 0 then b else 0) ^^^ gmulAux n (xtime b) (c >>> 1)

def gmul (b c : Byte) : Byte := gmulAux 8 b c

/-- The S-box of FIPS 197: 32 entries to a row, the first in the top byte. -/
def sboxRows : List Nat :=
  [0x637C777BF26B6FC53001672BFED7AB76CA82C97DFA5947F0ADD4A2AF9CA472C0,
   0xB7FD9326363FF7CC34A5E5F171D8311504C723C31896059A071280E2EB27B275,
   0x09832C1A1B6E5AA0523BD6B329E32F8453D100ED20FCB15B6ACBBE394A4C58CF,
   0xD0EFAAFB434D338545F9027F503C9FA851A3408F929D38F5BCB6DA2110FFF3D2,
   0xCD0C13EC5F974417C4A77E3D645D197360814FDC222A908846EEB814DE5E0BDB,
   0xE0323A0A4906245CC2D3AC629195E479E7C8376D8DD54EA96C56F4EA657AAE08,
   0xBA78252E1CA6B4C6E8DD741F4BBD8B8A703EB5664803F60E613557B986C11D9E,
   0xE1F8981169D98E949B1E87E9CE5528DF8CA1890DBFE6426841992D0FB054BB16]

/-- The inverse S-box of FIPS 197: 32 entries to a row, the first in the top byte. -/
def invSboxRows : List Nat :=
  [0x52096AD53036A538BF40A39E81F3D7FB7CE339829B2FFF87348E4344C4DEE9CB,
   0x547B9432A6C2233DEE4C950B42FAC34E082EA16628D924B2765BA2496D8BD125,
   0x72F8F66486689816D4A45CCC5D65B6926C704850FDEDB9DA5E154657A78D9D84,
   0x90D8AB008CBCD30AF7E45805B8B34506D02C1E8FCA3F0F02C1AFBD0301138A6B,
   0x3A9111414F67DCEA97F2CFCEF0B4E67396AC7422E7AD3585E2F937E81C75DF6E,
   0x47F11A711D29C5896FB7620EAA18BE1BFC563E4BC6D279209ADBC0FE78CD5AF4,
   0x1FDDA8338807C731B11210592780EC5F60517FA919B54A0D2DE57A9F93C99CEF,
   0xA0E03B4DAE2AF5B0C8EBBB3C83539961172B047EBA77D626E169146355210C7D]

/-- Entry `b` of a table of such rows. -/
def tableByte (rows : List Nat) (b : Byte) : Byte :=
  BitVec.ofNat 8 (rows.getD (b.toNat / 32) 0 / 256 ^ (31 - b.toNat % 32))

def sbox (b : Byte) : Byte := tableByte sboxRows b
def invSbox (b : Byte) : Byte := tableByte invSboxRows b

/-- One more 4-byte word of the key schedule: `ws` holds the words so far, newest first. -/
def keyWord (nk i : Nat) (rcon : Byte) (ws : List Bytes) : Bytes :=
  let prev := ws.getD 0 []
  let old := ws.getD (nk - 1) []
  let t :=
    if i % nk = 0 then
      match prev.map sbox with
      | [a, b, c, d] => [b ^^^ rcon, c, d, a]
      | x => x
    else if nk > 6 ∧ i % nk = 4 then prev.map sbox
    else prev
  xorBytes old t

def keyWords (nk : Nat) : Nat → Nat → Byte → List Bytes → List Bytes
  | 0, _, _, ws => ws
  | n + 1, i, rcon, ws =>
    keyWords nk n (i + 1) (if i % nk = 0 then xtime rcon else rcon) (keyWord nk i rcon ws :: ws)

/-- Cut into pieces of `k` bytes. -/
def chunks (k : Nat) : Nat → Bytes → List Bytes
  | 0, _ => []
  | n + 1, bs => if bs.isEmpty then [] else bs.take k :: chunks k n (bs.drop k)

/-- The round keys, 16 bytes each. -/
def roundKeys (key : Bytes) : List Bytes :=
  let nk := key.length / 4
  let ws := (keyWords nk (4 * (nk + 7) - nk) nk 1 (chunks 4 nk key).reverse).reverse
  chunks 16 (nk + 7) ws.flatten

/-- ShiftRows: byte 4c + r comes from column c + r. -/
def shiftRows (s : Bytes) : Bytes := (List.range 16).map (fun i => byteAt s ((i + 4 * (i % 4)) % 16))
def invShiftRows (s : Bytes) : Bytes := (List.range 16).map (fun i => byteAt s ((i + 12 * (i % 4)) % 16))

/-- A column matrix product with the circulant of `m`. -/
def mixWith (m : List Byte) (s : Bytes) : Bytes :=
  (List.range 16).map (fun i =>
    let c := 4 * (i / 4)
    let r := i % 4
    (List.range 4).foldl (fun a j => a ^^^ gmul (byteAt s (c + j)) (m.getD ((j + 4 - r) % 4) 0)) 0)

def aesRounds : List Bytes → Bytes → Bytes
  | [], s => s
  | [k], s => xorBytes (shiftRows (s.map sbox)) k
  | k :: ks, s => aesRounds ks (xorBytes (mixWith [2, 3, 1, 1] (shiftRows (s.map sbox))) k)

/-- AES of one block. -/
def aesEnc (key blk : Bytes) : Bytes :=
  match roundKeys key with
  | [] => blk
  | k :: ks => aesRounds ks (xorBytes blk k)

def aesInvRounds : List Bytes → Bytes → Bytes
  | [], s => s
  | [k], s => xorBytes ((invShiftRows s).map invSbox) k
  | k :: ks, s => aesInvRounds ks (mixWith [14, 11, 13, 9] (xorBytes ((invShiftRows s).map invSbox) k))

/-- Inverse AES of one block. -/
def aesDec (key blk : Bytes) : Bytes :=
  match (roundKeys key).reverse with
  | [] => blk
  | k :: ks => aesInvRounds ks (xorBytes blk k)

/-! GCM. -/

/-- One step of the multiplication in GF(2^128), bit 127 of the word first. -/
def ghashMulAux : Nat → BitVec 128 → BitVec 128 → BitVec 128
  | 0, _, _ => 0
  | n + 1, v, x =>
    (if x.getLsbD n then v else 0) ^^^
      ghashMulAux n ((v >>> 1) ^^^ (if v.getLsbD 0 then (0xE1 : BitVec 128) <<< 120 else 0)) x

def ghashMul (x y : BitVec 128) : BitVec 128 := ghashMulAux 128 y x

/-- GHASH of whole 16-byte blocks; a last short block is filled with zeros. -/
def ghash (h : Bytes) (bs : Bytes) : Bytes :=
  let hv := BitVec.ofNat 128 (beVal h)
  let y := (chunks 16 (bs.length / 16 + 1) bs).foldl
    (fun y b => ghashMul (y ^^^ BitVec.ofNat 128 (beVal (padTo 16 b))) hv) 0
  beBytes 16 y.toNat

/-- Zeros up to a multiple of 16 bytes. -/
def pad16 (bs : Bytes) : Bytes := bs ++ List.replicate (16 * ceilDiv bs.length 16 - bs.length) 0

/-- Counter-mode keystream of the blocks from counter `c` on, over a 12-byte nonce. -/
def ctrStream (key nonce : Bytes) : Nat → Nat → Bytes
  | 0, _ => []
  | n + 1, c => aesEnc key (nonce ++ beBytes 4 c) ++ ctrStream key nonce n (c + 1)

def gcmCrypt (key nonce pt : Bytes) : Bytes := xorBytes pt (ctrStream key nonce (ceilDiv pt.length 16) 2)

/-- The hash subkey H. -/
def hashKey (key : Bytes) : Bytes := aesEnc key (List.replicate 16 0)

/-- The 16-byte tag over additional data and ciphertext. -/
def gcmTag (key h nonce aad ct : Bytes) : Bytes :=
  xorBytes (ghash h (pad16 aad ++ pad16 ct ++ beBytes 8 (8 * aad.length) ++ beBytes 8 (8 * ct.length)))
    (aesEnc key (nonce ++ beBytes 4 1))

/-- Ciphertext and tag. -/
def gcmSeal (key nonce aad pt : Bytes) : Bytes × Bytes :=
  let ct := gcmCrypt key nonce pt
  (ct, gcmTag key (hashKey key) nonce aad ct)

/-- The plaintext where the tag is right. -/
def gcmOpen (key nonce aad ct tag : Bytes) : Option Bytes :=
  if gcmTag key (hashKey key) nonce aad ct = tag then some (gcmCrypt key nonce ct) else none

/-! CMAC and key wrap. -/

/-- Doubling in GF(2^128) as CMAC counts bits. -/
def cmacDbl (b : Bytes) : Bytes :=
  let v := BitVec.ofNat 128 (beVal b)
  beBytes 16 ((v <<< 1) ^^^ (if v.getLsbD 127 then 0x87 else 0)).toNat

def cmacAux (key k1 k2 : Bytes) : Nat → Bytes → Bytes → Bytes
  | 0, x, _ => x
  | n + 1, x, m =>
    if m.length > 16 then cmacAux key k1 k2 n (aesEnc key (xorBytes x (m.take 16))) (m.drop 16)
    else if m.length = 16 then aesEnc key (xorBytes x (xorBytes m k1))
    else aesEnc key (xorBytes x (xorBytes (padTo 16 (m ++ [0x80])) k2))

/-- CMAC with AES. -/
def cmac (key m : Bytes) : Bytes :=
  let k1 := cmacDbl (hashKey key)
  cmacAux key k1 (cmacDbl k1) (m.length / 16 + 2) (List.replicate 16 0) m

/-- One pass of RFC 3394 over the 64-bit blocks; `t` counts the steps. -/
def wrapPass (kek : Bytes) : Nat → Bytes → List Bytes → Bytes × List Bytes
  | _, a, [] => (a, [])
  | t, a, r :: rs =>
    let b := aesEnc kek (a ++ r)
    let a' := xorBytes (b.take 8) (beBytes 8 t)
    let (a'', rs') := wrapPass kek (t + 1) a' rs
    (a'', b.drop 8 :: rs')

def wrapLoop (kek : Bytes) (n : Nat) : Nat → Nat → Bytes × List Bytes → Bytes × List Bytes
  | 0, _, ar => ar
  | k + 1, j, (a, rs) => wrapLoop kek n k (j + 1) (wrapPass kek (n * j + 1) a rs)

/-- RFC 3394 key wrap with the default initial value: 32 bytes to 40. -/
def keyWrap (kek key : Bytes) : Bytes :=
  let rs := chunks 8 (key.length / 8) key
  let (a, rs') := wrapLoop kek rs.length 6 0 (List.replicate 8 0xA6, rs)
  a ++ rs'.flatten

/-- One inverse pass, from the last block to the first: `rs` in reverse order. -/
def unwrapPass (kek : Bytes) : Nat → Bytes → List Bytes → Bytes × List Bytes
  | _, a, [] => (a, [])
  | t, a, r :: rs =>
    let b := aesDec kek (xorBytes a (beBytes 8 t) ++ r)
    let (a', rs') := unwrapPass kek (t - 1) (b.take 8) rs
    (a', b.drop 8 :: rs')

def unwrapLoop (kek : Bytes) (n : Nat) : Nat → Bytes × List Bytes → Bytes × List Bytes
  | 0, ar => ar
  | k + 1, (a, rs) => unwrapLoop kek n k (unwrapPass kek (n * (k + 1)) a rs)

/-- RFC 3394 unwrap: the key where the initial value is right. -/
def keyUnwrap (kek w : Bytes) : Option Bytes :=
  let rs := chunks 8 (w.length / 8) (w.drop 8)
  let (a, rs') := unwrapLoop kek rs.length 6 (w.take 8, rs.reverse)
  if a = List.replicate 8 0xA6 then some rs'.reverse.flatten else none

/-! SHA-384. -/

def sha512K : List (BitVec 64) :=
  [0x428a2f98d728ae22, 0x7137449123ef65cd, 0xb5c0fbcfec4d3b2f, 0xe9b5dba58189dbbc, 0x3956c25bf348b538, 0x59f111f1b605d019, 0x923f82a4af194f9b, 0xab1c5ed5da6d8118] ++
  [0xd807aa98a3030242, 0x12835b0145706fbe, 0x243185be4ee4b28c, 0x550c7dc3d5ffb4e2, 0x72be5d74f27b896f, 0x80deb1fe3b1696b1, 0x9bdc06a725c71235, 0xc19bf174cf692694] ++
  [0xe49b69c19ef14ad2, 0xefbe4786384f25e3, 0xfc19dc68b8cd5b5, 0x240ca1cc77ac9c65, 0x2de92c6f592b0275, 0x4a7484aa6ea6e483, 0x5cb0a9dcbd41fbd4, 0x76f988da831153b5] ++
  [0x983e5152ee66dfab, 0xa831c66d2db43210, 0xb00327c898fb213f, 0xbf597fc7beef0ee4, 0xc6e00bf33da88fc2, 0xd5a79147930aa725, 0x6ca6351e003826f, 0x142929670a0e6e70] ++
  [0x27b70a8546d22ffc, 0x2e1b21385c26c926, 0x4d2c6dfc5ac42aed, 0x53380d139d95b3df, 0x650a73548baf63de, 0x766a0abb3c77b2a8, 0x81c2c92e47edaee6, 0x92722c851482353b] ++
  [0xa2bfe8a14cf10364, 0xa81a664bbc423001, 0xc24b8b70d0f89791, 0xc76c51a30654be30, 0xd192e819d6ef5218, 0xd69906245565a910, 0xf40e35855771202a, 0x106aa07032bbd1b8] ++
  [0x19a4c116b8d2d0c8, 0x1e376c085141ab53, 0x2748774cdf8eeb99, 0x34b0bcb5e19b48a8, 0x391c0cb3c5c95a63, 0x4ed8aa4ae3418acb, 0x5b9cca4f7763e373, 0x682e6ff3d6b2b8a3] ++
  [0x748f82ee5defb2fc, 0x78a5636f43172f60, 0x84c87814a1f0ab72, 0x8cc702081a6439ec, 0x90befffa23631e28, 0xa4506cebde82bde9, 0xbef9a3f7b2c67915, 0xc67178f2e372532b] ++
  [0xca273eceea26619c, 0xd186b8c721c0c207, 0xeada7dd6cde0eb1e, 0xf57d4f7fee6ed178, 0x6f067aa72176fba, 0xa637dc5a2c898a6, 0x113f9804bef90dae, 0x1b710b35131c471b] ++
  [0x28db77f523047d84, 0x32caab7b40c72493, 0x3c9ebe0a15c9bebc, 0x431d67c49c100d4c, 0x4cc5d4becb3e42b6, 0x597f299cfc657e2a, 0x5fcb6fab3ad6faec, 0x6c44198c4a475817]

/-- The 80 words of the message schedule, newest first. -/
def shaSched : Nat → List (BitVec 64) → List (BitVec 64)
  | 0, w => w
  | n + 1, w =>
    let a := w.getD 1 0
    let b := w.getD 14 0
    let s1 := a.rotateRight 19 ^^^ a.rotateRight 61 ^^^ (a >>> 6)
    let s0 := b.rotateRight 1 ^^^ b.rotateRight 8 ^^^ (b >>> 7)
    shaSched n ((s1 + w.getD 6 0 + s0 + w.getD 15 0) :: w)

/-- The working variables a to h. -/
structure ShaVar where
  a : BitVec 64
  b : BitVec 64
  c : BitVec 64
  d : BitVec 64
  e : BitVec 64
  f : BitVec 64
  g : BitVec 64
  h : BitVec 64

def shaRound (v : ShaVar) (kw : BitVec 64 × BitVec 64) : ShaVar :=
  let s1 := v.e.rotateRight 14 ^^^ v.e.rotateRight 18 ^^^ v.e.rotateRight 41
  let chh := (v.e &&& v.f) ^^^ (~~~ v.e &&& v.g)
  let t1 := v.h + s1 + chh + kw.1 + kw.2
  let s0 := v.a.rotateRight 28 ^^^ v.a.rotateRight 34 ^^^ v.a.rotateRight 39
  let mj := (v.a &&& v.b) ^^^ (v.a &&& v.c) ^^^ (v.b &&& v.c)
  ⟨t1 + s0 + mj, v.a, v.b, v.c, v.d + t1, v.e, v.f, v.g⟩

def shaBlock (v : ShaVar) (blk : Bytes) : ShaVar :=
  let w := (shaSched 64 ((chunks 8 16 blk).map (fun b => BitVec.ofNat 64 (beVal b))).reverse).reverse
  let r := (sha512K.zip w).foldl shaRound v
  ⟨v.a + r.a, v.b + r.b, v.c + r.c, v.d + r.d, v.e + r.e, v.f + r.f, v.g + r.g, v.h + r.h⟩

def sha384 (m : Bytes) : Bytes :=
  let z := (240 - (m.length + 1 + 16) % 128 + 16) % 128
  let p := m ++ [0x80] ++ List.replicate z 0 ++ beBytes 16 (8 * m.length)
  let v := (chunks 128 (p.length / 128) p).foldl shaBlock
    ⟨0xcbbb9d5dc1059ed8, 0x629a292a367cd507, 0x9159015a3070dd17, 0x152fecd8f70e5939,
     0x67332667ffc00b31, 0x8eb44a8768581511, 0xdb0c2e0d64f98fa7, 0x47b5481dbefa4fa4⟩
  ([v.a, v.b, v.c, v.d, v.e, v.f].map (fun x => beBytes 8 x.toNat)).flatten

/-! ECDSA over P-384. -/

def p384P : Nat := 2 ^ 384 - 2 ^ 128 - 2 ^ 96 + 2 ^ 32 - 1
def p384N : Nat := 0xffffffffffffffffffffffffffffffffffffffffffffffffc7634d81f4372ddf581a0db248b0a77aecec196accc52973
def p384B : Nat := 0xb3312fa7e23ee7e4988e056be3f82d19181d9c6efe8141120314088f5013875ac656398d8a2ed19d2a85c8edd3ec2aef
def p384G : Nat × Nat :=
  (0xaa87ca22be8b05378eb1c71ef320ad746e1d3b628ba79b9859f741e082542a385502f25dbf55296c3a545e3872760ab7,
   0x3617de4a96262c6f5d9e98bf9292dc29f8f41dbd289a147ce9da3113b5f0b8c00a60b1ce1d7e819d7a431d7c90ea0e5f)

/-- b^e mod m over the low `n` bits of e. -/
def powMod (m : Nat) : Nat → Nat → Nat → Nat
  | 0, _, _ => 1 % m
  | n + 1, b, e => if e % 2 = 1 then b * powMod m n (b * b % m) (e / 2) % m else powMod m n (b * b % m) (e / 2)

def invMod (m a : Nat) : Nat := powMod m 384 (a % m) (m - 2)

/-- A point as (X, Y, Z), standing for (X / Z², Y / Z³); Z = 0 is the point at infinity. -/
def ecDbl (q : Nat × Nat × Nat) : Nat × Nat × Nat :=
  let p := p384P
  let (x, y, z) := q
  let yy := y * y % p
  let s := 4 * x * yy % p
  let zz := z * z % p
  let m := (3 * x * x + (p - 3) * (zz * zz)) % p
  let x3 := (m * m + 2 * (p - s)) % p
  (x3, (m * (s + p - x3) + (p - 8 * (yy * yy) % p)) % p, 2 * y * z % p)

def ecAdd (q r : Nat × Nat × Nat) : Nat × Nat × Nat :=
  let p := p384P
  let (x1, y1, z1) := q
  let (x2, y2, z2) := r
  if z1 = 0 then r
  else if z2 = 0 then q
  else
    let z1z := z1 * z1 % p
    let z2z := z2 * z2 % p
    let u1 := x1 * z2z % p
    let u2 := x2 * z1z % p
    let s1 := y1 * (z2z * z2) % p
    let s2 := y2 * (z1z * z1) % p
    if u1 = u2 then (if s1 = s2 then ecDbl q else (1, 1, 0))
    else
      let h := (u2 + p - u1) % p
      let d := (s2 + p - s1) % p
      let hh := h * h % p
      let v := u1 * hh % p
      let hhh := h * hh % p
      let x3 := (d * d + (p - hhh) + 2 * (p - v)) % p
      (x3, (d * (v + p - x3) + (p - s1 * hhh % p)) % p, h * (z1 * z2) % p)

/-- `k` times a point, over the low `n` bits of k. -/
def ecMul : Nat → Nat → Nat × Nat × Nat → Nat × Nat × Nat
  | 0, _, _ => (1, 1, 0)
  | n + 1, k, q => if k % 2 = 1 then ecAdd q (ecMul n (k / 2) (ecDbl q)) else ecMul n (k / 2) (ecDbl q)

/-- Whether (x, y) is a point of the curve. -/
def onCurve (x y : Nat) : Bool :=
  decide (x < p384P) && decide (y < p384P) && (y * y % p384P == (x * x * x + (p384P - 3) * x + p384B) % p384P)

/-- ECDSA P-384 verification of (r, s) over a 48-byte digest under the public key X ‖ Y. -/
def ecdsaVerify (pub digest sig : Bytes) : Bool :=
  let x := beVal (pub.take 48)
  let y := beVal (sub pub 48 48)
  let r := beVal (sig.take 48)
  let s := beVal (sub sig 48 48)
  if onCurve x y && decide (0 < r) && decide (r < p384N) && decide (0 < s) && decide (s < p384N) then
    let w := invMod p384N s
    let u1 := beVal digest * w % p384N
    let u2 := r * w % p384N
    let (x1, _, z1) := ecAdd (ecMul 384 u1 (p384G.1, p384G.2, 1)) (ecMul 384 u2 (x, y, 1))
    z1 != 0 && x1 * invMod p384P (z1 * z1) % p384P % p384N == r
  else false

/-! Checks. -/

def crcRefl (poly : BitVec 32) : Nat → BitVec 32 → BitVec 32
  | 0, c => c
  | n + 1, c => crcRefl poly n ((c >>> 1) ^^^ (if c.getLsbD 0 then poly else 0))

def crc32With (poly : BitVec 32) (bs : Bytes) : BitVec 32 :=
  ~~~ bs.foldl (fun c b => crcRefl poly 8 (c ^^^ b.setWidth 32)) 0xFFFFFFFF

/-- CRC-32 as for the IEEE 802.3 FCS (09 Table 9-5). -/
def crc32 (bs : Bytes) : BitVec 32 := crc32With 0xEDB88320 bs
/-- CRC-32C as RFC 3720 defines it (05 R760). -/
def crc32c (bs : Bytes) : BitVec 32 := crc32With 0x82F63B78 bs

def crc64Bits : Nat → BitVec 64 → BitVec 64
  | 0, c => c
  | n + 1, c => crc64Bits n ((c <<< 1) ^^^ (if c.getLsbD 63 then 0x42F0E1EBA9EA3693 else 0))

/-- One more byte of the digest of 12 R481, before the final inversion. -/
def crc64Step (c : BitVec 64) (b : Byte) : BitVec 64 := crc64Bits 8 (c ^^^ (b.setWidth 64 <<< 56))

def crc64 (bs : Bytes) : BitVec 64 := ~~~ bs.foldl crc64Step (BitVec.allOnes 64)

def crc7Bits : Nat → BitVec 7 → Byte → BitVec 7
  | 0, c, _ => c
  | n + 1, c, b =>
    let fb := c.getLsbD 6 != b.getLsbD n
    crc7Bits n ((c <<< 1) ^^^ (if fb then 0x09 else 0)) b

/-- CRC-7 of x^7 + x^3 + 1, initial value 0, bit 7 of each byte first (10 R412). -/
def crc7 (bs : Bytes) : BitVec 7 := bs.foldl (crc7Bits 8) 0

/-- `n` output bits of the generator x^23 + x^18 + 1 and its register after them (10 R384). -/
def scrBits : Nat → BitVec 23 → List Bool × BitVec 23
  | 0, r => ([], r)
  | n + 1, r =>
    let o := r.getLsbD 22 != r.getLsbD 17
    let (os, r') := scrBits n ((r <<< 1) ||| (if o then 1 else 0))
    (o :: os, r')

/-- A byte of eight bits, the first in bit 7. -/
def byteOfBits (bs : List Bool) : Byte := bs.foldl (fun a b => (a <<< 1) ||| (if b then 1 else 0)) 0

def scramble : BitVec 23 → Bytes → Bytes
  | _, [] => []
  | r, b :: bs =>
    let (os, r') := scrBits 8 r
    (b ^^^ byteOfBits os) :: scramble r' bs

end Sys2Proof.Machine
end

