-- ==== Sys2Proof/Machine/Memory.lean ====
section
/-!
DEFINITION. The MRAM die as a list of bytes in one canonical form: addresses strictly rising, no byte equal to 0, which is
what an unlisted address reads as (log entry 3).
-/
namespace Sys2Proof.Machine

/-- Bytes that are not 0, by address. -/
abbrev Memory := List Host.Cell

/-- The canonical form. -/
def Memory.wf : Memory → Bool
  | [] => true
  | [c] => c.2 != 0
  | c :: d :: m => c.2 != 0 && decide (c.1 < d.1) && Memory.wf (d :: m)

/-- The byte at `a`. -/
def memByte : Memory → Nat → Byte
  | [], _ => 0
  | c :: m, a => if c.1 = a then c.2 else memByte m a

/-- Store `b` at `a`. -/
def memSet : Memory → Nat → Byte → Memory
  | [], a, b => if b = 0 then [] else [(a, b)]
  | c :: m, a, b =>
    if a < c.1 then (if b = 0 then c :: m else (a, b) :: c :: m)
    else if a = c.1 then (if b = 0 then m else (a, b) :: m)
    else c :: memSet m a b

/-- `n` bytes from `a` on. -/
def memRead (m : Memory) (a : Nat) : Nat → Bytes
  | 0 => []
  | n + 1 => memByte m a :: memRead m (a + 1) n

/-- Store `bs` from `a` on. -/
def memWrite (m : Memory) (a : Nat) : Bytes → Memory
  | [] => m
  | b :: bs => memWrite (memSet m a b) (a + 1) bs

end Sys2Proof.Machine
end

