-- ==== Sys2Proof/Machine/Regs.lean ====
section
/-!
DEFINITION. The register map of PF BAR0 and of the VF pages (23 R752-R758): one address function per register, its
writable bits and reset value as its field table gives them (Table 0-2), and its update group (Table 18-1); the VF page of
instance n stands at 0x1_0000_0000 + 0x1_0000 * n, outside the 64 MiB of PF BAR0. Fields that come from the Asvas image
reset to 0 here and are filled in when it is loaded.
-/
namespace Sys2Proof.Machine

/-- One register or array of registers: its first address, the strides and counts of its indices, the bits a write
stores (RW and WO), the reset value, and the update group: none, a fixed one, or one per slice. -/
structure RegRow where
  name : String
  base : Nat
  dims : List (Nat × Nat)
  rw : Nat
  reset : Nat
  grp : Option (Bool × Nat)
  deriving DecidableEq, Repr

/-- The address of an array element. -/
def elemAddr : Nat → List (Nat × Nat) → List Nat → Nat
  | a, (st, _) :: ds, i :: is => elemAddr (a + st * i) ds is
  | a, _, _ => a

/-- Whether `a` is an element of the array at offset `off` with these dimensions (each stride a multiple of the extent
of the ones after it is not assumed: every index is tried by division within its stride). -/
def inDims : Nat → List (Nat × Nat) → Bool
  | off, [] => off == 0
  | off, (st, n) :: ds => decide (off / st < n) && inDims (off % st) ds

/-! Addresses. Indices: slice, then side or parser d, then lane or port k, then the word or entry. -/
def Reg.glbDevid : Nat := 0x0
def Reg.sdsLaneCfg (i0 i1 i2 : Nat) : Nat := 0x1000000 + 0x400000 * i0 + 0x8000 * i1 + 0x1000 * i2
def Reg.sdsLaneStat (i0 i1 i2 : Nat) : Nat := 0x1000004 + 0x400000 * i0 + 0x8000 * i1 + 0x1000 * i2
def Reg.sdsRxCtl (i0 i1 i2 : Nat) : Nat := 0x1000008 + 0x400000 * i0 + 0x8000 * i1 + 0x1000 * i2
def Reg.sdsRxRb0 (i0 i1 i2 : Nat) : Nat := 0x100000C + 0x400000 * i0 + 0x8000 * i1 + 0x1000 * i2
def Reg.sdsRxRb1 (i0 i1 i2 : Nat) : Nat := 0x1000010 + 0x400000 * i0 + 0x8000 * i1 + 0x1000 * i2
def Reg.sdsFfeRb (i0 i1 i2 : Nat) : Nat := 0x1000014 + 0x400000 * i0 + 0x8000 * i1 + 0x1000 * i2
def Reg.sdsTxffe (i0 i1 i2 : Nat) : Nat := 0x1000018 + 0x400000 * i0 + 0x8000 * i1 + 0x1000 * i2
def Reg.pcsPortCfg (i0 i1 i2 : Nat) : Nat := 0x1080000 + 0x400000 * i0 + 0x8000 * i1 + 0x1000 * i2
def Reg.pcsPortStat (i0 i1 i2 : Nat) : Nat := 0x1080004 + 0x400000 * i0 + 0x8000 * i1 + 0x1000 * i2
def Reg.pcsFcCtl (i0 i1 i2 : Nat) : Nat := 0x1080020 + 0x400000 * i0 + 0x8000 * i1 + 0x1000 * i2
def Reg.pcsFcLim (i0 i1 i2 : Nat) : Nat := 0x1080024 + 0x400000 * i0 + 0x8000 * i1 + 0x1000 * i2
def Reg.pcsFcHr (i0 i1 i2 : Nat) : Nat := 0x1080028 + 0x400000 * i0 + 0x8000 * i1 + 0x1000 * i2
def Reg.pcsFcRb (i0 i1 i2 : Nat) : Nat := 0x108002C + 0x400000 * i0 + 0x8000 * i1 + 0x1000 * i2
def Reg.pcsFiCfg (i0 i1 : Nat) : Nat := 0x1088040 + 0x400000 * i0 + 0x1000 * i1
def Reg.pcsFiSel (i0 i1 : Nat) : Nat := 0x1088044 + 0x400000 * i0 + 0x1000 * i1
def Reg.pcsFiCmd (i0 i1 : Nat) : Nat := 0x1088048 + 0x400000 * i0 + 0x1000 * i1
def Reg.pcsFiStat (i0 i1 : Nat) : Nat := 0x108804C + 0x400000 * i0 + 0x1000 * i1
def Reg.prsCfg (i0 : Nat) : Nat := 0x1200000 + 0x400000 * i0
def Reg.prsImapCmd (i0 : Nat) : Nat := 0x1200010 + 0x400000 * i0
def Reg.prsMalAct (i0 i1 : Nat) : Nat := 0x1200020 + 0x400000 * i0 + 0x4 * i1
def Reg.prsPortCfg (i0 i1 i2 : Nat) : Nat := 0x1200100 + 0x400000 * i0 + 0x1000 * i1 + 0x4 * i2
def Reg.prsCnt (i0 i1 i2 : Nat) : Nat := 0x1200200 + 0x400000 * i0 + 0x1000 * i1 + 0x4 * i2
def Reg.prsMalLast (i0 i1 : Nat) : Nat := 0x1200240 + 0x400000 * i0 + 0x1000 * i1
def Reg.clsKprof (i0 i1 i2 : Nat) : Nat := 0x1280000 + 0x400000 * i0 + 0x1000 * i1 + 0x4 * i2
def Reg.clsRuleCmd (i0 i1 : Nat) : Nat := 0x1280040 + 0x400000 * i0 + 0x1000 * i1
def Reg.clsDefault (i0 i1 : Nat) : Nat := 0x1280044 + 0x400000 * i0 + 0x1000 * i1
def Reg.clsStat (i0 i1 : Nat) : Nat := 0x1280048 + 0x400000 * i0 + 0x1000 * i1
def Reg.clsRdata (i0 i1 i2 : Nat) : Nat := 0x1280100 + 0x400000 * i0 + 0x1000 * i1 + 0x4 * i2
def Reg.clsRdata32 (i0 i1 : Nat) : Nat := 0x1280180 + 0x400000 * i0 + 0x1000 * i1
def Reg.clsRdata33 (i0 i1 : Nat) : Nat := 0x1280184 + 0x400000 * i0 + 0x1000 * i1
def Reg.clsRdata34 (i0 i1 : Nat) : Nat := 0x1280188 + 0x400000 * i0 + 0x1000 * i1
def Reg.clsRdata35 (i0 i1 : Nat) : Nat := 0x128018C + 0x400000 * i0 + 0x1000 * i1
def Reg.clsCnt (i0 i1 i2 : Nat) : Nat := 0x1280200 + 0x400000 * i0 + 0x1000 * i1 + 0x4 * i2
def Reg.clsCommit (i0 : Nat) : Nat := 0x1282000 + 0x400000 * i0
def Reg.clsVer (i0 : Nat) : Nat := 0x1282004 + 0x400000 * i0
def Reg.clsFragStat (i0 : Nat) : Nat := 0x1282008 + 0x400000 * i0
def Reg.clsRcp (i0 i1 : Nat) : Nat := 0x1282100 + 0x400000 * i0 + 0x4 * i1
def Reg.fwdTblCmd (i0 : Nat) : Nat := 0x1300000 + 0x400000 * i0
def Reg.fwdTblData (i0 i1 : Nat) : Nat := 0x1300010 + 0x400000 * i0 + 0x4 * i1
def Reg.fwdTblMask (i0 i1 : Nat) : Nat := 0x1300030 + 0x400000 * i0 + 0x4 * i1
def Reg.fwdTblMode (i0 : Nat) : Nat := 0x1300050 + 0x400000 * i0
def Reg.fwdLrnCfg (i0 : Nat) : Nat := 0x1300060 + 0x400000 * i0
def Reg.fwdLrnLim (i0 : Nat) : Nat := 0x1300064 + 0x400000 * i0
def Reg.fwdLrnStat (i0 : Nat) : Nat := 0x1300068 + 0x400000 * i0
def Reg.fwdMacStat (i0 i1 : Nat) : Nat := 0x130006C + 0x400000 * i0 + 0x4 * i1
def Reg.fwdCnt (i0 i1 : Nat) : Nat := 0x1300100 + 0x400000 * i0 + 0x4 * i1
def Reg.saeCmd (i0 : Nat) : Nat := 0x1380000 + 0x400000 * i0
def Reg.saeChData0 (i0 : Nat) : Nat := 0x1380010 + 0x400000 * i0
def Reg.saeChData1 (i0 : Nat) : Nat := 0x1380014 + 0x400000 * i0
def Reg.saeChData2 (i0 : Nat) : Nat := 0x1380018 + 0x400000 * i0
def Reg.saeChData3 (i0 : Nat) : Nat := 0x138001C + 0x400000 * i0
def Reg.saeChData4 (i0 : Nat) : Nat := 0x1380020 + 0x400000 * i0
def Reg.saeChData5 (i0 : Nat) : Nat := 0x1380024 + 0x400000 * i0
def Reg.saeChData6 (i0 : Nat) : Nat := 0x1380028 + 0x400000 * i0
def Reg.saeChData7 (i0 : Nat) : Nat := 0x138002C + 0x400000 * i0
def Reg.saeSaData0 (i0 : Nat) : Nat := 0x1380040 + 0x400000 * i0
def Reg.saeSaData1 (i0 : Nat) : Nat := 0x1380044 + 0x400000 * i0
def Reg.saeSaData2 (i0 : Nat) : Nat := 0x1380048 + 0x400000 * i0
def Reg.saeSaData3 (i0 : Nat) : Nat := 0x138004C + 0x400000 * i0
def Reg.saeSaData4 (i0 : Nat) : Nat := 0x1380050 + 0x400000 * i0
def Reg.saeSaData5 (i0 : Nat) : Nat := 0x1380054 + 0x400000 * i0
def Reg.saeSaData6 (i0 : Nat) : Nat := 0x1380058 + 0x400000 * i0
def Reg.saeSaData7 (i0 : Nat) : Nat := 0x138005C + 0x400000 * i0
def Reg.saeSaData8 (i0 : Nat) : Nat := 0x1380060 + 0x400000 * i0
def Reg.saeSaData9 (i0 : Nat) : Nat := 0x1380064 + 0x400000 * i0
def Reg.saeSaData10 (i0 : Nat) : Nat := 0x1380068 + 0x400000 * i0
def Reg.saeSaData11 (i0 : Nat) : Nat := 0x138006C + 0x400000 * i0
def Reg.saeKey (i0 i1 : Nat) : Nat := 0x1380080 + 0x400000 * i0 + 0x4 * i1
def Reg.saeLportCfg (i0 i1 : Nat) : Nat := 0x1380100 + 0x400000 * i0 + 0x4 * i1
def Reg.saeStat (i0 : Nat) : Nat := 0x1380120 + 0x400000 * i0
def Reg.saeCnt (i0 i1 : Nat) : Nat := 0x1380200 + 0x400000 * i0 + 0x4 * i1
def Reg.saeLcProf (i0 i1 : Nat) : Nat := 0x1380300 + 0x400000 * i0 + 0x4 * i1
def Reg.saeSwtTime (i0 i1 : Nat) : Nat := 0x1380340 + 0x400000 * i0 + 0x8 * i1
def Reg.saeSwtCtl (i0 i1 : Nat) : Nat := 0x1380344 + 0x400000 * i0 + 0x8 * i1
def Reg.saeLcCnt (i0 i1 : Nat) : Nat := 0x1380380 + 0x400000 * i0 + 0x4 * i1
def Reg.ctfLaneCfg (i0 i1 : Nat) : Nat := 0x1100000 + 0x400000 * i0 + 0x1000 * i1
def Reg.ctfLaneStat (i0 i1 : Nat) : Nat := 0x1100004 + 0x400000 * i0 + 0x1000 * i1
def Reg.ctfFc (i0 i1 i2 : Nat) : Nat := 0x1100010 + 0x400000 * i0 + 0x1000 * i1 + 0x4 * i2
def Reg.ctfTraceTx (i0 i1 i2 : Nat) : Nat := 0x1100040 + 0x400000 * i0 + 0x1000 * i1 + 0x4 * i2
def Reg.ctfTraceExp (i0 i1 i2 : Nat) : Nat := 0x1100080 + 0x400000 * i0 + 0x1000 * i1 + 0x4 * i2
def Reg.ctfTraceAcc (i0 i1 i2 : Nat) : Nat := 0x11000C0 + 0x400000 * i0 + 0x1000 * i1 + 0x4 * i2
def Reg.ctfCnt (i0 i1 i2 : Nat) : Nat := 0x1100100 + 0x400000 * i0 + 0x1000 * i1 + 0x4 * i2
def Reg.ctfFiCfg (i0 i1 : Nat) : Nat := 0x1100140 + 0x400000 * i0 + 0x1000 * i1
def Reg.ctfFiSel (i0 i1 : Nat) : Nat := 0x1100144 + 0x400000 * i0 + 0x1000 * i1
def Reg.ctfFiCmd (i0 i1 : Nat) : Nat := 0x1100148 + 0x400000 * i0 + 0x1000 * i1
def Reg.ctfFiStat (i0 i1 : Nat) : Nat := 0x110014C + 0x400000 * i0 + 0x1000 * i1
def Reg.ctfFsyncCfg (i0 : Nat) : Nat := 0x1108000 + 0x400000 * i0
def Reg.ctfFsyncStat (i0 : Nat) : Nat := 0x1108004 + 0x400000 * i0
def Reg.tsiTribCmd (i0 : Nat) : Nat := 0x1180000 + 0x400000 * i0
def Reg.tsiTribData0 (i0 : Nat) : Nat := 0x1180010 + 0x400000 * i0
def Reg.tsiTribData1 (i0 : Nat) : Nat := 0x1180014 + 0x400000 * i0
def Reg.tsiTribData2 (i0 : Nat) : Nat := 0x1180018 + 0x400000 * i0
def Reg.tsiTribData3 (i0 : Nat) : Nat := 0x118001C + 0x400000 * i0
def Reg.tsiTribData4 (i0 : Nat) : Nat := 0x1180020 + 0x400000 * i0
def Reg.tsiTribData5 (i0 : Nat) : Nat := 0x1180024 + 0x400000 * i0
def Reg.tsiTribData6 (i0 : Nat) : Nat := 0x1180028 + 0x400000 * i0
def Reg.tsiTribData7 (i0 : Nat) : Nat := 0x118002C + 0x400000 * i0
def Reg.tsiTribPm (i0 i1 : Nat) : Nat := 0x1180040 + 0x400000 * i0 + 0x4 * i1
def Reg.tsiPageCmd (i0 : Nat) : Nat := 0x1180100 + 0x400000 * i0
def Reg.imgStat : Nat := 0x10000
def Reg.imgVer : Nat := 0x10004
def Reg.imgBuild : Nat := 0x10008
def Reg.imgHash (i0 : Nat) : Nat := 0x10010 + 0x4 * i0
def Reg.imgCmd : Nat := 0x10040
def Reg.imgAddrLo : Nat := 0x10044
def Reg.imgAddrHi : Nat := 0x10048
def Reg.imgLen : Nat := 0x1004C
def Reg.imgSliceCmd : Nat := 0x10050
def Reg.imgSliceStat : Nat := 0x10054
def Reg.pwrDomStat : Nat := 0x20000
def Reg.pwrRstStat : Nat := 0x20004
def Reg.pwrAvsCfg (i0 : Nat) : Nat := 0x20010 + 0x4 * i0
def Reg.pwrAvsRb (i0 : Nat) : Nat := 0x20020 + 0x4 * i0
def Reg.pwrEngCtl (i0 : Nat) : Nat := 0x20040 + 0x4 * i0
def Reg.pwrEngStat (i0 : Nat) : Nat := 0x20060 + 0x4 * i0
def Reg.pwrPortRst : Nat := 0x20080
def Reg.pwrCnt (i0 : Nat) : Nat := 0x20100 + 0x4 * i0
def Reg.glbReset : Nat := 0x100
def Reg.glbUpdate : Nat := 0x10
def Reg.glbUpdateStat : Nat := 0x14
def Reg.glbUpdateDirty : Nat := 0x18
def Reg.hifPcieStat : Nat := 0x30000
def Reg.hifEvtBaseLo (i0 : Nat) : Nat := 0x30100 + 0x20 * i0
def Reg.hifEvtBaseHi (i0 : Nat) : Nat := 0x30104 + 0x20 * i0
def Reg.hifEvtCfg (i0 : Nat) : Nat := 0x30108 + 0x20 * i0
def Reg.hifEvtHead (i0 : Nat) : Nat := 0x3010C + 0x20 * i0
def Reg.hifEvtTail (i0 : Nat) : Nat := 0x30110 + 0x20 * i0
def Reg.hifEvtLost (i0 : Nat) : Nat := 0x30114 + 0x20 * i0
def Reg.hifCnt (i0 : Nat) : Nat := 0x30200 + 0x4 * i0
def Reg.ringBaseLo (i0 : Nat) : Nat := 0x31000 + 0x40 * i0
def Reg.vfRingBaseLo (i0 i1 : Nat) : Nat := 0x100011000 + 0x10000 * i0 + 0x40 * i1
def Reg.ringBaseHi (i0 : Nat) : Nat := 0x31004 + 0x40 * i0
def Reg.vfRingBaseHi (i0 i1 : Nat) : Nat := 0x100011004 + 0x10000 * i0 + 0x40 * i1
def Reg.ringCfg (i0 : Nat) : Nat := 0x31008 + 0x40 * i0
def Reg.vfRingCfg (i0 i1 : Nat) : Nat := 0x100011008 + 0x10000 * i0 + 0x40 * i1
def Reg.ringTail (i0 : Nat) : Nat := 0x3100C + 0x40 * i0
def Reg.vfRingTail (i0 i1 : Nat) : Nat := 0x10001100C + 0x10000 * i0 + 0x40 * i1
def Reg.ringHead (i0 : Nat) : Nat := 0x31010 + 0x40 * i0
def Reg.vfRingHead (i0 i1 : Nat) : Nat := 0x100011010 + 0x10000 * i0 + 0x40 * i1
def Reg.ringCtl (i0 : Nat) : Nat := 0x31014 + 0x40 * i0
def Reg.vfRingCtl (i0 i1 : Nat) : Nat := 0x100011014 + 0x10000 * i0 + 0x40 * i1
def Reg.vimCfg : Nat := 0x40000
def Reg.vimCmd : Nat := 0x40004
def Reg.vimShare0 : Nat := 0x40010
def Reg.vimShare1 : Nat := 0x40014
def Reg.vimShare2 : Nat := 0x40018
def Reg.vimShare3 : Nat := 0x4001C
def Reg.vimUse (i0 : Nat) : Nat := 0x40020 + 0x4 * i0
def Reg.vimCapAddrLo : Nat := 0x40040
def Reg.vimCapAddrHi : Nat := 0x40044
def Reg.vimCapLen : Nat := 0x40048
def Reg.vimCapNode : Nat := 0x4004C
def Reg.vimCapStat : Nat := 0x40050
def Reg.vimMbxCmd : Nat := 0x40060
def Reg.vimMbxData (i0 : Nat) : Nat := 0x40080 + 0x4 * i0
def Reg.vimLastRef : Nat := 0x400C0
def Reg.vimCnt (i0 : Nat) : Nat := 0x40100 + 0x4 * i0
def Reg.vfMbxReq (i0 i1 : Nat) : Nat := 0x100010000 + 0x10000 * i0 + 0x4 * i1
def Reg.vfMbxResp (i0 i1 : Nat) : Nat := 0x100010040 + 0x10000 * i0 + 0x4 * i1
def Reg.vfMbxCtl (i0 : Nat) : Nat := 0x100010080 + 0x10000 * i0
def Reg.meeCfg : Nat := 0xA0000
def Reg.meeStat : Nat := 0xA0004
def Reg.meeFail : Nat := 0xA0008
def Reg.meeFailLine : Nat := 0xA000C
def Reg.meeArcCmd : Nat := 0xA0010
def Reg.meeArcSel : Nat := 0xA0014
def Reg.meeArcStat : Nat := 0xA0018
def Reg.meeCnt (i0 : Nat) : Nat := 0xA0100 + 0x4 * i0
def Reg.drcCfg : Nat := 0xB0000
def Reg.drcStat : Nat := 0xB0004
def Reg.drcCtl : Nat := 0xB0008
def Reg.drcCeLast : Nat := 0xB0010
def Reg.drcCeLine : Nat := 0xB0014
def Reg.drcCnt (i0 : Nat) : Nat := 0xB0100 + 0x4 * i0
def Reg.tmpWire : Nat := 0x60000
def Reg.tmpLoopMode : Nat := 0x60004
def Reg.tmpLoop (i0 : Nat) : Nat := 0x60040 + 0x4 * i0
def Reg.tmpResp0 : Nat := 0x60010
def Reg.tmpResp1 : Nat := 0x60014
def Reg.tmpCmd : Nat := 0x60018
def Reg.tmpStat : Nat := 0x6001C
def Reg.tmpCause : Nat := 0x60020
def Reg.tmpEnv : Nat := 0x60024
def Reg.tmpCnt (i0 : Nat) : Nat := 0x60100 + 0x4 * i0
def Reg.evlCmd : Nat := 0x70000
def Reg.evlStat : Nat := 0x70004
def Reg.evlSw (i0 : Nat) : Nat := 0x70010 + 0x4 * i0
def Reg.evlRdata (i0 : Nat) : Nat := 0x70040 + 0x4 * i0
def Reg.evlVerify (i0 : Nat) : Nat := 0x70080 + 0x4 * i0
def Reg.evlBoot : Nat := 0x70090
def Reg.evlLost : Nat := 0x70094
def Reg.evlCnt0 : Nat := 0x70100
def Reg.ktrCmd : Nat := 0x80000
def Reg.ktrNodeCfg : Nat := 0x80004
def Reg.ktrStat : Nat := 0x80008
def Reg.ktrMord (i0 : Nat) : Nat := 0x80010 + 0x4 * i0
def Reg.ktrKey (i0 : Nat) : Nat := 0x80040 + 0x4 * i0
def Reg.ktrRb (i0 : Nat) : Nat := 0x80060 + 0x4 * i0
def Reg.ktrCnt (i0 : Nat) : Nat := 0x80100 + 0x4 * i0
def Reg.pnjCfg : Nat := 0x90000
def Reg.pnjStat : Nat := 0x90004
def Reg.pnjTomb (i0 : Nat) : Nat := 0x90008 + 0x4 * i0
def Reg.pnjCmd : Nat := 0x90010
def Reg.pnjFp (i0 : Nat) : Nat := 0x90014 + 0x4 * i0
def Reg.pnjRdata (i0 : Nat) : Nat := 0x90020 + 0x4 * i0
def Reg.pnjCnt (i0 : Nat) : Nat := 0x90100 + 0x4 * i0
def Reg.pnjRstat : Nat := 0x90040
def Reg.pnjLastRef : Nat := 0x90044
def Reg.tsuCfg : Nat := 0xC0000
def Reg.tsuIncNs : Nat := 0xC0004
def Reg.tsuIncFrac : Nat := 0xC0008
def Reg.tsuNowNs : Nat := 0xC0010
def Reg.tsuNowFrac : Nat := 0xC0014
def Reg.tsuAdjNs : Nat := 0xC0020
def Reg.tsuAdjFrac : Nat := 0xC0024
def Reg.tsuSlewNs : Nat := 0xC0028
def Reg.tsuSlewFrac : Nat := 0xC002C
def Reg.tsuSlewTicks : Nat := 0xC0030
def Reg.tsuCmd : Nat := 0xC0034
def Reg.tsuPpsCapNs : Nat := 0xC0040
def Reg.tsuPpsCapFrac : Nat := 0xC0044
def Reg.tsuPpsStat : Nat := 0xC0048
def Reg.tsuPpsoTime : Nat := 0xC004C
def Reg.tsuTcAdj : Nat := 0xC0050
def Reg.tsuLcal (i0 : Nat) : Nat := 0xC0100 + 0x4 * i0
def Reg.safStat : Nat := 0xC0200
def Reg.safCnt (i0 : Nat) : Nat := 0xC0210 + 0x4 * i0
def Reg.twnCfg : Nat := 0x50000
def Reg.twnCtl : Nat := 0x50004
def Reg.twnCmd : Nat := 0x50008
def Reg.twnStat : Nat := 0x5000C
def Reg.twnHealthLocal : Nat := 0x50010
def Reg.twnHealthPartner : Nat := 0x50014
def Reg.twnEpoch : Nat := 0x50018
def Reg.twnDivLast : Nat := 0x5001C
def Reg.twnCnt (i0 : Nat) : Nat := 0x50100 + 0x4 * i0
def Reg.pmuCfg : Nat := 0xD0000
def Reg.pmuBwCfg : Nat := 0xD0004
def Reg.pmuBwSub : Nat := 0xD0008
def Reg.pmuSnapCmd : Nat := 0xD0010
def Reg.pmuSnapSeq : Nat := 0xD0014
def Reg.pmuSnapNs : Nat := 0xD0018
def Reg.pmuSnapElLo : Nat := 0xD001C
def Reg.pmuSnapElHi : Nat := 0xD0020
def Reg.pmuScCmd : Nat := 0xD0040
def Reg.pmuScData (i0 : Nat) : Nat := 0xD0080 + 0x4 * i0
def Reg.pmuBwSel : Nat := 0xD0100
def Reg.pmuBwSeq : Nat := 0xD0104
def Reg.pmuBwRb (i0 : Nat) : Nat := 0xD0110 + 0x4 * i0
def Reg.pmuPcCtl (i0 : Nat) : Nat := 0xD1000 + 0x100 * i0
def Reg.pmuPcEvt (i0 i1 : Nat) : Nat := 0xD1010 + 0x100 * i0 + 0x4 * i1
def Reg.pmuCycLo (i0 : Nat) : Nat := 0xD1040 + 0x100 * i0
def Reg.pmuCycHi (i0 : Nat) : Nat := 0xD1044 + 0x100 * i0
def Reg.pmuPcLo (i0 i1 : Nat) : Nat := 0xD1050 + 0x100 * i0 + 0x8 * i1
def Reg.pmuPcHi (i0 i1 : Nat) : Nat := 0xD1054 + 0x100 * i0 + 0x8 * i1
def Reg.pmuSnap (i0 : Nat) : Nat := 0xD8000 + 0x4 * i0
def Reg.glbHalt : Nat := 0x200
def Reg.glbHaltDetail : Nat := 0x204
def Reg.glbUmberCl : Nat := 0x210
def Reg.glbUmberLl : Nat := 0x214
def Reg.glbGuard : Nat := 0x218
def Reg.glbFltCnt (i0 : Nat) : Nat := 0x300 + 0x4 * i0
def Reg.glbGpioDir : Nat := 0x400
def Reg.glbGpioOut : Nat := 0x404
def Reg.glbGpioIn : Nat := 0x408
def Reg.glbGpioFunc : Nat := 0x40C
def Reg.vfScCmd (i0 : Nat) : Nat := 0x100012010 + 0x10000 * i0
def Reg.vfScData (i0 i1 : Nat) : Nat := 0x100012200 + 0x10000 * i0 + 0x4 * i1
def Reg.vfStatLo (i0 i1 : Nat) : Nat := 0x100012100 + 0x10000 * i0 + 0x8 * i1
def Reg.vfStatHi (i0 i1 : Nat) : Nat := 0x100012104 + 0x10000 * i0 + 0x8 * i1
def Reg.vfRingErr (i0 : Nat) : Nat := 0x100012000 + 0x10000 * i0

/-- The rows of Tables 23-3 to 23-6. -/
def regRows0 : List RegRow := [
  ⟨"GLB_DEVID", 0x0, [], 0x0, 0x48321140, none⟩,
  ⟨"SDS_LANE_CFG", 0x1000000, [(0x400000, 4), (0x8000, 2), (0x1000, 8)], 0x0, 0x0, none⟩,
  ⟨"SDS_LANE_STAT", 0x1000004, [(0x400000, 4), (0x8000, 2), (0x1000, 8)], 0x0, 0x0, none⟩,
  ⟨"SDS_RX_CTL", 0x1000008, [(0x400000, 4), (0x8000, 2), (0x1000, 8)], 0xFFFFF800, 0x3FF800, some (true, 4)⟩,
  ⟨"SDS_RX_RB0", 0x100000C, [(0x400000, 4), (0x8000, 2), (0x1000, 8)], 0x0, 0x0, none⟩,
  ⟨"SDS_RX_RB1", 0x1000010, [(0x400000, 4), (0x8000, 2), (0x1000, 8)], 0x0, 0x0, none⟩,
  ⟨"SDS_FFE_RB", 0x1000014, [(0x400000, 4), (0x8000, 2), (0x1000, 8)], 0xF8000000, 0x0, none⟩,
  ⟨"SDS_TXFFE", 0x1000018, [(0x400000, 4), (0x8000, 2), (0x1000, 8)], 0x0, 0x0, none⟩,
  ⟨"PCS_PORT_CFG", 0x1080000, [(0x400000, 4), (0x8000, 2), (0x1000, 8)], 0x0, 0x0, none⟩,
  ⟨"PCS_PORT_STAT", 0x1080004, [(0x400000, 4), (0x8000, 2), (0x1000, 8)], 0x0, 0x0, none⟩,
  ⟨"PCS_FC_CTL", 0x1080020, [(0x400000, 4), (0x8000, 2), (0x1000, 8)], 0xF0FFFFFF, 0xFFFF, some (true, 4)⟩,
  ⟨"PCS_FC_LIM", 0x1080024, [(0x400000, 4), (0x8000, 2), (0x1000, 8)], 0xFFFFFFFF, 0x20000400, some (true, 4)⟩,
  ⟨"PCS_FC_HR", 0x1080028, [(0x400000, 4), (0x8000, 2), (0x1000, 8)], 0xFFFFFFFF, 0x10000100, some (true, 4)⟩,
  ⟨"PCS_FC_RB", 0x108002C, [(0x400000, 4), (0x8000, 2), (0x1000, 8)], 0x0, 0x0, none⟩,
  ⟨"PCS_FI_CFG", 0x1088040, [(0x400000, 4), (0x1000, 8)], 0xF0FFFFFF, 0x0, some (true, 4)⟩,
  ⟨"PCS_FI_SEL", 0x1088044, [(0x400000, 4), (0x1000, 8)], 0xFFFFFC7F, 0x401, some (true, 4)⟩,
  ⟨"PCS_FI_CMD", 0x1088048, [(0x400000, 4), (0x1000, 8)], 0x0, 0x0, none⟩,
  ⟨"PCS_FI_STAT", 0x108804C, [(0x400000, 4), (0x1000, 8)], 0x0, 0x0, none⟩,
  ⟨"PRS_CFG", 0x1200000, [(0x400000, 4)], 0xFFFFC000, 0x9100C000, some (true, 8)⟩,
  ⟨"PRS_IMAP_CMD", 0x1200010, [(0x400000, 4)], 0x7FFF8FF, 0x0, none⟩,
  ⟨"PRS_MAL_ACT", 0x1200020, [(0x400000, 4), (0x4, 8)], 0xFFFFFFFF, 0x0, some (true, 8)⟩,
  ⟨"PRS_PORT_CFG", 0x1200100, [(0x400000, 4), (0x1000, 2), (0x4, 8)], 0x800000FF, 0x0, some (true, 8)⟩,
  ⟨"PRS_CNT", 0x1200200, [(0x400000, 4), (0x1000, 2), (0x4, 8)], 0x0, 0x0, none⟩,
  ⟨"PRS_MAL_LAST", 0x1200240, [(0x400000, 4), (0x1000, 2)], 0x0, 0x0, none⟩,
  ⟨"CLS_KPROF", 0x1280000, [(0x400000, 4), (0x1000, 2), (0x4, 14)], 0xFF, 0xFC, none⟩,
  ⟨"CLS_RULE_CMD", 0x1280040, [(0x400000, 4), (0x1000, 2)], 0x1FFF, 0x0, none⟩,
  ⟨"CLS_DEFAULT", 0x1280044, [(0x400000, 4), (0x1000, 2)], 0xFFC00000, 0x0, some (true, 12)⟩,
  ⟨"CLS_STAT", 0x1280048, [(0x400000, 4), (0x1000, 2)], 0x0, 0x0, none⟩,
  ⟨"CLS_RDATA", 0x1280100, [(0x400000, 4), (0x1000, 2), (0x4, 32)], 0xFFFFFFFF, 0x0, none⟩,
  ⟨"CLS_RDATA_32", 0x1280180, [(0x400000, 4), (0x1000, 2)], 0xFFFF, 0x0, none⟩,
  ⟨"CLS_RDATA_33", 0x1280184, [(0x400000, 4), (0x1000, 2)], 0x0, 0x0, none⟩,
  ⟨"CLS_RDATA_34", 0x1280188, [(0x400000, 4), (0x1000, 2)], 0xFFFC0000, 0x0, none⟩,
  ⟨"CLS_RDATA_35", 0x128018C, [(0x400000, 4), (0x1000, 2)], 0x3FFF, 0x0, none⟩,
  ⟨"CLS_CNT", 0x1280200, [(0x400000, 4), (0x1000, 2), (0x4, 15)], 0x0, 0x0, none⟩,
  ⟨"CLS_COMMIT", 0x1282000, [(0x400000, 4)], 0x0, 0x0, none⟩,
  ⟨"CLS_VER", 0x1282004, [(0x400000, 4)], 0x0, 0x0, none⟩,
  ⟨"CLS_FRAG_STAT", 0x1282008, [(0x400000, 4)], 0x0, 0x0, none⟩,
  ⟨"CLS_RCP", 0x1282100, [(0x400000, 4), (0x4, 16)], 0x800007FF, 0x0, some (true, 12)⟩,
  ⟨"FWD_TBL_CMD", 0x1300000, [(0x400000, 4)], 0x423FFFF, 0x0, none⟩,
  ⟨"FWD_TBL_DATA", 0x1300010, [(0x400000, 4), (0x4, 8)], 0xFFFFFFFF, 0x0, none⟩]
def regRows1 : List RegRow := [
  ⟨"FWD_TBL_MASK", 0x1300030, [(0x400000, 4), (0x4, 8)], 0xFFFFFFFF, 0x0, none⟩,
  ⟨"FWD_TBL_MODE", 0x1300050, [(0x400000, 4)], 0xC0000000, 0x0, none⟩,
  ⟨"FWD_LRN_CFG", 0x1300060, [(0x400000, 4)], 0xFFFFFFE0, 0xFA04B20, some (true, 16)⟩,
  ⟨"FWD_LRN_LIM", 0x1300064, [(0x400000, 4)], 0xFFC7FFFF, 0x7D040000, some (true, 16)⟩,
  ⟨"FWD_LRN_STAT", 0x1300068, [(0x400000, 4)], 0x0, 0x0, none⟩,
  ⟨"FWD_MAC_STAT", 0x130006C, [(0x400000, 4), (0x4, 2)], 0x0, 0x0, none⟩,
  ⟨"FWD_CNT", 0x1300100, [(0x400000, 4), (0x4, 11)], 0x0, 0x0, none⟩,
  ⟨"SAE_CMD", 0x1380000, [(0x400000, 4)], 0x303FFF, 0x0, none⟩,
  ⟨"SAE_CH_DATA_0", 0x1380010, [(0x400000, 4)], 0x7FFE3CFF, 0x0, none⟩,
  ⟨"SAE_CH_DATA_1", 0x1380014, [(0x400000, 4)], 0xFFFFFFFF, 0x0, none⟩,
  ⟨"SAE_CH_DATA_2", 0x1380018, [(0x400000, 4)], 0xFFFFFFFF, 0x0, none⟩,
  ⟨"SAE_CH_DATA_3", 0x138001C, [(0x400000, 4)], 0xFFFFFFFF, 0x0, none⟩,
  ⟨"SAE_CH_DATA_4", 0x1380020, [(0x400000, 4)], 0x3FFF, 0x0, none⟩,
  ⟨"SAE_CH_DATA_5", 0x1380024, [(0x400000, 4)], 0xFFFDFFFF, 0x0, none⟩,
  ⟨"SAE_CH_DATA_6", 0x1380028, [(0x400000, 4)], 0xFFFFFFFF, 0x0, none⟩,
  ⟨"SAE_CH_DATA_7", 0x138002C, [(0x400000, 4)], 0xFFFFFFFF, 0x0, none⟩,
  ⟨"SAE_SA_DATA_0", 0x1380040, [(0x400000, 4)], 0xFFFFFFFF, 0x0, none⟩,
  ⟨"SAE_SA_DATA_1", 0x1380044, [(0x400000, 4)], 0xFFFFFFFF, 0x0, none⟩,
  ⟨"SAE_SA_DATA_2", 0x1380048, [(0x400000, 4)], 0xFFFFFFFF, 0x0, none⟩,
  ⟨"SAE_SA_DATA_3", 0x138004C, [(0x400000, 4)], 0xFFFFFFFF, 0x0, none⟩,
  ⟨"SAE_SA_DATA_4", 0x1380050, [(0x400000, 4)], 0xFFFFFFFF, 0x0, none⟩,
  ⟨"SAE_SA_DATA_5", 0x1380054, [(0x400000, 4)], 0xFFFFFFFF, 0x0, none⟩,
  ⟨"SAE_SA_DATA_6", 0x1380058, [(0x400000, 4)], 0x0, 0x0, none⟩,
  ⟨"SAE_SA_DATA_7", 0x138005C, [(0x400000, 4)], 0x0, 0x0, none⟩,
  ⟨"SAE_SA_DATA_8", 0x1380060, [(0x400000, 4)], 0x0, 0x0, none⟩,
  ⟨"SAE_SA_DATA_9", 0x1380064, [(0x400000, 4)], 0x0, 0x0, none⟩,
  ⟨"SAE_SA_DATA_10", 0x1380068, [(0x400000, 4)], 0x8001FFFF, 0x0, none⟩,
  ⟨"SAE_SA_DATA_11", 0x138006C, [(0x400000, 4)], 0x0, 0x0, none⟩,
  ⟨"SAE_KEY", 0x1380080, [(0x400000, 4), (0x4, 8)], 0xFFFFFFFF, 0x0, none⟩,
  ⟨"SAE_LPORT_CFG", 0x1380100, [(0x400000, 4), (0x4, 8)], 0xFFFFC000, 0x18000, some (true, 20)⟩,
  ⟨"SAE_STAT", 0x1380120, [(0x400000, 4)], 0x0, 0x0, none⟩,
  ⟨"SAE_CNT", 0x1380200, [(0x400000, 4), (0x4, 5)], 0x0, 0x0, none⟩,
  ⟨"SAE_LC_PROF", 0x1380300, [(0x400000, 4), (0x4, 4)], 0xFFFFFFFF, 0x3E807D0, some (true, 20)⟩,
  ⟨"SAE_SWT_TIME", 0x1380340, [(0x400000, 4), (0x8, 8)], 0xFFFFFFFF, 0x0, none⟩,
  ⟨"SAE_SWT_CTL", 0x1380344, [(0x400000, 4), (0x8, 8)], 0xFFFF, 0x0, none⟩,
  ⟨"SAE_LC_CNT", 0x1380380, [(0x400000, 4), (0x4, 4)], 0x0, 0x0, none⟩,
  ⟨"CTF_LANE_CFG", 0x1100000, [(0x400000, 4), (0x1000, 8)], 0xFFFFC000, 0x0, some (true, 24)⟩,
  ⟨"CTF_LANE_STAT", 0x1100004, [(0x400000, 4), (0x1000, 8)], 0x0, 0x0, none⟩,
  ⟨"CTF_FC", 0x1100010, [(0x400000, 4), (0x1000, 8), (0x4, 4)], 0x0, 0x0, none⟩,
  ⟨"CTF_TRACE_TX", 0x1100040, [(0x400000, 4), (0x1000, 8), (0x4, 16)], 0xFFFFFFFF, 0x20202020, some (true, 24)⟩]
def regRows2 : List RegRow := [
  ⟨"CTF_TRACE_EXP", 0x1100080, [(0x400000, 4), (0x1000, 8), (0x4, 4)], 0xFFFFFFFF, 0x20202020, none⟩,
  ⟨"CTF_TRACE_ACC", 0x11000C0, [(0x400000, 4), (0x1000, 8), (0x4, 16)], 0x0, 0x0, none⟩,
  ⟨"CTF_CNT", 0x1100100, [(0x400000, 4), (0x1000, 8), (0x4, 8)], 0x0, 0x0, none⟩,
  ⟨"CTF_FI_CFG", 0x1100140, [(0x400000, 4), (0x1000, 8)], 0xC0FFFFFF, 0x0, some (true, 24)⟩,
  ⟨"CTF_FI_SEL", 0x1100144, [(0x400000, 4), (0x1000, 8)], 0xFFFFF000, 0x1000, some (true, 24)⟩,
  ⟨"CTF_FI_CMD", 0x1100148, [(0x400000, 4), (0x1000, 8)], 0x0, 0x0, none⟩,
  ⟨"CTF_FI_STAT", 0x110014C, [(0x400000, 4), (0x1000, 8)], 0x0, 0x0, none⟩,
  ⟨"CTF_FSYNC_CFG", 0x1108000, [(0x400000, 4)], 0x80000000, 0x0, some (true, 24)⟩,
  ⟨"CTF_FSYNC_STAT", 0x1108004, [(0x400000, 4)], 0x0, 0x0, none⟩,
  ⟨"TSI_TRIB_CMD", 0x1180000, [(0x400000, 4)], 0xC007FF, 0x0, none⟩,
  ⟨"TSI_TRIB_DATA_0", 0x1180010, [(0x400000, 4)], 0x7FFFFFF0, 0x0, none⟩,
  ⟨"TSI_TRIB_DATA_1", 0x1180014, [(0x400000, 4)], 0xFFFF0000, 0x0, none⟩,
  ⟨"TSI_TRIB_DATA_2", 0x1180018, [(0x400000, 4)], 0xFFFFFFFF, 0x0, none⟩,
  ⟨"TSI_TRIB_DATA_3", 0x118001C, [(0x400000, 4)], 0xFFFFFFFF, 0x0, none⟩,
  ⟨"TSI_TRIB_DATA_4", 0x1180020, [(0x400000, 4)], 0xFFFFFFFF, 0x0, none⟩,
  ⟨"TSI_TRIB_DATA_5", 0x1180024, [(0x400000, 4)], 0x1FFFF, 0x0, none⟩,
  ⟨"TSI_TRIB_DATA_6", 0x1180028, [(0x400000, 4)], 0x0, 0x0, none⟩,
  ⟨"TSI_TRIB_DATA_7", 0x118002C, [(0x400000, 4)], 0x0, 0x0, none⟩,
  ⟨"TSI_TRIB_PM", 0x1180040, [(0x400000, 4), (0x4, 9)], 0x0, 0x0, none⟩,
  ⟨"TSI_PAGE_CMD", 0x1180100, [(0x400000, 4)], 0xFFF8FF, 0x0, none⟩,
  ⟨"IMG_STAT", 0x10000, [], 0x0, 0x0, none⟩,
  ⟨"IMG_VER", 0x10004, [], 0x0, 0x0, none⟩,
  ⟨"IMG_BUILD", 0x10008, [], 0x0, 0x0, none⟩,
  ⟨"IMG_HASH", 0x10010, [(0x4, 12)], 0x0, 0x0, none⟩,
  ⟨"IMG_CMD", 0x10040, [], 0xE0000, 0x0, none⟩,
  ⟨"IMG_ADDR_LO", 0x10044, [], 0xFFFFFFC0, 0x0, none⟩,
  ⟨"IMG_ADDR_HI", 0x10048, [], 0xFFFFFFFF, 0x0, none⟩,
  ⟨"IMG_LEN", 0x1004C, [], 0xFFFFFFFF, 0x0, none⟩,
  ⟨"IMG_SLICE_CMD", 0x10050, [], 0x1C00000, 0x0, none⟩,
  ⟨"IMG_SLICE_STAT", 0x10054, [], 0x0, 0x0, none⟩,
  ⟨"PWR_DOM_STAT", 0x20000, [], 0x0, 0x0, none⟩,
  ⟨"PWR_RST_STAT", 0x20004, [], 0x0, 0x0, none⟩,
  ⟨"PWR_AVS_CFG", 0x20010, [(0x4, 4)], 0xBFFFFFFF, 0x28AD488C, some (false, 29)⟩,
  ⟨"PWR_AVS_RB", 0x20020, [(0x4, 4)], 0x0, 0x2EE00000, none⟩,
  ⟨"PWR_ENG_CTL", 0x20040, [(0x4, 8)], 0xFFFFFE00, 0x15505000, some (false, 29)⟩,
  ⟨"PWR_ENG_STAT", 0x20060, [(0x4, 8)], 0x0, 0x0, none⟩,
  ⟨"PWR_PORT_RST", 0x20080, [], 0x3F00000, 0x0, none⟩,
  ⟨"PWR_CNT", 0x20100, [(0x4, 3)], 0x0, 0x0, none⟩,
  ⟨"GLB_RESET", 0x100, [], 0xFF, 0x0, none⟩,
  ⟨"GLB_UPDATE", 0x10, [], 0xFFFFFFFF, 0x0, none⟩]
def regRows3 : List RegRow := [
  ⟨"GLB_UPDATE_STAT", 0x14, [], 0x0, 0x0, none⟩,
  ⟨"GLB_UPDATE_DIRTY", 0x18, [], 0x0, 0x0, none⟩,
  ⟨"HIF_PCIE_STAT", 0x30000, [], 0x0, 0x0, none⟩,
  ⟨"HIF_EVT_BASE_LO", 0x30100, [(0x20, 4)], 0xFFFFFFE0, 0x0, none⟩,
  ⟨"HIF_EVT_BASE_HI", 0x30104, [(0x20, 4)], 0xFFFFFFFF, 0x0, none⟩,
  ⟨"HIF_EVT_CFG", 0x30108, [(0x20, 4)], 0xBFFF8000, 0xC000000, none⟩,
  ⟨"HIF_EVT_HEAD", 0x3010C, [(0x20, 4)], 0xFFFF, 0x0, none⟩,
  ⟨"HIF_EVT_TAIL", 0x30110, [(0x20, 4)], 0x0, 0x0, none⟩,
  ⟨"HIF_EVT_LOST", 0x30114, [(0x20, 4)], 0x0, 0x0, none⟩,
  ⟨"HIF_CNT", 0x30200, [(0x4, 3)], 0x0, 0x0, none⟩,
  ⟨"RING_BASE_LO", 0x31000, [(0x40, 16)], 0xFFFFFFC0, 0x0, none⟩,
  ⟨"VF_RING_BASE_LO", 0x100011000, [(0x10000, 255), (0x40, 16)], 0xFFFFFFC0, 0x0, none⟩,
  ⟨"RING_BASE_HI", 0x31004, [(0x40, 16)], 0xFFFFFFFF, 0x0, none⟩,
  ⟨"VF_RING_BASE_HI", 0x100011004, [(0x10000, 255), (0x40, 16)], 0xFFFFFFFF, 0x0, none⟩,
  ⟨"RING_CFG", 0x31008, [(0x40, 16)], 0xFFFFC000, 0x30000000, none⟩,
  ⟨"VF_RING_CFG", 0x100011008, [(0x10000, 255), (0x40, 16)], 0xFFFFC000, 0x30000000, none⟩,
  ⟨"RING_TAIL", 0x3100C, [(0x40, 16)], 0xFFFF, 0x0, none⟩,
  ⟨"VF_RING_TAIL", 0x10001100C, [(0x10000, 255), (0x40, 16)], 0xFFFF, 0x0, none⟩,
  ⟨"RING_HEAD", 0x31010, [(0x40, 16)], 0x0, 0x0, none⟩,
  ⟨"VF_RING_HEAD", 0x100011010, [(0x10000, 255), (0x40, 16)], 0x0, 0x0, none⟩,
  ⟨"RING_CTL", 0x31014, [(0x40, 16)], 0x80000000, 0x0, none⟩,
  ⟨"VF_RING_CTL", 0x100011014, [(0x10000, 255), (0x40, 16)], 0x80000000, 0x0, none⟩,
  ⟨"VIM_CFG", 0x40000, [], 0x0, 0x0, none⟩,
  ⟨"VIM_CMD", 0x40004, [], 0x300FF, 0x0, none⟩,
  ⟨"VIM_SHARE_0", 0x40010, [], 0xFF01FFFF, 0x0, none⟩,
  ⟨"VIM_SHARE_1", 0x40014, [], 0xFFFFFFFF, 0x0, none⟩,
  ⟨"VIM_SHARE_2", 0x40018, [], 0x3FFF, 0x0, none⟩,
  ⟨"VIM_SHARE_3", 0x4001C, [], 0x7FFFFF, 0x0, none⟩,
  ⟨"VIM_USE", 0x40020, [(0x4, 4)], 0x0, 0x0, none⟩,
  ⟨"VIM_CAP_ADDR_LO", 0x40040, [], 0xFFFFFFC0, 0x0, none⟩,
  ⟨"VIM_CAP_ADDR_HI", 0x40044, [], 0xFFFFFFFF, 0x0, none⟩,
  ⟨"VIM_CAP_LEN", 0x40048, [], 0xFFFFFFFF, 0x0, none⟩,
  ⟨"VIM_CAP_NODE", 0x4004C, [], 0x1FFFF, 0x0, none⟩,
  ⟨"VIM_CAP_STAT", 0x40050, [], 0x0, 0x0, none⟩,
  ⟨"VIM_MBX_CMD", 0x40060, [], 0xFF, 0x0, none⟩,
  ⟨"VIM_MBX_DATA", 0x40080, [(0x4, 16)], 0xFFFFFFFF, 0x0, none⟩,
  ⟨"VIM_LAST_REF", 0x400C0, [], 0x0, 0x0, none⟩,
  ⟨"VIM_CNT", 0x40100, [(0x4, 8)], 0x0, 0x0, none⟩,
  ⟨"VF_MBX_REQ", 0x100010000, [(0x10000, 255), (0x4, 16)], 0xFFFFFFFF, 0x0, none⟩,
  ⟨"VF_MBX_RESP", 0x100010040, [(0x10000, 255), (0x4, 16)], 0x0, 0x0, none⟩]
def regRows4 : List RegRow := [
  ⟨"VF_MBX_CTL", 0x100010080, [(0x10000, 255)], 0x0, 0x0, none⟩,
  ⟨"MEE_CFG", 0xA0000, [], 0x0, 0x0, none⟩,
  ⟨"MEE_STAT", 0xA0004, [], 0x0, 0x0, none⟩,
  ⟨"MEE_FAIL", 0xA0008, [], 0x0, 0x0, none⟩,
  ⟨"MEE_FAIL_LINE", 0xA000C, [], 0x0, 0x0, none⟩,
  ⟨"MEE_ARC_CMD", 0xA0010, [], 0xFFFFF, 0x0, none⟩,
  ⟨"MEE_ARC_SEL", 0xA0014, [], 0xFFFFC000, 0x0, none⟩,
  ⟨"MEE_ARC_STAT", 0xA0018, [], 0x0, 0x0, none⟩,
  ⟨"MEE_CNT", 0xA0100, [(0x4, 6)], 0x0, 0x0, none⟩,
  ⟨"DRC_CFG", 0xB0000, [], 0x0, 0x0, none⟩,
  ⟨"DRC_STAT", 0xB0004, [], 0x0, 0x0, none⟩,
  ⟨"DRC_CTL", 0xB0008, [], 0xFF00FFFF, 0x8C000010, some (false, 28)⟩,
  ⟨"DRC_CE_LAST", 0xB0010, [], 0x0, 0x0, none⟩,
  ⟨"DRC_CE_LINE", 0xB0014, [], 0x0, 0x0, none⟩,
  ⟨"DRC_CNT", 0xB0100, [(0x4, 7)], 0x0, 0x0, none⟩,
  ⟨"TMP_WIRE", 0x60000, [], 0x0, 0x0, none⟩,
  ⟨"TMP_LOOP_MODE", 0x60004, [], 0x0, 0x0, none⟩,
  ⟨"TMP_LOOP", 0x60040, [(0x4, 16)], 0x0, 0x0, none⟩,
  ⟨"TMP_RESP_0", 0x60010, [], 0xFFFFFFFF, 0x0, none⟩,
  ⟨"TMP_RESP_1", 0x60014, [], 0xFFFFFFF, 0x0, none⟩,
  ⟨"TMP_CMD", 0x60018, [], 0x0, 0x0, none⟩,
  ⟨"TMP_STAT", 0x6001C, [], 0x0, 0x0, none⟩,
  ⟨"TMP_CAUSE", 0x60020, [], 0x0, 0x0, none⟩,
  ⟨"TMP_ENV", 0x60024, [], 0x0, 0x0, none⟩,
  ⟨"TMP_CNT", 0x60100, [(0x4, 4)], 0x0, 0x0, none⟩,
  ⟨"EVL_CMD", 0x70000, [], 0xFFFF, 0x0, none⟩,
  ⟨"EVL_STAT", 0x70004, [], 0x0, 0x0, none⟩,
  ⟨"EVL_SW", 0x70010, [(0x4, 6)], 0xFFFFFFFF, 0x0, none⟩,
  ⟨"EVL_RDATA", 0x70040, [(0x4, 16)], 0x0, 0x0, none⟩,
  ⟨"EVL_VERIFY", 0x70080, [(0x4, 4)], 0x0, 0x0, none⟩,
  ⟨"EVL_BOOT", 0x70090, [], 0x0, 0x0, none⟩,
  ⟨"EVL_LOST", 0x70094, [], 0x0, 0x0, none⟩,
  ⟨"EVL_CNT_0", 0x70100, [], 0x0, 0x0, none⟩,
  ⟨"KTR_CMD", 0x80000, [], 0x81FFFF, 0x0, none⟩,
  ⟨"KTR_NODE_CFG", 0x80004, [], 0xFFFDFFFF, 0x0, none⟩,
  ⟨"KTR_STAT", 0x80008, [], 0x0, 0x0, none⟩,
  ⟨"KTR_MORD", 0x80010, [(0x4, 8)], 0xFFFFFFFF, 0x0, none⟩,
  ⟨"KTR_KEY", 0x80040, [(0x4, 8)], 0xFFFFFFFF, 0x0, none⟩,
  ⟨"KTR_RB", 0x80060, [(0x4, 4)], 0x0, 0x0, none⟩,
  ⟨"KTR_CNT", 0x80100, [(0x4, 4)], 0x0, 0x0, none⟩]
def regRows5 : List RegRow := [
  ⟨"PNJ_CFG", 0x90000, [], 0xFFFF0000, 0xC6310000, some (false, 2)⟩,
  ⟨"PNJ_STAT", 0x90004, [], 0x0, 0x0, none⟩,
  ⟨"PNJ_TOMB", 0x90008, [(0x4, 2)], 0x0, 0x0, none⟩,
  ⟨"PNJ_CMD", 0x90010, [], 0x3FFFF, 0x0, none⟩,
  ⟨"PNJ_FP", 0x90014, [(0x4, 3)], 0xFFFFFFFF, 0x0, none⟩,
  ⟨"PNJ_RDATA", 0x90020, [(0x4, 8)], 0x0, 0x0, none⟩,
  ⟨"PNJ_CNT", 0x90100, [(0x4, 8)], 0x0, 0x0, none⟩,
  ⟨"PNJ_RSTAT", 0x90040, [], 0x0, 0x0, none⟩,
  ⟨"PNJ_LAST_REF", 0x90044, [], 0x0, 0x0, none⟩,
  ⟨"TSU_CFG", 0xC0000, [], 0xFFF00000, 0x6400000, some (false, 3)⟩,
  ⟨"TSU_INC_NS", 0xC0004, [], 0xF, 0x1, some (false, 3)⟩,
  ⟨"TSU_INC_FRAC", 0xC0008, [], 0xFFFFFFFF, 0x40000000, some (false, 3)⟩,
  ⟨"TSU_NOW_NS", 0xC0010, [], 0x0, 0x0, none⟩,
  ⟨"TSU_NOW_FRAC", 0xC0014, [], 0x0, 0x0, none⟩,
  ⟨"TSU_ADJ_NS", 0xC0020, [], 0xFFFFFFFF, 0x0, none⟩,
  ⟨"TSU_ADJ_FRAC", 0xC0024, [], 0xFFFFFFFF, 0x0, none⟩,
  ⟨"TSU_SLEW_NS", 0xC0028, [], 0xF, 0x1, none⟩,
  ⟨"TSU_SLEW_FRAC", 0xC002C, [], 0xFFFFFFFF, 0x40000000, none⟩,
  ⟨"TSU_SLEW_TICKS", 0xC0030, [], 0xFFFFFFFF, 0x0, none⟩,
  ⟨"TSU_CMD", 0xC0034, [], 0x18000000, 0x0, none⟩,
  ⟨"TSU_PPS_CAP_NS", 0xC0040, [], 0x0, 0x0, none⟩,
  ⟨"TSU_PPS_CAP_FRAC", 0xC0044, [], 0x0, 0x0, none⟩,
  ⟨"TSU_PPS_STAT", 0xC0048, [], 0x0, 0x0, none⟩,
  ⟨"TSU_PPSO_TIME", 0xC004C, [], 0xFFFFFFFF, 0x0, none⟩,
  ⟨"TSU_TC_ADJ", 0xC0050, [], 0xFFFFFFFF, 0x0, some (false, 3)⟩,
  ⟨"TSU_LCAL", 0xC0100, [(0x4, 32)], 0xFFFF, 0x0, some (false, 3)⟩,
  ⟨"SAF_STAT", 0xC0200, [], 0x0, 0x0, none⟩,
  ⟨"SAF_CNT", 0xC0210, [(0x4, 11)], 0x0, 0x0, none⟩,
  ⟨"TWN_CFG", 0x50000, [], 0x0, 0x0, none⟩,
  ⟨"TWN_CTL", 0x50004, [], 0x1FFFF, 0x0, some (false, 1)⟩,
  ⟨"TWN_CMD", 0x50008, [], 0x0, 0x0, none⟩,
  ⟨"TWN_STAT", 0x5000C, [], 0x0, 0x0, none⟩,
  ⟨"TWN_HEALTH_LOCAL", 0x50010, [], 0x0, 0x0, none⟩,
  ⟨"TWN_HEALTH_PARTNER", 0x50014, [], 0x0, 0x0, none⟩,
  ⟨"TWN_EPOCH", 0x50018, [], 0x0, 0x0, none⟩,
  ⟨"TWN_DIV_LAST", 0x5001C, [], 0x0, 0x0, none⟩,
  ⟨"TWN_CNT", 0x50100, [(0x4, 9)], 0x0, 0x0, none⟩,
  ⟨"PMU_CFG", 0xD0000, [], 0xFFE00000, 0x19200000, some (false, 30)⟩,
  ⟨"PMU_BW_CFG", 0xD0004, [], 0x800FFFFF, 0x3E8, some (false, 30)⟩,
  ⟨"PMU_BW_SUB", 0xD0008, [], 0xFFFFF, 0xA, some (false, 30)⟩]
def regRows6 : List RegRow := [
  ⟨"PMU_SNAP_CMD", 0xD0010, [], 0x0, 0x0, none⟩,
  ⟨"PMU_SNAP_SEQ", 0xD0014, [], 0x0, 0x0, none⟩,
  ⟨"PMU_SNAP_NS", 0xD0018, [], 0x0, 0x0, none⟩,
  ⟨"PMU_SNAP_EL_LO", 0xD001C, [], 0x0, 0x0, none⟩,
  ⟨"PMU_SNAP_EL_HI", 0xD0020, [], 0x0, 0x0, none⟩,
  ⟨"PMU_SC_CMD", 0xD0040, [], 0x18F03FFF, 0x0, none⟩,
  ⟨"PMU_SC_DATA", 0xD0080, [(0x4, 26)], 0x0, 0x0, none⟩,
  ⟨"PMU_BW_SEL", 0xD0100, [], 0x3F, 0x0, none⟩,
  ⟨"PMU_BW_SEQ", 0xD0104, [], 0x0, 0x0, none⟩,
  ⟨"PMU_BW_RB", 0xD0110, [(0x4, 16)], 0x0, 0x0, none⟩,
  ⟨"PMU_PC_CTL", 0xD1000, [(0x100, 4)], 0x0, 0x0, none⟩,
  ⟨"PMU_PC_EVT", 0xD1010, [(0x100, 4), (0x4, 8)], 0xFFF, 0x0, some (false, 30)⟩,
  ⟨"PMU_CYC_LO", 0xD1040, [(0x100, 4)], 0x0, 0x0, none⟩,
  ⟨"PMU_CYC_HI", 0xD1044, [(0x100, 4)], 0x0, 0x0, none⟩,
  ⟨"PMU_PC_LO", 0xD1050, [(0x100, 4), (0x8, 8)], 0x0, 0x0, none⟩,
  ⟨"PMU_PC_HI", 0xD1054, [(0x100, 4), (0x8, 8)], 0x0, 0x0, none⟩,
  ⟨"PMU_SNAP", 0xD8000, [(0x4, 6272)], 0x0, 0x0, none⟩,
  ⟨"GLB_HALT", 0x200, [], 0x0, 0x0, none⟩,
  ⟨"GLB_HALT_DETAIL", 0x204, [], 0x0, 0x0, none⟩,
  ⟨"GLB_UMBER_CL", 0x210, [], 0xFFFFFFFF, 0x0, none⟩,
  ⟨"GLB_UMBER_LL", 0x214, [], 0xFFFFFFFF, 0x0, none⟩,
  ⟨"GLB_GUARD", 0x218, [], 0x0, 0x0, none⟩,
  ⟨"GLB_FLT_CNT", 0x300, [(0x4, 5)], 0x0, 0x0, none⟩,
  ⟨"GLB_GPIO_DIR", 0x400, [], 0xFFFF, 0x0, none⟩,
  ⟨"GLB_GPIO_OUT", 0x404, [], 0xFFFF, 0x0, none⟩,
  ⟨"GLB_GPIO_IN", 0x408, [], 0x0, 0x0, none⟩,
  ⟨"GLB_GPIO_FUNC", 0x40C, [], 0xFFFFFFFF, 0x0, none⟩,
  ⟨"VF_SC_CMD", 0x100012010, [(0x10000, 255)], 0x18F03FFF, 0x0, none⟩,
  ⟨"VF_SC_DATA", 0x100012200, [(0x10000, 255), (0x4, 26)], 0x0, 0x0, none⟩,
  ⟨"VF_STAT_LO", 0x100012100, [(0x10000, 255), (0x8, 8)], 0x0, 0x0, none⟩,
  ⟨"VF_STAT_HI", 0x100012104, [(0x10000, 255), (0x8, 8)], 0x0, 0x0, none⟩,
  ⟨"VF_RING_ERR", 0x100012000, [(0x10000, 255)], 0x0, 0x0, none⟩]
def regRows : List RegRow := regRows0 ++ regRows1 ++ regRows2 ++ regRows3 ++ regRows4 ++ regRows5 ++ regRows6

/-- The row that address `a` belongs to, if any (23 R752). -/
def regRow? (a : Nat) : Option RegRow :=
  regRows.find? (fun r => decide (r.base ≤ a) && inDims (a - r.base) r.dims)

/-- The number of the update group of the register at `a` (Table 18-1): the fixed one, or the base plus the slice. -/
def groupOf (a : Nat) (r : RegRow) : Option Nat :=
  match r.grp with
  | none => none
  | some (false, g) => some g
  | some (true, b) => some (b + (a - 0x1000000) / 0x400000)

/-- The reset value of the register at `a`; 0 where there is none (18 R644). -/
def regReset (a : Nat) : Word :=
  match regRow? a with
  | some r => BitVec.ofNat 32 r.reset
  | none => 0

/-- The bits that a write to the register at `a` stores; 0 where there is none. -/
def rwMask (a : Nat) : Nat := match regRow? a with | some r => r.rw | none => 0

/-- The slice whose range holds address `a` (23 R754). -/
def sliceOfAddr (a : Nat) : Option (Fin 4) :=
  if h : 0x1000000 ≤ a ∧ a < 0x2000000 then some ⟨(a - 0x1000000) / 0x400000, by omega⟩ else none

/-! Fields, as the field tables of the registers give them. -/
def Fld.glbDevid_PART : Field := ⟨31, 16⟩
def Fld.glbDevid_STEP_MAJOR : Field := ⟨15, 12⟩
def Fld.glbDevid_STEP_MINOR : Field := ⟨11, 8⟩
def Fld.glbDevid_SLICES : Field := ⟨7, 4⟩
def Fld.sdsLaneCfg_ENABLED : Field := ⟨31, 31⟩
def Fld.sdsLaneCfg_RATE : Field := ⟨30, 28⟩
def Fld.sdsLaneCfg_MODE_CTF : Field := ⟨27, 27⟩
def Fld.sdsLaneCfg_PRECODE_TX : Field := ⟨26, 26⟩
def Fld.sdsLaneCfg_PRECODE_RX : Field := ⟨25, 25⟩
def Fld.sdsLaneCfg_POL_TX : Field := ⟨24, 24⟩
def Fld.sdsLaneCfg_POL_RX : Field := ⟨23, 23⟩
def Fld.sdsLaneStat_STATE : Field := ⟨31, 29⟩
def Fld.sdsLaneStat_PRECODE_DET : Field := ⟨28, 28⟩
def Fld.sdsLaneStat_PRECODE_MISMATCH : Field := ⟨27, 27⟩
def Fld.sdsLaneStat_EQ_AT_LIMIT : Field := ⟨26, 26⟩
def Fld.sdsLaneStat_SIG_DET : Field := ⟨25, 25⟩
def Fld.sdsLaneStat_RETRIES : Field := ⟨15, 0⟩
def Fld.sdsRxCtl_PRECODE_AUTO : Field := ⟨31, 31⟩
def Fld.sdsRxCtl_FRZ_CTLE : Field := ⟨30, 30⟩
def Fld.sdsRxCtl_FRZ_FFE : Field := ⟨29, 29⟩
def Fld.sdsRxCtl_FRZ_DFE : Field := ⟨28, 28⟩
def Fld.sdsRxCtl_FRZ_THR : Field := ⟨27, 27⟩
def Fld.sdsRxCtl_CTLE_MIN : Field := ⟨26, 22⟩
def Fld.sdsRxCtl_CTLE_MAX : Field := ⟨21, 17⟩
def Fld.sdsRxCtl_DFE_MAX : Field := ⟨16, 11⟩
def Fld.sdsRxRb_CTLE : Field := ⟨31, 27⟩
def Fld.sdsRxRb_DFE : Field := ⟨26, 21⟩
def Fld.sdsRxRb_SNR : Field := ⟨15, 0⟩
def Fld.sdsRxRb_THR_HI : Field := ⟨29, 20⟩
def Fld.sdsRxRb_THR_MID : Field := ⟨19, 10⟩
def Fld.sdsRxRb_THR_LO : Field := ⟨9, 0⟩
def Fld.sdsFfeRb_TAP_IDX : Field := ⟨31, 27⟩
def Fld.sdsFfeRb_TAP : Field := ⟨9, 0⟩
def Fld.sdsTxffe_C_M2 : Field := ⟨31, 24⟩
def Fld.sdsTxffe_C_M1 : Field := ⟨23, 16⟩
def Fld.sdsTxffe_C_0 : Field := ⟨15, 8⟩
def Fld.sdsTxffe_C_P1 : Field := ⟨7, 0⟩
def Fld.pcsPortCfg_ENABLED : Field := ⟨31, 31⟩
def Fld.pcsPortCfg_WIDTH : Field := ⟨30, 29⟩
def Fld.pcsPortCfg_SPEED : Field := ⟨28, 25⟩
def Fld.pcsPortCfg_FEC : Field := ⟨24, 23⟩
def Fld.pcsPortCfg_L1 : Field := ⟨22, 22⟩
def Fld.pcsPortCfg_PAIR : Field := ⟨21, 19⟩
def Fld.pcsPortCfg_FAULT_PROP : Field := ⟨18, 18⟩
def Fld.pcsPortCfg_PAIRED : Field := ⟨17, 17⟩
def Fld.pcsPortStat_UP : Field := ⟨31, 31⟩
def Fld.pcsPortStat_LOCAL_FAULT : Field := ⟨30, 30⟩
def Fld.pcsPortStat_REMOTE_FAULT : Field := ⟨29, 29⟩
def Fld.pcsPortStat_HI_BER : Field := ⟨28, 28⟩
def Fld.pcsPortStat_DESKEW_FAIL : Field := ⟨27, 27⟩
def Fld.pcsPortStat_XOFF : Field := ⟨26, 26⟩
def Fld.pcsPortStat_PFC_XOFF : Field := ⟨25, 18⟩
def Fld.pcsFcCtl_MODE : Field := ⟨31, 30⟩
def Fld.pcsFcCtl_RX_HONOUR : Field := ⟨29, 29⟩
def Fld.pcsFcCtl_FRZ_HR : Field := ⟨28, 28⟩
def Fld.pcsFcCtl_PRI_EN : Field := ⟨23, 16⟩
def Fld.pcsFcCtl_QUANTA : Field := ⟨15, 0⟩
def Fld.pcsFcLim_PORT_CELLS : Field := ⟨31, 16⟩
def Fld.pcsFcLim_XON_GAP : Field := ⟨15, 0⟩
def Fld.pcsFcHr_HR_MAX : Field := ⟨31, 16⟩
def Fld.pcsFcHr_HR_MIN : Field := ⟨15, 0⟩
def Fld.pcsFcRb_HEADROOM : Field := ⟨31, 16⟩
def Fld.pcsFcRb_RESP : Field := ⟨15, 0⟩
def Fld.pcsFiCfg_ACTION : Field := ⟨31, 30⟩
def Fld.pcsFiCfg_DIR : Field := ⟨29, 29⟩
def Fld.pcsFiCfg_TARGET : Field := ⟨28, 28⟩
def Fld.pcsFiCfg_N_MINUS_1 : Field := ⟨23, 0⟩
def Fld.pcsFiSel_OFFSET : Field := ⟨31, 18⟩
def Fld.pcsFiSel_BITMASK : Field := ⟨17, 10⟩
def Fld.pcsFiSel_HOLD_M : Field := ⟨6, 0⟩
def Fld.pcsFiCmd_ARM : Field := ⟨31, 31⟩
def Fld.pcsFiCmd_DISARM : Field := ⟨30, 30⟩
def Fld.pcsFiStat_RESULT : Field := ⟨31, 28⟩
def Fld.pcsFiStat_ARMED : Field := ⟨27, 27⟩
def Fld.pcsFiStat_COUNT : Field := ⟨23, 0⟩
def Fld.prsCfg_TPID_ALT : Field := ⟨31, 16⟩
def Fld.prsCfg_VXLAN_EN : Field := ⟨15, 15⟩
def Fld.prsCfg_GTPU_EN : Field := ⟨14, 14⟩
def Fld.prsImapCmd_BUSY : Field := ⟨31, 31⟩
def Fld.prsImapCmd_OP : Field := ⟨30, 29⟩
def Fld.prsImapCmd_RESULT : Field := ⟨28, 27⟩
def Fld.prsImapCmd_SIDE : Field := ⟨26, 26⟩
def Fld.prsImapCmd_PORT : Field := ⟨25, 23⟩
def Fld.prsImapCmd_VID : Field := ⟨22, 11⟩
def Fld.prsImapCmd_INST : Field := ⟨7, 0⟩
def Fld.prsMalAct_SLOW : Field := ⟨31, 0⟩
def Fld.prsPortCfg_INST_MODE : Field := ⟨31, 31⟩
def Fld.prsPortCfg_INST : Field := ⟨7, 0⟩
def Fld.prsCnt_COUNT : Field := ⟨31, 0⟩
def Fld.prsMalLast_REASON : Field := ⟨31, 28⟩
def Fld.prsMalLast_PASS2 : Field := ⟨27, 27⟩
def Fld.prsMalLast_RECIRC : Field := ⟨26, 26⟩
def Fld.prsMalLast_PORT : Field := ⟨25, 23⟩
def Fld.prsMalLast_OFFSET : Field := ⟨16, 8⟩
def Fld.prsMalLast_INSTANCE : Field := ⟨7, 0⟩
def Fld.clsKprof_FIELD : Field := ⟨7, 2⟩
def Fld.clsKprof_WORD : Field := ⟨1, 0⟩
def Fld.clsRuleCmd_BUSY : Field := ⟨31, 31⟩
def Fld.clsRuleCmd_OP : Field := ⟨30, 28⟩
def Fld.clsRuleCmd_RESULT : Field := ⟨27, 24⟩
def Fld.clsRuleCmd_INDEX : Field := ⟨12, 0⟩
def Fld.clsDefault_ACT_CLEAR : Field := ⟨31, 30⟩
def Fld.clsDefault_Q_CLEAR : Field := ⟨29, 27⟩
def Fld.clsDefault_ACT_VERIFIED : Field := ⟨26, 25⟩
def Fld.clsDefault_Q_VERIFIED : Field := ⟨24, 22⟩
def Fld.clsStat_KPROF_LOCKED : Field := ⟨31, 31⟩
def Fld.clsStat_USED : Field := ⟨13, 0⟩
def Fld.clsRdata_VALID : Field := ⟨31, 31⟩
def Fld.clsRdata_ADD_DONE : Field := ⟨30, 30⟩
def Fld.clsRdata_RETIRED : Field := ⟨29, 29⟩
def Fld.clsRdata_PRIO : Field := ⟨15, 0⟩
def Fld.clsRdata_ADD_VER : Field := ⟨31, 16⟩
def Fld.clsRdata_DEL_VER : Field := ⟨15, 0⟩
def Fld.clsRdata_ACTION : Field := ⟨31, 28⟩
def Fld.clsRdata_TC : Field := ⟨27, 27⟩
def Fld.clsRdata_QUEUE : Field := ⟨26, 24⟩
def Fld.clsRdata_RCP : Field := ⟨23, 20⟩
def Fld.clsRdata_LPM_INNER : Field := ⟨19, 19⟩
def Fld.clsRdata_MISS : Field := ⟨18, 18⟩
def Fld.clsRdata_CHANNEL : Field := ⟨13, 0⟩
def Fld.clsCnt_COUNT : Field := ⟨31, 0⟩
def Fld.clsCommit_COMMIT : Field := ⟨31, 31⟩
def Fld.clsCommit_RESULT : Field := ⟨27, 24⟩
def Fld.clsVer_CURRENT : Field := ⟨31, 16⟩
def Fld.clsVer_OLDEST : Field := ⟨15, 0⟩
def Fld.clsFragStat_USED : Field := ⟨12, 0⟩
def Fld.clsRcp_EN : Field := ⟨31, 31⟩
def Fld.clsRcp_LPORT : Field := ⟨10, 8⟩
def Fld.clsRcp_INST : Field := ⟨7, 0⟩
def Fld.fwdTblCmd_BUSY : Field := ⟨31, 31⟩
def Fld.fwdTblCmd_OP : Field := ⟨30, 27⟩
def Fld.fwdTblCmd_TBL : Field := ⟨26, 26⟩
def Fld.fwdTblCmd_RESULT : Field := ⟨25, 22⟩
def Fld.fwdTblCmd_STATIC_TOO : Field := ⟨21, 21⟩
def Fld.fwdTblCmd_INDEX : Field := ⟨17, 0⟩
def Fld.fwdTblMode_MAC_MAINT_REQ : Field := ⟨31, 31⟩
def Fld.fwdTblMode_LPM_MAINT_REQ : Field := ⟨30, 30⟩
def Fld.fwdTblMode_MAC_IN_MAINT : Field := ⟨29, 29⟩
def Fld.fwdTblMode_LPM_IN_MAINT : Field := ⟨28, 28⟩
def Fld.fwdLrnCfg_AGE_TICK : Field := ⟨31, 18⟩
def Fld.fwdLrnCfg_AGE_LIMIT : Field := ⟨17, 6⟩
def Fld.fwdLrnCfg_AGE_EN : Field := ⟨5, 5⟩
def Fld.fwdLrnLim_HOLD_MS : Field := ⟨31, 22⟩
def Fld.fwdLrnLim_LEARN_MAX : Field := ⟨18, 0⟩
def Fld.fwdLrnStat_TICK : Field := ⟨31, 20⟩
def Fld.fwdLrnStat_LEARNED : Field := ⟨18, 0⟩
def Fld.fwdMacStat_USED : Field := ⟨18, 0⟩
def Fld.fwdCnt_COUNT : Field := ⟨31, 0⟩
def Fld.saeCmd_BUSY : Field := ⟨31, 31⟩
def Fld.saeCmd_OP : Field := ⟨30, 27⟩
def Fld.saeCmd_RESULT : Field := ⟨26, 23⟩
def Fld.saeCmd_AN : Field := ⟨21, 20⟩
def Fld.saeCmd_CHANNEL : Field := ⟨13, 0⟩
def Fld.saeChData_VALID : Field := ⟨31, 31⟩
def Fld.saeChData_DIR : Field := ⟨30, 30⟩
def Fld.saeChData_SUITE : Field := ⟨29, 28⟩
def Fld.saeChData_CONF_OFF : Field := ⟨27, 26⟩
def Fld.saeChData_ENCRYPT : Field := ⟨25, 25⟩
def Fld.saeChData_INC_SCI : Field := ⟨24, 24⟩
def Fld.saeChData_USE_ES : Field := ⟨23, 23⟩
def Fld.saeChData_VALIDATE : Field := ⟨22, 21⟩
def Fld.saeChData_REPLAY_EN : Field := ⟨20, 20⟩
def Fld.saeChData_LEARN_EN : Field := ⟨19, 19⟩
def Fld.saeChData_PRIV : Field := ⟨18, 18⟩
def Fld.saeChData_FRAG_MISS : Field := ⟨17, 17⟩
def Fld.saeChData_ENC_VALID : Field := ⟨16, 16⟩
def Fld.saeChData_ENC_AN : Field := ⟨15, 14⟩
def Fld.saeChData_BIND : Field := ⟨13, 10⟩
def Fld.saeChData_INSTANCE : Field := ⟨7, 0⟩
def Fld.saeChData_REPLAY_WINDOW : Field := ⟨31, 0⟩
def Fld.saeChData_SCI : Field := ⟨31, 0⟩
def Fld.saeChData_ECC_FAIL : Field := ⟨31, 31⟩
def Fld.saeChData_LEARN_TX : Field := ⟨13, 0⟩
def Fld.saeSaData_SALT : Field := ⟨31, 0⟩
def Fld.saeSaData_SSCI : Field := ⟨31, 0⟩
def Fld.saeSaData_PN : Field := ⟨31, 0⟩
def Fld.saeSaData_RES : Field := ⟨31, 0⟩
def Fld.saeSaData_FLOOR : Field := ⟨31, 0⟩
def Fld.saeSaData_KEY_SRC : Field := ⟨31, 31⟩
def Fld.saeSaData_NODE : Field := ⟨16, 0⟩
def Fld.saeSaData_STATE : Field := ⟨31, 29⟩
def Fld.saeSaData_EXHAUSTED : Field := ⟨28, 28⟩
def Fld.saeSaData_REKEY_REQ : Field := ⟨27, 27⟩
def Fld.saeSaData_JIDX : Field := ⟨17, 0⟩
def Fld.saeKey_KEY : Field := ⟨31, 0⟩
def Fld.saeLportCfg_IMPLICIT_PI : Field := ⟨31, 16⟩
def Fld.saeLportCfg_VALIDATE : Field := ⟨15, 14⟩
def Fld.saeStat_SCI_USED : Field := ⟨30, 16⟩
def Fld.saeStat_CH_USED : Field := ⟨14, 0⟩
def Fld.saeCnt_COUNT : Field := ⟨31, 0⟩
def Fld.ktrCmd_BUSY : Field := ⟨31, 31⟩
def Fld.ktrCmd_OP : Field := ⟨30, 28⟩
def Fld.ktrCmd_RESULT : Field := ⟨27, 24⟩
def Fld.ktrCmd_FORCE : Field := ⟨23, 23⟩
def Fld.ktrCmd_NODE : Field := ⟨16, 0⟩
def Fld.ktrNodeCfg_OWNER : Field := ⟨31, 24⟩
def Fld.ktrNodeCfg_TYPE : Field := ⟨23, 21⟩
def Fld.ktrNodeCfg_LEAF_TYPE : Field := ⟨20, 18⟩
def Fld.ktrNodeCfg_PARENT : Field := ⟨16, 0⟩
def Fld.ktrStat_READY : Field := ⟨31, 31⟩
def Fld.ktrStat_DEBUG : Field := ⟨30, 30⟩
def Fld.ktrStat_DEBUG_NEVER : Field := ⟨29, 29⟩
def Fld.ktrStat_USED : Field := ⟨17, 0⟩
def Fld.ktrMord_MORD : Field := ⟨31, 0⟩
def Fld.ktrKey_KEY : Field := ⟨31, 0⟩
def Fld.ktrRb_RB : Field := ⟨31, 0⟩
def Fld.ktrCnt_COUNT : Field := ⟨31, 0⟩
def Fld.saeLcProf_OVL_MS : Field := ⟨31, 16⟩
def Fld.saeLcProf_GUARD_MS : Field := ⟨15, 0⟩
def Fld.saeSwtTime_TIME : Field := ⟨31, 0⟩
def Fld.saeSwtCtl_ARM : Field := ⟨31, 31⟩
def Fld.saeSwtCtl_DISARM : Field := ⟨30, 30⟩
def Fld.saeSwtCtl_ARMED : Field := ⟨29, 29⟩
def Fld.saeSwtCtl_RX_FIRED : Field := ⟨28, 28⟩
def Fld.saeSwtCtl_RESULT : Field := ⟨27, 24⟩
def Fld.saeSwtCtl_RX_LEAD : Field := ⟨15, 0⟩
def Fld.saeLcCnt_COUNT : Field := ⟨31, 0⟩
def Fld.pnjCfg_TX_LOG2 : Field := ⟨31, 27⟩
def Fld.pnjCfg_RX_LOG2 : Field := ⟨26, 22⟩
def Fld.pnjCfg_TRIB_LOG2 : Field := ⟨21, 17⟩
def Fld.pnjCfg_AUTO_TOMB : Field := ⟨16, 16⟩
def Fld.pnjStat_READY : Field := ⟨31, 31⟩
def Fld.pnjStat_DAMAGED : Field := ⟨30, 30⟩
def Fld.pnjStat_FULL : Field := ⟨29, 29⟩
def Fld.pnjStat_FAILING : Field := ⟨28, 28⟩
def Fld.pnjStat_HELD : Field := ⟨17, 0⟩
def Fld.pnjTomb_COUNT : Field := ⟨17, 0⟩
def Fld.pnjCmd_BUSY : Field := ⟨31, 31⟩
def Fld.pnjCmd_OP : Field := ⟨30, 28⟩
def Fld.pnjCmd_RESULT : Field := ⟨27, 24⟩
def Fld.pnjCmd_INDEX : Field := ⟨17, 0⟩
def Fld.pnjFp_FP : Field := ⟨31, 0⟩
def Fld.pnjRdata_DATA : Field := ⟨31, 0⟩
def Fld.pnjRstat_HELD : Field := ⟨31, 31⟩
def Fld.pnjRstat_LIVE : Field := ⟨30, 30⟩
def Fld.pnjLastRef_REASON : Field := ⟨31, 28⟩
def Fld.pnjLastRef_SOURCE : Field := ⟨27, 26⟩
def Fld.pnjLastRef_SLICE : Field := ⟨25, 24⟩
def Fld.pnjLastRef_AN : Field := ⟨23, 22⟩
def Fld.pnjLastRef_UNIT : Field := ⟨21, 8⟩
def Fld.pnjCnt_COUNT : Field := ⟨31, 0⟩
def Fld.ctfLaneCfg_PEER_SPN : Field := ⟨31, 16⟩
def Fld.ctfLaneCfg_TIM_ACT : Field := ⟨15, 15⟩
def Fld.ctfLaneCfg_PLM_ACT : Field := ⟨14, 14⟩
def Fld.ctfLaneCfg_TILORA : Field := ⟨13, 13⟩
def Fld.ctfLaneStat_FRAME_LOCK : Field := ⟨31, 31⟩
def Fld.ctfLaneStat_LOF : Field := ⟨30, 30⟩
def Fld.ctfLaneStat_TIM : Field := ⟨29, 29⟩
def Fld.ctfLaneStat_RDI_RX : Field := ⟨28, 28⟩
def Fld.ctfLaneStat_MAP_MISMATCH : Field := ⟨27, 27⟩
def Fld.ctfLaneStat_TRACE_ACC : Field := ⟨26, 26⟩
def Fld.ctfLaneStat_TX_PAGE : Field := ⟨25, 25⟩
def Fld.ctfLaneStat_RX_PAGE : Field := ⟨24, 24⟩
def Fld.ctfLaneStat_JUMP_PEND : Field := ⟨23, 23⟩
def Fld.ctfFc_FC : Field := ⟨31, 0⟩
def Fld.ctfTraceTx_TRACE : Field := ⟨31, 0⟩
def Fld.ctfCnt_COUNT : Field := ⟨31, 0⟩
def Fld.ctfFiCfg_ACTION : Field := ⟨31, 30⟩
def Fld.ctfFiCfg_N_MINUS_1 : Field := ⟨23, 0⟩
def Fld.ctfFiSel_TRIB : Field := ⟨31, 24⟩
def Fld.ctfFiSel_OFFSET : Field := ⟨23, 20⟩
def Fld.ctfFiSel_BITMASK : Field := ⟨19, 12⟩
def Fld.ctfFiCmd_ARM : Field := ⟨31, 31⟩
def Fld.ctfFiCmd_DISARM : Field := ⟨30, 30⟩
def Fld.ctfFiStat_RESULT : Field := ⟨31, 28⟩
def Fld.ctfFiStat_ARMED : Field := ⟨27, 27⟩
def Fld.ctfFiStat_COUNT : Field := ⟨23, 0⟩
def Fld.ctfFsyncCfg_FSYNC_EN : Field := ⟨31, 31⟩
def Fld.ctfFsyncStat_ALIGN : Field := ⟨31, 31⟩
def Fld.ctfFsyncStat_ALIGN_ARMED : Field := ⟨30, 30⟩
def Fld.ctfFsyncStat_LAST_OFF : Field := ⟨29, 16⟩
def Fld.ctfFsyncStat_IGNORED : Field := ⟨15, 0⟩
def Fld.tsiTribCmd_BUSY : Field := ⟨31, 31⟩
def Fld.tsiTribCmd_OP : Field := ⟨30, 28⟩
def Fld.tsiTribCmd_RESULT : Field := ⟨27, 24⟩
def Fld.tsiTribCmd_AN : Field := ⟨23, 22⟩
def Fld.tsiTribCmd_LANE : Field := ⟨10, 8⟩
def Fld.tsiTribCmd_TRIB : Field := ⟨7, 0⟩
def Fld.tsiTribData_VALID : Field := ⟨31, 31⟩
def Fld.tsiTribData_CPORT : Field := ⟨30, 28⟩
def Fld.tsiTribData_INSTANCE : Field := ⟨27, 20⟩
def Fld.tsiTribData_TX_LABEL : Field := ⟨19, 12⟩
def Fld.tsiTribData_EXP_LABEL : Field := ⟨11, 4⟩
def Fld.tsiTribData_TRIB_ID : Field := ⟨31, 16⟩
def Fld.tsiTribData_RX_LABEL : Field := ⟨15, 8⟩
def Fld.tsiTribData_PLM : Field := ⟨7, 7⟩
def Fld.tsiTribData_SALT : Field := ⟨31, 0⟩
def Fld.tsiTribData_NODE : Field := ⟨16, 0⟩
def Fld.tsiTribPm_COUNT : Field := ⟨31, 0⟩
def Fld.tsiPageCmd_BUSY : Field := ⟨31, 31⟩
def Fld.tsiPageCmd_OP : Field := ⟨30, 28⟩
def Fld.tsiPageCmd_RESULT : Field := ⟨27, 24⟩
def Fld.tsiPageCmd_DIR : Field := ⟨23, 23⟩
def Fld.tsiPageCmd_ACT : Field := ⟨22, 22⟩
def Fld.tsiPageCmd_LANE : Field := ⟨21, 19⟩
def Fld.tsiPageCmd_SLOT : Field := ⟨18, 11⟩
def Fld.tsiPageCmd_SWAP_PEND : Field := ⟨10, 10⟩
def Fld.tsiPageCmd_TRIB : Field := ⟨7, 0⟩
def Fld.tsuCfg_PPS_IN_EN : Field := ⟨31, 31⟩
def Fld.tsuCfg_PPS_OUT_EN : Field := ⟨30, 30⟩
def Fld.tsuCfg_WIDTH_US : Field := ⟨29, 20⟩
def Fld.tsuIncNs_INC_NS : Field := ⟨3, 0⟩
def Fld.tsuIncFrac_INC_FRAC : Field := ⟨31, 0⟩
def Fld.tsuNowNs_NS : Field := ⟨31, 0⟩
def Fld.tsuNowFrac_FRAC : Field := ⟨31, 0⟩
def Fld.tsuAdjNs_ADJ_NS : Field := ⟨31, 0⟩
def Fld.tsuAdjFrac_ADJ_FRAC : Field := ⟨31, 0⟩
def Fld.tsuSlewNs_SLEW_NS : Field := ⟨3, 0⟩
def Fld.tsuSlewFrac_SLEW_FRAC : Field := ⟨31, 0⟩
def Fld.tsuSlewTicks_TICKS : Field := ⟨31, 0⟩
def Fld.tsuCmd_STEP : Field := ⟨31, 31⟩
def Fld.tsuCmd_SLEW : Field := ⟨30, 30⟩
def Fld.tsuCmd_ABORT : Field := ⟨29, 29⟩
def Fld.tsuCmd_MODE : Field := ⟨28, 28⟩
def Fld.tsuCmd_FORCE : Field := ⟨27, 27⟩
def Fld.tsuCmd_SLEWING : Field := ⟨26, 26⟩
def Fld.tsuCmd_RESULT : Field := ⟨25, 22⟩
def Fld.tsuPpsCapNs_NS : Field := ⟨31, 0⟩
def Fld.tsuPpsCapFrac_FRAC : Field := ⟨31, 0⟩
def Fld.tsuPpsStat_EDGES : Field := ⟨31, 16⟩
def Fld.tsuPpsStat_PPS_IGNORED : Field := ⟨15, 0⟩
def Fld.tsuPpsoTime_TIME : Field := ⟨31, 0⟩
def Fld.tsuTcAdj_PROT_ADJ : Field := ⟨31, 16⟩
def Fld.tsuTcAdj_VER_ADJ : Field := ⟨15, 0⟩
def Fld.tsuLcal_CAL : Field := ⟨15, 0⟩
def Fld.safStat_HELD : Field := ⟨22, 0⟩
def Fld.safCnt_COUNT : Field := ⟨31, 0⟩
def Fld.twnCfg_TWIN_EN : Field := ⟨31, 31⟩
def Fld.twnCfg_PRIMARY : Field := ⟨30, 30⟩
def Fld.twnCtl_LINK_NODE : Field := ⟨16, 0⟩
def Fld.twnCmd_BUSY : Field := ⟨31, 31⟩
def Fld.twnCmd_OP : Field := ⟨30, 28⟩
def Fld.twnCmd_RESULT : Field := ⟨27, 24⟩
def Fld.twnStat_STATE : Field := ⟨31, 29⟩
def Fld.twnStat_OWN : Field := ⟨28, 28⟩
def Fld.twnStat_PARTNER_OWN : Field := ⟨27, 27⟩
def Fld.twnStat_LINK_UP : Field := ⟨26, 26⟩
def Fld.twnStat_KEYED : Field := ⟨25, 25⟩
def Fld.twnStat_TESTING : Field := ⟨24, 24⟩
def Fld.twnStat_MISMATCH : Field := ⟨23, 21⟩
def Fld.twnStat_MATCH : Field := ⟨15, 0⟩
def Fld.twnHealthLocal_ENG_FAIL : Field := ⟨31, 31⟩
def Fld.twnHealthLocal_SRAM_UNCORR : Field := ⟨30, 30⟩
def Fld.twnHealthLocal_TSU_OFFSET : Field := ⟨29, 29⟩
def Fld.twnHealthLocal_JNL_FAILING : Field := ⟨28, 28⟩
def Fld.twnHealthLocal_INPUT_DOWN : Field := ⟨27, 27⟩
def Fld.twnHealthLocal_FINDING : Field := ⟨26, 26⟩
def Fld.twnHealthLocal_FAILED_ENGINES : Field := ⟨7, 0⟩
def Fld.twnEpoch_EPOCH : Field := ⟨31, 0⟩
def Fld.twnDivLast_EPOCH : Field := ⟨31, 16⟩
def Fld.twnDivLast_OUTCOME : Field := ⟨15, 14⟩
def Fld.twnDivLast_SLICE : Field := ⟨13, 12⟩
def Fld.twnDivLast_UNIT : Field := ⟨11, 8⟩
def Fld.twnDivLast_HOST : Field := ⟨7, 7⟩
def Fld.twnCnt_COUNT : Field := ⟨31, 0⟩
def Fld.vimCfg_MAX_INST : Field := ⟨8, 0⟩
def Fld.vimCmd_BUSY : Field := ⟨31, 31⟩
def Fld.vimCmd_OP : Field := ⟨30, 27⟩
def Fld.vimCmd_RESULT : Field := ⟨26, 23⟩
def Fld.vimCmd_STATE : Field := ⟨22, 20⟩
def Fld.vimCmd_SLICE : Field := ⟨17, 16⟩
def Fld.vimCmd_INSTANCE : Field := ⟨7, 0⟩
def Fld.vimShare_WEIGHT : Field := ⟨31, 24⟩
def Fld.vimShare_CELLS : Field := ⟨16, 0⟩
def Fld.vimShare_ASSOCS : Field := ⟨31, 15⟩
def Fld.vimShare_CHANNELS : Field := ⟨14, 0⟩
def Fld.vimShare_RULES : Field := ⟨13, 0⟩
def Fld.vimShare_CALENDAR : Field := ⟨22, 0⟩
def Fld.vimCapAddrLo_ADDR : Field := ⟨31, 6⟩
def Fld.vimCapAddrHi_ADDR : Field := ⟨31, 0⟩
def Fld.vimCapLen_LEN : Field := ⟨31, 0⟩
def Fld.vimCapNode_NODE : Field := ⟨16, 0⟩
def Fld.vimCapStat_SECTION : Field := ⟨31, 16⟩
def Fld.vimCapStat_LENGTH : Field := ⟨15, 0⟩
def Fld.vimMbxCmd_BUSY : Field := ⟨31, 31⟩
def Fld.vimMbxCmd_OP : Field := ⟨30, 29⟩
def Fld.vimMbxCmd_RESULT : Field := ⟨28, 27⟩
def Fld.vimMbxCmd_INSTANCE : Field := ⟨7, 0⟩
def Fld.vimMbxData_DATA : Field := ⟨31, 0⟩
def Fld.vimLastRef_REASON : Field := ⟨31, 30⟩
def Fld.vimLastRef_BLOCK : Field := ⟨29, 27⟩
def Fld.vimLastRef_SLICE : Field := ⟨26, 25⟩
def Fld.vimLastRef_INSTANCE : Field := ⟨7, 0⟩
def Fld.vimCnt_COUNT : Field := ⟨31, 0⟩
def Fld.vfMbxReq_DATA : Field := ⟨31, 0⟩
def Fld.vfMbxResp_DATA : Field := ⟨31, 0⟩
def Fld.vfMbxCtl_DOORBELL : Field := ⟨31, 31⟩
def Fld.vfMbxCtl_PENDING : Field := ⟨30, 30⟩
def Fld.vfMbxCtl_RESP_READY : Field := ⟨29, 29⟩
def Fld.vfMbxCtl_OVERRUN : Field := ⟨28, 28⟩
def Fld.vfMbxCtl_STATE : Field := ⟨2, 0⟩
def Fld.meeCfg_CAP : Field := ⟨31, 30⟩
def Fld.meeCfg_LEVELS : Field := ⟨29, 27⟩
def Fld.meeCfg_ROOTS : Field := ⟨13, 0⟩
def Fld.meeStat_READY : Field := ⟨31, 31⟩
def Fld.meeStat_WB_FULL : Field := ⟨30, 30⟩
def Fld.meeStat_CC_USED : Field := ⟨15, 0⟩
def Fld.meeFail_CAUSE : Field := ⟨31, 28⟩
def Fld.meeFail_REGION : Field := ⟨27, 25⟩
def Fld.meeFail_LEVEL : Field := ⟨24, 22⟩
def Fld.meeFail_SUBCH : Field := ⟨21, 20⟩
def Fld.meeFailLine_LINE : Field := ⟨31, 0⟩
def Fld.meeArcCmd_BUSY : Field := ⟨31, 31⟩
def Fld.meeArcCmd_OP : Field := ⟨30, 28⟩
def Fld.meeArcCmd_RESULT : Field := ⟨27, 24⟩
def Fld.meeArcCmd_ENTRY : Field := ⟨19, 0⟩
def Fld.meeArcSel_SLICE : Field := ⟨31, 30⟩
def Fld.meeArcSel_AN : Field := ⟨29, 28⟩
def Fld.meeArcSel_CHANNEL : Field := ⟨27, 14⟩
def Fld.meeArcStat_VALID : Field := ⟨31, 31⟩
def Fld.meeArcStat_DIR : Field := ⟨30, 30⟩
def Fld.meeArcStat_SUITE : Field := ⟨29, 28⟩
def Fld.meeArcStat_SAE_RESULT : Field := ⟨27, 24⟩
def Fld.meeArcStat_USED : Field := ⟨20, 0⟩
def Fld.meeCnt_COUNT : Field := ⟨31, 0⟩
def Fld.drcCfg_CAP : Field := ⟨31, 30⟩
def Fld.drcCfg_RATE : Field := ⟨29, 28⟩
def Fld.drcCfg_RANKS : Field := ⟨27, 27⟩
def Fld.drcStat_TRAINED : Field := ⟨31, 31⟩
def Fld.drcStat_TRAIN_FAIL : Field := ⟨30, 27⟩
def Fld.drcStat_HOT : Field := ⟨26, 23⟩
def Fld.drcCtl_PATROL_EN : Field := ⟨31, 31⟩
def Fld.drcCtl_PATROL_H : Field := ⟨30, 24⟩
def Fld.drcCtl_SUSPECT_THR : Field := ⟨15, 0⟩
def Fld.drcCeLast_SUBCH : Field := ⟨31, 30⟩
def Fld.drcCeLast_RANK : Field := ⟨29, 29⟩
def Fld.drcCeLast_POS : Field := ⟨28, 25⟩
def Fld.drcCeLast_PATROL : Field := ⟨24, 24⟩
def Fld.drcCeLine_LINE : Field := ⟨31, 0⟩
def Fld.drcCnt_COUNT : Field := ⟨31, 0⟩
def Fld.tmpWire_CASE_EN : Field := ⟨31, 24⟩
def Fld.tmpWire_LOOP_EN : Field := ⟨23, 8⟩
def Fld.tmpLoopMode_PRBS : Field := ⟨15, 0⟩
def Fld.tmpLoop_I_MIN : Field := ⟨31, 20⟩
def Fld.tmpLoop_I_MAX : Field := ⟨19, 8⟩
def Fld.tmpLoop_DELAY : Field := ⟨4, 0⟩
def Fld.tmpCmd_LOCK : Field := ⟨31, 31⟩
def Fld.tmpCmd_ACK : Field := ⟨30, 30⟩
def Fld.tmpCmd_LOCKED : Field := ⟨29, 29⟩
def Fld.tmpCmd_RESULT : Field := ⟨28, 26⟩
def Fld.tmpStat_CHECKED : Field := ⟨31, 31⟩
def Fld.tmpStat_SQUELCHED : Field := ⟨30, 30⟩
def Fld.tmpStat_IN_FORCE : Field := ⟨29, 28⟩
def Fld.tmpCause_CAUSE : Field := ⟨29, 0⟩
def Fld.tmpEnv_VCORE : Field := ⟨31, 20⟩
def Fld.tmpEnv_TEMP : Field := ⟨19, 10⟩
def Fld.tmpCnt_COUNT : Field := ⟨31, 0⟩
def Fld.evlCmd_BUSY : Field := ⟨31, 31⟩
def Fld.evlCmd_OP : Field := ⟨30, 29⟩
def Fld.evlCmd_RESULT : Field := ⟨28, 26⟩
def Fld.evlCmd_INDEX : Field := ⟨15, 0⟩
def Fld.evlStat_READY : Field := ⟨31, 31⟩
def Fld.evlStat_LOG_FULL : Field := ⟨30, 30⟩
def Fld.evlStat_NEAR_FULL : Field := ⟨29, 29⟩
def Fld.evlStat_HEAD : Field := ⟨16, 0⟩
def Fld.evlSw_DETAIL : Field := ⟨31, 0⟩
def Fld.evlRdata_DATA : Field := ⟨31, 0⟩
def Fld.evlVerify0_FAILED : Field := ⟨31, 31⟩
def Fld.evlVerify0_FIRST_FAIL : Field := ⟨15, 0⟩
def Fld.evlVerify1_FAIL : Field := ⟨16, 0⟩
def Fld.evlVerify2_FOREIGN : Field := ⟨16, 0⟩
def Fld.evlVerify3_PASS : Field := ⟨16, 0⟩
def Fld.evlBoot_BOOT : Field := ⟨31, 0⟩
def Fld.evlLost_LOST : Field := ⟨31, 0⟩
def Fld.evlCnt0_EVL_COMMIT_FAIL : Field := ⟨31, 0⟩
def Fld.imgStat_STATE : Field := ⟨31, 29⟩
def Fld.imgStat_SOURCE : Field := ⟨28, 27⟩
def Fld.imgStat_PREF : Field := ⟨26, 26⟩
def Fld.imgStat_RES_PREF : Field := ⟨25, 22⟩
def Fld.imgStat_RES_OTHER : Field := ⟨21, 18⟩
def Fld.imgStat_RES_QSPI : Field := ⟨17, 14⟩
def Fld.imgStat_RES_DL : Field := ⟨13, 10⟩
def Fld.imgVer_FUSED_SVN : Field := ⟨31, 24⟩
def Fld.imgVer_IMAGE_SVN : Field := ⟨23, 16⟩
def Fld.imgVer_PROGRAMMED : Field := ⟨15, 12⟩
def Fld.imgVer_REVOKED : Field := ⟨11, 8⟩
def Fld.imgVer_KEY_INDEX : Field := ⟨7, 6⟩
def Fld.imgBuild_BUILD_ID : Field := ⟨31, 0⟩
def Fld.imgHash_HASH : Field := ⟨31, 0⟩
def Fld.imgCmd_BUSY : Field := ⟨31, 31⟩
def Fld.imgCmd_OP : Field := ⟨30, 28⟩
def Fld.imgCmd_RESULT : Field := ⟨27, 24⟩
def Fld.imgCmd_CHECK : Field := ⟨23, 20⟩
def Fld.imgCmd_SLOT : Field := ⟨19, 19⟩
def Fld.imgCmd_KEY : Field := ⟨18, 17⟩
def Fld.imgAddrLo_ADDR : Field := ⟨31, 6⟩
def Fld.imgAddrHi_ADDR : Field := ⟨31, 0⟩
def Fld.imgLen_LEN : Field := ⟨31, 0⟩
def Fld.imgSliceCmd_BUSY : Field := ⟨31, 31⟩
def Fld.imgSliceCmd_OP : Field := ⟨30, 29⟩
def Fld.imgSliceCmd_RESULT : Field := ⟨28, 25⟩
def Fld.imgSliceCmd_SLICE : Field := ⟨24, 23⟩
def Fld.imgSliceCmd_POWER_OFF : Field := ⟨22, 22⟩
def Fld.imgSliceStat_DRAIN_DISCARD : Field := ⟨31, 16⟩
def Fld.imgSliceStat_STATE : Field := ⟨11, 0⟩
def Fld.pwrDomStat_ON : Field := ⟨23, 0⟩
def Fld.pwrRstStat_CAUSE : Field := ⟨31, 30⟩
def Fld.pwrRstStat_PWRFAIL_GLITCH : Field := ⟨15, 0⟩
def Fld.pwrAvsCfg_FRZ : Field := ⟨31, 31⟩
def Fld.pwrAvsCfg_VMIN : Field := ⟨29, 20⟩
def Fld.pwrAvsCfg_VMAX : Field := ⟨19, 10⟩
def Fld.pwrAvsCfg_SLACK_LO : Field := ⟨9, 5⟩
def Fld.pwrAvsCfg_SLACK_HI : Field := ⟨4, 0⟩
def Fld.pwrAvsRb_AVS_EMERG : Field := ⟨31, 31⟩
def Fld.pwrAvsRb_AVS_FAIL : Field := ⟨30, 30⟩
def Fld.pwrAvsRb_REQUESTED : Field := ⟨29, 20⟩
def Fld.pwrAvsRb_REPORTED : Field := ⟨19, 10⟩
def Fld.pwrAvsRb_SLACK : Field := ⟨9, 5⟩
def Fld.pwrEngCtl_FRZ : Field := ⟨31, 31⟩
def Fld.pwrEngCtl_MIN_ON : Field := ⟨30, 27⟩
def Fld.pwrEngCtl_MAX_ON : Field := ⟨26, 23⟩
def Fld.pwrEngCtl_UP_THR : Field := ⟨22, 16⟩
def Fld.pwrEngCtl_DOWN_THR : Field := ⟨15, 9⟩
def Fld.pwrEngStat_FRZ_TWIN : Field := ⟨31, 31⟩
def Fld.pwrEngStat_POWERED : Field := ⟨30, 27⟩
def Fld.pwrEngStat_IN_POOL : Field := ⟨26, 23⟩
def Fld.pwrEngStat_DRAINING : Field := ⟨22, 19⟩
def Fld.pwrEngStat_FAILED : Field := ⟨18, 15⟩
def Fld.pwrEngStat_LOAD : Field := ⟨14, 8⟩
def Fld.pwrPortRst_BUSY : Field := ⟨31, 31⟩
def Fld.pwrPortRst_RESET : Field := ⟨30, 30⟩
def Fld.pwrPortRst_RESULT : Field := ⟨29, 26⟩
def Fld.pwrPortRst_SLICE : Field := ⟨25, 24⟩
def Fld.pwrPortRst_SIDE : Field := ⟨23, 23⟩
def Fld.pwrPortRst_PORT : Field := ⟨22, 20⟩
def Fld.pwrCnt_COUNT : Field := ⟨31, 0⟩
def Fld.glbReset_KEY : Field := ⟨7, 0⟩
def Fld.glbUpdate_MASK : Field := ⟨31, 0⟩
def Fld.glbUpdateStat_RESULT : Field := ⟨31, 28⟩
def Fld.glbUpdateStat_PENDING : Field := ⟨27, 27⟩
def Fld.glbUpdateDirty_DIRTY : Field := ⟨31, 0⟩
def Fld.hifPcieStat_LINK_UP : Field := ⟨31, 31⟩
def Fld.hifPcieStat_SPEED : Field := ⟨30, 28⟩
def Fld.hifPcieStat_WIDTH : Field := ⟨27, 24⟩
def Fld.hifPcieStat_NUM_VFS : Field := ⟨23, 16⟩
def Fld.hifEvtBaseLo_ADDR : Field := ⟨31, 5⟩
def Fld.hifEvtBaseHi_ADDR : Field := ⟨31, 0⟩
def Fld.hifEvtCfg_EN : Field := ⟨31, 31⟩
def Fld.hifEvtCfg_RUN : Field := ⟨30, 30⟩
def Fld.hifEvtCfg_SIZE_LOG2 : Field := ⟨29, 25⟩
def Fld.hifEvtCfg_MOD_US : Field := ⟨24, 15⟩
def Fld.hifEvtCfg_OVERFLOW : Field := ⟨14, 14⟩
def Fld.hifEvtHead_HEAD : Field := ⟨15, 0⟩
def Fld.hifEvtTail_TAIL : Field := ⟨15, 0⟩
def Fld.hifEvtLost_LOST : Field := ⟨31, 0⟩
def Fld.ringBaseLo_ADDR : Field := ⟨31, 6⟩
def Fld.ringBaseHi_ADDR : Field := ⟨31, 0⟩
def Fld.ringCfg_SIZE_LOG2 : Field := ⟨31, 27⟩
def Fld.ringCfg_VEC : Field := ⟨26, 24⟩
def Fld.ringCfg_MOD_US : Field := ⟨23, 14⟩
def Fld.ringTail_TAIL : Field := ⟨15, 0⟩
def Fld.ringHead_HEAD : Field := ⟨15, 0⟩
def Fld.ringCtl_EN : Field := ⟨31, 31⟩
def Fld.ringCtl_RUN : Field := ⟨30, 30⟩
def Fld.ringCtl_RESULT : Field := ⟨29, 28⟩
def Fld.ringCtl_ERR : Field := ⟨27, 27⟩
def Fld.vfRingErr_ERR : Field := ⟨15, 0⟩
def Fld.hifCnt_COUNT : Field := ⟨31, 0⟩
def Fld.pmuCfg_SAMPLE_MS : Field := ⟨31, 22⟩
def Fld.pmuCfg_SAMPLE_EN : Field := ⟨21, 21⟩
def Fld.pmuBwCfg_BW_EN : Field := ⟨31, 31⟩
def Fld.pmuBwCfg_WIN_US : Field := ⟨19, 0⟩
def Fld.pmuBwSub_SUB_US : Field := ⟨19, 0⟩
def Fld.pmuSnapCmd_SNAP : Field := ⟨31, 31⟩
def Fld.pmuSnapCmd_BUSY : Field := ⟨30, 30⟩
def Fld.pmuSnapCmd_RESULT : Field := ⟨29, 28⟩
def Fld.pmuSnapSeq_SNAP_SEQ : Field := ⟨31, 0⟩
def Fld.pmuSnapNs_NS : Field := ⟨31, 0⟩
def Fld.pmuSnapElLo_ELAPSED : Field := ⟨31, 0⟩
def Fld.pmuScCmd_BUSY : Field := ⟨31, 31⟩
def Fld.pmuScCmd_OP : Field := ⟨30, 29⟩
def Fld.pmuScCmd_KIND : Field := ⟨28, 27⟩
def Fld.pmuScCmd_RESULT : Field := ⟨26, 24⟩
def Fld.pmuScCmd_SLICE : Field := ⟨23, 22⟩
def Fld.pmuScCmd_AN : Field := ⟨21, 20⟩
def Fld.pmuScCmd_CHANNEL : Field := ⟨13, 0⟩
def Fld.pmuScData_DATA : Field := ⟨31, 0⟩
def Fld.pmuBwSel_SIDE : Field := ⟨5, 5⟩
def Fld.pmuBwSel_SLICE : Field := ⟨4, 3⟩
def Fld.pmuBwSel_PORT : Field := ⟨2, 0⟩
def Fld.pmuBwSeq_BW_SEQ : Field := ⟨31, 0⟩
def Fld.pmuBwRb_DATA : Field := ⟨31, 0⟩
def Fld.pmuPcCtl_START : Field := ⟨31, 31⟩
def Fld.pmuPcCtl_STOP : Field := ⟨30, 30⟩
def Fld.pmuPcCtl_CLEAR : Field := ⟨29, 29⟩
def Fld.pmuPcCtl_RUN : Field := ⟨28, 28⟩
def Fld.pmuPcCtl_OVF : Field := ⟨27, 20⟩
def Fld.pmuPcEvt_EVENT : Field := ⟨11, 0⟩
def Fld.pmuCycLo_CYC : Field := ⟨31, 0⟩
def Fld.pmuCycHi_CYC : Field := ⟨31, 0⟩
def Fld.pmuPcLo_COUNT : Field := ⟨31, 0⟩
def Fld.pmuPcHi_COUNT : Field := ⟨15, 0⟩
def Fld.vfScData_DATA : Field := ⟨31, 0⟩
def Fld.vfStatLo_COUNT : Field := ⟨31, 0⟩
def Fld.vfStatHi_COUNT : Field := ⟨31, 0⟩
def Fld.glbHalt_HALTED : Field := ⟨31, 31⟩
def Fld.glbHalt_HOLDUP : Field := ⟨30, 30⟩
def Fld.glbHalt_ZEROISED : Field := ⟨29, 29⟩
def Fld.glbHalt_CAUSE : Field := ⟨28, 24⟩
def Fld.glbHaltDetail_CODE : Field := ⟨31, 24⟩
def Fld.glbHaltDetail_SLICE : Field := ⟨23, 22⟩
def Fld.glbHaltDetail_INDEX : Field := ⟨21, 0⟩
def Fld.glbUmberCl_FORCE : Field := ⟨31, 0⟩
def Fld.glbUmberLl_FORCE : Field := ⟨31, 0⟩
def Fld.glbGuard_TRIP : Field := ⟨31, 0⟩
def Fld.glbFltCnt_COUNT : Field := ⟨31, 0⟩
def Fld.glbGpioDir_DIR : Field := ⟨15, 0⟩
def Fld.glbGpioOut_OUT : Field := ⟨15, 0⟩
def Fld.glbGpioIn_IN : Field := ⟨15, 0⟩

end Sys2Proof.Machine
end

