-- ==== Sys2Proof/Machine/SliceSt.lean ====
section
/-!
DEFINITION. One slice (01 Table 1-2). Every field's default is its value at slice reset (17 Table 17-5).
-/
namespace Sys2Proof.Machine

/-- One slice: lanes and ports (02), instance map (03), rules and fragments (04), peer tables (05), channels, slots, SCI
hash, switch timers and counters (06, 08), CTF and TSI (10), frames between two steps, engine pools (17). -/
structure SliceSt where
  cLanes : Vector LaneSt 8 := Vector.replicate 8 {}
  lLanes : Vector LaneSt 8 := Vector.replicate 8 {}
  cPorts : Vector PortSt 8 := Vector.replicate 8 {}
  lPorts : Vector PortSt 8 := Vector.replicate 8 {}
  /-- instance map entries other than 0, keyed by 32768 d + 4096 k + VID (03 R148) -/
  imap : NMap Nat := []
  /-- rule tables, protect then verify; a free entry is not stored (04 R150) -/
  rules : Vector (NMap RuleEnt) 2 := Vector.replicate 2 []
  current : BitVec 16 := 0
  oldest : BitVec 16 := 0
  /-- COMMITs accepted and not yet applied (04 R169) -/
  commitPend : Nat := 0
  frags : List FragEnt := []
  mac : NMap MacEnt := []
  lpm : NMap LpmEnt := []
  learns : List Learn := []
  maint : Vector Bool 2 := Vector.replicate 2 false
  /-- what the last SEARCH since MAINT began latched: data, mask, index found (05 R215) -/
  search : Vector (Option (List Word × List Word × Nat)) 2 := Vector.replicate 2 none
  /-- forwarding millisecond counter, the millisecond of ELAPSED at which it last advanced, age tick, milliseconds into
  the tick and its length (05 R199-R203) -/
  ms : Nat := 0
  msAt : Nat := 0
  tick : BitVec 12 := 0
  tickMs : Nat := 0
  tickLen : Nat := 1000
  chans : NMap ChRec := []
  /-- SCI hash entries by index 16384 bank + 8 bucket + way (06 R228) -/
  sciHash : NMap SciEnt := []
  timers : Vector SwTimer 8 := Vector.replicate 8 {}
  /-- counters of 06 Table 6-11: channel 16 c + j, slot 8 (4 c + AN) + j, line port 8 k + j, client port k -/
  chCtr : NMap Ctr := []
  slotCtr : NMap Ctr := []
  lpCtr : NMap Ctr := []
  cpCtr : NMap Ctr := []
  /-- frames that have entered the slice so far, which numbers them by arrival (01 R34); the model's own -/
  arrivals : Nat := 0
  /-- protect-path frames that wait for their frame end, by client port (03 R138) -/
  waiting : List (PortIx × WaitFrame) := []
  /-- verify-path frames in an engine, in the order of their slot accesses (06 Table 6-8 step 5) -/
  engine : List VFrame := []
  /-- the recirculation queue, oldest first (04 R176) -/
  recirc : List RecFrame := []
  ctf : CtfSt := {}
  pools : Vector PoolSt 2 := Vector.replicate 2 {}
  deriving DecidableEq, Repr

end Sys2Proof.Machine
end

