-- ==== Sys2Proof/Machine/State.lean ====
section
/-!
DEFINITION. The whole state of the block, the reasons a step can stop, and the state right after reset.
-/
namespace Sys2Proof.Machine

/-- Why the block stops with a fault. -/
inductive Fault where
  /-- a debug instruction of the JTAG port while debug is enabled: the spec does not say what one does (21 R728); raised by
  JTAG_INSTRUCTION alone; safe -/
  | debugUnit
  deriving DecidableEq, Repr

/-- Why a command has no meaning. -/
inductive Refusal where
  /-- the command named is not modelled; raised by exec's arm alone; safe -/
  | notModelled (mnemonic : String)
  deriving DecidableEq, Repr

/-- GLB's own state (20, 18 R649). -/
structure GlbSt where
  halted : Bool := false
  holdup : Bool := false
  zeroised : Bool := false
  cause : Fin 16 := 0
  detail : Word := 0
  /-- an update taken and not applied: mask and the written values it took (18 R649, R650) -/
  update : Option (Word × NMap Word) := none
  /-- the hold-up sequence: the instant PWRFAIL_N fell, in ns of ELAPSED, and whether its filter of 100 ns runs (17 R640) -/
  pwrfailLow : Bool := false
  pwrfailAt : Nat := 0
  resetCause : Fin 4 := 0
  glitches : BitVec 16 := 0
  /-- the port reset in progress (17 R638) -/
  portReset : Option (SliceId × Side × PortIx) := none
  /-- levels at the GPIO balls; no command of the table drives them -/
  gpioIn : BitVec 16 := 0
  deriving DecidableEq, Repr

/-- The PCI Express endpoint (18 R658, R659). -/
structure PcieSt where
  linkUp : Bool := false
  speed : Fin 8 := 0
  width : Fin 16 := 0
  numVfs : Nat := 0
  deriving DecidableEq, Repr

/-- The JTAG port (21 R727, R728): the instruction in force, the boundary register as last shifted in, and whether it drives
the pins. -/
structure TapSt where
  ir : TapInstr := .idcode
  cells : Bytes := []
  driving : Bool := false
  deriving DecidableEq, Repr

/-- The state of the block. -/
structure State where
  /-- the commands that wait, first in, first out -/
  pending : List Instr := []
  /-- registers as last written, and the applied values of shadowed fields (18 R648); a register that is not stored holds
  its reset value -/
  regs : NMap Word := []
  applied : NMap Word := []
  /-- reset values that the image's DEFAULTS section sets (16 Table 16-1) -/
  defaults : NMap Word := []
  fuses : Fuses := {}
  primary : Bool := false
  debugPin : Bool := false
  debug : Bool := false
  /-- contents of the image sources: MRAM slots A and B, which are bytes 0 to 0x01FF_FFFF of the MRAM die (09 Table 9-4), and
  QSPI flash (16 R602) -/
  sources : Vector ImageSrc 3 := Vector.replicate 3 {}
  img : ImgSt := {}
  avs : Vector AvsSt 4 := Vector.replicate 4 {}
  slices : Vector SliceSt 4 := Vector.replicate 4 {}
  twinLanes : Vector LaneSt 4 := Vector.replicate 4 {}
  rings : Vector EvtRing 4 := Vector.replicate 4 {}
  insts : NMap InstSt := []
  /-- bytes that the RESTORE in hand reads from host memory, and the RESTORE whose slots are being journalled (13) -/
  capBytes : Bytes := []
  restore : Option RestoreSt := none
  ktr : KtrSt := {}
  jnl : JnlSt := {}
  /-- bytes of the MRAM die from 0x0200_0000 on that are not 0 (09 R363; log entry 3) -/
  mram : List Host.Cell := []
  tmp : TmpSt := {}
  evl : EvlSt := {}
  tsu : TsuSt := {}
  saf : List SafFrame := []
  safOrder : Nat := 0
  twin : TwinSt := {}
  mee : MeeSt := {}
  pmu : PmuSt := {}
  glb : GlbSt := {}
  pcie : PcieSt := {}
  tap : TapSt := {}
  /-- everything the device has sent: frames, DMA writes, interrupts, messages; the model's own record -/
  out : List Output := []
  /-- the word that the last reading command returned; the model's own -/
  lastRead : Word := 0
  /-- how many free values have been drawn; the model's own (log entry 1) -/
  freeCount : Nat := 0
  deriving DecidableEq, Repr

/-- The block as PORESET_N rises: everything cleared (17 Table 17-5), the image LOADING (16), no command waiting. -/
def State.reset : State := {}

end Sys2Proof.Machine
end

