-- ==== Sys2Proof/Machine/Ops.lean ====
section
/-!
DEFINITION. The operations that every block shares: time, registers and counters (18), events and interrupts (18 Table
18-2 to 18-4), log records (15), the Carmine halt and the Umber state (20), and the path of a PF write (12 R479, R480).
-/
namespace Sys2Proof.Machine

/-- The outcome of a command that completes. -/
abbrev Out := Host.Outcome State Fault Refusal

/-! Time (11). -/

/-- NS of NOW. -/
def nowNs (st : State) : Word := (st.tsu.now >>> 32).setWidth 32
/-- ELAPSED in whole ns. -/
def elNs (st : State) : Nat := st.tsu.elapsed.toNat / 2 ^ 32
/-- Whether instant `a` lies at or before `b`: a signed 32-bit difference (11 R429). -/
def nsLe (a b : Word) : Bool := !(b - a).msb

/-! Parts of the state. -/

def sl (st : State) (s : SliceId) : SliceSt := st.slices[s]
def modSl (st : State) (s : SliceId) (f : SliceSt → SliceSt) : State := { st with slices := upd st.slices s f }
def modCtf (st : State) (s : SliceId) (f : CtfSt → CtfSt) : State := modSl st s (fun x => { x with ctf := f x.ctf })
def modTwin (st : State) (f : TwinSt → TwinSt) : State := { st with twin := f st.twin }
def modGlb (st : State) (f : GlbSt → GlbSt) : State := { st with glb := f st.glb }
def modJnl (st : State) (f : JnlSt → JnlSt) : State := { st with jnl := f st.jnl }
def modTmp (st : State) (f : TmpSt → TmpSt) : State := { st with tmp := f st.tmp }
def modMee (st : State) (f : MeeSt → MeeSt) : State := { st with mee := f st.mee }
def modPmu (st : State) (f : PmuSt → PmuSt) : State := { st with pmu := f st.pmu }
def modTsu (st : State) (f : TsuSt → TsuSt) : State := { st with tsu := f st.tsu }
def modImg (st : State) (f : ImgSt → ImgSt) : State := { st with img := f st.img }
def emit (st : State) (o : Output) : State := { st with out := st.out ++ [o] }

def port (st : State) (d : Side) (s : SliceId) (k : PortIx) : PortSt :=
  match d with
  | .client => (sl st s).cPorts[k]
  | .line => (sl st s).lPorts[k]

def modPort (st : State) (d : Side) (s : SliceId) (k : PortIx) (f : PortSt → PortSt) : State :=
  modSl st s (fun x =>
    match d with
    | .client => { x with cPorts := upd x.cPorts k f }
    | .line => { x with lPorts := upd x.lPorts k f })

def laneOf (st : State) : LaneId → LaneSt
  | .lane .client s k => (sl st s).cLanes[k]
  | .lane .line s k => (sl st s).lLanes[k]
  | .twin i => st.twinLanes[i]

def modLane (st : State) (l : LaneId) (f : LaneSt → LaneSt) : State :=
  match l with
  | .lane .client s k => modSl st s (fun x => { x with cLanes := upd x.cLanes k f })
  | .lane .line s k => modSl st s (fun x => { x with lLanes := upd x.lLanes k f })
  | .twin i => { st with twinLanes := upd st.twinLanes i f }

/-- The image's settings of a port and of a lane (16 Table 16-1). -/
def portCfg (st : State) (d : Side) (s : SliceId) (k : PortIx) : PortCfg :=
  match d with
  | .client => st.img.content.slices[s].cPorts[k]
  | .line => st.img.content.slices[s].lPorts[k]

def laneCfg (st : State) (d : Side) (s : SliceId) (k : PortIx) : LaneCfg :=
  match d with
  | .client => st.img.content.slices[s].cLanes[k]
  | .line => st.img.content.slices[s].lLanes[k]

/-- Step 4 of the start-up is complete: an image is verified (16 Table 16-4, R608). -/
def booted (st : State) : Bool := st.img.state == .verified || st.img.state == .running

/-- Whether the part has the slice (00 R2, R3). -/
def sliceExists (st : State) (s : SliceId) : Bool := st.fuses.is4832 || decide (s.val < 2)
/-- Whether the slice is powered: neither ABSENT nor OFF (16 Table 16-5). -/
def sliceOn (st : State) (s : SliceId) : Bool :=
  sliceExists st s && st.img.sl[s] != .absent && st.img.sl[s] != .off

/-- An enabled L2 port (02): enabled by the image, not L1, and on the line side not a CTF lane. -/
def isL2 (st : State) (d : Side) (s : SliceId) (k : PortIx) : Bool :=
  let c := portCfg st d s k
  sliceOn st s && c.enabled && !c.l1 && !(d == .line && (laneCfg st .line s k).ctf)

/-- A CTF lane of the slice. -/
def isCtf (st : State) (s : SliceId) (k : PortIx) : Bool :=
  let c := laneCfg st .line s k
  sliceOn st s && c.enabled && c.ctf

/-! Instances (13 R496, R506). -/

/-- An instance from reset: instance 0 is ENABLED and holds everything. -/
def instReset (i : InstId) : InstSt :=
  if i = 0 then
    { state := .enabled
      shares := Vector.replicate 4 { cells := 65536, weight := 1, assocs := 65536, channels := 16384, rules := 8192 }
      calendar := 4194304 }
  else {}

def inst (st : State) (i : InstId) : InstSt := st.insts.getD i.val (instReset i)
def modInst (st : State) (i : InstId) (f : InstSt → InstSt) : State :=
  { st with insts := st.insts.put i.val (f (inst st i)) }
/-- Whether the image provides the instance (R496). -/
def instExists (st : State) (i : InstId) : Bool := decide (i.val < st.img.content.ni)

/-- GLB_DEVID (00, R19). -/
def devid (st : State) : Word :=
  BitVec.ofNat 32 (if st.fuses.is4832 then 0x48321140 else 0x48161120)

/-! Registers (18 R644-R648). -/

/-- The reset value of the register at `a` under the image loaded. -/
def regDefault (st : State) (a : Nat) : Word := st.defaults.getD a (regReset a)
/-- The register as last written. -/
def rd (st : State) (a : Nat) : Word := (st.regs.get? a).getD (regDefault st a)
/-- The applied value of a shadowed register. -/
def rdA (st : State) (a : Nat) : Word := (st.applied.get? a).getD (regDefault st a)
def wr (st : State) (a : Nat) (w : Word) : State := { st with regs := st.regs.put a w }
def wrA (st : State) (a : Nat) (w : Word) : State := { st with applied := st.applied.put a w }
def fld (st : State) (a : Nat) (f : Field) : Nat := getF (rd st a) f
def fldA (st : State) (a : Nat) (f : Field) : Nat := getF (rdA st a) f
def flagA (st : State) (a : Nat) (f : Field) : Bool := decide (fldA st a f ≠ 0)
def setF (st : State) (a : Nat) (f : Field) (v : Nat) : State := wr st a (putF (rd st a) f v)
/-- The writable bits of a register take the value written; other bits stay (00 Table 0-2). -/
def storePlain (a : Nat) (v : Word) (st : State) : State :=
  match regRow? a with
  | none => st
  | some r => wr st a ((rd st a &&& ~~~ BitVec.ofNat 32 r.rw) ||| (v &&& BitVec.ofNat 32 r.rw))

/-- A counter register moves by `n`, wrapping at 2^32. -/
def countN (st : State) (a n : Nat) : State := wr st a (rd st a + BitVec.ofNat 32 n)
def count (st : State) (a : Nat) : State := countN st a 1
/-- A field that counts and stops at its largest value. -/
def satF (st : State) (a : Nat) (f : Field) : State :=
  if fld st a f = 2 ^ (f.hi - f.lo + 1) - 1 then st else setF st a f (fld st a f + 1)

/-- Draw 32 random bytes. -/
def draw (st : State) : Bytes × State :=
  (beBytes 32 (Config.random st.freeCount).toNat, { st with freeCount := st.freeCount + 1 })
/-- Draw a value that the spec leaves open. -/
def drawFree (st : State) : Nat × State :=
  ((Config.free st.freeCount).toNat, { st with freeCount := st.freeCount + 1 })

/-! Interrupts and DMA (18 R657, R660). -/

def dma (st : State) (addr : Nat) (bs : Bytes) : State := emit st (.dma (BitVec.ofNat 64 addr) bs)

/-- Event ring `j` has a record for its vector: fire, or hold back until MOD_US has passed. -/
def fireEvt (st : State) (j : Fin 4) : State :=
  let r := st.rings[j]
  if elNs st ≥ r.nextFire then
    emit { st with rings := upd st.rings j (fun r =>
      { r with nextFire := elNs st + 1000 * fld st (Reg.hifEvtCfg j) Fld.hifEvtCfg_MOD_US, held := false }) }
      (.msix 0 ⟨j.val, by omega⟩)
  else { st with rings := upd st.rings j (fun r => { r with held := true }) }

/-! Events (18 R655-R657, Tables 18-2, 18-3). -/

/-- An event record before its phase is set. -/
structure Event where
  block : Nat
  index : Nat
  slice : Nat := 0
  ps : List Nat := []
  deriving DecidableEq, Repr

/-- The ring of Table 18-3 and of 20 R709; EVENTS_LOST names its ring itself. -/
def evtRing (e : Event) : Fin 4 :=
  match e.block, e.index with
  | 1, _ => 3
  | 4, _ => 2
  | 9, 0 => 1
  | 12, 4 => 1
  | 12, 5 => 1
  | 12, _ => 3
  | 16, _ => 2
  | 18, _ => 2
  | 21, _ => 2
  | 22, 2 => 0
  | 22, _ => 2
  | 23, 3 => 0
  | 23, 7 => 0
  | 23, _ => 1
  | _, _ => 0

/-- The 32 bytes of Table 18-2. -/
def evtBytes (st : State) (e : Event) (phase : Bool) : Bytes :=
  leBytes 2 (256 * e.block + e.index) ++ leBytes 1 e.slice ++ leBytes 1 (128 * b2n phase) ++
  leBytes 4 (nowNs st).toNat ++ leBytes 8 (elNs st) ++
  padTo 16 ((e.ps.take 4).map (fun p => leBytes 4 p)).flatten

/-- Entries of ring `j`, and how many are free (R656). -/
def evtSize (st : State) (j : Fin 4) : Nat := 2 ^ fld st (Reg.hifEvtCfg j) Fld.hifEvtCfg_SIZE_LOG2
def evtFree (st : State) (j : Fin 4) : Nat :=
  (st.rings[j].head.toNat + 2 * evtSize st j - st.rings[j].tail.toNat - 1) % evtSize st j

/-- Write one record at the tail of ring `j` and advance it. -/
def evtPut (st : State) (j : Fin 4) (e : Event) : State :=
  let r := st.rings[j]
  let base := (rd st (Reg.hifEvtBaseHi j)).toNat * 2 ^ 32 + (rd st (Reg.hifEvtBaseLo j)).toNat / 32 * 32
  let st := dma st (base + 32 * r.tail.toNat) (evtBytes st e r.phase)
  let t := (r.tail.toNat + 1) % evtSize st j
  fireEvt { st with rings := upd st.rings j (fun r =>
    { r with tail := BitVec.ofNat 16 t, phase := if t = 0 then !r.phase else r.phase }) } j

/-- An event: written, or lost and counted (R656). -/
def raise (st : State) (e : Event) : State :=
  let j := evtRing e
  let r := st.rings[j]
  if !r.en || (evtFree st j == 0) || (r.overflow && decide (evtFree st j < 2)) then
    { st with rings := upd st.rings j (fun r =>
      { r with overflow := true, lostSince := r.lostSince + 1
               lost := if r.lost = BitVec.allOnes 32 then r.lost else r.lost + 1 }) }
  else evtPut st j e

/-- When an overflowed ring has two free entries again, the EVENTS_LOST record is written (R656). -/
def evtRecover (st : State) (j : Fin 4) : State :=
  let r := st.rings[j]
  if r.en && r.overflow && decide (2 ≤ evtFree st j) then
    let st := evtPut st j { block := 3, index := 0, ps := [r.lostSince] }
    { st with rings := upd st.rings j (fun r => { r with overflow := false, lostSince := 0 }) }
  else st

/-! The Verdigris log: records wait here for EVL_RECORD_COMMIT (15 R584-R589). -/

def mramLostAddr : Nat := 0x02C00004
def mramBootAddr : Nat := 0x02C00000
def mramPrefAddr : Nat := 0x02C00008

/-- A persistent 32-bit count in the MRAM die that saturates. -/
def mramCount (st : State) (a : Nat) : State :=
  let v := leVal (memRead st.mram a 4)
  if v = 2 ^ 32 - 1 then st else { st with mram := memWrite st.mram a (leBytes 4 (v + 1)) }

/-- A record of a tamper source. -/
def isTamperRec (r : LogRec) : Bool := decide (r.source.val < 30)
/-- The queue with `r` in it: a tamper record waits behind earlier ones of its kind, and for no other record but one
whose writing has begun: its SEQ stands in the log (R579, R586; DESIGN CHOICE, log entry 157). -/
def logQueue (e : EvlSt) (r : LogRec) : List LogRec :=
  let n := if e.tries = 0 then 0 else 1
  let q := e.queue.drop n
  if isTamperRec r then e.queue.take n ++ q.takeWhile isTamperRec ++ [r] ++ q.dropWhile isTamperRec else e.queue ++ [r]

/-- Queue a record; a full log counts it as lost (R589). -/
def logFull (st : State) : Bool := st.evl.ready && decide (65536 ≤ st.evl.head)

def logPut (st : State) (r : LogRec) : State :=
  if logFull st then mramCount st mramLostAddr
  else { st with evl := { st.evl with queue := logQueue st.evl r } }

/-- FLAGS of Table 15-6 that every record carries: DBG and HOLDUP. -/
def logFlags (st : State) : Nat := 64 * b2n st.debug + 16 * b2n st.glb.holdup

/-- A record of a source outside alarm groups. -/
def logRec (st : State) (source : Fin 256) (detail : Bytes) (flags : Nat := 0)
    (armOf : Option (SliceId × PortIx × Bool) := none) : State :=
  logPut st { armOf := armOf, bootNs := BitVec.ofNat 64 (elNs st), tsuNs := nowNs st, source := source
              flags := BitVec.ofNat 8 (logFlags st + flags), groupSize := 1, groupIndex := 0, detail := padTo 24 detail }

/-! Frames that leave the device without being sent. -/

def slices4 : List SliceId := [0, 1, 2, 3]
def ports8 : List PortIx := [0, 1, 2, 3, 4, 5, 6, 7]
def sides : List Side := [.client, .line]
def allPorts : List (Side × SliceId × PortIx) :=
  sides.flatMap (fun d => slices4.flatMap (fun s => ports8.map (fun k => (d, s, k))))

/-- Buffer cells of a frame: 256 bytes each, FCS included (01 Table 1-2; log entry 10). -/
def cellsOf (bs : Bytes) : Nat := ceilDiv (bs.length + 4) 256

/-- Frames that slice `s` holds. -/
def framesIn (x : SliceSt) : Nat :=
  sumOf (fun p => p.queue.length) x.cPorts.toList + sumOf (fun p => p.queue.length) x.lPorts.toList +
  x.waiting.length + x.engine.length + x.recirc.length + sumOf (fun p => p.fiHeld.length) x.lPorts.toList

/-- Empty every frame queue of a slice. -/
def dropFrames (x : SliceSt) : SliceSt :=
  { x with cPorts := x.cPorts.map (fun p => { p with queue := [], fiHeld := [] })
           lPorts := x.lPorts.map (fun p => { p with queue := [], fiHeld := [] })
           waiting := [], engine := [], recirc := [] }

/-! Rule versions in flight (04 R165-R171). -/

/-- What becomes of a rule when OLDEST moves from `old` by `n` versions (R171); none: freed. -/
def retireRule (old : BitVec 16) (n : Nat) (r : RuleEnt) : Option RuleEnt :=
  if r.retired ∧ (r.delVer - old).toNat < n then none
  else
    let k := (r.addVer - old).toNat
    some (if 1 ≤ k ∧ k ≤ n then { r with addDone := true } else r)

/-- The oldest version that a frame in flight carries, or CURRENT (R167). -/
def oldestLive (x : SliceSt) : BitVec 16 :=
  let vs := x.engine.map (fun f => f.ver) ++ x.recirc.map (fun f => f.ver)
  x.current - BitVec.ofNat 16 (vs.foldl (fun m v => max m (x.current - v).toNat) 0)

/-- OLDEST follows the frames in flight, and the rules behind it are settled (R171). -/
def settleVersions (x : SliceSt) : SliceSt :=
  let o := oldestLive x
  let n := (o - x.oldest).toNat
  if n = 0 ∨ 32768 ≤ n then x
  else
    { x with oldest := o
             rules := x.rules.map (fun m => m.filterMap (fun p => (retireRule x.oldest n p.2).map (fun r => (p.1, r)))) }
def versionRetire (st : State) (s : SliceId) : State := modSl st s settleVersions

/-- Every frame in the device. -/
def framesAll (st : State) : Nat := sumOf framesIn st.slices.toList + st.saf.length
/-- Discard every frame in the device; OLDEST follows, since none is in flight (04 R167, R171). -/
def discardAll (st : State) : State :=
  { st with slices := st.slices.map (fun x => settleVersions (dropFrames x)), saf := [] }

/-! PPS_OUT (11 R439, R440, R457). -/

/-- PPS_OUT_EN in force: not in the halt, and in twin mode only at the package that owns (R440, R457). -/
def ppsOn (st : State) : Bool :=
  flagA st Reg.tsuCfg Fld.tsuCfg_PPS_OUT_EN && !st.glb.halted && (!st.img.content.twin || st.twin.own)

/-- The PPS_OUT pin: none, high impedance, at the package of a pair that does not own; else whether it is high. -/
def ppsOut (st : State) : Option Bool :=
  if st.img.content.twin && !st.twin.own then none else some (ppsOn st && st.tsu.ppsOutHigh)

/-- A pulse in progress ends with PPS_OUT_EN (R440). -/
def ppsSettle (st : State) : State := if ppsOn st then st else modTsu st (fun t => { t with ppsOutHigh := false })

/-! Umber and the Carmine halt (20). -/

/-- Ownership released: line, transmitters and selector (12 R467), and with them PPS_OUT (11 R457). -/
def releaseOwn (st : State) : State :=
  let st := if st.img.content.twin then modTsu st (fun t => { t with ppsOutHigh := false }) else st
  modTwin st (fun t => { t with own := false, txEn := false, sel := false, assertedAt := none, claimUntil := none,
                                takingOver := false, switchingUntil := none })

/-- The device-wide Umber state on entry (20 R692). -/
def enterUmber (st : State) : State :=
  let n := framesAll st
  countN (discardAll (releaseOwn st)) (Reg.glbFltCnt 3) n

/-- The device stops (20 R696), every frame in it discarded and counted (R692). -/
def haltCore (st : State) (cause : Fin 16) (code slice ix : Nat) : State :=
  let n := framesAll st
  let st := countN (discardAll (releaseOwn st)) (Reg.glbFltCnt 3) n
  let st := modGlb st (fun g => { g with halted := true, cause := cause, update := none, portReset := none
                                         detail := BitVec.ofNat 32 (code % 256 * 2 ^ 24 + slice % 4 * 2 ^ 22 + ix % 2 ^ 22) })
  let st := modTwin st (fun t => { t with state := if t.state = .off then .off else .halted })
  count (modTsu st (fun t => { t with ppsOutHigh := false })) (Reg.glbFltCnt 4)

/-- The HALTED event, if the PCI Express link is up. -/
def haltEvent (st : State) (cause : Fin 16) : State :=
  if st.pcie.linkUp then raise st { block := 0, index := 0, ps := [cause.val] } else st

/-- The Carmine halt (20 R696); a halt in force keeps its cause, and the record is written all the same (R691). -/
def carmineHalt (st : State) (cause : Fin 16) (code slice ix : Nat) (source : Fin 256) (detail : Bytes) : State :=
  if st.glb.halted then logRec st source detail
  else haltEvent (logRec (haltCore st cause code slice ix) source detail) cause

/-- An uncorrectable on-chip error shows in the health report (20 R705). -/
def sramUncorr (st : State) : State := modTwin st (fun t => { t with sramUncorr := true })

/-- A contained uncorrectable error of a memory of codes 7 to 10 (20 R702). -/
def sramUe (st : State) (code slice entry : Nat) : State :=
  raise (sramUncorr (count st (Reg.glbFltCnt 1))) { block := 0, index := 2, ps := [code, slice, entry] }

/-- Whether a port is in the Umber state (20 Table 20-1). -/
def inUmber (st : State) (d : Side) (s : SliceId) (k : PortIx) : Bool :=
  st.glb.halted || st.glb.holdup || st.tmp.squelched || (port st d s k).guardTrip ||
  bitW (rd st (match d with | .client => Reg.glbUmberCl | .line => Reg.glbUmberLl)) (8 * s.val + k.val)

/-- Before the cut epoch a resynchronising package discards its input (12 R492). -/
def beforeCut (st : State) : Bool :=
  st.twin.state == .syncing && (match st.twin.cutEpoch with | some e => decide (st.twin.epoch < e) | none => true)

/-- Admission is stopped device-wide (20 R692, R696), or the package is not yet in step. -/
def admissionStopped (st : State) : Bool := st.glb.halted || st.glb.holdup || st.tmp.squelched || beforeCut st

/-! The path of a write through the PF (12 R479, R480; 20 R698; 16 R608; 00 R5). -/

/-- Registers that the mirror never forwards: KTR_KEY and ROOT_WRITE, PNJ_CMD and PNJ_FP, TWN, GLB_RESET, HIF, PWR_AVS_CFG,
PF rings (R479, 09 R377, 17 R627). ROOT_WRITE shares KTR_CMD and is excepted by its own meaning. -/
def notForwarded (a : Nat) : Bool :=
  (decide (Reg.ktrKey 0 ≤ a) && decide (a ≤ Reg.ktrKey 7)) || (a == Reg.pnjCmd) ||
  (decide (Reg.pnjFp 0 ≤ a) && decide (a ≤ Reg.pnjFp 2)) ||
  (decide (0x50000 ≤ a) && decide (a < 0x60000)) || (a == Reg.glbReset) ||
  (decide (0x30000 ≤ a) && decide (a < 0x40000)) ||
  (decide (Reg.pwrAvsCfg 0 ≤ a) && decide (a ≤ Reg.pwrAvsCfg 3)) || decide (0x2000000 ≤ a)

/-- The slice of `a` is absent or switched off: the write is ignored (00 R5, 23 R755). -/
def sliceGone (st : State) (a : Nat) : Bool :=
  match sliceOfAddr a with
  | some s => !sliceOn st s
  | none => false

/-- Whether the package owns in twin mode, whether it is a standby (12 Table 12-2), and whether it is the one that reads and
writes host memory (12 R478). -/
def twinOwner (st : State) : Bool := st.twin.state == .alone || st.twin.state == .active
def twinStandby (st : State) : Bool := st.twin.state == .standby || st.twin.state == .syncing
def hostOwner (st : State) : Bool := !st.img.content.twin || twinOwner st

/-- A write discarded at the standby (12 R480). -/
def pfDiscard (st : State) : State := raise (count st (Reg.twnCnt 7)) { block := 5, index := 5 }

/-! Indigo messages (12 R470-R473). -/

/-- The link is up while all four twin lanes are READY (12 R470). -/
def twinLinkUp (st : State) : Bool := st.twinLanes.toList.all (fun l => l.stage == .ready)

/-- The 16-byte header of a message (12 R471). -/
def msgHeader (type : Nat) (flags : Byte) (len seq epoch : Nat) : Bytes :=
  beBytes 1 type ++ [flags] ++ beBytes 2 len ++ beBytes 8 seq ++ beBytes 4 epoch

/-- Nonce of a message that the strapped package (`strap`) or its partner sends (12 R473). -/
def msgNonce (strap : Bool) (seq : Nat) : Bytes := [if strap then 0 else 1, 0, 0, 0] ++ beBytes 8 seq

/-- The most bytes of a message's body (12 R470). -/
def bodyMax : Nat := 2032
/-- Bytes in bodies of at most that many, at least one. -/
def bodyParts : Nat → Bytes → List Bytes
  | 0, b => [b.take bodyMax]
  | n + 1, b => if b.length ≤ bodyMax then [b] else b.take bodyMax :: bodyParts n (b.drop bodyMax)
/-- The bodies that say these items: a content that is longer than one body goes in messages of its type that follow each
other (DESIGN CHOICE, log entry 160). -/
def msgParts (type : Nat) (items : List Nat) : List Bytes :=
  let b := Config.indigoBody type items
  bodyParts (b.length / bodyMax) b

/-- A message's body, sealed, and its tag. -/
def sealMsg (key : Bytes) (strap : Bool) (type : Nat) (flags : Byte) (seq epoch : Nat) (body : Bytes) : Bytes × Bytes :=
  gcmSeal key (msgNonce strap seq) (msgHeader type flags body.length seq epoch) body

/-- One message of the session leaves. -/
def sendPart (type : Nat) (st : State) (body : Bytes) : State :=
  let seq := st.twin.txSeq + 1
  let (ct, tag) := sealMsg st.twin.sessKey st.primary type 0 seq st.twin.epoch body
  emit (modTwin st (fun t => { t with txSeq := seq })) (.indigo type seq (st.twin.epoch % 2 ^ 32) ct tag)

/-- Send what these items say; nothing leaves without a session. -/
def sendMsg (st : State) (type : Nat) (items : List Nat) : State :=
  if !st.twin.keyed || !twinLinkUp st then st else (msgParts type items).foldl (sendPart type) st

/-- The step epoch that the 32 bits of a header name: the one nearest to the own epoch (12 R471, R476). -/
def epochOf (st : State) (e : Word) : Nat := (Int.ofNat st.twin.epoch + (e - BitVec.ofNat 32 st.twin.epoch).toInt).toNat

/-- What a MIRROR message says of a forwarded write or descriptor. -/
def mirNats (w : MirWrite) : List Nat :=
  w.epoch :: (match w.op with
    | .write a v => [0, a, v.toNat]
    | .inject i r x f ns => [1, ns.toNat, i.val, r.val, x.bufAddr.toNat, x.length.toNat, x.sliceNo.val, x.port.val, b2n x.ltEn,
        b2n x.sendLate, x.launchNs.toNat, x.cookie.toNat, beVal f, f.length])

/-- Forward: it applies on both packages at the start of epoch n + 2, and goes to the partner as it is written (12 R479). -/
def forwardOp (st : State) (op : MirOp) : State :=
  let w : MirWrite := { epoch := st.twin.epoch + 2, op := op }
  sendMsg (modTwin st (fun t => { t with mirrorQ := t.mirrorQ ++ [w] })) 6 (mirNats w)
def forward (st : State) (a : Nat) (w : Word) : State := forwardOp st (.write a w)

/-- A write of `w` to register `a` through the PF, with its effect `eff` where it takes effect now. -/
def viaPF (a : Nat) (w : Word) (eff : State → State) (st : State) : State :=
  if st.glb.halted || sliceGone st a then st
  else if notForwarded a then eff st
  else if twinStandby st then pfDiscard st
  else if twinOwner st then forward st a w
  else eff st

/-- A command register has BUSY in bit 31 and its result in `res`; code 1 is BUSY in each of them. -/
def busyF : Field := ⟨31, 31⟩

/-- The refusal of a command before step 4 of the start-up: NOT_READY where the register's result table has one for it,
else BUSY (16 R608). -/
def earlyCode (a : Nat) (w : Word) : Nat :=
  if a = Reg.ktrCmd then 10
  else if a = Reg.pnjCmd ∨ a = Reg.imgCmd ∨ a = Reg.imgSliceCmd then 8
  else if a = Reg.meeArcCmd then 7
  else if a = Reg.pmuScCmd ∨ a = Reg.evlCmd then 4
  else if a = Reg.twnCmd then (if getF w Fld.twnCmd_OP = 1 ∨ getF w Fld.twnCmd_OP = 2 then 4 else 1)
  else 1

/-- The register at `a` with the writable fields of `w`; its other fields stay (Table 0-2). -/
def cmdWord (st : State) (a : Nat) (w : Word) : Word :=
  let m : Word := BitVec.ofNat 32 (rwMask a)
  (rd st a &&& ~~~ m) ||| (w &&& m)

/-- A command refused before step 4: the register holds its operands and the refusal. -/
def cmdEarly (st : State) (a : Nat) (res : Field) (w : Word) : State :=
  wr st a (putF (cmdWord st a w) res (earlyCode a w))

/-- A write of a command through the PF: refused before step 4 of the start-up and while BUSY is 1; a forwarded one stays
BUSY until it applies. -/

def cmdPF (a : Nat) (res : Field) (w : Word) (eff : State → State) (st : State) : State :=
  if st.glb.halted || sliceGone st a then st
  else if twinStandby st && !notForwarded a then pfDiscard st
  else if !booted st then cmdEarly st a res w
  else if fld st a busyF ≠ 0 then setF st a res 1
  else if twinOwner st && !notForwarded a then setF (forward st a w) a busyF 1
  else eff st

/-- The command at `a` has completed: the register holds the operands of `w` (its OP reads 0), BUSY 0 and the result. -/
def cmdDone (st : State) (a : Nat) (res : Field) (op : Field) (w : Word) (code : Nat) : State :=
  wr st a (putF (putF (putF (cmdWord st a w) op 0) busyF 0) res code)

/-- The command at `a` goes on: BUSY is 1. -/
def cmdBusy (st : State) (a : Nat) (op : Field) (w : Word) : State := wr st a (putF (putF (cmdWord st a w) op 0) busyF 1)

/-- A word of fields. -/
def word (fs : List (Field × Nat)) : Word := fs.foldl (fun w fv => putF w fv.1 fv.2) 0

/-! Refusals by instance state (13 R515). -/

/-- 1 while QUIESCING, 2 while FROZEN, else 0. -/
def instRefusal (st : State) (i : InstId) : Nat :=
  match (inst st i).state with
  | .quiescing => 1
  | .frozen => 2
  | _ => 0

/-- VIM_LAST_REF records a refusal by instance state: reason, block, slice, instance. -/
def lastRef (st : State) (reason block slice : Nat) (i : InstId) : State :=
  wr st Reg.vimLastRef (word [(Fld.vimLastRef_REASON, reason), (Fld.vimLastRef_BLOCK, block),
    (Fld.vimLastRef_SLICE, slice), (Fld.vimLastRef_INSTANCE, i.val)])

/-! 64-bit counters (19 R675) and slice events (19 R682, R683). -/

def bumpCtr (m : NMap Ctr) (key n : Nat) : NMap Ctr :=
  let c := m.getD key {}
  m.put key { c with chip := c.chip + BitVec.ofNat 32 n }
def ctrVal (m : NMap Ctr) (key : Nat) : BitVec 64 :=
  let c := m.getD key {}
  c.back + c.chip.setWidth 64
/-- A counter starts from 0 again. -/
def clearCtrs (m : NMap Ctr) (lo hi : Nat) : NMap Ctr := m.filter (fun p => !(decide (lo ≤ p.1) && decide (p.1 < hi)))

def bumpCh (st : State) (s : SliceId) (ch : ChIx) (j n : Nat) : State :=
  modSl st s (fun x => { x with chCtr := bumpCtr x.chCtr (16 * ch.val + j) n })
def bumpSlot (st : State) (s : SliceId) (ch : ChIx) (an : An) (j n : Nat) : State :=
  modSl st s (fun x => { x with slotCtr := bumpCtr x.slotCtr (8 * (4 * ch.val + an.val) + j) n })
def bumpLp (st : State) (s : SliceId) (k : PortIx) (j : Nat) : State :=
  modSl st s (fun x => { x with lpCtr := bumpCtr x.lpCtr (8 * k.val + j) 1 })
def bumpCp (st : State) (s : SliceId) (k : PortIx) : State :=
  modSl st s (fun x => { x with cpCtr := bumpCtr x.cpCtr k.val 1 })

def fin8 : List (Fin 8) := [0, 1, 2, 3, 4, 5, 6, 7]

/-- Event number `ev` happens `n` times in slice `s`: every running counter set to it counts (19 Table 19-3). -/
def pcEvent (st : State) (s : SliceId) (ev n : Nat) : State :=
  if !st.fuses.is4832 || !st.pmu.pc[s].run then st
  else modPmu st (fun p => { p with pc := upd p.pc s (fun c =>
    fin8.foldl (fun c (i : Fin 8) =>
      if fldA st (Reg.pmuPcEvt s i) Fld.pmuPcEvt_EVENT = ev ∧ ev ≠ 0 then
        let v := c.cnt[i].toNat + n
        { c with cnt := c.cnt.set i (BitVec.ofNat 48 v)
                 ovf := if v ≥ 2 ^ 48 then c.ovf ||| BitVec.ofNat 8 (2 ^ i.val) else c.ovf }
      else c) c) })

/-- Clocks that a frame of `n` bytes, and a tributary frame of `n` slots, occupies its engine (01 R40, 10 R394). -/
def engineClocks (n : Nat) : Nat := ceilDiv n 16 + 2
def tribClocks (n : Nat) : Nat := 64 * n + 3

/-! Bandwidth windows (19 R679-R681). -/

/-- Window and sub-interval in force, in ns (R681). -/
def bwWinNs (st : State) : Nat := 1000 * clampN 1 1000000 (fldA st Reg.pmuBwCfg Fld.pmuBwCfg_WIN_US)
def bwSubNs (st : State) : Nat := 1000 * clampN 1 1000000 (fldA st Reg.pmuBwSub Fld.pmuBwSub_SUB_US)

/-- The end of a sub-interval: the largest counts follow it. -/
def bwPeak (c : BwCnt) : BwCnt :=
  { c with pkOct := max c.pkOct c.subOct, pkFr := max c.pkFr c.subFr, subOct := 0, subFr := 0 }

/-- Bring sub-interval and window up to the present instant: at the end of a window its values are latched and BW_SEQ
moves (R679, R680). -/
def bwAdvance (st : State) : State :=
  if !flagA st Reg.pmuBwCfg Fld.pmuBwCfg_BW_EN || decide (elNs st < st.pmu.winStart) then st
  else
    let sub := elNs st / bwSubNs st * bwSubNs st
    let st := if sub = st.pmu.subStart then st
      else modPmu st (fun p => { p with bw := p.bw.map (fun e => (e.1, bwPeak e.2)), subStart := sub })
    let n := (elNs st - st.pmu.winStart) / bwWinNs st
    if n = 0 then st
    else
      let win := st.pmu.winStart + n * bwWinNs st
      modPmu (countN st Reg.pmuBwSeq n) (fun p =>
        { p with bwLatched := if n = 1 then p.bw.map (fun e => (e.1, bwPeak e.2)) else [], bw := [], winStart := win })

/-- Key of a port and direction: 2 × (32 d + 8 s + k) + direction (0 receive, 1 transmit). -/
def bwKey (d : Side) (s : SliceId) (k : PortIx) (tx : Bool) : Nat := 2 * (32 * sideNum d + 8 * s.val + k.val) + b2n tx

/-- One frame of `len` bytes, FCS included, at a pin (R679; port events of Table 19-3). -/
def bwFrame (st : State) (d : Side) (s : SliceId) (k : PortIx) (tx : Bool) (len : Nat) : State :=
  let y := 8 * sideNum d + k.val
  let st := pcEvent st s (0x100 + 16 * b2n tx + y) 1
  let st := bwAdvance (pcEvent st s (0x120 + 16 * b2n tx + y) len)
  if flagA st Reg.pmuBwCfg Fld.pmuBwCfg_BW_EN && isL2 st d s k && decide (st.pmu.winStart ≤ elNs st) then
    modPmu st (fun p =>
      let c := p.bw.getD (bwKey d s k tx) {}
      let c := { c with oct := c.oct + len, fr := c.fr + 1, subOct := c.subOct + len, subFr := c.subFr + 1 }
      { p with bw := p.bw.put (bwKey d s k tx) c })
  else st

end Sys2Proof.Machine
end

