-- ==== Sys2Proof/Machine/TwinOps.lean ====
section
/-!
DEFINITION. What the loss of the Indigo link does to the twin unit (12 R473, Table 12-2), and the running digests of the
epoch in progress (12 R481).
-/
namespace Sys2Proof.Machine

/-- End of a command in TWN_CMD. -/
def twnDone (w : Word) (code : Nat) (st : State) : State := cmdDone st Reg.twnCmd Fld.twnCmd_RESULT Fld.twnCmd_OP w code
/-- The command in progress ends. -/
def twnEnd (code : Nat) (st : State) : State := twnDone (rd st Reg.twnCmd) code st

/-- A SWITCH that has not taken effect meets a package that is no longer ACTIVE: BAD_STATE. -/
def dropSwitch (st : State) : State :=
  if st.twin.switchAt.isSome then twnEnd 3 (modTwin st (fun t => { t with switchAt := none })) else st

/-- START: what was in progress toward another state ends. -/
def toStart (st : State) : State :=
  modTwin (dropSwitch st) (fun t =>
    { t with state := .start, takingOver := false, candidateUntil := none, testing := false
             streaming := false, stream := [], cutEpoch := none, matchCount := 0 })

/-- SQUELCH moves the package to START whatever its state (15 R575); a CLAIM or JOIN that waits ends with BAD_STATE (log entry
161). -/
def twinSquelch (st : State) : State :=
  if st.twin.state = .off then st
  else
    let waits := st.twin.claimUntil.isSome || st.twin.joinUntil.isSome
    let st := modTwin (toStart st) (fun t => { t with claimUntil := none, joinUntil := none })
    if waits then twnEnd 3 st else st

/-- The session ends and its key is zeroised (12 R473). -/
def endSession (st : State) : State := modTwin st (fun t => { t with keyed := false, sessKey := [], rand := [], partner := none })

/-- Link loss ends the session; a package in SYNCING moves to START, and a JOIN that waits ends with NO_LINK (12 R473, Tables
12-3, 12-9). -/
def twinLinkDown (st : State) : State :=
  let st := endSession st
  let st := if st.twin.joinUntil.isSome then twnEnd 7 (modTwin st (fun t => { t with joinUntil := none })) else st
  if st.twin.state = .syncing then toStart st else st

/-- Only the owning package of a pair reads and writes host memory and interrupts its tenants (12 R478, 13 R529). -/
def hostOut (st : State) (o : Output) : State := if hostOwner st then emit st o else st

/-- A digest goes on over more bytes; a digest of nothing is 0, the inverse of the initial value (R481). -/
def digMore (d : BitVec 64) (bs : Bytes) : BitVec 64 := ~~~ bs.foldl crc64Step (~~~ d)

/-- Bytes that a port sends enter its digest, in twin mode; only frame bytes are modelled (log entry 18). -/
def digPort (st : State) (d : Side) (s : SliceId) (k : PortIx) (bs : Bytes) : State :=
  if !st.img.content.twin then st
  else
    let i : Fin 32 := ⟨8 * s.val + k.val, by omega⟩
    modTwin st (fun t => { t with dig :=
      match d with
      | .client => { t.dig with cl := upd t.dig.cl i (fun x => digMore x bs) }
      | .line => { t.dig with ll := upd t.dig.ll i (fun x => digMore x bs) } })

/-- Bytes of a punt or completion, written or discarded, enter the host digest of the slice (R481): as built, before a ring's
buffer cuts a punt or its ring has no room, since the partner knows nothing of the rings (DEDUCED, log entry 162). -/
def digHost (st : State) (s : SliceId) (bs : Bytes) : State :=
  if !st.img.content.twin then st
  else modTwin st (fun t => { t with dig := { t.dig with host := upd t.dig.host s (fun x => digMore x bs) } })

end Sys2Proof.Machine
end

