-- ==== Sys2Proof/Machine/Lanes.lean ====
section
/-!
DEFINITION. Serial lanes, port formation and flow control (02): bring-up and loss of lock, link faults, transmitter
output, PAUSE and PFC, and the headroom loop.
-/
namespace Sys2Proof.Machine

/-! Lanes of a port (R90, R91). -/

/-- Lanes that the port at `k` takes. -/
def portWidth (c : PortCfg) : Nat := 2 ^ c.width.val

/-- The lanes of the port at `k`. -/
def portLanes (st : State) (d : Side) (s : SliceId) (k : PortIx) : List PortIx :=
  ports8.filter (fun i => decide (k.val ≤ i.val) && decide (i.val < k.val + portWidth (portCfg st d s k)))

/-- The port that lane `i` belongs to. -/
def portOfLane (st : State) (d : Side) (s : SliceId) (i : PortIx) : Option PortIx :=
  ports8.find? (fun k => (portCfg st d s k).enabled && (portLanes st d s k).contains i)

/-- The lanes that run step 5 together with lane `l`. -/
def lanePeers (st : State) : LaneId → List LaneId
  | .twin _ => [.twin 0, .twin 1, .twin 2, .twin 3]
  | .lane d s i =>
    match portOfLane st d s i with
    | some k => (portLanes st d s k).map (fun i => .lane d s i)
    | none => [.lane d s i]

/-- The image's settings of a lane. -/
def laneCfgOf (st : State) : LaneId → LaneCfg
  | .lane d s k => laneCfg st d s k
  | .twin i => { st.img.content.twinLanes[i] with enabled := st.img.content.twin }

/-- PAM4 lanes run at rate codes 3 to 5 (Table 2-1). -/
def isPam4 (c : LaneCfg) : Bool := decide (3 ≤ c.rate.val)

/-- The image enables the lane and gives it a signalling rate; code 0 is the disabled lane, and 6 and 7 name no rate (R61,
Table 2-1; log entry 142). -/
def laneRuns (c : LaneCfg) : Bool := c.enabled && decide (1 ≤ c.rate.val) && decide (c.rate.val ≤ 5)

/-- Whether the lane's port has FEC; CTF and twin lanes have (R72, R94, 12 R470). -/
def laneFec (st : State) : LaneId → Bool
  | .twin _ => true
  | .lane d s i =>
    (d == .line && (laneCfg st .line s i).ctf) ||
    (match portOfLane st d s i with
     | some k => decide ((portCfg st d s k).fec ≠ 0)
     | none => true)

/-- Slice number in a lane's events: 0 for the device's own lanes (18 Table 18-2). -/
def laneSlice : LaneId → Nat
  | .lane _ s _ => s.val
  | .twin _ => 0

/-- A port is up when all its lanes are READY (R74). -/
def portUp (st : State) (d : Side) (s : SliceId) (k : PortIx) : Bool :=
  sliceOn st s && (portCfg st d s k).enabled &&
  (portLanes st d s k).all (fun i => (laneOf st (.lane d s i)).stage == .ready)

/-- The device conditions of 01 R53. -/
def devicePortsReady (st : State) : Bool :=
  (st.img.state == .running || st.img.state == .verified) && st.mee.trained && st.jnl.ready

/-- Enable every port whose conditions hold; one that is enabled stays so (01 R53). -/
def enablePorts (st : State) : State :=
  if devicePortsReady st then
    allPorts.foldl (fun st' (p : Side × SliceId × PortIx) =>
      if portUp st p.1 p.2.1 p.2.2 then modPort st' p.1 p.2.1 p.2.2 (fun x => { x with enabled := true }) else st') st
  else st

/-- Local fault of a port: it is not up, or it receives local-fault ordered sets (R74, R79). -/
def localFault (st : State) (d : Side) (s : SliceId) (k : PortIx) : Bool :=
  (portCfg st d s k).enabled && (!portUp st d s k || (port st d s k).localFault)

def otherSide : Side → Side
  | .client => .line
  | .line => .client

/-- The port sends local-fault ordered sets for its pair (R79). -/
def sendsLocalFault (st : State) (d : Side) (s : SliceId) (k : PortIx) : Bool :=
  let c := portCfg st d s k
  c.paired && (portCfg st (otherSide d) s c.pair).faultProp && localFault st (otherSide d) s c.pair

/-- What a transmitter sends (Table 2-3). -/
inductive LaneOut where
  | electricalIdle | linkFault | traffic
  deriving DecidableEq, Repr

/-- Table 2-3, its rows from the top. -/
def laneOut (st : State) (d : Side) (s : SliceId) (i : PortIx) : LaneOut :=
  let k := (portOfLane st d s i).getD i
  if !laneRuns (laneCfg st d s i) || !sliceOn st s then .electricalIdle
  else if inUmber st d s k then .electricalIdle
  else if st.img.content.twin && !st.twin.txEn then .electricalIdle
  else if !(port st d s k).enabled || !portUp st d s k || st.img.sl[s] == .drained then .linkFault
  else .traffic

/-- The port sends frames. -/
def txOn (st : State) (d : Side) (s : SliceId) (k : PortIx) : Bool := laneOut st d s k == .traffic

/-- The port would send frames but for a transmitter that twin mode keeps idle: its stream and digests go on (12 R481). -/
def txLive (st : State) (d : Side) (s : SliceId) (k : PortIx) : Bool :=
  laneOut (modTwin st (fun t => { t with txEn := true })) d s k == .traffic

/-- Frame bytes that a port sends: its digest, and the pins when the transmitter is on. -/
def sendPort (st : State) (d : Side) (s : SliceId) (k : PortIx) (bs : Bytes) (o : Output) : State :=
  if !txLive st d s k then st
  else
    let st := digPort st d s k bs
    if txOn st d s k then emit st o else st

/-! Bring-up (Table 2-2, R67-R77). -/

/-- SDS_RX_CTL in force of a lane; the twin lanes have no such register. -/
def rxCtl (st : State) : LaneId → Word
  | .lane d s k => rdA st (Reg.sdsRxCtl s (sideNum d) k)
  | .twin _ => 0

/-- Freeze bit of loop `i`: CTLE, FFE, DFE, thresholds (R87). -/
def freezeBit (ctl : Word) (i : Nat) : Bool := bitW ctl (30 - i)

/-- The loops of a lane follow its freeze bits, which count only while it is READY: one that freezes holds the value of this
moment, one that is frozen keeps what it holds (R87, R88). -/
def freezeLoops (st : State) (l : LaneId) : State :=
  let ctl := rxCtl st l
  let hold : LoopHold := { draw := st.freeCount, at_ := elNs st, ctl := ctl }
  modLane st l (fun x => { x with frozen := Vector.ofFn (fun (i : Fin 4) =>
    if x.stage == .ready && freezeBit ctl i.val then x.frozen[i].or (some hold) else none) })

/-- A lane's number among the lanes of the slices. -/
def laneNo (d : Side) (s : SliceId) (k : PortIx) : Nat := 16 * s.val + 8 * sideNum d + k.val

/-- `v` as a `n`-bit two's complement number of magnitude at most `m` (R89). -/
def clampMag (n m v : Nat) : Nat :=
  let i := (BitVec.ofNat n v).toInt
  (BitVec.ofInt n (max (-(m : Int)) (min i m))).toNat

/-- Value `n` of the loops of a lane, which loop `i` sets: as held, or as it adapts now; CTLE and the DFE tap stay within the
limits (R87, R89). The values are free. -/
def loopValue (st : State) (d : Side) (s : SliceId) (k : PortIx) (i : Option (Fin 4)) (n : Nat) : Nat :=
  let now : LoopHold := { draw := st.freeCount, at_ := elNs st, ctl := rxCtl st (.lane d s k) }
  let h := match i with
    | some i => (laneOf st (.lane d s k)).frozen[i].getD now
    | none => now
  let v := Config.rxLoop (laneNo d s k) h.draw h.at_ n
  if n = 0 then clampN (getF h.ctl Fld.sdsRxCtl_CTLE_MIN) (getF h.ctl Fld.sdsRxCtl_CTLE_MAX) (v % 32)
  else if n = 1 then clampMag 6 (getF h.ctl Fld.sdsRxCtl_DFE_MAX) v
  else v

/-- Lane `l` enters a step now; out of READY its loops adapt (R88). -/
def setStage (g : LaneStage) (st : State) (l : LaneId) : State :=
  modLane st l (fun x => { x with stage := g, since := elNs st, opposite := false, frozen := Vector.replicate 4 none })

/-- Every enabled lane of the slice starts at step 1 (R70, R71). -/
def startLanes (st : State) (s : SliceId) : State :=
  sides.foldl (fun st (d : Side) => ports8.foldl (fun st (k : PortIx) =>
    if laneRuns (laneCfg st d s k) && (laneOf st (.lane d s k)).stage == .off then setStage .sigWait st (.lane d s k) else st) st) st

/-- What follows when the port of lane `l` has gone down. -/
def portLost (st : State) : LaneId → State
  | .twin _ => twinLinkDown st
  | .lane d s i =>
    match portOfLane st d s i with
    | some k => modPort st d s k (fun p => { p with localFault := false, remoteFault := false })
    | none => st

/-- Signal detect on a lane receiver starts bring-up (R71 step 1). -/
def execLaneSignalDetect (l : LaneId) (st : State) : Out :=
  let st' := modLane st l (fun x => { x with sigDet := true })
  .next (match (laneOf st l).stage with
    | .off => st
    | .sigWait => setStage .cdr st' l
    | _ => st')

/-- Whether the receiver of a PAM4 lane locks with the opposite of the image's precoder setting: the one of the settings it
has tried that locked with fewer corrected symbols, the image's if they are equal; none: no tried setting has locked (R67; log
entry 143). -/
def precoderPick (tried : Bool) (own other : Option Nat) : Option Bool :=
  match own, (if tried then other else none) with
  | none, none => none
  | some _, none => some false
  | none, some _ => some true
  | some a, some b => some (decide (b < a))

/-- Step 4 completes: the receive setting found is kept, or reported as a mismatch and bring-up restarts (R67, R68). -/
def fecLocked (l : LaneId) (r : LockRuns) (st : State) : State :=
  let c := laneCfgOf st l
  if !isPam4 c then setStage .pcsLock st l
  else
    match precoderPick (laneOf st l).opposite r.own r.other with
    | none => st
    | some opp =>
      let keep := !opp || bitW (rxCtl st l) 31
      let st := modLane st l (fun x => { x with precodeDet := c.precRx != opp, mismatch := !keep })
      if keep then setStage .pcsLock st l
      else raise (setStage .sigWait st l) { block := 16, index := 0, slice := laneSlice l }

/-- Step 5 completes on every lane of the port at once (R71, R74); the lanes are READY and the port may be enabled. -/
def pcsLocked (l : LaneId) (st : State) : State :=
  let ls := lanePeers st l
  if ls.all (fun m => (laneOf st m).stage == .pcsLock || (laneOf st m).stage == .ready) then
    let st := ls.foldl (fun st m =>
      if (laneOf st m).stage = .ready then st
      else freezeLoops (modLane (setStage .ready st m) m (fun x => { x with consec := 0, beenReady := true })) m) st
    match l with
    | .lane d s i =>
      let st := if d = .line ∧ (laneCfg st .line s i).ctf
        then modCtf st s (fun c => { c with lanes := upd c.lanes i (fun y => { y with lock := true, lof := false, badFaw := 0, noMarker := 0 }) })
        else st
      let st := match portOfLane st d s i with
        | some k => modPort st d s k (fun p => { p with hiBer := false, deskewFail := false })
        | none => st
      enablePorts st
    | .twin _ => st
  else st

/-- A bring-up step completes as its receiver judges it: Table 2-2, and on a CTF lane step 4 by the alignment marker in two
superframes in a row and step 5 by the FAW in three frames in a row (10 R386). -/
def execLaneStepDone (l : LaneId) (r : LockRuns) (st : State) : Out :=
  .next (match (laneOf st l).stage with
    | .cdr => setStage .eq st l
    | .eq => setStage (if laneFec st l then .fecLock else .pcsLock) st l
    | .fecLock => fecLocked l r st
    | .pcsLock => pcsLocked l st
    | _ => st)

/-- Lane `l` has been in its step for `ms` milliseconds. -/
def stepLasts (st : State) (l : LaneId) (ms : Nat) : Bool := decide ((laneOf st l).since + ms * 1000000 ≤ elNs st)

/-- After 5 ms without FEC lock a PAM4 receiver tries the opposite setting (R67). -/
def execPrecoderTryTimeout (l : LaneId) (st : State) : Out :=
  .next (if (laneOf st l).stage = .fecLock ∧ isPam4 (laneCfgOf st l) ∧ stepLasts st l 5
    then modLane st l (fun x => { x with opposite := true }) else st)

/-- A time-out on one lane: step 1, RETRIES, and the event at the first one after READY and on every 16th (R73). -/
def laneTimedOut (st : State) (l : LaneId) : State :=
  let x := laneOf st l
  let st := modLane (setStage .sigWait st l) l (fun x =>
    { x with consec := x.consec + 1
             retries := if x.retries = BitVec.allOnes 16 then x.retries else x.retries + 1 })
  if (x.beenReady && x.consec == 0) || (x.consec + 1) % 16 == 0
  then raise st { block := 16, index := 1, slice := laneSlice l } else st

/-- Step 5 runs on the lanes of a port from the moment the last of them enters it (R71; log entry 144), and has lasted
10 ms. -/
def step5Lasts (st : State) (l : LaneId) : Bool :=
  (lanePeers st l).all (fun m =>
    (laneOf st m).stage == .ready || ((laneOf st m).stage == .pcsLock && stepLasts st m 10))

/-- A step exceeds its time (R73, Table 2-2): step 5 takes every lane of the port back. -/
def execLaneTimeout (l : LaneId) (st : State) : Out :=
  .next (match (laneOf st l).stage with
    | .cdr | .fecLock => if stepLasts st l 10 then laneTimedOut st l else st
    | .eq => if stepLasts st l 60 then laneTimedOut st l else st
    | .pcsLock => if step5Lasts st l then (lanePeers st l).foldl laneTimedOut st else st
    | _ => st)

/-- Loss of frame lock on a CTF lane (10 R386). -/
def ctfLof (st : State) : LaneId → State
  | .lane .line s i =>
    if (laneCfg st .line s i).ctf then
      modCtf st s (fun c => { c with
        lanes := upd c.lanes i (fun y => { y with lock := false, lof := true, good := 0 })
        trib := c.trib.map (fun p => if p.1 / 256 = i.val then (p.1, { p.2 with labSeen := none, labCount := 0 }) else p) })
    else st
  | _ => st

/-- Hi-BER that a port's PCS reports shows until the port is up again (R77). -/
def noteHiBer (st : State) : LaneId → State
  | .twin _ => st
  | .lane d s i =>
    match portOfLane st d s i with
    | some k => modPort st d s k (fun p => { p with hiBer := true })
    | none => st

/-- A lane goes back to an earlier step; if it was READY, its port goes down. -/
def laneBack (st : State) (l : LaneId) (g : LaneStage) : State :=
  if (laneOf st l).stage = .ready then ctfLof (portLost (setStage g st l) l) l else setStage g st l

/-- A lane has lost a lock that it had: signal while READY, CDR lock after step 2, FEC lock after step 4, and its port's PCS
any lane's lock or a low error rate, which takes every lane of the port that stands beyond step 5 back to it (R69, R77). -/
def laneLost (st : State) (l : LaneId) (c : LockLoss) : State :=
  let g := (laneOf st l).stage
  let pcsBack : State := (lanePeers st l).foldl (fun st m => if (laneOf st m).stage = .ready then laneBack st m .pcsLock else st) st
  match c with
  | .signal => if g = .ready then laneBack st l .sigWait else st
  | .cdr => if g = .eq ∨ g = .fecLock ∨ g = .pcsLock ∨ g = .ready then laneBack st l .cdr else st
  | .fec => if laneFec st l ∧ (g = .pcsLock ∨ g = .ready) then laneBack st l .fecLock else st
  | .pcs => pcsBack
  | .hiBer => if (lanePeers st l).any (fun m => (laneOf st m).stage == .ready) then noteHiBer pcsBack l else st

/-- As `laneLost`; loss of signal shows in SIG_DET on a rising lane as well. -/
def execLossOfLock (l : LaneId) (c : LockLoss) (st : State) : Out :=
  .next (laneLost (if c = .signal then modLane st l (fun x => { x with sigDet := false }) else st) l c)

/-- A loop has stayed at a limit for 1 ms, or has moved off it (R89). -/
def execEqAtLimit (l : LaneId) (on : Bool) (st : State) : Out :=
  .next (if (laneOf st l).stage = .off then st else modLane st l (fun x => { x with eqAtLimit := on }))

/-- A port that is up starts or stops receiving local-fault or remote-fault ordered sets (R79). -/
def execLinkFaultSignallingRx (d : Side) (s : SliceId) (k : PortIx) (lf rf : Bool) (st : State) : Out :=
  .next (if portUp st d s k then modPort st d s k (fun p => { p with localFault := lf, remoteFault := rf }) else st)

/-! Flow control (R97-R105). -/

/-- Port rate in Gb/s by SPEED code (PCS_PORT_CFG). -/
def speedOf (c : PortCfg) : Nat :=
  match c.speed.val with
  | 0 => 10 | 1 => 25 | 2 => 50 | 3 => 100 | 4 => 200 | 5 => 400 | 6 => 800 | _ => 1600

/-- Frames of a slice that are still in the device, with their sources, priorities and bytes. -/
def framesHeld (x : SliceSt) : List EgrFrame :=
  (x.cPorts.toList ++ x.lPorts.toList).flatMap (fun p => p.queue) ++
  x.waiting.map (fun w => w.2.frame) ++
  x.lPorts.toList.flatMap (fun p => p.fiHeld.filterMap (fun h => match h.1 with | .tx f => some f | .rx _ => none))

/-- Occupancy of client port `k`, of one priority or of all (R98). -/
def occupancy (st : State) (s : SliceId) (k : PortIx) (q : Option (Fin 8)) : Nat :=
  sumOf (fun f => if f.src = .client k ∧ (q = none ∨ q = some f.prio) then cellsOf f.bytes else 0) (framesHeld (sl st s))

/-- Flow-control mode: 0 none, 1 PAUSE, 2 PFC; 3 acts as 0 (R97). -/
def fcMode (st : State) (s : SliceId) (k : PortIx) : Nat :=
  let m := fldA st (Reg.pcsFcCtl s 0 k) Fld.pcsFcCtl_MODE
  if m = 3 then 0 else m

/-- Tmax of the last 16 measurements. -/
def respMax (f : FlowSt) : Option Nat := f.resp.foldl (fun a t => some (max (a.getD 0) t)) none

/-- The headroom that the loop computes, within [HR_MIN, HR_MAX] (R102). -/
def hrLoop (st : State) (s : SliceId) (k : PortIx) (f : FlowSt) : Nat :=
  let hi := fldA st (Reg.pcsFcHr s 0 k) Fld.pcsFcHr_HR_MAX
  let lo := fldA st (Reg.pcsFcHr s 0 k) Fld.pcsFcHr_HR_MIN
  match respMax f with
  | none => hi
  | some t => min (max (ceilDiv (speedOf (portCfg st .client s k) * t) 672 + 80) lo) hi

/-- H in force: the loop's value, or the value it had when it was frozen (R102, R103). -/
def headroom (st : State) (s : SliceId) (k : PortIx) : Nat :=
  let f := (port st .client s k).flow
  if flagA st (Reg.pcsFcCtl s 0 k) Fld.pcsFcCtl_FRZ_HR then f.headroom.getD (hrLoop st s k f) else hrLoop st s k f

/-- Keep the present headroom beside the measurements, for a freeze that follows (R103). -/
def keepHeadroom (st : State) (s : SliceId) (k : PortIx) : State :=
  let h := headroom st s k
  modPort st .client s k (fun p => { p with flow := { p.flow with headroom := some h } })

/-- PORT_CELLS − H, and the same less XON_GAP (R99). -/
def xoffLevel (st : State) (s : SliceId) (k : PortIx) : Int :=
  (fldA st (Reg.pcsFcLim s 0 k) Fld.pcsFcLim_PORT_CELLS : Int) - (headroom st s k : Int)
def xonLevel (st : State) (s : SliceId) (k : PortIx) : Int :=
  xoffLevel st s k - (fldA st (Reg.pcsFcLim s 0 k) Fld.pcsFcLim_XON_GAP : Int)

/-- Priority `q` may be paused under PFC (R99). -/
def priEnabled (st : State) (s : SliceId) (k : PortIx) (q : Fin 8) : Bool :=
  (fldA st (Reg.pcsFcCtl s 0 k) Fld.pcsFcCtl_PRI_EN).testBit q.val

/-- Next PAUSE XOFF state (R99). -/
def pauseNext (st : State) (s : SliceId) (k : PortIx) (cur : Bool) : Bool :=
  let o : Int := occupancy st s k none
  fcMode st s k == 1 && (decide (xoffLevel st s k ≤ o) || (cur && !decide (o ≤ xonLevel st s k)))

/-- Next PFC XOFF state of a priority (R99). -/
def pfcNext (st : State) (s : SliceId) (k : PortIx) (cur : Bool) (q : Fin 8) : Bool :=
  let o : Int := occupancy st s k (some q)
  fcMode st s k == 2 && priEnabled st s k q &&
  (decide (xoffLevel st s k ≤ o) || decide (xoffLevel st s k ≤ (occupancy st s k none : Int)) ||
   (cur && !decide (o ≤ xonLevel st s k)))

/-- A MAC control frame of the port: the reserved multicast DA, a source address that the spec leaves open, EtherType
0x8808 and `body`, filled to 60 bytes (R100; IEEE 802.3 Annexes 31B and 31D). -/
def sendControl (st : State) (s : SliceId) (k : PortIx) (body : Bytes) : State :=
  let (sa, st) := drawFree st
  let bs := padTo 60 (beBytes 6 0x0180C2000001 ++ beBytes 6 sa ++ beBytes 2 0x8808 ++ body)
  if txLive st .client s k then bwFrame (sendPort st .client s k bs (.control s k bs)) .client s k true 64 else st

/-- PAUSE with its quanta, and PFC with the priorities it names and the quanta of each. -/
def pauseBody (q : Nat) : Bytes := beBytes 2 0x0001 ++ beBytes 2 q
def pfcBody (en : Nat) (q : Fin 8 → Nat) : Bytes :=
  beBytes 2 0x0101 ++ beBytes 2 en ++ (fin8.map (fun i => beBytes 2 (q i))).flatten

/-- Bits of a set of priorities. -/
def priBits (p : Fin 8 → Bool) : Nat := sumOf (fun i : Fin 8 => if p i then 2 ^ i.val else 0) fin8

/-- QUANTA / 2 quanta of 512 bit times, in ns (R100). -/
def repeatNs (st : State) (s : SliceId) (k : PortIx) : Nat :=
  fldA st (Reg.pcsFcCtl s 0 k) Fld.pcsFcCtl_QUANTA * 256 / speedOf (portCfg st .client s k)

/-- Bring a client port's XOFF state up to date, and send a frame on every change (R99, R100, R104). One repeat instant serves
all priorities of a port and starts anew when a further priority enters XOFF, and a frame sent on a change also names the
priorities that stay in XOFF (DESIGN CHOICE, log entry 141). -/
def fcUpdate (st : State) (s : SliceId) (k : PortIx) : State :=
  if !(portCfg st .client s k).enabled || (portCfg st .client s k).l1 then st
  else
    let f := (port st .client s k).flow
    let quanta := fldA st (Reg.pcsFcCtl s 0 k) Fld.pcsFcCtl_QUANTA
    let x := pauseNext st s k f.xoff
    let was (q : Fin 8) : Bool := f.pfcXoff.getLsbD q.val
    let now (q : Fin 8) : Bool := pfcNext st s k (was q) q
    let entered := (x && !f.xoff) || fin8.any (fun q => now q && !was q)
    let pfc := BitVec.ofNat 8 (priBits now)
    let rep := elNs st + repeatNs st s k
    let st := modPort st .client s k (fun p =>
      { p with flow := { p.flow with xoff := x, pfcXoff := pfc
                                     measuring := p.flow.measuring || entered
                                     nextRep := if entered then rep else p.flow.nextRep } })
    let st := if x = f.xoff then st else sendControl st s k (pauseBody (if x then quanta else 0))
    if pfc = f.pfcXoff then st
    else sendControl st s k (pfcBody (priBits (fun q => now q || was q)) (fun q => if now q then quanta else 0))

/-- Flow control of every client port of the slice follows its occupancy. -/
def fcUpdateAll (st : State) (s : SliceId) : State := ports8.foldl (fun st k => fcUpdate st s k) st

/-- Every QUANTA / 2 quanta in XOFF, the frame is sent again (R100). -/
def execPauseRepeat (s : SliceId) (k : PortIx) (st : State) : Out :=
  let f := (port st .client s k).flow
  .next (if (f.xoff || f.pfcXoff != 0) && decide (f.nextRep ≤ elNs st) then
    let quanta := fldA st (Reg.pcsFcCtl s 0 k) Fld.pcsFcCtl_QUANTA
    let rep := f.nextRep + repeatNs st s k
    let st := modPort st .client s k (fun p => { p with flow := { p.flow with nextRep := rep } })
    let st := if f.xoff then sendControl st s k (pauseBody quanta) else st
    if f.pfcXoff != 0 then
      sendControl st s k (pfcBody f.pfcXoff.toNat (fun q => if f.pfcXoff.getLsbD q.val then quanta else 0)) else st
  else st)

/-- The client's response time is measured (R102, R103); the thresholds follow. -/
def execHeadroomMeasure (s : SliceId) (k : PortIx) (ns : Nat) (st : State) : Out :=
  .next (if (port st .client s k).flow.measuring then
    let frz := flagA st (Reg.pcsFcCtl s 0 k) Fld.pcsFcCtl_FRZ_HR
    let st := modPort st .client s k (fun p =>
      { p with flow := { p.flow with measuring := false, resp := if frz then p.flow.resp else (ns :: p.flow.resp).take 16 } })
    fcUpdate (keepHeadroom st s k) s k
  else st)

/-- The kind of MAC control frame that `bs` is: PAUSE 1, PFC 2; any other frame is none (R105). -/
def pauseKind (bs : Bytes) : Nat :=
  if beVal (sub bs 0 6) = 0x0180C2000001 ∧ beVal (sub bs 12 2) = 0x8808 then
    if beVal (sub bs 14 2) = 0x0001 then 1 else if beVal (sub bs 14 2) = 0x0101 then 2 else 0
  else 0

/-- The hold that a received PAUSE or PFC frame asks for: it ends at the returned instants (R105). -/
def holdFor (el speed : Nat) (bs : Bytes) (h : HoldSt) : HoldSt :=
  let upto (q : Nat) : Option Nat := if q = 0 then none else some (el + q * 512 / speed)
  if pauseKind bs = 1 then { until_ := Vector.replicate 8 (upto (beVal (sub bs 16 2))) }
  else
    let en := beVal (sub bs 16 2)
    fin8.foldl (fun (h : HoldSt) (i : Fin 8) =>
      if en.testBit i.val then { until_ := h.until_.set i (upto (beVal (sub bs (18 + 2 * i.val) 2))) } else h) h

/-- A PAUSE or PFC frame is consumed in the MAC, and obeyed when RX_HONOUR is 1 (R105). -/
def takePause (d : Side) (s : SliceId) (k : PortIx) (bs : Bytes) (st : State) : State :=
  if flagA st (Reg.pcsFcCtl s (sideNum d) k) Fld.pcsFcCtl_RX_HONOUR then
    modPort st d s k (fun p => { p with hold := holdFor (elNs st) (speedOf (portCfg st d s k)) bs p.hold })
  else st

/-- What the MAC drops and counts: a bad FCS, or a length outside its limits (R96); `bytes` are without the FCS. -/
def macBad (d : Side) (f : RxFrame) : Bool :=
  !f.fcsOk || decide (f.bytes.length + 4 < 64) ||
  decide ((match d with | .client => 10240 | .line => 10272) < f.bytes.length + 4)
def macDrop (d : Side) (s : SliceId) (k : PortIx) (st : State) : State :=
  modPort st d s k (fun p => { p with macDrops := p.macDrops + 1 })

/-- A port takes frames at its pins: an L2 port, enabled and up. -/
def rxOn (st : State) (d : Side) (s : SliceId) (k : PortIx) : Bool :=
  isL2 st d s k && (port st d s k).enabled && portUp st d s k

/-- A received PAUSE or PFC frame (R105). -/
def execRxPauseFrame (d : Side) (s : SliceId) (k : PortIx) (f : RxFrame) (st : State) : Out :=
  .next (if !rxOn st d s k || pauseKind f.bytes == 0 then st
    else
      let st := bwFrame st d s k false (f.bytes.length + 4)
      if macBad d f then macDrop d s k st else takePause d s k f.bytes st)

/-- The pause time that was requested runs out (R105). -/
def execPauseHoldEnd (d : Side) (s : SliceId) (k : PortIx) (q : Fin 8) (st : State) : Out :=
  .next (modPort st d s k (fun p =>
    match p.hold.until_[q] with
    | some u => if u ≤ elNs st then { p with hold := { until_ := p.hold.until_.set q none } } else p
    | none => p))

/-- Output of priority `q` is held (R105). A hold in force when RX_HONOUR is cleared runs out (DESIGN CHOICE, log entry 145). -/
def outputHeld (st : State) (d : Side) (s : SliceId) (k : PortIx) (q : Fin 8) : Bool :=
  match (port st d s k).hold.until_[q] with
  | some u => decide (elNs st < u)
  | none => false

end Sys2Proof.Machine
end

