-- ==== Sys2Proof/Machine/Rules.lean ====
section
/-!
DEFINITION. The instance map of the parsers (03 R148), the key extractors, the rule tables and their versions (04).
-/
namespace Sys2Proof.Machine

/-! Instance map (03 R148). -/

def imapKey (d : Side) (k : PortIx) (vid : Nat) : Nat := 32768 * sideNum d + 4096 * k.val + vid
def sideOfBit (n : Nat) : Side := if n = 0 then .client else .line

/-- The word that a READ or WRITE of the map writes to PRS_IMAP_CMD. -/
def imapWord (op : Nat) (d : Side) (k : PortIx) (vid : BitVec 12) (i : InstId) : Word :=
  word [(Fld.prsImapCmd_OP, op), (Fld.prsImapCmd_SIDE, sideNum d), (Fld.prsImapCmd_PORT, k.val),
    (Fld.prsImapCmd_VID, vid.toNat), (Fld.prsImapCmd_INST, i.val)]

def imapDone (s : SliceId) (w : Word) (code : Nat) (st : State) : State :=
  cmdDone st (Reg.prsImapCmd s) Fld.prsImapCmd_RESULT Fld.prsImapCmd_OP w code

/-- A command written to PRS_IMAP_CMD, by OP. -/
def imapCmd (s : SliceId) (w : Word) (st : State) : State :=
  let d := sideOfBit (getF w Fld.prsImapCmd_SIDE)
  let k : PortIx := Fin.ofNat 8 (getF w Fld.prsImapCmd_PORT)
  let key := imapKey d k (getF w Fld.prsImapCmd_VID)
  match getF w Fld.prsImapCmd_OP with
  | 1 => imapDone s (putF w Fld.prsImapCmd_INST ((sl st s).imap.getD key 0)) 0 st
  | 2 =>
    let i := getF w Fld.prsImapCmd_INST
    if !(portCfg st d s k).enabled || decide (st.img.content.ni ≤ i) then imapDone s w 2 st
    else
      imapDone s w 0 (modSl st s (fun x =>
        { x with imap := if i = 0 then x.imap.del key else x.imap.put key i }))
  | _ => imapDone s w (fld st (Reg.prsImapCmd s) Fld.prsImapCmd_RESULT) st

/-- OP READ returns an instance map entry. -/
def execPrsImapRead (s : SliceId) (d : Side) (k : PortIx) (vid : BitVec 12) (st : State) : Out :=
  let w := imapWord 1 d k vid 0
  .next (cmdPF (Reg.prsImapCmd s) Fld.prsImapCmd_RESULT w (imapCmd s w) st)

/-- OP WRITE sets an instance map entry. -/
def execPrsImapWrite (s : SliceId) (d : Side) (k : PortIx) (vid : BitVec 12) (i : InstId) (st : State) : Out :=
  let w := imapWord 2 d k vid i
  .next (cmdPF (Reg.prsImapCmd s) Fld.prsImapCmd_RESULT w (imapCmd s w) st)

/-! Rule tables. -/

def tblOf (d : Side) : Fin 2 := match d with | .client => 0 | .line => 1
def ruleTbl (st : State) (s : SliceId) (d : Side) : NMap RuleEnt := (sl st s).rules[tblOf d]
def modRules (st : State) (s : SliceId) (d : Side) (f : NMap RuleEnt → NMap RuleEnt) : State :=
  modSl st s (fun x => { x with rules := upd x.rules (tblOf d) f })

/-- CLS_STAT.USED: entries not free. -/
def rulesUsed (st : State) (s : SliceId) (d : Side) : Nat := (ruleTbl st s d).length

/-- A key extractor changes only while its table is empty (R153). -/
def kprofWrite (s : SliceId) (d : Side) (e : Nat) (v : Word) (st : State) : State :=
  if rulesUsed st s d ≠ 0 then st else wr st (Reg.clsKprof s (sideNum d) e) (v &&& 0xFF)

def execClsKprofWrite (s : SliceId) (d : Side) (e : Fin 14) (v : Word) (st : State) : Out :=
  .next (viaPF (Reg.clsKprof s (sideNum d) e) v (kprofWrite s d e v) st)

/-- The bits of a rule's value, and whether its mask compares all of a bit range. -/
def ruleInst (r : RuleEnt) : Nat := r.value.toNat / 2 ^ 488 % 256
def masks (r : RuleEnt) (lo n : Nat) : Bool := r.mask.toNat / 2 ^ lo % 2 ^ n == 2 ^ n - 1
/-- The mask compares bit `i` with value 1. -/
def wantsOne (r : RuleEnt) (i : Nat) : Bool := r.mask.getLsbD i && r.value.getLsbD i

/-- Fields of RDATA word 34. -/
def actCode (r : RuleEnt) : Nat := getF r.act ⟨31, 28⟩
def actTc (r : RuleEnt) : Bool := bitW r.act 27
def actQueue (r : RuleEnt) : Fin 8 := Fin.ofNat 8 (getF r.act ⟨26, 24⟩)
def actRcp (r : RuleEnt) : Fin 16 := Fin.ofNat 16 (getF r.act ⟨23, 20⟩)
def actLpmInner (r : RuleEnt) : Bool := bitW r.act 19
def actMiss (r : RuleEnt) : Bool := bitW r.act 18

/-- Table 4-2: codes refused for the table, and TC bits that it does not list (R158). -/
def actRefused (d : Side) (r : RuleEnt) : Bool :=
  match d, actCode r with
  | .client, 0 => actTc r
  | .client, 1 => false
  | .client, 2 => false
  | .client, 3 => false
  | .client, 4 => actTc r
  | .client, 5 => actTc r
  | .client, 7 => actTc r
  | .line, 0 => actTc r
  | .line, 4 => false
  | .line, 5 => actTc r
  | .line, 6 => actTc r
  | .line, 7 => actTc r
  | _, _ => true

/-- The mask compares all 32 bits of an extractor whose field is ETYPE, DA or SA (R159). -/
def comparesAddr (st : State) (s : SliceId) (d : Side) (r : RuleEnt) : Bool :=
  (List.range 14).any (fun e =>
    let f := fld st (Reg.clsKprof s (sideNum d) e) Fld.clsKprof_FIELD
    (f == 11 || f == 5 || f == 6) && masks r (32 * e) 32)

/-- BAD_ACTION (R158, R159, R160): FLAGS are key bits [511:496], EAPOL bit 3 and PTP bit 4; VERIFIED is bit 460. -/
def badAction (st : State) (s : SliceId) (d : Side) (r : RuleEnt) : Bool :=
  actRefused d r ||
  ((actCode r == 4 || actCode r == 7) && !(comparesAddr st s d r || wantsOne r 499 || wantsOne r 500)) ||
  (actCode r == 7 && !wantsOne r 500) ||
  (actCode r == 6 && !wantsOne r 460)

/-- The channel record of a channel. -/
def chOf (st : State) (s : SliceId) (ch : ChIx) : ChRec := (sl st s).chans.getD ch.val {}

def ruleRcp (st : State) (s : SliceId) (p : Nat) : Word := rdA st (Reg.clsRcp s p)

/-- BAD_PARAM for the channel, the profile or LPM_INNER (R173 step 7). -/
def ruleBadParam (st : State) (s : SliceId) (r : RuleEnt) : Bool :=
  (actCode r == 1 && !((chOf st s r.chan).valid && !(chOf st s r.chan).dirRx)) ||
  (actCode r == 6 && getF (ruleRcp st s (actRcp r)) Fld.clsRcp_EN == 0) ||
  (actCode r == 2 && actLpmInner r)

/-- A channel or profile of another instance (R173 step 8). -/
def ruleForeign (st : State) (s : SliceId) (r : RuleEnt) : Bool :=
  (actCode r == 1 && (chOf st s r.chan).inst.val != ruleInst r) ||
  (actCode r == 6 && getF (ruleRcp st s (actRcp r)) Fld.clsRcp_INST != ruleInst r)

def instOfNat (n : Nat) : InstId := Fin.ofNat 256 n

/-- Entries of instance `i` in one table (R172). -/
def rulesOf (st : State) (s : SliceId) (d : Side) (i : Nat) : Nat :=
  countP (fun p => ruleInst p.2 == i) (ruleTbl st s d)

/-- The pending version (R165). -/
def pendingVer (st : State) (s : SliceId) : BitVec 16 := (sl st s).current + 1

/-- The rule that words 0-35 describe (R185). -/
def ruleOfWords (w : Nat → Nat) (addVer : BitVec 16) (addDone : Bool) : RuleEnt :=
  let bits (b : Nat) : BitVec 512 := BitVec.ofNat 512 (sumOf (fun i => w (b + i) * 2 ^ (32 * i)) (List.range 16))
  { value := bits 0, mask := bits 16, prio := BitVec.ofNat 16 (w 32), addVer := addVer, delVer := 0
    addDone := addDone, retired := false, act := BitVec.ofNat 32 (w 34) &&& 0xFFFC0000
    chan := Fin.ofNat 16384 (w 35 % 16384) }
/-- The rule that CLS_RDATA describes. -/
def rdataRule (st : State) (s : SliceId) (d : Side) : RuleEnt :=
  ruleOfWords (fun i => (rd st (Reg.clsRdata s (sideNum d) i)).toNat) (pendingVer st s) false
/-- Words 0-31 of a rule entry. -/
def ruleBits (r : RuleEnt) : List Word :=
  (List.range 16).map (fun i => BitVec.ofNat 32 (r.value.toNat / 2 ^ (32 * i))) ++
  (List.range 16).map (fun i => BitVec.ofNat 32 (r.mask.toNat / 2 ^ (32 * i)))

/-- The first cause for which a WRITE is refused, in the order of R173; 0 none. A rule of an instance that does not exist is
refused with the other BAD_INSTANCE of the rule's own words, at step 4 (DESIGN CHOICE, log entry 133). -/
def ruleWriteCode (st : State) (s : SliceId) (d : Side) (ix : Nat) (r : RuleEnt) : Nat :=
  let i := instOfNat (ruleInst r)
  if (ruleTbl st s d).has ix then 2
  else if !masks r 488 8 || !instExists st i then 5
  else if instRefusal st i ≠ 0 then 1
  else if badAction st s d r then 4
  else if ruleBadParam st s r then 6
  else if ruleForeign st s r then 5
  else if (inst st i).shares[s].rules ≤ rulesOf st s d (ruleInst r) then 7
  else 0

def ruleDone (s : SliceId) (d : Side) (w : Word) (code : Nat) (st : State) : State :=
  cmdDone st (Reg.clsRuleCmd s (sideNum d)) Fld.clsRuleCmd_RESULT Fld.clsRuleCmd_OP w code

/-- A refusal by instance state is recorded in VIM_LAST_REF (R173 step 5, 13 R515). -/
def ruleRecord (s : SliceId) (code : Nat) (i : InstId) (st : State) : State :=
  if code = 1 then lastRef st (instRefusal st i) 3 s i else st

/-- READ loads CLS_RDATA from the entry; a free entry reads zero. -/
def ruleRead (s : SliceId) (d : Side) (ix : Nat) (w : Word) (st : State) : State :=
  let a (i : Nat) : Nat := Reg.clsRdata s (sideNum d) i
  let ws : List Word := match (ruleTbl st s d).get? ix with
    | none => List.replicate 36 0
    | some r =>
      ruleBits r ++
      [word [(Fld.clsRdata_VALID, 1), (Fld.clsRdata_ADD_DONE, b2n r.addDone), (Fld.clsRdata_RETIRED, b2n r.retired),
          (Fld.clsRdata_PRIO, r.prio.toNat)],
       word [(Fld.clsRdata_ADD_VER, r.addVer.toNat), (Fld.clsRdata_DEL_VER, if r.retired then r.delVer.toNat else 0)],
       r.act, BitVec.ofNat 32 r.chan.val]
  ruleDone s d w 0 ((ws.zipIdx).foldl (fun st p => wr st (a p.2) p.1) st)

/-- WRITE installs a rule for the pending version (R168), or is refused (R173). -/
def ruleWrite (s : SliceId) (d : Side) (ix : Nat) (w : Word) (st : State) : State :=
  let r := rdataRule st s d
  let code := ruleWriteCode st s d ix r
  let st' := if code = 0 then modRules st s d (fun m => m.put ix r) else ruleRecord s code (instOfNat (ruleInst r)) st
  ruleDone s d w code st'

/-- A pending WRITE, and a pending RETIRE, of an entry (R168). -/
def pendWrite (st : State) (s : SliceId) (r : RuleEnt) : Bool := !r.addDone && r.addVer == pendingVer st s
def pendRetire (st : State) (s : SliceId) (r : RuleEnt) : Bool := r.retired && r.delVer == (sl st s).current

/-- RETIRE sets DEL_VER to CURRENT and RETIRED (R168). -/
def ruleRetire (s : SliceId) (d : Side) (ix : Nat) (w : Word) (st : State) : State :=
  match (ruleTbl st s d).get? ix with
  | none => ruleDone s d w 3 st
  | some r =>
    if pendWrite st s r || r.retired then ruleDone s d w 3 st
    else if instRefusal st (instOfNat (ruleInst r)) ≠ 0 then ruleDone s d w 1 (ruleRecord s 1 (instOfNat (ruleInst r)) st)
    else ruleDone s d w 0 (modRules st s d (fun m => m.put ix { r with retired := true, delVer := (sl st s).current }))

/-- CANCEL undoes a pending WRITE or RETIRE (R168). -/
def ruleCancel (s : SliceId) (d : Side) (ix : Nat) (w : Word) (st : State) : State :=
  match (ruleTbl st s d).get? ix with
  | none => ruleDone s d w 3 st
  | some r =>
    if !pendWrite st s r && !pendRetire st s r then ruleDone s d w 3 st
    else if instRefusal st (instOfNat (ruleInst r)) ≠ 0 then ruleDone s d w 1 (ruleRecord s 1 (instOfNat (ruleInst r)) st)
    else ruleDone s d w 0 (modRules st s d (fun m =>
      if pendWrite st s r then m.del ix else m.put ix { r with retired := false, delVer := 0 }))

/-- A command written to CLS_RULE_CMD, by OP; other codes are no action. -/
def ruleCmd (s : SliceId) (d : Side) (w : Word) (st : State) : State :=
  let ix := getF w Fld.clsRuleCmd_INDEX
  match getF w Fld.clsRuleCmd_OP with
  | 1 => ruleRead s d ix w st
  | 2 => ruleWrite s d ix w st
  | 3 => ruleRetire s d ix w st
  | 4 => ruleCancel s d ix w st
  | _ => ruleDone s d w (fld st (Reg.clsRuleCmd s (sideNum d)) Fld.clsRuleCmd_RESULT) st

def ruleOp (op : Nat) (s : SliceId) (d : Side) (ix : BitVec 13) (eff : Word → State → State) (st : State) : Out :=
  let w := word [(Fld.clsRuleCmd_OP, op), (Fld.clsRuleCmd_INDEX, ix.toNat)]
  .next (cmdPF (Reg.clsRuleCmd s (sideNum d)) Fld.clsRuleCmd_RESULT w (eff w) st)

def execRuleRead (s : SliceId) (d : Side) (ix : BitVec 13) (st : State) : Out :=
  ruleOp 1 s d ix (ruleRead s d ix.toNat) st
def execRuleWrite (s : SliceId) (d : Side) (ix : BitVec 13) (st : State) : Out :=
  ruleOp 2 s d ix (ruleWrite s d ix.toNat) st
def execRuleRetire (s : SliceId) (d : Side) (ix : BitVec 13) (st : State) : Out :=
  ruleOp 3 s d ix (ruleRetire s d ix.toNat) st
def execRuleCancel (s : SliceId) (d : Side) (ix : BitVec 13) (st : State) : Out :=
  ruleOp 4 s d ix (ruleCancel s d ix.toNat) st

/-! Versions (R165-R171). -/

/-- A COMMIT strobe: accepted, or refused with BUSY while four versions would be live (R170). -/
def commitStrobe (s : SliceId) (w : Word) (st : State) : State :=
  let x := sl st s
  let a := Reg.clsCommit s
  if getF w Fld.clsCommit_COMMIT = 0 then st
  else if (x.current - x.oldest).toNat + x.commitPend ≥ 3 then wr st a (word [(Fld.clsCommit_RESULT, 1)])
  else wr (modSl st s (fun x => { x with commitPend := x.commitPend + 1 })) a 0

/-- A rule command of either table is in progress (R170): in twin mode one that waits for its epoch. -/
def ruleBusy (st : State) (s : SliceId) : Bool :=
  fld st (Reg.clsRuleCmd s 0) Fld.clsRuleCmd_BUSY != 0 || fld st (Reg.clsRuleCmd s 1) Fld.clsRuleCmd_BUSY != 0

/-- A COMMIT through the PF: while a rule command is in progress it is refused where it is written, so that both packages of
a twin pair judge it alike (R170, R174). -/
def commitPF (s : SliceId) (w : Word) (st : State) : State :=
  let a := Reg.clsCommit s
  if st.glb.halted || sliceGone st a || twinStandby st || getF w Fld.clsCommit_COMMIT == 0 || !ruleBusy st s then
    viaPF a w (commitStrobe s w) st
  else wr st a (word [(Fld.clsCommit_RESULT, 1)])

def execCommit (s : SliceId) (st : State) : Out := .next (commitPF s (word [(Fld.clsCommit_COMMIT, 1)]) st)

/-- CURRENT advances at the slice's next safe point, on both tables in one step (R169). -/
def execCommitApply (s : SliceId) (st : State) : Out :=
  .next (if (sl st s).commitPend = 0 then st
    else versionRetire (modSl st s (fun x => { x with commitPend := x.commitPend - 1, current := x.current + 1 })) s)

/-- Whether rule `r` takes part under version `v` (R168). -/
def applies (r : RuleEnt) (v : BitVec 16) : Bool :=
  let add := (v - r.addVer).toNat
  let del := (v - r.delVer).toNat
  !(!r.addDone && decide (0x8000 ≤ add)) && !(r.retired && decide (1 ≤ del) && decide (del ≤ 0x7FFF))

/-- A key bit matches when its mask bit is 0 or it equals the value bit (R154). -/
def keyMatches (r : RuleEnt) (key : BitVec 512) : Bool := (key ^^^ r.value) &&& r.mask == 0

/-- The winning rule: largest PRIO, then lowest index (R155). An entry with a bad word takes part in nothing (20 R702). -/
def pickRule (m : NMap RuleEnt) (key : BitVec 512) (v : BitVec 16) : Option (Nat × RuleEnt) :=
  m.foldl (fun best p =>
    if !p.2.bad && applies p.2 v && keyMatches p.2 key then
      match best with
      | some b => if b.2.prio < p.2.prio then some p else best
      | none => some p
    else best) none

end Sys2Proof.Machine
end

