-- ==== Sys2Proof/Machine/Peer.lean ====
section
/-!
DEFINITION. Peer tables and learning (05): the MAC peer table and its hashes, the learn queue and engine, aging, the LPM
table in zone order, parity errors, and the manager's table commands.
-/
namespace Sys2Proof.Machine

/-! The MAC peer table (R188-R191, R760). -/

/-- The key string of R760. -/
def macKeyBytes (k : MacKey) : Bytes := beBytes 1 k.inst.val ++ beBytes 2 k.vid.toNat ++ beBytes 6 k.mac.toNat

/-- Bucket of a key string in bank `b`, of `n` buckets (R760). -/
def bucketOf (seed : BitVec 64) (b n : Nat) (key : Bytes) : Nat :=
  (crc32c (beBytes 4 (seed.toNat / 2 ^ (32 * b)) ++ key)).toNat % n

/-- The 16 places of a key: its bucket of bank 0, then of bank 1 (R188). -/
def macPlaces (st : State) (k : MacKey) : List Nat :=
  let b0 := bucketOf st.img.content.sMac 0 16384 (macKeyBytes k)
  let b1 := bucketOf st.img.content.sMac 1 16384 (macKeyBytes k)
  (List.range 8).map (fun w => 8 * b0 + w) ++ (List.range 8).map (fun w => 131072 + 8 * b1 + w)

/-- The entry that holds `k` in `m`, with its index. -/
def macFind (st : State) (m : NMap MacEnt) (k : MacKey) : Option (Nat × MacEnt) :=
  (macPlaces st k).findSome? (fun i =>
    match m.get? i with
    | some e => if e.key = k then some (i, e) else none
    | none => none)

/-- The lowest free place of a key (R760). -/
def macFree (st : State) (m : NMap MacEnt) (k : MacKey) : Option Nat := (macPlaces st k).find? (fun i => !m.has i)

def modMac (st : State) (s : SliceId) (f : NMap MacEnt → NMap MacEnt) : State :=
  modSl st s (fun x => { x with mac := f x.mac })
def modLpm (st : State) (s : SliceId) (f : NMap LpmEnt → NMap LpmEnt) : State :=
  modSl st s (fun x => { x with lpm := f x.lpm })

def tblNum : Tbl → Nat
  | .mac => 0
  | .lpm => 1

/-- A parity error: the entry is invalidated, counted and reported (R210). -/
def parityError (st : State) (s : SliceId) (t : Tbl) (ix : Nat) : State :=
  let st := match t with
    | .mac => modMac st s (fun m => m.del ix)
    | .lpm => modLpm st s (fun m => m.del ix)
  raise (count st (Reg.fwdCnt s (9 + tblNum t))) { block := 22, index := 2, slice := s.val, ps := [tblNum t, ix] }

/-- Find a key; an entry with bad parity is invalidated and counts as a miss (R189, R210). -/
def macLookup (st : State) (s : SliceId) (k : MacKey) : Option (Nat × MacEnt) × State :=
  match macFind st (sl st s).mac k with
  | none => (none, st)
  | some (i, e) => if e.parOk then (some (i, e), st) else (none, parityError st s .mac i)

/-! The LPM table (R205-R209). -/

/-- The zone of an entry (R205). -/
def lpmZone (e : LpmEnt) : Nat := if e.v4 then 96 + e.plen else e.plen
/-- Bits of the address that lie beyond the prefix. -/
def lpmHostBits (v4 : Bool) (plen : Nat) : Nat := if v4 then 32 - plen else 128 - plen
/-- Longest prefix of the family. -/
def lpmMax (v4 : Bool) : Nat := if v4 then 32 else 128
/-- An entry's form (R205). -/
def lpmFormOk (e : LpmEnt) : Bool :=
  decide (e.plen ≤ lpmMax e.v4) && (!e.v4 || decide (e.addr.toNat < 2 ^ 32)) &&
  e.addr.toNat % 2 ^ lpmHostBits e.v4 e.plen == 0

/-- Whether entry `e` matches (R206). -/
def lpmMatches (e : LpmEnt) (i : InstId) (v4 : Bool) (addr : BitVec 128) : Bool :=
  e.inst == i && e.v4 == v4 && (e.addr.toNat >>> lpmHostBits v4 e.plen) == (addr.toNat >>> lpmHostBits v4 e.plen)

/-- The matching entry of the highest zone (R206). -/
def lpmBest (m : NMap LpmEnt) (i : InstId) (v4 : Bool) (addr : BitVec 128) : Option (Nat × LpmEnt) :=
  m.foldl (fun best p =>
    if lpmMatches p.2 i v4 addr then
      match best with
      | some b => if lpmZone b.2 < lpmZone p.2 then some p else best
      | none => some p
    else best) none

/-- A lookup checks the result parity of its hit only (R209, R210). -/
def lpmLookup (st : State) (s : SliceId) (i : InstId) (v4 : Bool) (addr : BitVec 128) : Option (Nat × LpmEnt) × State :=
  match lpmBest (sl st s).lpm i v4 addr with
  | none => (none, st)
  | some (ix, e) => if e.resOk then (some (ix, e), st) else (none, parityError st s .lpm ix)

/-- The entry of a key. -/
def lpmFind (m : NMap LpmEnt) (e : LpmEnt) : Option (Nat × LpmEnt) :=
  m.find? (fun p => p.2.inst == e.inst && p.2.v4 == e.v4 && p.2.plen == e.plen && p.2.addr == e.addr)

/-- The `j`-th free index of [lo, hi), counted from 0, if there is one. -/
def freeAt (m : NMap LpmEnt) (lo hi : Nat) (j : Nat) : Option Nat :=
  let r := (m.filter (fun p => decide (lo ≤ p.1) && decide (p.1 < hi))).foldl
    (fun (a : Nat × Nat) p => if a.2 < p.1 - a.1 then (a.1, a.2) else (p.1 + 1, a.2 - (p.1 - a.1))) (lo, j)
  if r.1 + r.2 < hi then some (r.1 + r.2) else none

/-- How many indexes of [lo, hi) are free. -/
def freeIn (m : NMap LpmEnt) (lo hi : Nat) : Nat :=
  hi - lo - countP (fun p => decide (lo ≤ p.1) && decide (p.1 < hi)) m

/-- Where each zone of a run begins, lowest index first. -/
def zoneFirsts : Option Nat → List (Nat × LpmEnt) → List (Nat × LpmEnt)
  | _, [] => []
  | z, p :: ps => if z = some (lpmZone p.2) then zoneFirsts z ps else p :: zoneFirsts (some (lpmZone p.2)) ps

/-- Move each of these entries into the free place, in turn; its old place is then the free one (R207). -/
def lpmShift (m : NMap LpmEnt) (free : Nat) : List (Nat × LpmEnt) → NMap LpmEnt × Nat
  | [] => (m, free)
  | p :: ps => lpmShift ((m.put free p.2).del p.1) p.1 ps

/-- Place a new entry so that the table stays ordered by zone, highest zone at the lowest index (R207). Which free place
of its zone it takes is open: the draw decides; with none there, at most one entry of each zone up to the nearest free
entry moves. -/
def lpmPlace (m : NMap LpmEnt) (e : LpmEnt) (drawn : Nat) : Option (NMap LpmEnt) :=
  let z := lpmZone e
  let lo := m.foldl (fun a p => if z < lpmZone p.2 then max a (p.1 + 1) else a) 0
  let hi := m.foldl (fun a p => if lpmZone p.2 < z then min a p.1 else a) 16384
  let n := freeIn m lo hi
  if 0 < n then (freeAt m lo hi (Config.lpmPlace drawn n % n)).map (fun i => m.put i e)
  else
    let up := freeAt m hi 16384 0
    let down := if freeIn m 0 lo = 0 then none else freeAt m 0 lo (freeIn m 0 lo - 1)
    let goUp (f : Nat) : NMap LpmEnt :=
      let r := lpmShift m f (zoneFirsts none (m.filter (fun p => decide (hi ≤ p.1) && decide (p.1 < f)))).reverse
      r.1.put r.2 e
    let goDown (f : Nat) : NMap LpmEnt :=
      let r := lpmShift m f (zoneFirsts none (m.filter (fun p => decide (f < p.1) && decide (p.1 < lo))).reverse).reverse
      r.1.put r.2 e
    match up, down with
    | none, none => none
    | some f, none => some (goUp f)
    | none, some f => some (goDown f)
    | some f, some g =>
      if f - hi < lo - 1 - g ∨ (f - hi = lo - 1 - g ∧ Config.lpmPlace drawn 2 % 2 = 0) then some (goUp f) else some (goDown g)

/-! Learning (R192-R199). -/

/-- Limits of R202, applied values. -/
def ageTickMs (st : State) (s : SliceId) : Nat := clampN 1 10000 (fldA st (Reg.fwdLrnCfg s) Fld.fwdLrnCfg_AGE_TICK)
def ageLimit (st : State) (s : SliceId) : Nat := clampN 1 3583 (fldA st (Reg.fwdLrnCfg s) Fld.fwdLrnCfg_AGE_LIMIT)
def holdMs (st : State) (s : SliceId) : Nat := clampN 1 700 (fldA st (Reg.fwdLrnLim s) Fld.fwdLrnLim_HOLD_MS)

/-- The package learns and sweeps: in single operation, and as the owner of a pair (R218). -/
def learnsHere (st : State) : Bool := st.twin.state == .off || twinOwner st

/-- The table as it will be once every change on its way to both packages has taken effect; the learn engine works on this
(R190, R219). -/
def macEngine (st : State) (s : SliceId) : NMap MacEnt :=
  st.twin.learnQ.foldl (fun m q =>
    if q.2.1 = s then
      match q.2.2 with
      | .install ix e | .move ix e => m.put ix e
      | .remove ix _ => m.del ix
    else m) (sl st s).mac

/-- Apply a change to the table. One whose place or key a command has changed since the change was made takes no effect: a key
stands once, and a static entry stays as it is (R190, R196, R197; log entry 149). -/
def macApply (st : State) (s : SliceId) (c : MacChange) : State :=
  let m := (sl st s).mac
  let learnt (ix : Nat) (k : MacKey) : Bool := match m.get? ix with | some e => e.key == k && !e.static_ | none => false
  match c with
  | .install ix e => if m.has ix || (macFind st m e.key).isSome then st else modMac st s (fun m => m.put ix e)
  | .move ix e => if learnt ix e.key then modMac st s (fun m => m.put ix e) else st
  | .remove ix k => if learnt ix k then modMac st s (fun m => m.del ix) else st

def macEntNats (ix : Nat) (e : MacEnt) : List Nat :=
  [ix, e.key.inst.val, e.key.vid.toNat, e.key.mac.toNat, b2n e.static_, b2n e.hold, e.lport.val, e.chan.val, e.age.toNat,
   e.mstamp.toNat]
/-- What a LEARN message says of a change. -/
def macNats : MacChange → List Nat
  | .install ix e => 0 :: macEntNats ix e
  | .move ix e => 1 :: macEntNats ix e
  | .remove ix k => [2, ix, k.inst.val, k.vid.toNat, k.mac.toNat]

/-- A change by learning or the sweep: at once, or on both packages at the start of epoch n + 2 (R219). -/
def macChange (st : State) (s : SliceId) (c : MacChange) : State :=
  if twinOwner st then
    sendMsg (modTwin st (fun t => { t with learnQ := t.learnQ ++ [(t.epoch + 2, s, c)] })) 7 (s.val :: macNats c)
  else macApply st s c

/-- The forwarding millisecond counter modulo 1,024. -/
def msStamp (st : State) (s : SliceId) : BitVec 10 := BitVec.ofNat 10 (sl st s).ms

def learnedCount (m : NMap MacEnt) : Nat := countP (fun p => !p.2.static_) m

/-- Queue a learn (R192-R195): `sa` of a verified frame on channel `ch` at line port `k`. -/
def queueLearn (st : State) (s : SliceId) (q : Learn) (sa : Bytes) : State :=
  if (byteAt sa 0).getLsbD 0 || sa.all (· == 0) || !learnsHere st then st
  else
    let (hit, st) := macLookup st s q.key
    let want := match hit with
      | none => true
      | some (_, e) => e.chan != q.chan || e.lport != q.lport || (!e.static_ && e.age != (sl st s).tick)
    if !want then st
    else if 1024 ≤ (sl st s).learns.length then count st (Reg.fwdCnt s 6)
    else pcEvent (modSl st s (fun x => { x with learns := x.learns ++ [q] })) s 0x050 1

/-- What the learn engine does with one learn (R197). -/
def learnOne (st : State) (s : SliceId) (q : Learn) : State :=
  let x := sl st s
  let cnt (n : Nat) (st : State) : State := count st (Reg.fwdCnt s n)
  if x.maint[0] then cnt 8 st
  else
    match macFind st (macEngine st s) q.key with
    | none =>
      if fldA st (Reg.fwdLrnLim s) Fld.fwdLrnLim_LEARN_MAX ≤ learnedCount (macEngine st s) then cnt 5 st
      else
        match macFree st (macEngine st s) q.key with
        | none => cnt 4 st
        | some ix =>
          cnt 0 (macChange st s (.install ix { key := q.key, static_ := false, hold := true, lport := q.lport, chan := q.chan
                                               age := x.tick, mstamp := msStamp st s }))
    | some (ix, e) =>
      let same := e.chan = q.chan ∧ e.lport = q.lport
      if e.static_ then (if same then st else cnt 3 st)
      else if same then
        modMac st s (fun m => match m.get? ix with
          | some f => if f.key = q.key then m.put ix { f with age := x.tick } else m
          | none => m)
      else if e.hold ∧ (msStamp st s - e.mstamp).toNat < holdMs st s then
        raise (cnt 2 st) { block := 22, index := 1, slice := s.val, ps := [ix, e.lport.val, q.lport.val] }
      else
        raise (cnt 1 (macChange st s (.move ix { e with lport := q.lport, chan := q.chan, age := x.tick, hold := true
                                                        mstamp := msStamp st s })))
          { block := 22, index := 0, slice := s.val, ps := [ix, e.lport.val, q.lport.val] }

/-- The learn engine takes the learn at the head of the queue (R196, R197); out of MAINT, an entry of bad parity that it reads
is invalidated first (R210). A package that does not learn discards it uncounted (R218). -/
def execLearn (s : SliceId) (st : State) : Out :=
  .next (match (sl st s).learns with
    | [] => st
    | q :: qs =>
      let st := modSl st s (fun x => { x with learns := qs })
      if !learnsHere st then st
      else learnOne (if (sl st s).maint[0] then st else (macLookup st s q.key).2) s q)

/-! Milliseconds, age ticks and the sweep (R199-R204). -/

/-- The millisecond of ELAPSED from which the forwarding counters run on: TSU time has been set anew. -/
def restartMs (st : State) : State :=
  slices4.foldl (fun st s => modSl st s (fun x => { x with msAt := elNs st / 1000000 })) st

/-- The tick in progress at a slice's start lasts the AGE_TICK of its image (R200). -/
def startAges (st : State) (s : SliceId) : State := modSl st s (fun x => { x with tickLen := ageTickMs st s })

/-- The forwarding millisecond counter advances at every 1,000,000 ns of TSU time (R199). -/
def execMsCounterAdvance (s : SliceId) (st : State) : Out :=
  .next (if sliceExists st s ∧ (sl st s).msAt < elNs st / 1000000
    then modSl st s (fun x => { x with ms := x.ms + 1, msAt := x.msAt + 1, tickMs := x.tickMs + 1 }) else st)

/-- TICK advances at the end of the tick in progress; the next one lasts the AGE_TICK in force now (R200, R203). -/
def execAgeTick (s : SliceId) (st : State) : Out :=
  .next (if (sl st s).tickLen ≤ (sl st s).tickMs then
    let n := ageTickMs st s
    modSl st s (fun x => { x with tick := x.tick + 1, tickMs := x.tickMs - x.tickLen, tickLen := n })
  else st)

/-- The sweep visits one entry, unless it stands still: in MAINT, with AGE_EN 0, and on a standby (R201, R204, R210, R218). -/
def sweepEntry (st : State) (s : SliceId) (ix : Nat) (e : MacEnt) : State :=
  let x := sl st s
  if x.maint[0] || fldA st (Reg.fwdLrnCfg s) Fld.fwdLrnCfg_AGE_EN == 0 || !learnsHere st then st
  else if !e.parOk then parityError st s .mac ix
  else if !e.static_ ∧ ageLimit st s < (x.tick - e.age).toNat then
    if st.twin.learnQ.any (fun q => q.2.1 == s && q.2.2 == .remove ix e.key) then st
    else count (macChange st s (.remove ix e.key)) (Reg.fwdCnt s 7)
  else if e.hold ∧ holdMs st s ≤ (msStamp st s - e.mstamp).toNat then
    modMac st s (fun m => m.put ix { e with hold := false })
  else st

def execSweepVisit (s : SliceId) (ix : BitVec 18) (st : State) : Out :=
  .next (match (sl st s).mac.get? ix.toNat with
    | none => st
    | some e => sweepEntry st s ix.toNat e)

/-- The scrubber checks the key parity of one LPM entry (R209, R210). -/
def execLpmScrub (s : SliceId) (ix : BitVec 14) (keyBad : Bool) (st : State) : Out :=
  .next (match (sl st s).lpm.get? ix.toNat with
    | none => st
    | some e => if keyBad || !e.keyOk then parityError st s .lpm ix.toNat else st)

/-! Commands (R213-R217). -/

/-- Data words of an entry image. -/
def macImage (e : MacEnt) : List Word :=
  let n (v : Nat) : Word := BitVec.ofNat 32 v
  [n e.key.mac.toNat, n (e.key.vid.toNat * 2 ^ 16 + e.key.mac.toNat / 2 ^ 32), n e.key.inst.val,
   n (2 ^ 31 + b2n e.static_ * 2 ^ 30 + b2n e.hold * 2 ^ 29 + e.lport.val * 2 ^ 26 + e.chan.val * 2 ^ 12 + e.age.toNat),
   n e.mstamp.toNat, 0, 0]
def lpmImage (e : LpmEnt) : List Word :=
  let n (v : Nat) : Word := BitVec.ofNat 32 v
  [n e.addr.toNat, n (e.addr.toNat / 2 ^ 32), n (e.addr.toNat / 2 ^ 64), n (e.addr.toNat / 2 ^ 96),
   n (e.plen * 2 ^ 16 + b2n e.v4 * 2 ^ 8 + e.inst.val), n (2 ^ 31 + e.lport.val * 2 ^ 26 + e.chan.val * 2 ^ 12), 0]

def tblData (st : State) (s : SliceId) (i : Nat) : Nat := (rd st (Reg.fwdTblData s i)).toNat

/-- The entry that data words describe, as an INSERT or WRITE makes it at tick `age` (R216). -/
def macOfWords (w : Nat → Nat) (age : BitVec 12) : MacEnt :=
  { key := { inst := instOfNat (w 2), vid := BitVec.ofNat 12 (w 1 / 2 ^ 16)
             mac := BitVec.ofNat 48 (w 0 + w 1 % 2 ^ 16 * 2 ^ 32) }
    static_ := (w 3).testBit 30, hold := false, lport := Fin.ofNat 8 (w 3 / 2 ^ 26)
    chan := Fin.ofNat 16384 (w 3 / 2 ^ 12), age := age, mstamp := 0 }
def lpmOfWords (w : Nat → Nat) : LpmEnt :=
  { inst := instOfNat (w 4), v4 := (w 4).testBit 8
    addr := BitVec.ofNat 128 (w 0 + w 1 * 2 ^ 32 + w 2 * 2 ^ 64 + w 3 * 2 ^ 96)
    plen := w 4 / 2 ^ 16 % 256, lport := Fin.ofNat 8 (w 5 / 2 ^ 26), chan := Fin.ofNat 16384 (w 5 / 2 ^ 12) }
def macOfData (st : State) (s : SliceId) : MacEnt := macOfWords (tblData st s) (sl st s).tick
def lpmOfData (st : State) (s : SliceId) : LpmEnt := lpmOfWords (tblData st s)

def putData (st : State) (s : SliceId) (ws : List Word) : State :=
  ws.zipIdx.foldl (fun st p => wr st (Reg.fwdTblData s p.2) p.1) st

def tblDone (s : SliceId) (w : Word) (code : Nat) (st : State) : State :=
  cmdDone st (Reg.fwdTblCmd s) Fld.fwdTblCmd_RESULT Fld.fwdTblCmd_OP w code

/-- The command ends, with an index found in INDEX. -/
def tblFound (s : SliceId) (w : Word) (ix : Nat) (image : List Word) (st : State) : State :=
  tblDone s (putF w Fld.fwdTblCmd_INDEX ix) 0 (putData st s image)

def tblSize : Tbl → Nat
  | .mac => 262144
  | .lpm => 16384

/-- A result field that no lookup may return: a port that is no enabled L2 line port, or no VALID transmit channel (Table
5-3). -/
def resultBad (st : State) (s : SliceId) (k : PortIx) (ch : ChIx) : Bool :=
  !isL2 st .line s k || !(chOf st s ch).valid || (chOf st s ch).dirRx

/-- Causes 4 to 6 of R217 for a command that writes an entry: form, result, instance and its state; 0 none. -/
def entryCode (st : State) (s : SliceId) (i : InstId) (formOk : Bool) (res : Option (PortIx × ChIx)) : Nat :=
  if !formOk then 6
  else if (match res with | some r => resultBad st s r.1 r.2 | none => false) then 6
  else if !instExists st i then 7
  else if (match res with | some r => (chOf st s r.2).inst != i | none => false) then 7
  else if instRefusal st i ≠ 0 then 1
  else 0

/-- Refused; a refusal by the instance's state is recorded (R515). -/
def tblRefuse (s : SliceId) (w : Word) (code : Nat) (i : InstId) (st : State) : State :=
  tblDone s w code (if code = 1 then lastRef st (instRefusal st i) 4 s i else st)

/-- READ (R210, R215). -/
def tblRead (s : SliceId) (t : Tbl) (ix : Nat) (w : Word) (st : State) : State :=
  if tblSize t ≤ ix then tblDone s w 6 st
  else
    let free := List.replicate 7 (0 : Word)
    match t with
    | .mac => (match (sl st s).mac.get? ix with
      | none => tblDone s w 0 (putData st s free)
      | some e => if e.parOk then tblDone s w 0 (putData st s (macImage e))
        else tblDone s w 0 (putData (parityError st s .mac ix) s free))
    | .lpm => (match (sl st s).lpm.get? ix with
      | none => tblDone s w 0 (putData st s free)
      | some e => if e.keyOk && e.resOk then tblDone s w 0 (putData st s (lpmImage e))
        else tblDone s w 0 (putData (parityError st s .lpm ix) s free))

/-- The entry of an LPM key, its parity checked (R210). -/
def lpmByKey (st : State) (s : SliceId) (e : LpmEnt) : Option (Nat × LpmEnt) × State :=
  match lpmFind (sl st s).lpm e with
  | none => (none, st)
  | some (ix, f) => if f.keyOk && f.resOk then (some (ix, f), st) else (none, parityError st s .lpm ix)

/-- WRITE replaces the whole result of the entry of the key. -/
def tblWrite (s : SliceId) (t : Tbl) (w : Word) (st : State) : State :=
  match t with
  | .mac =>
    let e := macOfData st s
    let code := entryCode st s e.key.inst true (some (e.lport, e.chan))
    if code ≠ 0 then tblRefuse s w code e.key.inst st
    else
      let (hit, st) := macLookup st s e.key
      (match hit with
       | none => tblDone s w 2 st
       | some (ix, _) => tblDone s w 0 (modMac st s (fun m => m.put ix e)))
  | .lpm =>
    let e := lpmOfData st s
    let code := entryCode st s e.inst (lpmFormOk e) (some (e.lport, e.chan))
    if code ≠ 0 then tblRefuse s w code e.inst st
    else
      let (hit, st) := lpmByKey st s e
      (match hit with
       | none => tblDone s w 2 st
       | some (ix, _) => tblDone s w 0 (modLpm st s (fun m => m.put ix e)))

/-- INSERT adds an entry (R190, R206, R207, R216). -/
def tblInsert (s : SliceId) (t : Tbl) (w : Word) (st : State) : State :=
  match t with
  | .mac =>
    let e := macOfData st s
    let code := entryCode st s e.key.inst true (some (e.lport, e.chan))
    if code ≠ 0 then tblRefuse s w code e.key.inst st
    else
      let (hit, st) := macLookup st s e.key
      (match hit with
       | some _ => tblDone s w 3 st
       | none => (match macFree st (sl st s).mac e.key with
         | none => tblDone s w 4 st
         | some ix => tblDone s w 0 (modMac st s (fun m => m.put ix e))))
  | .lpm =>
    let e := lpmOfData st s
    let code := entryCode st s e.inst (lpmFormOk e) (some (e.lport, e.chan))
    if code ≠ 0 then tblRefuse s w code e.inst st
    else
      let (hit, st) := lpmByKey st s e
      (match hit with
       | some _ => tblDone s w 3 st
       | none =>
         if 16384 ≤ (sl st s).lpm.length then tblDone s w 4 st
         else
           let (n, st) := drawFree st
           match lpmPlace (sl st s).lpm e n with
           | none => tblDone s w 4 st
           | some m => tblDone s w 0 (modLpm st s (fun _ => m)))

/-- DELETE removes the entry of the key. -/
def tblDelete (s : SliceId) (t : Tbl) (w : Word) (st : State) : State :=
  match t with
  | .mac =>
    let e := macOfData st s
    let code := entryCode st s e.key.inst true none
    if code ≠ 0 then tblRefuse s w code e.key.inst st
    else
      let (hit, st) := macLookup st s e.key
      (match hit with
       | none => tblDone s w 2 st
       | some (ix, _) => tblDone s w 0 (modMac st s (fun m => m.del ix)))
  | .lpm =>
    let e := lpmOfData st s
    let code := entryCode st s e.inst (lpmFormOk e) none
    if code ≠ 0 then tblRefuse s w code e.inst st
    else
      let (hit, st) := lpmByKey st s e
      (match hit with
       | none => tblDone s w 2 st
       | some (ix, _) => tblDone s w 0 (modLpm st s (fun m => m.del ix)))

/-- LOOKUP: an exact match, or the longest match of the address. -/
def tblLookup (s : SliceId) (t : Tbl) (w : Word) (st : State) : State :=
  match t with
  | .mac =>
    let e := macOfData st s
    if !instExists st e.key.inst then tblDone s w 7 st
    else
      let (hit, st) := macLookup st s e.key
      (match hit with
       | none => tblDone s w 2 st
       | some (ix, e) => tblFound s w ix (macImage e) st)
  | .lpm =>
    let e := lpmOfData st s
    if !instExists st e.inst then tblDone s w 7 st
    else
      (match lpmBest (sl st s).lpm e.inst e.v4 e.addr with
       | none => tblDone s w 2 st
       | some (ix, f) => if f.keyOk && f.resOk then tblFound s w ix (lpmImage f) st
         else tblDone s w 2 (parityError st s .lpm ix))

/-- The image matches the data under the mask. -/
def imageMatches (data mask image : List Word) : Bool :=
  (List.range 7).all (fun i => ((image.getD i 0) ^^^ (data.getD i 0)) &&& (mask.getD i 0) == 0)

/-- Valid entries from index `from_` on: index, image, whether the parity is good. -/
def imagesFrom (st : State) (s : SliceId) (t : Tbl) (from_ : Nat) : List (Nat × List Word × Bool) :=
  match t with
  | .mac => ((sl st s).mac.filter (fun p => decide (from_ ≤ p.1))).map (fun p => (p.1, macImage p.2, p.2.parOk))
  | .lpm => ((sl st s).lpm.filter (fun p => decide (from_ ≤ p.1))).map (fun p => (p.1, lpmImage p.2, p.2.keyOk && p.2.resOk))

def tblFin (t : Tbl) : Fin 2 := match t with | .mac => 0 | .lpm => 1

/-- The search from `from_` on; entries of bad parity are passed over and invalidated (R210). -/
def searchRun (s : SliceId) (t : Tbl) (w : Word) (data mask : List Word) (from_ : Nat) (st : State) : State :=
  let es := imagesFrom st s t from_
  let hit := es.find? (fun p => p.2.2 && imageMatches data mask p.2.1)
  let upTo := match hit with | some p => p.1 | none => tblSize t
  let st := es.foldl (fun st p => if !p.2.2 && decide (p.1 < upTo) then parityError st s t p.1 else st) st
  let latch (n : Nat) (st : State) : State :=
    modSl st s (fun x => { x with search := x.search.set (tblFin t) (some (data, mask, n)) })
  match hit with
  | some p => tblFound s w p.1 p.2.1 (latch (p.1 + 1) st)
  | none => tblDone s w 2 (latch from_ st)

/-- SEARCH latches data and mask and finds the first match (R215). -/
def tblSearch (s : SliceId) (t : Tbl) (ix : Nat) (w : Word) (st : State) : State :=
  if !(sl st s).maint[tblFin t] then tblDone s w 5 st
  else if tblSize t ≤ ix then tblDone s w 6 st
  else
    searchRun s t w ((List.range 7).map (fun i => rd st (Reg.fwdTblData s i)))
      ((List.range 7).map (fun i => rd st (Reg.fwdTblMask s i))) ix st

/-- NEXT goes on with the latched search (R215). -/
def tblNext (s : SliceId) (t : Tbl) (w : Word) (st : State) : State :=
  if !(sl st s).maint[tblFin t] then tblDone s w 5 st
  else
    match (sl st s).search[tblFin t] with
    | none => tblDone s w 2 st
    | some (data, mask, ix) => searchRun s t w data mask ix st

/-- Remove the entries that `mp` and `lp` hold of; the count goes to data word 7 (R215). -/
def flushWhere (s : SliceId) (t : Tbl) (static_ : Bool) (mp : MacEnt → Bool) (lp : LpmEnt → Bool) (w : Word) (st : State) :
    State :=
  match t with
  | .mac =>
    let goes (p : Nat × MacEnt) : Bool := mp p.2 && (static_ || !p.2.static_)
    let n := countP goes (sl st s).mac
    tblDone s w 0 (wr (modMac st s (fun m => m.filter (fun p => !goes p))) (Reg.fwdTblData s 7) (BitVec.ofNat 32 (n % 2 ^ 19)))
  | .lpm =>
    let goes (p : Nat × LpmEnt) : Bool := static_ && lp p.2
    let n := countP goes (sl st s).lpm
    tblDone s w 0 (wr (modLpm st s (fun m => m.filter (fun p => !goes p))) (Reg.fwdTblData s 7) (BitVec.ofNat 32 (n % 2 ^ 19)))

/-- FLUSH_PORT (R215, R217). -/
def tblFlushPort (s : SliceId) (t : Tbl) (w : Word) (st : State) : State :=
  let k := match t with | .mac => (macOfData st s).lport | .lpm => (lpmOfData st s).lport
  if !(sl st s).maint[tblFin t] then tblDone s w 5 st
  else if !isL2 st .line s k then tblDone s w 6 st
  else flushWhere s t (getF w Fld.fwdTblCmd_STATIC_TOO != 0) (fun e => e.lport == k) (fun e => e.lport == k) w st

/-- FLUSH_INSTANCE (R215, R217). -/
def tblFlushInstance (s : SliceId) (t : Tbl) (w : Word) (st : State) : State :=
  let i := match t with | .mac => (macOfData st s).key.inst | .lpm => (lpmOfData st s).inst
  if !(sl st s).maint[tblFin t] then tblDone s w 5 st
  else
    let code := entryCode st s i true none
    if code ≠ 0 then tblRefuse s w code i st
    else flushWhere s t (getF w Fld.fwdTblCmd_STATIC_TOO != 0) (fun e => e.key.inst == i) (fun e => e.inst == i) w st

def tblOfBit (n : Nat) : Tbl := if n = 0 then .mac else .lpm

/-- A command written to FWD_TBL_CMD, by OP. -/
def tblCmd (s : SliceId) (w : Word) (st : State) : State :=
  let t := tblOfBit (getF w Fld.fwdTblCmd_TBL)
  let ix := getF w Fld.fwdTblCmd_INDEX
  match getF w Fld.fwdTblCmd_OP with
  | 1 => tblRead s t ix w st
  | 2 => tblWrite s t w st
  | 3 => tblInsert s t w st
  | 4 => tblDelete s t w st
  | 5 => tblLookup s t w st
  | 6 => tblSearch s t ix w st
  | 7 => tblNext s t w st
  | 8 => tblFlushPort s t w st
  | 9 => tblFlushInstance s t w st
  | _ => tblDone s w 6 st

/-- The word of a table command. -/
def tblWord (op : Nat) (t : Tbl) (ix : Nat) (static_ : Bool) : Word :=
  word [(Fld.fwdTblCmd_OP, op), (Fld.fwdTblCmd_TBL, tblNum t), (Fld.fwdTblCmd_STATIC_TOO, b2n static_),
    (Fld.fwdTblCmd_INDEX, ix)]
def tblOp (s : SliceId) (w : Word) (eff : Word → State → State) (st : State) : Out :=
  .next (cmdPF (Reg.fwdTblCmd s) Fld.fwdTblCmd_RESULT w (eff w) st)

def execTblRead (s : SliceId) (t : Tbl) (ix : BitVec 18) (st : State) : Out :=
  tblOp s (tblWord 1 t ix.toNat false) (tblRead s t ix.toNat) st
def execTblWrite (s : SliceId) (t : Tbl) (st : State) : Out := tblOp s (tblWord 2 t 0 false) (tblWrite s t) st
def execTblInsert (s : SliceId) (t : Tbl) (st : State) : Out := tblOp s (tblWord 3 t 0 false) (tblInsert s t) st
def execTblDelete (s : SliceId) (t : Tbl) (st : State) : Out := tblOp s (tblWord 4 t 0 false) (tblDelete s t) st
def execTblLookup (s : SliceId) (t : Tbl) (st : State) : Out := tblOp s (tblWord 5 t 0 false) (tblLookup s t) st
def execSearch (s : SliceId) (t : Tbl) (ix : BitVec 18) (st : State) : Out :=
  tblOp s (tblWord 6 t ix.toNat false) (tblSearch s t ix.toNat) st
def execNext (s : SliceId) (t : Tbl) (st : State) : Out := tblOp s (tblWord 7 t 0 false) (tblNext s t) st
def execFlushPort (s : SliceId) (t : Tbl) (static_ : Bool) (st : State) : Out :=
  tblOp s (tblWord 8 t 0 static_) (tblFlushPort s t) st
def execFlushInstance (s : SliceId) (t : Tbl) (static_ : Bool) (st : State) : Out :=
  tblOp s (tblWord 9 t 0 static_) (tblFlushInstance s t) st

/-- A write to FWD_TBL_MODE: a request to leave MAINT takes effect at once, since no command is running (R214). -/
def tblModeWrite (s : SliceId) (w : Word) (st : State) : State :=
  let st := wr st (Reg.fwdTblMode s) (w &&& 0xC0000000)
  modSl st s (fun x => { x with maint := (x.maint.set 0 (x.maint[0] && bitW w 31)).set 1 (x.maint[1] && bitW w 30) })

def execFwdTblModeWrite (s : SliceId) (m l : Bool) (st : State) : Out :=
  let w := word [(Fld.fwdTblMode_MAC_MAINT_REQ, b2n m), (Fld.fwdTblMode_LPM_MAINT_REQ, b2n l)]
  .next (viaPF (Reg.fwdTblMode s) w (tblModeWrite s w) st)

/-- MAINT takes effect once the learn or command in progress completes; the latched search is gone (R214, Table 5-3). -/
def execMaintEnter (s : SliceId) (t : Tbl) (st : State) : Out :=
  .next (if bitW (rd st (Reg.fwdTblMode s)) (31 - tblNum t) && !(sl st s).maint[tblFin t] then
    modSl st s (fun x => { x with maint := x.maint.set (tblFin t) true, search := x.search.set (tblFin t) none })
  else st)

end Sys2Proof.Machine
end

