-- ==== Sys2Proof/Machine/JnlOps.lean ====
section
/-!
DEFINITION. The Ochre journal as the rest of the device uses it (09): fingerprints, users, the start rule, reservations,
and what happens when a key leaves its last user state. The writes themselves are in Journal.
-/
namespace Sys2Proof.Machine

/-! Channel and slot records (06). -/

def modCh (st : State) (s : SliceId) (ch : ChIx) (f : ChRec → ChRec) : State :=
  modSl st s (fun x => { x with chans := x.chans.put ch.val (f (x.chans.getD ch.val {})) })
def slotOf (st : State) (s : SliceId) (ch : ChIx) (an : An) : Slot := (chOf st s ch).slots[an]
def modSlot (st : State) (s : SliceId) (ch : ChIx) (an : An) (f : Slot → Slot) : State :=
  modCh st s ch (fun c => { c with slots := upd c.slots an f })

def isXpn (suite : Fin 4) : Bool := decide (2 ≤ suite.val)
/-- Last PN of a suite (06 Table 6-5). -/
def lastPn (suite : Fin 4) : Nat := if isXpn suite then 2 ^ 64 - 1 else 2 ^ 32 - 1
def ans : List An := [0, 1, 2, 3]

/-! Fingerprints (R344). -/

/-- The message of Table 9-2. -/
def fpMessage (kind : Nat) (suite : Nat) (key base : Bytes) : Bytes :=
  beBytes 1 kind ++ beBytes 1 suite ++ padTo 32 key ++ padTo 12 base
def fingerprint (st : State) (kind suite : Nat) (key base : Bytes) : Bytes :=
  (cmac st.ktr.fpKey (fpMessage kind suite key base)).take 12

/-- Nonce base of an association (Table 9-2). -/
def assocBase (suite : Fin 4) (sci : BitVec 64) (salt : BitVec 96) (ssci : Word) : Bytes :=
  if isXpn suite then beBytes 12 (salt ^^^ (ssci.setWidth 96 <<< 64)).toNat else beBytes 8 sci.toNat
/-- Nonce base of a tributary whose 40-bit number is `tnum` (10 R392). -/
def tribBase (salt : BitVec 96) (tnum : Nat) : Bytes := beBytes 12 (salt ^^^ (BitVec.ofNat 96 tnum <<< 56)).toNat

/-- System peer number (01 R56). -/
def spn (st : State) : BitVec 16 := st.img.content.spn

/-- Fingerprint of the key of a slot (R344, R345). -/
def slotFp (st : State) (s : SliceId) (ch : ChIx) (an : An) : Bytes :=
  let c := chOf st s ch
  let x := slotOf st s ch an
  fingerprint st (if c.dirRx then 2 else 1) c.suite.val x.key (assocBase c.suite c.sci x.salt x.ssci)

/-- What JIDX holds while the record of a key that the resynchronisation stream brought is on its way to the ring: no position
of it (the model's own; log entry 155). -/
def noIdx : Nat := 262144

/-! Records (R354, R359). -/

/-- The held record of a fingerprint, with its ring position. -/
def heldRecord (st : State) (fp : Bytes) : Option (Nat × JRec) := st.jnl.index.find? (fun p => p.2.fp == fp)

/-- States in which a slot is a user of its record (R354). -/
def slotUses (x : Slot) : Bool :=
  match x.state with
  | .loaded | .active | .retiring | .guard | .dropping => true
  | _ => false

/-- Whether the record at a ring position has a user (R354). -/
def jnlLive (st : State) (pos : Nat) : Bool :=
  slices4.any (fun s =>
    (sl st s).chans.any (fun p => p.2.slots.toList.any (fun x => slotUses x && x.jidx == pos)) ||
    (sl st s).ctf.trib.any (fun p => p.2.pos.toList.any (fun k => k.state != .empty && (k.txIdx == pos || k.rxIdx == pos)))) ||
  (match st.restore with | some r => r.slots.any (fun p => p.2.2.2.jidx == pos) | none => false)

/-- The record of a key that takes a place, and not of one that stands already. -/
def placesKey : JUse → Bool
  | .load .. | .install .. | .adopt .. | .adoptTrib .. => true
  | _ => false

/-- An installation of the fingerprint, or the record of a key that the resynchronisation stream brought, is on its way to the
ring; it counts as a user. -/
def jnlInstalling (st : State) (fp : Bytes) : Bool :=
  let hit (r : JReq) : Bool := r.fp == fp && placesKey r.use
  st.jnl.reqs.any hit || (match st.jnl.writing with | some (r, _) => hit r | none => false)

def heldMax : Nat := 245760
/-- Installations of fingerprints not held that are on their way to the ring; each will take a held place. -/
def jnlNew (st : State) : Nat :=
  countP (fun (r : JReq) => placesKey r.use && (heldRecord st r.fp).isNone)
    (st.jnl.reqs ++ (match st.jnl.writing with | some (r, _) => [r] | none => []))
def tombs (st : State) : List (Nat × JRec) := st.jnl.index.filter (fun p => p.2.tomb)

/-- The held tombstone of lowest SEQ (R361). -/
def oldestTomb (st : State) : Option (Nat × JRec) :=
  (tombs st).foldl (fun m p => match m with
    | none => some p
    | some q => if p.2.seq < q.2.seq then some p else some q) none

/-- Evict a record (R361). -/
def evict (st : State) (p : Nat × JRec) : State :=
  raise (count (modJnl st (fun j => { j with index := j.index.del p.1 })) (Reg.pnjCnt 6))
    { block := 9, index := 0, ps := [leVal (sub p.2.fp 0 4), leVal (sub p.2.fp 4 4), leVal (sub p.2.fp 8 4)] }

/-- Block size of a kind (R348). -/
def blockOf (st : State) (kind : Nat) : Nat :=
  2 ^ clampN 16 28 (fldA st Reg.pnjCfg (match kind with
    | 1 => Fld.pnjCfg_TX_LOG2 | 2 => Fld.pnjCfg_RX_LOG2 | _ => Fld.pnjCfg_TRIB_LOG2))

/-- Add a request. -/
def jnlRequest (st : State) (r : JReq) : State := modJnl st (fun j => { j with reqs := j.reqs ++ [r] })

/-- Record a refusal in PNJ_LAST_REF and count it (R355, Table 9-3). -/
def jnlRefused (st : State) (reason source : Nat) (s : SliceId) (an unit : Nat) : State :=
  count (wr st Reg.pnjLastRef (word [(Fld.pnjLastRef_REASON, reason), (Fld.pnjLastRef_SOURCE, source),
    (Fld.pnjLastRef_SLICE, s.val), (Fld.pnjLastRef_AN, an), (Fld.pnjLastRef_UNIT, unit)])) (Reg.pnjCnt 4)

/-- The start rule up to its commit (R353), which fails once the hold-up has closed the journal (R376): a reason of Table 9-3, or start and RES, with an eviction if one is needed. -/
def startRule (st : State) (kind last : Nat) (fp : Bytes) (req : Nat) : Except Nat (Nat × Nat × Option (Nat × JRec)) :=
  if !st.jnl.ready || (st.jnl.damaged && !st.jnl.acked) then .error 1
  else if jnlInstalling st fp then .error 2
  else
    match heldRecord st fp with
    | some (pos, r) =>
      if jnlLive st pos then .error 2
      else if last ≤ r.value then .error 3
      else if st.jnl.closed then .error 5
      else
        let start := max req (r.value + 1)
        .ok (start, min (start + blockOf st kind - 1) last, none)
    | none =>
      let res := min (req + blockOf st kind - 1) last
      if heldMax ≤ st.jnl.index.length + jnlNew st then
        match oldestTomb st with
        | none => .error 4
        | some p => if st.jnl.closed then .error 5 else .ok (req, res, some p)
      else if st.jnl.closed then .error 5
      else .ok (req, res, none)

/-! Leaving the user states (R351, R360). -/

/-- The request that `r` is, has nothing left to serve it. -/
def dropUse (gone : JUse → Bool) (st : State) : State :=
  modJnl st (fun j => { j with
    reqs := j.reqs.filter (fun r => !gone r.use)
    applies := j.applies.filter (fun u => !gone u)
    writing := j.writing.map (fun w => if gone w.1.use then ({ w.1 with use := .dropped }, w.2) else w) })

/-- A key whose record lies at `pos` has no user any more: its tombstone is due when it was a direct leaf or AUTO_TOMB is
1 (R360); it is written after the installations that wait (log entry 11). -/
def leaveRecord (st : State) (pos : Nat) (leaf force : Bool) : State :=
  match st.jnl.index.get? pos with
  | none => st
  | some r =>
    if leaf || force || flagA st Reg.pnjCfg Fld.pnjCfg_AUTO_TOMB then
      jnlRequest st { cls := 2, kind := r.kind, tomb := true, fp := r.fp, value := r.value, use := .tombAuto }
    else st

/-- A slot leaves its last user state: reservations for it are abandoned and its record loses its user (R351, R360). -/
def slotLeaves (st : State) (s : SliceId) (ch : ChIx) (an : An) (force : Bool) : State :=
  let x := slotOf st s ch an
  let st := dropUse (fun u => match u with
    | .reserveSlot s' c' a' _ | .adopt s' c' a' => s' == s && c' == ch && a' == an
    | _ => false) st
  leaveRecord st x.jidx x.leaf force

/-- A slot becomes EMPTY: KEY and H are zeroised (06 R271). -/
def slotEmpty (st : State) (s : SliceId) (ch : ChIx) (an : An) : State :=
  let x := slotOf st s ch an
  let st := if slotUses x then slotLeaves st s ch an false else st
  modSlot st s ch an (fun _ => {})

/-! Reservations (R349, R350). -/

def kindOf (dirRx : Bool) : Fin 16 := if dirRx then 2 else 1

/-- Kind and fingerprint of the record of a slot: those of the record at JIDX, or of its key while that is not written. -/
def slotJrec (st : State) (s : SliceId) (ch : ChIx) (an : An) : Fin 16 × Bytes :=
  match st.jnl.index.get? (slotOf st s ch an).jidx with
  | some r => (r.kind, r.fp)
  | none => (kindOf (chOf st s ch).dirRx, slotFp st s ch an)

/-- Ask for RES `req` for a slot. -/
def reserveSlot (st : State) (s : SliceId) (ch : ChIx) (an : An) (req : Nat) : State :=
  let r := slotJrec st s ch an
  jnlRequest (modSlot st s ch an (fun x => { x with resPend := true }))
    { cls := 0, kind := r.1, tomb := false, fp := r.2, value := req, use := .reserveSlot s ch an req }

/-- At a slot access: a reservation is due when a quarter of the block or less is left (R349). -/
def checkReserve (st : State) (s : SliceId) (ch : ChIx) (an : An) : State :=
  let c := chOf st s ch
  let x := slotOf st s ch an
  let b := blockOf st (kindOf c.dirRx).val
  let last := lastPn c.suite
  if x.resPend || x.res == last || x.res == 0 then st
  else if x.res + 1 ≤ x.pn + b / 4 then reserveSlot st s ch an (min (x.res + b) last)
  else st

/-- A frame that passed its ICV lies above RES (R350). -/
def reserveAbove (st : State) (s : SliceId) (ch : ChIx) (an : An) (pos : Nat) : State :=
  let c := chOf st s ch
  let req := min (pos + blockOf st (kindOf c.dirRx).val - 1) (lastPn c.suite)
  if (slotOf st s ch an).resPend then modSlot st s ch an (fun x => { x with resWant := max x.resWant req })
  else reserveSlot st s ch an req

end Sys2Proof.Machine
end

