-- ==== Sys2Proof/Machine/KtrOps.lean ====
section
/-!
DEFINITION. The Madder key tree as the rest of the device uses it (07): the derivation function, nodes and their users,
the debug substitution, and the refusal of several causes at once.
-/
namespace Sys2Proof.Machine

/-! Derivation (R283-R285). -/

/-- "NARTEN MADDER v1". -/
def kdfContext : Bytes :=
  [0x4E, 0x41, 0x52, 0x54, 0x45, 0x4E, 0x20, 0x4D, 0x41, 0x44, 0x44, 0x45, 0x52, 0x20, 0x76, 0x31]
/-- The input of Table 7-2. -/
def kdfInput (i : Nat) (mordant : Bytes) (level : Nat) : Bytes :=
  beBytes 4 i ++ padTo 32 mordant ++ [0] ++ kdfContext ++ beBytes 1 level ++ beBytes 4 0x100
/-- The 256-bit key derived from a parent key (R283, R284). -/
def kdf (parent mordant : Bytes) (level : Nat) : Bytes :=
  cmac parent (kdfInput 1 mordant level) ++ cmac parent (kdfInput 2 mordant level)
/-- Key check value (R284). -/
def kcvOf (key : Bytes) : Bytes := (cmac key (List.replicate 16 0)).take 4

/-- The Cinnabar root (R303). -/
def cinnabarRoot : Bytes := (List.range 32).map (fun i => BitVec.ofNat 8 i)
/-- A key that enters the device, as it is used: replaced while debug is enabled (R301). -/
def keyIn (st : State) (key : Bytes) : Bytes := if st.debug then kdf cinnabarRoot key 0 else key

/-! Nodes (R276, R277, R295, R296). -/

/-- Entries of the node store (R276). -/
def nodeCount (st : State) : Nat := if st.fuses.is4832 then 131072 else 65536
def node? (st : State) (n : Nat) : Option Node := st.ktr.nodes.get? n

/-- Whether a slot counts as a user of node `n` (R295). -/
def slotUsesNode (x : Slot) (n : Nat) : Bool :=
  x.keySrc && !x.orphan && x.node == n &&
  (match x.state with
   | .loaded | .active | .retiring | .guard => true
   | _ => false)

/-- Slots that an installation under way will fill, each with the key it has fetched or derived already (R299). -/
def installingSlots (st : State) : List Slot :=
  (st.jnl.reqs ++ (match st.jnl.writing with | some (r, _) => [r] | none => [])).filterMap (fun r =>
    match r.use with | .load _ _ _ _ x => some x | _ => none) ++
  (match st.restore with | some r => r.slots.map (fun p => p.2.2.2) | none => [])

/-- A tributary seals with node `n`, or is about to (R295, R299). -/
def tribUsesNode (x : TribSt) (n : Nat) : Bool :=
  (x.pos.toList.zip x.revoke.toList).any (fun k =>
    (k.1.state == .loaded || k.1.state == .inUse) && !k.2 && !k.1.orphan && k.1.node == n) ||
  (match x.installing with
   | some (_, k, _) => k.state != .revoked && !k.orphan && k.node == n
   | none => false)

/-- Users of node `n`, counted: slots and installations under way, tributaries, the Indigo link, a capsule in progress (R295,
R299). -/
def nodeUsers (st : State) (n : Nat) : Nat :=
  sumOf (fun s =>
    sumOf (fun p => countP (fun x => slotUsesNode x n) p.2.slots.toList) (sl st s).chans +
    countP (fun p => tribUsesNode p.2 n) (sl st s).ctf.trib) slices4 +
  countP (fun x => slotUsesNode x n) (installingSlots st) +
  b2n (st.twin.linkNode == some n && st.twin.keyed) + b2n (st.ktr.capNode == some n)

/-- Valid nodes whose parent is `n`; a root does not count as its own child. -/
def nodeChildren (st : State) (n : Nat) : Nat := countP (fun p => p.2.parent == n && p.1 != n) st.ktr.nodes

/-- Whether node `n` lies in the subtree of `top`, with at most 7 steps to the root (R288, R296). -/
def underNode (st : State) (top : Nat) : Nat → Nat → Bool
  | 0, n => n == top
  | k + 1, n =>
    n == top ||
    (match st.ktr.nodes.get? n with
     | some r => !r.root && underNode st top k r.parent
     | none => false)

/-- The subtree of node `n` (R296). -/
def subtree (st : State) (n : Nat) : List Nat := (st.ktr.nodes.filter (fun p => underNode st n 7 p.1)).map Prod.fst

/-- The indices of `t` are free: what took its key from a node there names no later node at its index (R300, R307). -/
def orphanUsers (st : State) (t : List Nat) : State :=
  let slot (x : Slot) : Slot := if x.keySrc && t.contains x.node then { x with orphan := true } else x
  let pos (k : KeyPos) : KeyPos := if t.contains k.node && k.state != .empty then { k with orphan := true } else k
  let job (r : JReq) : JReq := match r.use with
    | .load src s ch an x => { r with use := .load src s ch an (slot x) }
    | _ => r
  let st := slices4.foldl (fun st s => modSl st s (fun x =>
    { x with chans := x.chans.map (fun p => (p.1, { p.2 with slots := p.2.slots.map slot }))
             ctf := { x.ctf with trib := x.ctf.trib.map (fun p =>
               (p.1, { p.2 with pos := p.2.pos.map pos, installing := p.2.installing.map (fun y => (y.1, pos y.2.1, y.2.2)) })) } })) st
  let st := modJnl st (fun j => { j with reqs := j.reqs.map job, writing := j.writing.map (fun w => (job w.1, w.2)) })
  let st := { st with restore := st.restore.map (fun r =>
    { r with slots := r.slots.map (fun p => (p.1, p.2.1, p.2.2.1, slot p.2.2.2)) }) }
  let st := modTwin st (fun w => { w with linkNode := w.linkNode.filter (fun n => !t.contains n) })
  { st with ktr := { st.ktr with capNode := st.ktr.capNode.filter (fun n => !t.contains n) } }

/-- An uncorrectable error in a node word: the node and its subtree become invalid, users keep their keys (R307). -/
def nodeEcc (st : State) (n : Nat) : State :=
  let t := subtree st n
  let st := { st with ktr := { st.ktr with nodes := st.ktr.nodes.filter (fun p => !t.contains p.1) } }
  raise (count (sramUncorr (orphanUsers st t)) (Reg.ktrCnt 3)) { block := 8, index := 0, ps := [n] }

/-- Reading node `n` finds an uncorrectable error, if it has one. -/
def nodeCheck (st : State) (n : Nat) : State :=
  match node? st n with
  | some r => if r.bad then nodeEcc st n else st
  | none => st

/-- READY of KTR_STAT: the image is verified and the start-up check of the tamper unit is made (R281). -/
def ktrReady (st : State) : Bool := booted st && st.tmp.checked

/-- A slot goes to DROPPING and raises its event (06 R263); EMPTY, EXPORTED and DROPPING slots do not move. -/
def slotDrop (st : State) (s : SliceId) (ch : ChIx) (an : An) : State :=
  match (slotOf st s ch an).state with
  | .empty | .exported | .dropping => st
  | _ =>
    raise (modSlot st s ch an (fun x => { x with state := .dropping, due := none }))
      { block := 23, index := 2, slice := s.val, ps := [ch.val, an.val] }

/-! Refusals with several causes at once. -/

/-- The code of a command that meets the causes listed as (condition, code): 0 with none; where two different codes apply
and the spec gives no order, one of them, drawn (log entry 13). -/
def pickCode (st : State) (causes : List (Bool × Nat)) : Nat × State :=
  match (causes.filter (fun c => c.1)).map Prod.snd with
  | [] => (0, st)
  | c :: cs =>
    if cs.all (· == c) then (c, st)
    else
      let (n, st) := drawFree st
      ((c :: cs).getD (n % (cs.length + 1)) c, st)

/-- Refused by the state of an instance: `busy` while QUIESCING, `frozen` while FROZEN (13 R515). -/
def stateCauses (st : State) (i : InstId) (busy frozen : Nat) : List (Bool × Nat) :=
  [(instRefusal st i == 1, busy), (instRefusal st i == 2, frozen)]

/-- Record a refusal by instance state, when `code` is one (13 R515). -/
def stateRecord (st : State) (code busy frozen block : Nat) (s : SliceId) (i : InstId) : State :=
  if code = busy ∨ code = frozen then lastRef st (if code = busy then 1 else 2) block s i else st

end Sys2Proof.Machine
end

