-- ==== Sys2Proof/Machine/Sae.lean ====
section
/-!
DEFINITION. Secure channels and association slots (06) and their lifecycle (08): channel and slot commands, frame
boundaries, switches, windows, switch timers and the epoch pre-install.
-/
namespace Sys2Proof.Machine

/-! Memory errors (06 R264). -/

/-- An uncorrectable channel word: its slots go to DROPPING and the channel is treated as absent. -/
def chanEcc (st : State) (s : SliceId) (ch : ChIx) : State :=
  let st := ans.foldl (fun st an => slotDrop st s ch an) st
  let st := modCh st s ch (fun c => { c with eccFail := true, bad := false })
  raise (count (sramUncorr st) (Reg.saeCnt s 3)) { block := 23, index := 3, slice := s.val, ps := [ch.val] }

/-- An uncorrectable slot word: the slot goes to DROPPING. -/
def slotEcc (st : State) (s : SliceId) (ch : ChIx) (an : An) : State :=
  let st := slotDrop (modSlot st s ch an (fun x => { x with bad := false })) s ch an
  raise (count (sramUncorr st) (Reg.saeCnt s 2)) { block := 23, index := 3, slice := s.val, ps := [ch.val] }

/-- Change the SCI hash. -/
def modHash (st : State) (s : SliceId) (f : NMap SciEnt → NMap SciEnt) : State :=
  modSl st s (fun x => { x with sciHash := f x.sciHash })

/-- An uncorrectable SCI hash entry is invalidated. -/
def hashEcc (st : State) (s : SliceId) (ix : Nat) : State :=
  raise (count (sramUncorr (modHash st s (fun m => m.del ix))) (Reg.saeCnt s 4))
    { block := 23, index := 3, slice := s.val, ps := [ix] }

/-- Reading a channel record finds an uncorrectable word, if it has one. -/
def chanCheck (st : State) (s : SliceId) (ch : ChIx) : State := if (chOf st s ch).bad then chanEcc st s ch else st
/-- Reading a slot finds an uncorrectable word, if it has one. -/
def slotCheck (st : State) (s : SliceId) (ch : ChIx) (an : An) : State :=
  if (slotOf st s ch an).bad then slotEcc st s ch an else st

/-! Windows and switches (08 R312-R325). -/

/-- Lifecycle profile values with their least values (R322), in ns. -/
def ovlNs (st : State) (s : SliceId) (p : Fin 4) : Nat :=
  1000000 * max 10 (fldA st (Reg.saeLcProf s p) Fld.saeLcProf_OVL_MS)
def guardNs (st : State) (s : SliceId) (p : Fin 4) : Nat :=
  1000000 * max 100 (fldA st (Reg.saeLcProf s p) Fld.saeLcProf_GUARD_MS)

/-- A slot enters GUARD now (R323). -/
def enterGuard (st : State) (s : SliceId) (ch : ChIx) (an : An) : State :=
  let due := elNs st + guardNs st s (chOf st s ch).lcProf
  let st := modSlot st s ch an (fun x => { x with state := .guard, due := some due })
  modCh st s ch (fun c => { c with encAn := if c.encAn = some an then none else c.encAn })

/-- Slots of a channel in a state. -/
def slotsIn (st : State) (s : SliceId) (ch : ChIx) (q : SlotState) : List An :=
  ans.filter (fun an => (slotOf st s ch an).state == q)

/-- Make a LOADED slot ACTIVE; `start` is the window start instant (R236, R315, R323, R329). -/
def switchTo (st : State) (s : SliceId) (ch : ChIx) (an : An) (start : Nat) : State :=
  let c := chOf st s ch
  let st :=
    if c.dirRx then
      let st := (slotsIn st s ch .retiring).foldl (fun st a => enterGuard st s ch a) st
      (slotsIn st s ch .active).foldl (fun st a =>
        modSlot st s ch a (fun x => { x with state := .retiring, due := some (start + ovlNs st s c.lcProf) })) st
    else (slotsIn st s ch .active).foldl (fun st a => enterGuard st s ch a) st
  let st := modSlot st s ch an (fun x => { x with state := .active, due := none })
  let st := modCh st s ch (fun c => { c with
    encAn := if c.dirRx then none else some an
    epoch := if c.epochMode then c.epoch + 1 else c.epoch
    thrMissed := false })
  count st (Reg.saeLcCnt s 0)

/-- AN that EPOCH names (R313). -/
def epochAn (c : ChRec) : An := Fin.ofNat 4 c.epoch.toNat

/-- The slot that a switch by time or PN threshold activates, if it is LOADED (R313). -/
def nextSlot (st : State) (s : SliceId) (ch : ChIx) : Option An :=
  let c := chOf st s ch
  if c.epochMode then (if (slotOf st s ch (epochAn c)).state = .loaded then some (epochAn c) else none)
  else
    let a : Nat := ((slotsIn st s ch .active).map (fun a => a.val)).headD 3
    ([1, 2, 3].map (fun i => (Fin.ofNat 4 (a + i) : An))).find? (fun an => (slotOf st s ch an).state == .loaded)

/-- A missed switch: trigger 0 time, 1 PN threshold (R314; log entry 12). -/
def switchMissed (st : State) (s : SliceId) (ch : ChIx) (trigger : Nat) : State :=
  raise (count st (Reg.saeLcCnt s 1)) { block := 23, index := 4, slice := s.val, ps := [ch.val, trigger] }

def frozen (st : State) (i : InstId) : Bool := (inst st i).state == .frozen

/-- Apply the due transitions of a channel: RETIRING to GUARD, GUARD to EMPTY (R323, R337). -/
def dueTransitions (st : State) (s : SliceId) (ch : ChIx) : State :=
  if frozen st (chOf st s ch).inst then st
  else
    ans.foldl (fun st an =>
      let x := slotOf st s ch an
      match x.due with
      | some d =>
        if elNs st < d then st
        else match x.state with
          | .retiring => enterGuard st s ch an
          | .guard => slotEmpty st s ch an
          | _ => st
      | none => st) st

/-- The PN threshold (08 R317). -/
def pnThreshold (c : ChRec) : Nat := c.pnThr.toNat * 2 ^ c.pnShift.toNat

/-- The ACTIVE slot's next PN stands at the threshold or above it (R317). -/
def thresholdMet (st : State) (s : SliceId) (ch : ChIx) : Bool :=
  let c := chOf st s ch
  c.pnEn && (slotsIn st s ch .active).any (fun a => decide (pnThreshold c ≤ (slotOf st s ch a).pn))

/-- A switch by time, and whether it was made: not of a FROZEN channel (R314, R337). -/
def timeSwitch (st : State) (s : SliceId) (ch : ChIx) (start : Nat) : Bool × State :=
  if frozen st (chOf st s ch).inst then (false, count st (Reg.saeLcCnt s 1))
  else
    match nextSlot st s ch with
    | some an => (true, switchTo st s ch an start)
    | none => (false, switchMissed st s ch 0)

/-- A switch by PN threshold, and whether it was made; one that misses is counted once for each ACTIVE slot (R314, R317). -/
def thresholdSwitch (st : State) (s : SliceId) (ch : ChIx) : Bool × State :=
  let c := chOf st s ch
  if frozen st c.inst || !thresholdMet st s ch then (false, st)
  else
    match nextSlot st s ch with
    | some an => (true, switchTo st s ch an (elNs st))
    | none => (false, if c.thrMissed then st else switchMissed (modCh st s ch (fun c => { c with thrMissed := true })) s ch 1)

/-- A commanded change is judged again at the boundary against the state that results (06 R267); one that is no longer
allowed is refused with BAD_STATE, which overwrites SAE_CMD.RESULT although the command has ended (DESIGN CHOICE, log entry
152). `switched`: the channel has switched at this boundary, and switches once (08 R335); a FROZEN one does not (R337). -/
def applyChange (s : SliceId) (ch : ChIx) (switched : Bool) (st : State) (q : SlotChange) : State :=
  let bad (st : State) : State := setF st (Reg.saeCmd s) Fld.saeCmd_RESULT 2
  match q with
  | .activate an =>
    if (slotOf st s ch an).state = .loaded ∧ !switched ∧ !frozen st (chOf st s ch).inst then switchTo st s ch an (elNs st)
    else bad st
  | .retire an =>
    (match (slotOf st s ch an).state with
     | .active | .retiring => enterGuard st s ch an
     | _ => bad st)
  | .clear an =>
    (match (slotOf st s ch an).state with
     | .loaded | .dropping | .exported =>
       slotEmpty (modCh st s ch (fun c => { c with encAn := if c.encAn = some an then none else c.encAn })) s ch an
     | _ => bad st)

/-- The commanded changes that wait for the frame boundary. -/
def pendingChanges (st : State) (s : SliceId) (ch : ChIx) (switched : Bool) : State :=
  let q := (chOf st s ch).pend
  if q.isEmpty then st else q.foldl (applyChange s ch switched) (modCh st s ch (fun c => { c with pend := [] }))

/-- A frame boundary of a channel, its record being read: due transitions, a time trigger, the PN threshold if it is to be
tested here or has missed before, then commands; one switch at most (06 R234, R264, R267, 08 R314, R335). -/
def boundaryWith (st : State) (s : SliceId) (ch : ChIx) (trigger : Option Nat) (test : Bool) : State :=
  if !(sl st s).chans.has ch.val then st
  else
    let st := dueTransitions (chanCheck st s ch) s ch
    let r := match trigger with
      | some start => timeSwitch st s ch start
      | none => (false, st)
    let r := if !r.1 && (test || (chOf r.2 s ch).thrMissed) then thresholdSwitch r.2 s ch else r
    pendingChanges r.2 s ch r.1

/-- A frame boundary at which R317 asks for no test of its own. -/
def boundary (st : State) (s : SliceId) (ch : ChIx) (trigger : Option Nat) : State := boundaryWith st s ch trigger false

/-- A commanded slot change takes effect at the channel's next frame boundary (06 R266). -/
def execSlotChangeApply (s : SliceId) (ch : ChIx) (st : State) : Out := .next (boundary st s ch none)

/-- The sweep visits a channel (R324). -/
def execLifecycleSweep (s : SliceId) (ch : ChIx) (st : State) : Out := .next (boundary st s ch none)

/-! Switch timers (R333, R334, R342). -/

/-- Channels of slice `s` that timer `t` fires, by direction. -/
def timerChans (st : State) (s : SliceId) (t : Fin 8) (rx : Bool) : List ChIx :=
  ((sl st s).chans.filter (fun p => p.2.valid && !p.2.eccFail && p.2.timeEn && p.2.timer == t && p.2.dirRx == rx)).map
    (fun p => Fin.ofNat 16384 p.1)

def fireAll (st : State) (s : SliceId) (t : Fin 8) (rx : Bool) : State :=
  (timerChans st s t rx).foldl (fun st' ch => boundary st' s ch (some (elNs st))) st

def modTimer (st : State) (s : SliceId) (t : Fin 8) (f : SwTimer → SwTimer) : State :=
  modSl st s (fun x => { x with timers := upd x.timers t f })

/-- The receive fire is due (R333). -/
def rxDue (st : State) (x : SwTimer) : Bool :=
  x.armed && !x.rxFired && nsLe (x.time - BitVec.ofNat 32 (1000 * x.lead.toNat)) (nowNs st)

def doRxFire (st : State) (s : SliceId) (t : Fin 8) : State :=
  if rxDue st (sl st s).timers[t] then fireAll (modTimer st s t (fun x => { x with rxFired := true })) s t true else st

def execRxFire (s : SliceId) (t : Fin 8) (st : State) : Out := .next (doRxFire st s t)

/-- The transmit fire: transmit channels switch, the timer disarms, an event is raised (R333, R334). -/
def execTimerFired (s : SliceId) (t : Fin 8) (st : State) : Out :=
  .next (if (sl st s).timers[t].armed && nsLe (sl st s).timers[t].time (nowNs st) then
    let st := doRxFire st s t
    let st := fireAll (modTimer st s t (fun x => { x with armed := false })) s t false
    raise st { block := 23, index := 6, slice := s.val, ps := [t.val] }
  else st)

/-- TIME − now as a signed 32-bit difference lies in (1,000 × RX_LEAD, 2.0 s] (R334). -/
def armInRange (st : State) (time : Word) (lead : Nat) : Bool :=
  let d := (time - nowNs st).toInt
  decide ((1000 * lead : Int) < d) && decide (d ≤ 2000000000)

/-- A write to SAE_SWT_CTL (R334, R342). -/
def timerStrobe (s : SliceId) (t : Fin 8) (w : Word) (st : State) : State :=
  let a := Reg.saeSwtCtl s t
  let lead := getF w Fld.saeSwtCtl_RX_LEAD
  let arm := bitW w 31
  let dis := bitW w 30
  let x := (sl st s).timers[t]
  let time := rd st (Reg.saeSwtTime s t)
  let res (st : State) (code : Nat) : State := wr st a (word [(Fld.saeSwtCtl_RESULT, code), (Fld.saeSwtCtl_RX_LEAD, lead)])
  if arm && dis then res st 4
  else if arm then
    if x.armed then res st 1
    else if !armInRange st time lead then res st 3
    else res (modTimer st s t (fun _ => { time := time, lead := BitVec.ofNat 16 lead, armed := true, rxFired := false })) 0
  else if dis then
    if !x.armed then res st 2 else res (modTimer st s t (fun x => { x with armed := false })) 0
  else setF st a Fld.saeSwtCtl_RX_LEAD lead

def execTimerArm (s : SliceId) (t : Fin 8) (other : Bool) (lead : BitVec 16) (st : State) : Out :=
  let w := word [(Fld.saeSwtCtl_ARM, 1), (Fld.saeSwtCtl_DISARM, b2n other), (Fld.saeSwtCtl_RX_LEAD, lead.toNat)]
  .next (viaPF (Reg.saeSwtCtl s t) w (timerStrobe s t w) st)
def execTimerDisarm (s : SliceId) (t : Fin 8) (other : Bool) (lead : BitVec 16) (st : State) : Out :=
  let w := word [(Fld.saeSwtCtl_ARM, b2n other), (Fld.saeSwtCtl_DISARM, 1), (Fld.saeSwtCtl_RX_LEAD, lead.toNat)]
  .next (viaPF (Reg.saeSwtCtl s t) w (timerStrobe s t w) st)

/-! The channel image (06 SAE_CH_DATA, 08 R320). -/

def chData (st : State) (s : SliceId) (i : Nat) : Word := rd st (Reg.saeChData0 s + 4 * i)

/-- Words 0-7 of a channel record. -/
def chImage (c : ChRec) : List Word :=
  [word [(Fld.saeChData_VALID, b2n c.valid), (Fld.saeChData_DIR, b2n c.dirRx), (Fld.saeChData_SUITE, c.suite.val),
     (Fld.saeChData_CONF_OFF, c.confOff.toNat), (Fld.saeChData_ENCRYPT, b2n c.encrypt), (Fld.saeChData_INC_SCI, b2n c.incSci),
     (Fld.saeChData_USE_ES, b2n c.useEs), (Fld.saeChData_VALIDATE, c.validate.toNat), (Fld.saeChData_REPLAY_EN, b2n c.replayEn),
     (Fld.saeChData_LEARN_EN, b2n c.learnEn), (Fld.saeChData_PRIV, b2n c.priv), (Fld.saeChData_FRAG_MISS, b2n c.fragMissSlow),
     (Fld.saeChData_ENC_VALID, b2n c.encAn.isSome), (Fld.saeChData_ENC_AN, (c.encAn.getD 0).val),
     (Fld.saeChData_BIND, c.bind.toNat), (Fld.saeChData_INSTANCE, c.inst.val)],
   c.replayWindow, c.sci.setWidth 32, (c.sci >>> 32).setWidth 32,
   word [(Fld.saeChData_ECC_FAIL, b2n c.eccFail), (Fld.saeChData_LEARN_TX, c.learnTx.val)],
   word [(⟨31, 30⟩, b2n c.epochMode), (⟨29, 29⟩, b2n c.timeEn), (⟨28, 26⟩, c.timer.val), (⟨25, 25⟩, b2n c.pnEn),
     (⟨24, 20⟩, c.pnShift.toNat), (⟨19, 18⟩, c.lcProf.val), (⟨17, 17⟩, b2n c.preErr), (⟨16, 0⟩, c.parent.toNat)],
   c.epoch, c.pnThr]

/-- The record that the image words describe, over the present one `c`. -/
def chOfImage (st : State) (ws : List Word) (c : ChRec) : ChRec :=
  let w (i : Nat) : Word := ws.getD i 0
  let f (i hi lo : Nat) : Nat := getF (w i) ⟨hi, lo⟩
  let rx := bitW (w 0) 30
  let sci : BitVec 64 := (w 3).setWidth 64 <<< 32 ||| (w 2).setWidth 64
  { c with
    valid := true, dirRx := rx, suite := Fin.ofNat 4 (f 0 29 28), confOff := BitVec.ofNat 2 (f 0 27 26)
    encrypt := bitW (w 0) 25, incSci := bitW (w 0) 24, useEs := bitW (w 0) 23, validate := BitVec.ofNat 2 (f 0 22 21)
    replayEn := bitW (w 0) 20, learnEn := bitW (w 0) 19, priv := bitW (w 0) 18, fragMissSlow := bitW (w 0) 17
    bind := BitVec.ofNat 4 (f 0 13 10), inst := Fin.ofNat 256 (f 0 7 0), replayWindow := w 1
    sci := if rx then sci else (sci >>> 16 <<< 16) ||| (spn st).setWidth 64
    learnTx := Fin.ofNat 16384 (f 4 13 0)
    epochMode := f 5 31 30 == 1, timeEn := bitW (w 5) 29, timer := Fin.ofNat 8 (f 5 28 26), pnEn := bitW (w 5) 25
    pnShift := BitVec.ofNat 5 (f 5 24 20), lcProf := Fin.ofNat 4 (f 5 19 18), preErr := false
    parent := BitVec.ofNat 17 (f 5 16 0), epoch := w 6, pnThr := w 7 }

def slotsEmpty (c : ChRec) : Bool := c.slots.toList.all (fun x => x.state == .empty)

/-! The SCI hash (R228). -/

def sciPlaces (st : State) (sci : BitVec 64) : List Nat :=
  let key := beBytes 8 sci.toNat
  let b0 := bucketOf st.img.content.sSci 0 2048 key
  let b1 := bucketOf st.img.content.sSci 1 2048 key
  (List.range 8).map (fun w => 8 * b0 + w) ++ (List.range 8).map (fun w => 16384 + 8 * b1 + w)

def sciFind (st : State) (s : SliceId) (sci : BitVec 64) : Option (Nat × SciEnt) :=
  (sciPlaces st sci).findSome? (fun i =>
    match (sl st s).sciHash.get? i with
    | some e => if e.sci = sci then some (i, e) else none
    | none => none)
def sciFree (st : State) (s : SliceId) (sci : BitVec 64) : Option Nat :=
  (sciPlaces st sci).find? (fun i => !(sl st s).sciHash.has i)
/-- Remove the entries of a channel. -/
def sciRemove (st : State) (s : SliceId) (ch : ChIx) : State := modHash st s (fun m => m.filter (fun p => p.2.ch != ch))

/-! Commands (R271, R274). -/

/-- End of a command: result, and the word's operands in the register. -/
def saeDone (s : SliceId) (w : Word) (code : Nat) (st : State) : State :=
  cmdDone st (Reg.saeCmd s) Fld.saeCmd_RESULT Fld.saeCmd_OP w code

/-- Refusals by the state of a channel's instance: 13 and 14. -/
def saeState (st : State) (i : InstId) : List (Bool × Nat) := stateCauses st i 13 14

/-- End a command with one of its causes, or go on. -/
def saeJudge (s : SliceId) (w : Word) (i : InstId) (causes : List (Bool × Nat)) (ok : State → State) (st : State) : State :=
  let (code, st) := pickCode st causes
  if code = 0 then ok st else saeDone s w code (stateRecord st code 13 14 0 s i)

/-- CH_READ moves the record to SAE_CH_DATA. -/
def chRead (s : SliceId) (ch : ChIx) (w : Word) (st : State) : State :=
  let st := chanCheck st s ch
  saeDone s w 0 ((chImage (chOf st s ch)).zipIdx.foldl (fun st p => wr st (Reg.saeChData0 s + 4 * p.2) p.1) st)

/-- A field that may change only while all four slots are EMPTY differs (R229). -/
def fixedDiffers (a b : ChRec) : Bool :=
  a.dirRx != b.dirRx || a.suite != b.suite || a.confOff != b.confOff || a.encrypt != b.encrypt || a.incSci != b.incSci ||
  a.useEs != b.useEs || a.sci != b.sci || a.inst != b.inst

/-- Values that a CH_WRITE refuses with BAD_PARAM (R243, R258, 08 R318, R320, R330). -/
def chBadParam (n : ChRec) (mode : Nat) : Bool :=
  (!n.dirRx && !n.encrypt && n.confOff != 0) || n.confOff == 3 || n.validate == 3 ||
  (decide (9 ≤ n.bind.toNat) && decide (n.bind.toNat ≤ 14)) ||
  (isXpn n.suite && decide (2 ^ 30 < n.replayWindow.toNat)) ||
  (n.pnEn && (pnThreshold n == 0 || decide (lastPn n.suite < pnThreshold n))) ||
  decide (2 ≤ mode) || (n.epochMode && n.timeEn && n.pnEn)

/-- VALID channels of an instance in the slice (13 Table 13-1). -/
def channelsOf (st : State) (s : SliceId) (i : InstId) : Nat := countP (fun p => p.2.valid && p.2.inst == i) (sl st s).chans
/-- Slots not EMPTY of an instance in the slice. -/
def assocsOf (st : State) (s : SliceId) (i : InstId) : Nat :=
  sumOf (fun p => if p.2.inst = i then countP (fun x => x.state != .empty) p.2.slots.toList else 0) (sl st s).chans

/-- CH_WRITE creates or changes a channel (R226-R231). -/
def chWrite (s : SliceId) (ch : ChIx) (w : Word) (st : State) : State :=
  let st := boundary st s ch none
  let ws := (List.range 8).map (chData st s)
  let c := chOf st s ch
  let n := chOfImage st ws c
  let other := (match sciFind st s n.sci with | some (_, e) => e.ch != ch | none => false)
  let own := (match sciFind st s n.sci with | some (_, e) => e.ch == ch | none => false)
  let i := if c.valid then c.inst else n.inst
  saeJudge s w i
    ([(c.eccFail, 2), (c.valid && fixedDiffers c n && !slotsEmpty c, 2),
      (chBadParam n (getF (ws.getD 5 0) ⟨31, 30⟩), 3),
      (!instExists st n.inst, 4),
      ((!c.valid || c.inst != n.inst) && decide ((inst st n.inst).shares[s].channels ≤ channelsOf st s n.inst), 7),
      (st.img.content.twin && !n.dirRx && n.bind == 15, 8),
      (n.dirRx && other, 9), (n.dirRx && !other && !own && (sciFree st s n.sci).isNone, 10)] ++
      saeState st c.inst ++ saeState st n.inst)
    (fun st =>
      let st := if own && n.dirRx then st else sciRemove st s ch
      let st := if n.dirRx && !own then
          (match sciFree st s n.sci with
           | some ix => modHash st s (fun m => m.put ix { sci := n.sci, ch := ch })
           | none => st)
        else st
      let st := if c.valid then st
        else modSl st s (fun x => { x with chCtr := clearCtrs x.chCtr (16 * ch.val) (16 * ch.val + 16) })
      saeDone s w 0 (modCh st s ch (fun _ => n))) st

/-- CH_DELETE removes a channel whose slots are all EMPTY; it clears ECC_FAIL (R265, R271). One that is not VALID is refused,
with ECC_FAIL set too: Table 6-14 is followed, and ECC_FAIL of an unconfigured record stays until the slice's reset (DESIGN
CHOICE, log entry 151). -/
def chDelete (s : SliceId) (ch : ChIx) (w : Word) (st : State) : State :=
  let st := boundary st s ch none
  let c := chOf st s ch
  saeJudge s w c.inst ([(!c.valid, 3), (c.valid && !slotsEmpty c, 2)] ++ saeState st c.inst)
    (fun st => saeDone s w 0 (modSl (sciRemove st s ch) s (fun x => { x with chans := x.chans.del ch.val }))) st

/-- A slot record as SA_READ shows it: words 48-95 of Table 6-2 (R233). -/
def slotImage (x : Slot) : List Word :=
  let n (v : Nat) : Word := BitVec.ofNat 32 v
  [n x.salt.toNat, n (x.salt.toNat / 2 ^ 32), n (x.salt.toNat / 2 ^ 64), x.ssci,
   n x.pn, n (x.pn / 2 ^ 32), n x.res, n (x.res / 2 ^ 32), n x.floor, n (x.floor / 2 ^ 32),
   word [(Fld.saeSaData_KEY_SRC, b2n x.keySrc), (Fld.saeSaData_NODE, x.node)],
   word [(Fld.saeSaData_STATE, slotStateNum x.state), (Fld.saeSaData_EXHAUSTED, b2n x.exhausted),
     (Fld.saeSaData_REKEY_REQ, b2n x.rekeyReq), (Fld.saeSaData_JIDX, x.jidx)]]

/-- SA_READ fills SAE_SA_DATA (R271); a slot OP on a channel that is not VALID is refused. -/
def saRead (s : SliceId) (ch : ChIx) (an : An) (w : Word) (st : State) : State :=
  let st := slotCheck (boundary st s ch none) s ch an
  saeJudge s w (chOf st s ch).inst [(!(chOf st s ch).valid, 3)]
    (fun st => saeDone s w 0
      ((slotImage (slotOf st s ch an)).zipIdx.foldl (fun st p => wr st (Reg.saeSaData0 s + 4 * p.2) p.1) st)) st

def saData (st : State) (s : SliceId) (i : Nat) : Nat := (rd st (Reg.saeSaData0 s + 4 * i)).toNat

/-- Clear SAE_KEY (R238). -/
def clearSaeKey (st : State) (s : SliceId) : State := (List.range 8).foldl (fun st i => wr st (Reg.saeKey s i) 0) st

/-- A key cut to the suite: bytes 0-15 for the 128-bit suites, in 32 bytes (R232, R241). -/
def suiteKey (suite : Fin 4) (key : Bytes) : Bytes :=
  if suite = 0 ∨ suite = 2 then padTo 32 (key.take 16) else padTo 32 key
/-- The AES key itself. -/
def aesKeyOf (suite : Fin 4) (key : Bytes) : Bytes := if suite = 0 ∨ suite = 2 then key.take 16 else key

/-- A slot LOADED with a key, from its start and RES (R237, 09 R353). -/
def loadedSlot (suite : Fin 4) (key : Bytes) (salt : BitVec 96) (ssci : Word) (start res : Nat) (keySrc leaf : Bool)
    (node : Nat) : Slot :=
  { state := .loaded, key := suiteKey suite key, h := hashKey (aesKeyOf suite key)
    salt := if isXpn suite then salt else 0, ssci := if isXpn suite then ssci else 0
    pn := start, res := res, floor := start, keySrc := keySrc, node := node, leaf := leaf }

/-- Run the start rule for a slot and queue the installation; `fail` answers a refusal by the journal. -/
def startInstall (st : State) (src : Fin 4) (cls : Fin 3) (s : SliceId) (ch : ChIx) (an : An) (key : Bytes) (salt : BitVec 96)
    (ssci : Word) (req : Nat) (keySrc leaf : Bool) (node : Nat) (ok fail : State → State) : State :=
  let c := chOf st s ch
  let k := kindOf c.dirRx
  let salt := if isXpn c.suite then salt else 0
  let ssci := if isXpn c.suite then ssci else 0
  let fp := fingerprint st k.val c.suite.val (suiteKey c.suite key) (assocBase c.suite c.sci salt ssci)
  match startRule st k.val (lastPn c.suite) fp req with
  | .error reason => fail (jnlRefused st reason (if src = 2 then 0 else src.val) s an.val ch.val)
  | .ok (start, res, ev) =>
    let st := match ev with | some p => evict st p | none => st
    ok (jnlRequest st { cls := cls, kind := k, tomb := false, fp := fp, value := res
                        use := .load src s ch an (loadedSlot c.suite key salt ssci start res keySrc leaf node) })

/-- Causes of a node named for a slot (R237, 07 R290): NODE_INVALID, WRONG_TYPE, BAD_INSTANCE. -/
def nodeCauses (st : State) (c : ChRec) (n : Nat) : List (Bool × Nat) :=
  match node? st n with
  | none => [(true, 6)]
  | some r => [(r.type != (if c.dirRx then 2 else 1), 5), (r.owner != c.inst, 4)]

/-- SA_LOAD: judged, then the journal serves the installation (R237, 09 R353). -/
def saLoad (s : SliceId) (ch : ChIx) (an : An) (w : Word) (st : State) : State :=
  let st := slotCheck (boundary st s ch none) s ch an
  let c := chOf st s ch
  let req := saData st s 4 + saData st s 5 * 2 ^ 32
  let src := (saData st s 10).testBit 31
  let node := saData st s 10 % 2 ^ 17
  let raw := ((List.range 8).map (fun i => leBytes 4 (rd st (Reg.saeKey s i)).toNat)).flatten
  let st := if src then nodeCheck (clearSaeKey st s) node else clearSaeKey st s
  let okCh := c.valid && !c.eccFail
  saeJudge s w c.inst
    ([(!okCh, 3), (okCh && (req == 0 || decide (lastPn c.suite < req)), 3),
      (okCh && ((slotOf st s ch an).state != .empty || c.epochMode), 2),
      (okCh && decide ((inst st c.inst).shares[s].assocs ≤ assocsOf st s c.inst), 7)] ++
      (if okCh && src then nodeCauses st c node else []) ++ (if okCh then saeState st c.inst else []))
    (fun st =>
      let key := if src then ((node? st node).map (fun r => r.key)).getD []
        else keyIn st (suiteKey c.suite raw)
      let salt := BitVec.ofNat 96 (saData st s 0 + saData st s 1 * 2 ^ 32 + saData st s 2 * 2 ^ 64)
      startInstall st 0 1 s ch an key salt (BitVec.ofNat 32 (saData st s 3)) req src false node
        (fun st => cmdBusy st (Reg.saeCmd s) Fld.saeCmd_OP w) (saeDone s w 12)) st

/-- Judge a command that changes a slot at the next frame boundary, and queue the change (R266). -/
def saChange (s : SliceId) (ch : ChIx) (an : An) (w : Word) (allowed : ChRec → SlotState → Bool) (q : SlotChange)
    (st : State) : State :=
  let st := slotCheck (boundary st s ch none) s ch an
  let c := chOf st s ch
  saeJudge s w c.inst
    ([(!c.valid, 3), (c.valid && !allowed c (slotOf st s ch an).state, 2)] ++ (if c.valid then saeState st c.inst else []))
    (fun st => saeDone s w 0 (modCh st s ch (fun c => { c with pend := c.pend ++ [q] }))) st

/-- SA_ACTIVATE: a LOADED slot; in epoch mode only the slot of EPOCH, and not while the named timer is armed (08 R330). -/
def saActivate (s : SliceId) (ch : ChIx) (an : An) (w : Word) (st : State) : State :=
  let armed := (sl st s).timers.map (fun t => t.armed)
  saChange s ch an w (fun c q => q == .loaded && !c.eccFail &&
    !(c.epochMode && (an != epochAn c || (c.timeEn && armed[c.timer])))) (.activate an) st

/-- SA_RETIRE: an ACTIVE or RETIRING slot (08 R325). -/
def saRetire (s : SliceId) (ch : ChIx) (an : An) (w : Word) (st : State) : State :=
  saChange s ch an w (fun _ q => q == .active || q == .retiring) (.retire an) st

/-- SA_CLEAR: a LOADED, DROPPING or EXPORTED slot (R271). -/
def saClear (s : SliceId) (ch : ChIx) (an : An) (w : Word) (st : State) : State :=
  saChange s ch an w (fun _ q => q == .loaded || q == .dropping || q == .exported) (.clear an) st

/-- SCI_FIND looks up the SCI of SAE_CH_DATA_2 and _3 (R271). -/
def sciFindCmd (s : SliceId) (w : Word) (st : State) : State :=
  match sciFind st s ((chData st s 3).setWidth 64 <<< 32 ||| (chData st s 2).setWidth 64) with
  | none => saeDone s w 11 st
  | some (ix, e) =>
    if e.bad then saeDone s w 11 (hashEcc st s ix)
    else saeDone s (putF w Fld.saeCmd_CHANNEL e.ch.val) 0 st

/-- A command written to SAE_CMD, by OP; other codes are no action. -/
def saeCmd (s : SliceId) (w : Word) (st : State) : State :=
  let ch : ChIx := Fin.ofNat 16384 (getF w Fld.saeCmd_CHANNEL)
  let an : An := Fin.ofNat 4 (getF w Fld.saeCmd_AN)
  match getF w Fld.saeCmd_OP with
  | 1 => chRead s ch w st
  | 2 => chWrite s ch w st
  | 3 => chDelete s ch w st
  | 4 => saRead s ch an w st
  | 5 => saLoad s ch an w st
  | 6 => saActivate s ch an w st
  | 7 => saRetire s ch an w st
  | 8 => saClear s ch an w st
  | 9 => sciFindCmd s w st
  | _ => setF (setF st (Reg.saeCmd s) Fld.saeCmd_AN an.val) (Reg.saeCmd s) Fld.saeCmd_CHANNEL ch.val

def saeWord (op : Nat) (ch : ChIx) (an : An) : Word :=
  word [(Fld.saeCmd_OP, op), (Fld.saeCmd_AN, an.val), (Fld.saeCmd_CHANNEL, ch.val)]
def saeOp (s : SliceId) (w : Word) (eff : Word → State → State) (st : State) : Out :=
  .next (cmdPF (Reg.saeCmd s) Fld.saeCmd_RESULT w (eff w) st)

def execChRead (s : SliceId) (ch : ChIx) (st : State) : Out := saeOp s (saeWord 1 ch 0) (chRead s ch) st
def execChWrite (s : SliceId) (ch : ChIx) (st : State) : Out := saeOp s (saeWord 2 ch 0) (chWrite s ch) st
def execChDelete (s : SliceId) (ch : ChIx) (st : State) : Out := saeOp s (saeWord 3 ch 0) (chDelete s ch) st
def execSaRead (s : SliceId) (ch : ChIx) (an : An) (st : State) : Out := saeOp s (saeWord 4 ch an) (saRead s ch an) st
def execSaActivate (s : SliceId) (ch : ChIx) (an : An) (st : State) : Out :=
  saeOp s (saeWord 6 ch an) (saActivate s ch an) st
def execSaRetire (s : SliceId) (ch : ChIx) (an : An) (st : State) : Out := saeOp s (saeWord 7 ch an) (saRetire s ch an) st
def execSaClear (s : SliceId) (ch : ChIx) (an : An) (st : State) : Out := saeOp s (saeWord 8 ch an) (saClear s ch an) st
def execSciFind (s : SliceId) (st : State) : Out := saeOp s (saeWord 9 0 0) (sciFindCmd s) st

/-- A write of SAE_CMD through the PF; SAE_KEY is cleared by every SA_LOAD, even by one that meets BUSY (R238). -/
def saePF (s : SliceId) (w : Word) (st : State) : State :=
  let a := Reg.saeCmd s
  let busy := !st.glb.halted && !sliceGone st a && !twinStandby st && (!booted st || decide (fld st a busyF ≠ 0))
  let st' := cmdPF a Fld.saeCmd_RESULT w (saeCmd s w) st
  if busy && getF w Fld.saeCmd_OP == 5 then clearSaeKey st' s else st'

/-- SA_LOAD. -/
def execSaLoad (s : SliceId) (ch : ChIx) (an : An) (st : State) : Out := .next (saePF s (saeWord 5 ch an) st)

/-! Epoch pre-install (08 R327, R328). -/

/-- The mordant of a direct leaf (Table 8-2): purpose 0 key, 1 salt. -/
def epochMordant (e : Word) (purpose : Nat) : Bytes := padTo 32 (beBytes 4 e.toNat ++ beBytes 1 (e.toNat % 4) ++ beBytes 1 purpose)

/-- A pre-install of this slot is already on its way to the ring. -/
def preInstalling (st : State) (s : SliceId) (ch : ChIx) : Bool :=
  let hit (r : JReq) : Bool := match r.use with | .load 1 s' c' _ _ => s' == s && c' == ch | _ => false
  st.jnl.reqs.any hit || (match st.jnl.writing with | some (r, _) => hit r | none => false)

/-- The pre-install is refused (R327). -/
def preFail (s : SliceId) (ch : ChIx) (an : An) (reason : Nat) (st : State) : State :=
  raise (count (modCh st s ch (fun c => { c with preErr := true })) (Reg.saeLcCnt s 3))
    { block := 23, index := 5, slice := s.val, ps := [ch.val, an.val, reason] }

/-- The KTR's reason to refuse a direct leaf, 0 none (R327, 07 R292). -/
def leafReason (c : ChRec) (n : Option Node) : Nat :=
  match n with
  | none => 1
  | some r => if r.type ≠ 0 ∨ r.leafType ≠ (if c.dirRx then 2 else 1) then 2 else if r.owner ≠ c.inst then 3 else 0

/-- Slot `an` may be pre-installed: the channel is VALID and in epoch mode, the slot is that of EPOCH and EMPTY, PRE_ERR is 0,
and the instance is not FROZEN (R327, R337). -/
def preInstallOk (st : State) (s : SliceId) (ch : ChIx) (an : An) : Bool :=
  let c := chOf st s ch
  c.valid && !c.eccFail && c.epochMode && !c.preErr && an == epochAn c && (slotOf st s ch an).state == .empty &&
  !frozen st c.inst

/-- In epoch mode the EMPTY slot of EPOCH is loaded with direct leaves of PARENT, requested PN 1 (R327, R328). -/
def preInstall (st : State) (s : SliceId) (ch : ChIx) : State :=
  let st := chanCheck st s ch
  let c := chOf st s ch
  let an := epochAn c
  if !preInstallOk st s ch an || preInstalling st s ch || st.glb.halted || st.glb.holdup then st
  else
    let n := c.parent.toNat
    let st := nodeCheck st n
    let reason := leafReason c (node? st n)
    if reason ≠ 0 then preFail s ch an reason st
    else if (inst st c.inst).shares[s].assocs ≤ assocsOf st s c.inst then preFail s ch an 5 st
    else
      let r := (node? st n).getD { key := [], mordant := [], root := false, cinnabar := false, type := 0, depth := 0,
                                   leafType := 0, parent := 0, owner := 0, kcv := [] }
      let level := r.depth.val + 1
      let key := kdf r.key (epochMordant c.epoch 0) level
      let salt := beVal ((kdf r.key (epochMordant c.epoch 1) level).take 12)
      let st := countN st (Reg.ktrCnt 0) (if isXpn c.suite then 2 else 1)
      startInstall st 1 2 s ch an key (BitVec.ofNat 96 salt) (c.sci.setWidth 16 |>.setWidth 32) 1 true true n
        id (preFail s ch an 4)

def execPreInstall (s : SliceId) (ch : ChIx) (st : State) : Out := .next (preInstall st s ch)

end Sys2Proof.Machine
end

