-- ==== Sys2Proof/Machine/Keys.lean ====
section
/-!
DEFINITION. The commands of the Madder key tree (07).
-/
namespace Sys2Proof.Machine

def ktrNode (w : Word) : Nat := getF w Fld.ktrCmd_NODE
def ktrWord (op : Nat) (n : BitVec 17) (force : Bool) : Word :=
  word [(Fld.ktrCmd_OP, op), (Fld.ktrCmd_FORCE, b2n force), (Fld.ktrCmd_NODE, n.toNat)]

/-- End of a command; a refusal is counted (R310, R311). -/
def ktrDone (w : Word) (code : Nat) (st : State) : State :=
  let st := cmdDone st Reg.ktrCmd Fld.ktrCmd_RESULT Fld.ktrCmd_OP w code
  if code = 0 then st else count st (Reg.ktrCnt 1)

/-- Operands in KTR_NODE_CFG. -/
def cfgOwner (st : State) : InstId := Fin.ofNat 256 (fld st Reg.ktrNodeCfg Fld.ktrNodeCfg_OWNER)
def cfgType (st : State) : Fin 8 := Fin.ofNat 8 (fld st Reg.ktrNodeCfg Fld.ktrNodeCfg_TYPE)
def cfgLeaf (st : State) : Fin 8 := Fin.ofNat 8 (fld st Reg.ktrNodeCfg Fld.ktrNodeCfg_LEAF_TYPE)
def cfgParent (st : State) : Nat := fld st Reg.ktrNodeCfg Fld.ktrNodeCfg_PARENT
/-- 32 bytes of eight registers from `a` on. -/
def regBytes (st : State) (a : Nat) : Bytes := ((List.range 8).map (fun i => leBytes 4 (rd st (a + 4 * i)).toNat)).flatten

/-- BAD_PARAM of the attributes: TYPE 6 or 7, or a LEAF_TYPE that R291 refuses. -/
def cfgBad (st : State) : Bool :=
  decide (6 ≤ (cfgType st).val) || decide (2 < (cfgLeaf st).val) || (cfgType st != 0 && cfgLeaf st != 0)

def putNode (st : State) (n : Nat) (r : Node) : State := { st with ktr := { st.ktr with nodes := st.ktr.nodes.put n r } }

/-- KTR_KEY is cleared after every ROOT_WRITE (R280). -/
def clearKtrKey (st : State) : State := (List.range 8).foldl (fun st i => wr st (Reg.ktrKey i) 0) st

/-- First cause that refuses a ROOT_WRITE, in the order of R311. -/
def rootCode (st : State) (n : Nat) : Nat :=
  if 16 ≤ n ∨ cfgBad st then 2
  else if !ktrReady st then 10
  else if cfgType st ≠ 0 then 5
  else if !instExists st (cfgOwner st) then 6
  else if (node? st n).isSome then 3
  else 0

/-- ROOT_WRITE (R279, R280, R301). -/
def rootWrite (w : Word) (st : State) : State :=
  let n := ktrNode w
  let key := keyIn st (regBytes st (Reg.ktrKey 0))
  let code := rootCode st n
  let st := if code = 0 then
      putNode st n { key := key, mordant := List.replicate 32 0, root := true, cinnabar := st.debug, type := 0, depth := 0
                     leafType := cfgLeaf st, parent := n, owner := cfgOwner st, kcv := kcvOf key }
    else st
  clearKtrKey (ktrDone w code st)

/-- First cause that refuses a DERIVE, in the order of R311. -/
def deriveCode (st : State) (n : Nat) : Nat :=
  if n < 16 ∨ nodeCount st ≤ n ∨ cfgBad st then 2
  else
    match node? st (cfgParent st) with
    | none => 4
    | some p =>
      if p.type ≠ 0 then 5
      else if 6 ≤ p.depth.val ∨ (cfgType st = 0 ∧ 5 ≤ p.depth.val) then 7
      else if (cfgOwner st ≠ p.owner ∧ p.owner ≠ 0) ∨ !instExists st (cfgOwner st) ∨ (cfgType st = 5 ∧ cfgOwner st ≠ 0) then 6
      else if instRefusal st (cfgOwner st) = 1 then 11
      else if instRefusal st (cfgOwner st) = 2 then 12
      else if (node? st n).isSome then 3
      else 0

/-- DERIVE (R283-R291). -/
def derive (w : Word) (st : State) : State :=
  let n := ktrNode w
  let st := nodeCheck st (cfgParent st)
  let code := deriveCode st n
  let st := match node? st (cfgParent st) with
    | some p =>
      if code = 0 then
        let m := regBytes st (Reg.ktrMord 0)
        let key := kdf p.key m (p.depth.val + 1)
        count (putNode st n { key := key, mordant := m, root := false, cinnabar := st.debug, type := cfgType st
                              depth := p.depth + 1, leafType := cfgLeaf st, parent := cfgParent st, owner := cfgOwner st
                              kcv := kcvOf key }) (Reg.ktrCnt 0)
      else st
    | none => st
  ktrDone w code (stateRecord st code 11 12 1 0 (cfgOwner st))

/-- Words 64-79 of a node record (Table 7-1); a free entry reads zero. -/
def nodeImage (st : State) (n : Nat) : List Word :=
  match node? st n with
  | none => List.replicate 4 0
  | some r =>
    [word [(⟨31, 31⟩, 1), (⟨30, 30⟩, b2n r.root), (⟨29, 29⟩, b2n r.cinnabar), (⟨28, 26⟩, r.type.val), (⟨25, 23⟩, r.depth.val),
       (⟨22, 20⟩, r.leafType.val), (⟨16, 0⟩, r.parent)],
     word [(⟨31, 24⟩, r.owner.val), (⟨18, 0⟩, nodeUsers st n)],
     word [(⟨16, 0⟩, nodeChildren st n)],
     BitVec.ofNat 32 (beVal r.kcv)]

/-- READ returns the mordant and the record's last words, never KEY (R278). -/
def nodeRead (w : Word) (st : State) : State :=
  let n := ktrNode w
  if nodeCount st ≤ n then ktrDone w 2 st
  else
    let st := nodeCheck st n
    let m := ((node? st n).map (fun r => r.mordant)).getD []
    let st := (List.range 8).foldl (fun st i => wr st (Reg.ktrMord i) (BitVec.ofNat 32 (leVal (sub m (4 * i) 4)))) st
    ktrDone w 0 ((nodeImage st n).zipIdx.foldl (fun st (p : Word × Nat) => wr st (Reg.ktrRb p.2) p.1) st)

/-- First cause that refuses an INVALIDATE, in the order of R311 and R296. -/
def invalidateCode (st : State) (n : Nat) (force : Bool) : Nat :=
  if nodeCount st ≤ n then 2
  else
    match node? st n with
    | none => 4
    | some r =>
      let t := subtree st n
      if instRefusal st r.owner = 1 then 11
      else if instRefusal st r.owner = 2 then 12
      else if t.any (fun m => st.ktr.capNode == some m) then 8
      else if !force && t.any (fun m => decide (0 < nodeUsers st m)) then 8
      else if st.twin.keyed && t.any (fun m => st.twin.linkNode == some m) then 9
      else 0

/-- An installation under way whose key a node of `t` has served yields a slot that is revoked like any other (R299): it ends in
DROPPING, and is counted. -/
def revokeJobs (st : State) (t : List Nat) : State :=
  let drop (x : Slot) : Slot := if t.any (slotUsesNode x) then { x with state := .dropping } else x
  let mark (r : JReq) : JReq :=
    match r.use with
    | .load src s ch an x => { r with use := .load src s ch an (drop x) }
    | _ => r
  let st := countN st (Reg.ktrCnt 2) (countP (fun x => t.any (slotUsesNode x)) (installingSlots st))
  let st := modJnl st (fun j => { j with reqs := j.reqs.map mark, writing := j.writing.map (fun w => (mark w.1, w.2)) })
  { st with restore := st.restore.map (fun r =>
    { r with slots := r.slots.map (fun p => (p.1, p.2.1, p.2.2.1, drop p.2.2.2)) }) }

/-- Every slot that counts as a user of a node of `t` goes to DROPPING, and every tributary key of it is revoked (R296). -/
def revokeUsers (st : State) (t : List Nat) : State :=
  slices4.foldl (fun st s =>
    let st := (sl st s).chans.foldl (fun st p =>
      let ch : ChIx := Fin.ofNat 16384 p.1
      ans.foldl (fun st (an : An) =>
        if t.any (slotUsesNode p.2.slots[an]) then count (slotDrop st s ch an) (Reg.ktrCnt 2) else st) st) st
    modCtf st s (fun c => { c with trib := c.trib.map (fun p =>
      let revoke := Vector.zipWith (fun (k : KeyPos) r =>
        r || ((k.state == .loaded || k.state == .inUse) && !k.orphan && t.contains k.node)) p.2.pos p.2.revoke
      let installing := p.2.installing.map (fun x =>
        if !x.2.1.orphan && t.contains x.2.1.node then (x.1, { x.2.1 with state := .revoked }, x.2.2) else x)
      (p.1, { p.2 with revoke := revoke, installing := installing })) })) (revokeJobs st t)

/-- INVALIDATE frees a subtree in one step; without FORCE it has no users, and no slot or tributary changes (R296, R297). -/
def invalidate (w : Word) (st : State) : State :=
  let n := ktrNode w
  let st := nodeCheck st n
  let code := invalidateCode st n (bitW w 23)
  let owner := ((node? st n).map (fun r => r.owner)).getD 0
  let st := if code = 0 then
      let t := subtree st n
      let st := { st with ktr := { st.ktr with nodes := st.ktr.nodes.filter (fun p => !t.contains p.1) } }
      orphanUsers (if bitW w 23 then revokeUsers st t else st) t
    else st
  ktrDone w code (stateRecord st code 11 12 1 0 owner)

/-- A command written to KTR_CMD, by OP; other codes are no action. -/
def ktrCmd (w : Word) (st : State) : State :=
  match getF w Fld.ktrCmd_OP with
  | 1 => rootWrite w st
  | 2 => derive w st
  | 3 => nodeRead w st
  | 4 => invalidate w st
  | _ => cmdDone st Reg.ktrCmd Fld.ktrCmd_RESULT Fld.ktrCmd_OP w (fld st Reg.ktrCmd Fld.ktrCmd_RESULT)

/-- A write of KTR_CMD through the PF: ROOT_WRITE is never forwarded (R282), and meets NOT_READY by its own rule; a command
while BUSY is 1 is refused and counted. -/
def ktrPF (w : Word) (st : State) : State :=
  if st.glb.halted then st
  else if getF w Fld.ktrCmd_OP = 1 then
    if fld st Reg.ktrCmd busyF ≠ 0 then clearKtrKey (count (setF st Reg.ktrCmd Fld.ktrCmd_RESULT 1) (Reg.ktrCnt 1))
    else rootWrite w st
  else
    let refused := !twinStandby st && (!booted st || decide (fld st Reg.ktrCmd busyF ≠ 0))
    let st := cmdPF Reg.ktrCmd Fld.ktrCmd_RESULT w (ktrCmd w) st
    if refused then count st (Reg.ktrCnt 1) else st

def execRootWrite (n : BitVec 17) (st : State) : Out := .next (ktrPF (ktrWord 1 n false) st)
def execDerive (n : BitVec 17) (st : State) : Out := .next (ktrPF (ktrWord 2 n false) st)
def execNodeRead (n : BitVec 17) (st : State) : Out := .next (ktrPF (ktrWord 3 n false) st)
def execInvalidate (n : BitVec 17) (force : Bool) (st : State) : Out := .next (ktrPF (ktrWord 4 n force) st)

end Sys2Proof.Machine
end

