-- ==== Sys2Proof/Machine/Capsule.lean ====
section
/-!
DEFINITION. What an instance holds, and the capsule that carries it between devices (13 R521-R528): writing one, checking
one, and rebuilding the instance from it.
-/
namespace Sys2Proof.Machine

/-! Use of resources (R505, R509, R514). -/

/-- Cells that the frames of instance `i` hold in a slice. -/
def instCells (x : SliceSt) (i : InstId) : Nat :=
  sumOf (fun f => if f.inst = i then cellsOf f.bytes else 0) (framesHeld x) +
  sumOf (fun f => if f.inst = i then cellsOf f.bytes else 0) x.engine +
  sumOf (fun f => if f.inst = i then cellsOf f.bytes else 0) x.recirc

/-- Frames of instance `i` in the device, Saffron frames included. -/
def instFrames (st : State) (i : InstId) : Nat :=
  sumOf (fun (x : SliceSt) => countP (fun f => f.inst == i) (framesHeld x) + countP (fun f => f.inst == i) x.engine +
    countP (fun f => f.inst == i) x.recirc) st.slices.toList + countP (fun f => f.inst == i) st.saf

/-- Discard every frame of instance `i`. -/
def instDiscard (st : State) (i : InstId) : State :=
  let keepQ (p : PortSt) : PortSt :=
    { p with queue := p.queue.filter (fun f => f.inst != i)
             fiHeld := p.fiHeld.filter (fun h => match h.1 with | .tx f => f.inst != i | .rx _ => true) }
  let st := { st with
    slices := st.slices.map (fun x =>
      { x with cPorts := x.cPorts.map keepQ, lPorts := x.lPorts.map keepQ
               waiting := x.waiting.filter (fun w => w.2.frame.inst != i)
               engine := x.engine.filter (fun f => f.inst != i), recirc := x.recirc.filter (fun f => f.inst != i) })
    saf := st.saf.filter (fun f => f.inst != i) }
  slices4.foldl (fun st s => fcUpdateAll (versionRetire st s) s) st

/-- Channels of instance `i` in slice `s`. -/
def instChans (st : State) (s : SliceId) (i : InstId) : List (ChIx × ChRec) :=
  ((sl st s).chans.filter (fun p => p.2.valid && p.2.inst == i)).map (fun p => (Fin.ofNat 16384 p.1, p.2))

/-- Recirculation profiles of instance `i` in slice `s`: as written and as applied. -/
def instRcps (st : State) (s : SliceId) (i : InstId) : List (Fin 16) :=
  (List.ofFn (fun (p : Fin 16) => p)).filter (fun p =>
    getF (rdA st (Reg.clsRcp s p)) Fld.clsRcp_EN == 1 && getF (rdA st (Reg.clsRcp s p)) Fld.clsRcp_INST == i.val)

/-- Tributaries of instance `i` in slice `s`. -/
def instTribs (st : State) (s : SliceId) (i : InstId) : List Nat :=
  ((sl st s).ctf.trib.filter (fun p => p.2.inst == i)).map Prod.fst

/-! The records of a capsule (Table 13-6). -/

def w4 (w : Word) : Bytes := leBytes 4 w.toNat
/-- A record that names a slice, another byte and an index, and holds words. -/
def recOf (n : Nat) (s : SliceId) (b ix : Nat) (ws : List Word) : Bytes :=
  padTo n (leBytes 1 s.val ++ leBytes 1 b ++ leBytes 2 ix ++ (ws.map w4).flatten)
def recWord (r : Bytes) (i : Nat) : Nat := leVal (sub r (4 + 4 * i) 4)
def recSlice (r : Bytes) : Nat := (byteAt r 0).toNat
def recIx (r : Bytes) : Nat := leVal (sub r 2 2)

/-- Bytes per record. -/
def recSize : Nat → Nat
  | 1 => 64 | 2 => 48 | 3 => 48 | 4 => 96 | 5 => 160 | 6 => 32 | 7 => 32 | 8 => 8 | 9 => 8 | _ => 0

/-- A slot that a capsule carries (R521, R522). -/
def slotCarried (x : Slot) : Bool :=
  match x.state with
  | .loaded | .active | .retiring | .guard => true
  | _ => false

/-- Slots that the capsule of instance `i` carries. -/
def carriedSlots (st : State) (i : InstId) : List (SliceId × ChIx × An) :=
  slices4.flatMap (fun s => (instChans st s i).flatMap (fun c =>
    (ans.filter (fun an => slotCarried c.2.slots[an])).map (fun an => (s, c.1, an))))

/-- Nodes of instance `i`, parents before children. -/
def instNodes (st : State) (i : InstId) : List (Nat × Node) :=
  let own := st.ktr.nodes.filter (fun p => p.2.owner == i)
  (List.range 7).flatMap (fun d => own.filter (fun p => p.2.depth.val == d))

/-- SUMMARY: one record for each slice that the instance uses (layout: log entry 16). -/
def capSummary (st : State) (i : InstId) : List Bytes :=
  (slices4.map (fun s => (s, [channelsOf st s i, assocsOf st s i, rulesOf st s .client i, rulesOf st s .line i,
      instCells (sl st s) i, countP (fun f => f.inst == i) st.saf]))).filterMap
    (fun p => if p.2.all (· == 0) then none
      else some (padTo 64 (leBytes 4 p.1.val ++ (p.2.map (leBytes 4)).flatten)))

def nodeRec (p : Nat × Node) : Bytes :=
  let r := p.2
  leBytes 4 p.1 ++ leBytes 4 r.parent ++
  w4 (word [(⟨31, 31⟩, 1), (⟨30, 30⟩, b2n r.root), (⟨29, 29⟩, b2n r.cinnabar), (⟨28, 26⟩, r.type.val), (⟨25, 23⟩, r.depth.val),
    (⟨22, 20⟩, r.leafType.val), (⟨16, 0⟩, r.parent)]) ++ padTo 4 r.kcv ++ padTo 32 r.mordant

/-- Slot record (Table 13-7), with `left` milliseconds of its window and its key wrapped. -/
def slotBytes (s : SliceId) (ch : ChIx) (an : An) (x : Slot) (left : Nat) (wrapped : Bytes) : Bytes :=
  padTo 96 (leBytes 1 s.val ++ leBytes 1 (an.val + 4 * slotStateNum x.state) ++ leBytes 2 ch.val ++
    leBytes 12 x.salt.toNat ++ w4 x.ssci ++ leBytes 8 x.pn ++ leBytes 8 x.floor ++
    w4 (word [(Fld.saeSaData_KEY_SRC, b2n x.keySrc), (Fld.saeSaData_NODE, x.node)]) ++ leBytes 4 left ++ wrapped)

/-- Rule record (Table 13-6). -/
def ruleRec (s : SliceId) (d : Side) (ix : Nat) (r : RuleEnt) : Bytes :=
  recOf 160 s (sideNum d) ix (ruleBits r ++
    [word [(Fld.clsRdata_VALID, 1), (Fld.clsRdata_ADD_DONE, b2n r.addDone), (Fld.clsRdata_PRIO, r.prio.toNat)],
     r.act, BitVec.ofNat 32 r.chan.val])

/-- A slot's record in a capsule, its key wrapped under `ck`. -/
def slotRec (st : State) (ck : Bytes) (p : SliceId × ChIx × An) : Bytes :=
  let x := slotOf st p.1 p.2.1 p.2.2
  let now := ((inst st (chOf st p.1 p.2.1).inst).restoredAt).getD (elNs st)
  let left := match x.due with | some d => (d - now) / 1000000 | none => 0
  slotBytes p.1 p.2.1 p.2.2 x left (keyWrap ck (padTo 32 x.key))

def ctrRecs (m : NMap Ctr) (base n : Nat) : List Bytes := (List.range n).map (fun j => leBytes 8 (ctrVal m (base + j)).toNat)

/-- COUNTERS: channels in the order of CHANNELS, then slots in the order of SLOTS (log entry 16). -/
def capCounters (st : State) (i : InstId) : List Bytes :=
  slices4.flatMap (fun s => (instChans st s i).flatMap (fun c =>
    ctrRecs (sl st s).chCtr (16 * c.1.val) (if c.2.dirRx then 13 else 7))) ++
  (carriedSlots st i).flatMap (fun p =>
    ctrRecs (sl st p.1).slotCtr (8 * (4 * p.2.1.val + p.2.2.val)) (if (chOf st p.1 p.2.1).dirRx then 5 else 2))

/-- The records of each type, in the order of Table 13-6. -/
def capRecs (st : State) (i : InstId) (ck : Bytes) : List (Nat × List Bytes) :=
  [(1, capSummary st i),
   (2, (instNodes st i).map nodeRec),
   (3, slices4.flatMap (fun s => (instChans st s i).map (fun c => recOf 48 s 0 c.1.val (chImage c.2)))),
   (4, (carriedSlots st i).map (slotRec st ck)),
   (5, slices4.flatMap (fun s => sides.flatMap (fun d =>
      ((ruleTbl st s d).filter (fun p => ruleInst p.2 == i.val && !p.2.retired)).map (fun p =>
        ruleRec s d p.1 p.2)))),
   (6, slices4.flatMap (fun s => ((sl st s).mac.filter (fun p => p.2.key.inst == i)).map (fun p =>
      recOf 32 s 0 0 ((macImage p.2).take 5)))),
   (7, slices4.flatMap (fun s => ((sl st s).lpm.filter (fun p => p.2.inst == i)).map (fun p =>
      recOf 32 s 0 0 ((lpmImage p.2).take 6)))),
   (8, slices4.flatMap (fun s => (instRcps st s i).map (fun (p : Fin 16) => recOf 8 s p.val 0 [rdA st (Reg.clsRcp s p)]))),
   (9, capCounters st i)]

/-- Cut a list into pieces of `n`. -/
def pieces {α : Type} (n : Nat) : Nat → List α → List (List α)
  | 0, _ => []
  | _ + 1, [] => []
  | f + 1, l => l.take n :: pieces n f (l.drop n)

/-- Sections: type, records, body of at most 1 MiB (R528). -/
def capSections (rs : List (Nat × List Bytes)) : List (Nat × Nat × Bytes) :=
  rs.flatMap (fun p => (pieces (1048576 / recSize p.1) p.2.length p.2).map (fun g => (p.1, g.length, g.flatten))) ++
  [(10, 0, [])]

/-- Section header. -/
def secHead (t n len : Nat) : Bytes := leBytes 2 t ++ leBytes 4 n ++ leBytes 4 len ++ List.replicate 6 0
def capNonce (q : Nat) : Bytes := [0, 0, 0, 0] ++ beBytes 8 q

/-- Capsule length. -/
def capLen (secs : List (Nat × Nat × Bytes)) : Nat := 128 + sumOf (fun x => 32 + x.2.2.length) secs

/-- Header bytes 0-111 (Table 13-5). -/
def capHead (st : State) (i : InstId) (node : Nat) (kcv id : Bytes) (secs : List (Nat × Nat × Bytes)) : Bytes :=
  padTo 112 ([0x5A, 0x43, 0x41, 0x50] ++ leBytes 2 1 ++ leBytes 2 128 ++ leBytes 8 (capLen secs) ++ w4 (devid st) ++
    leBytes 2 (spn st).toNat ++ leBytes 2 secs.length ++ leBytes 1 i.val ++ [0, 0, 0] ++ leBytes 4 node ++ padTo 4 kcv ++
    w4 (nowNs st) ++ padTo 32 id)

/-- A section sealed under `ck` (R527). -/
def capSeal (ck head : Bytes) (q : Nat) (x : Nat × Nat × Bytes) : Bytes :=
  let sh := secHead x.1 x.2.1 x.2.2.length
  let r := gcmSeal ck (capNonce q) (head ++ sh) x.2.2
  sh ++ r.1 ++ r.2

/-- The capsule key (R527). -/
def capKey (n : Node) (id : Bytes) : Bytes := kdf n.key id (n.depth.val + 1)

/-- The whole capsule. -/
def capsuleBytes (st : State) (i : InstId) (node : Nat) (n : Node) (id : Bytes) : Bytes :=
  let ck := capKey n id
  let secs := capSections (capRecs st i ck)
  let head := capHead st i node n.kcv id secs
  head ++ (gcmSeal ck (capNonce 0) head []).2 ++ (secs.zipIdx.map (fun p => capSeal ck head (p.2 + 1) p.1)).flatten

/-! Checking a capsule (R524). A failure is a result code and the section that failed. -/

/-- A section as read: type, records, section header, ciphertext, tag. -/
structure CapSec where
  type : Nat
  count : Nat
  head : Bytes
  ct : Bytes
  tag : Bytes
  deriving DecidableEq, Repr

/-- Read `n` sections numbered from `q` on; FORMAT names the first whose header is wrong. -/
def capRead (q last : Nat) : Nat → Bytes → Except (Nat × Nat) (List CapSec)
  | 0, bs => if bs.isEmpty then .ok [] else .error (10, 0)
  | n + 1, bs =>
    let h := sub bs 0 16
    let t := leVal (sub h 0 2)
    let c := leVal (sub h 2 4)
    let len := leVal (sub h 6 4)
    if bs.length < 32 + len ∨ 1048576 < len ∨ t < 1 ∨ 10 < t ∨ t < last ∨ len ≠ c * recSize t ∨ (t = 10 ↔ n ≠ 0) then
      .error (10, q)
    else
      match capRead (q + 1) t n (bs.drop (32 + len)) with
      | .error e => .error e
      | .ok ss => .ok ({ type := t, count := c, head := h, ct := sub bs 16 len, tag := sub bs (16 + len) 16 } :: ss)

/-- FORMAT (R524 step 1); every capsule has at least the section that closes it. -/
def capFormat (limit : Nat) (bs : Bytes) : Except (Nat × Nat) (List CapSec) :=
  let total := leVal (sub bs 8 8)
  if bs.length < 128 ∨ sub bs 0 4 ≠ [0x5A, 0x43, 0x41, 0x50] ∨ leVal (sub bs 4 2) ≠ 1 ∨ leVal (sub bs 6 2) ≠ 128 ∨
      leVal (sub bs 22 2) = 0 ∨ bs.length < total ∨ total < 128 ∨ limit < total then
    .error (10, 0)
  else capRead 1 0 (leVal (sub bs 22 2)) (sub bs 128 (total - 128))

/-- AUTH (step 3): open every section; its records with section number and type. -/
def capOpen (ck head : Bytes) : Nat → List CapSec → Except (Nat × Nat) (List (Nat × Nat × Bytes))
  | _, [] => .ok []
  | q, s :: ss =>
    match gcmOpen ck (capNonce q) (head ++ s.head) s.ct s.tag with
    | none => .error (11, q)
    | some body =>
      match capOpen ck head (q + 1) ss with
      | .error e => .error e
      | .ok rs => .ok ((pieces (recSize s.type) s.count body).map (fun r => (q, s.type, r)) ++ rs)

/-- Whether a slice named in a record exists and is powered. -/
def recSliceOk (st : State) (r : Bytes) : Bool :=
  if h : recSlice r < 4 then sliceOn st ⟨recSlice r, h⟩ && st.img.content.slices[recSlice r].enabled else false

/-- MISMATCH for a node: its index holds the same node, or is free and the parent is there (step 4). -/
def nodeFits (st : State) (before : List (Nat × Nat × Bytes)) (r : Bytes) : Bool :=
  let n := leVal (sub r 0 4)
  let par := leVal (sub r 4 4)
  let w := BitVec.ofNat 32 (leVal (sub r 8 4))
  match node? st n with
  | some m => m.parent == par && m.mordant == sub r 16 32 && m.type.val == getF w ⟨28, 26⟩ && m.kcv == sub r 12 4
  | none => decide (n < nodeCount st) && !bitW w 30 &&
      ((node? st par).isSome || before.any (fun b => b.2.1 == 2 && leVal (sub b.2.2 0 4) == par))

/-- MISMATCH for one record. -/
def recFits (st : State) (all : List (Nat × Nat × Bytes)) (p : Nat × Nat × Bytes) : Bool :=
  let r := p.2.2
  match p.2.1 with
  | 2 => nodeFits st all r
  | 9 => true
  | 10 => true
  | 3 => recSliceOk st r && decide (recIx r < 16384) && !(chOf st (Fin.ofNat 4 (recSlice r)) (Fin.ofNat 16384 (recIx r))).valid
  | 4 => recSliceOk st r
  | 5 => recSliceOk st r && decide (recIx r < 8192) &&
      !(ruleTbl st (Fin.ofNat 4 (recSlice r)) (sideOfBit ((byteAt r 1).toNat % 2))).has (recIx r)
  | _ => recSliceOk st r

/-- QUOTA (step 5): the shares of `t` cover the use of a slice. -/
def summaryFits (st : State) (t : InstId) (r : Bytes) : Bool :=
  let sh := (inst st t).shares[(Fin.ofNat 4 (recSlice r) : Fin 4)]
  let u (i : Nat) : Nat := recWord r i
  decide (u 0 ≤ sh.channels) && decide (u 1 ≤ sh.assocs) && decide (u 2 ≤ sh.rules) && decide (u 3 ≤ sh.rules) &&
  decide (u 4 ≤ sh.cells) && decide (u 5 ≤ (inst st t).calendar)

/-- The channel of a CHANNELS record, as instance `t` will hold it (R525). -/
def restoredCh (st : State) (t : InstId) (r : Bytes) : ChRec :=
  let ws := (List.range 8).map (fun i => BitVec.ofNat 32 (recWord r i))
  let w (i : Nat) : Word := ws.getD i 0
  { chOfImage st ws {} with
    inst := t, sci := (w 3).setWidth 64 <<< 32 ||| (w 2).setWidth 64
    encAn := if getF (w 0) Fld.saeChData_ENC_VALID = 1 then some (Fin.ofNat 4 (getF (w 0) Fld.saeChData_ENC_AN)) else none
    preErr := bitW (w 5) 17 }

/-- The channel record of a slot's channel in the capsule. -/
def chanRec (recs : List (Nat × Nat × Bytes)) (s ch : Nat) : Option Bytes :=
  (recs.find? (fun p => p.2.1 == 3 && recSlice p.2.2 == s && recIx p.2.2 == ch)).map (fun p => p.2.2)

/-- The slot of a SLOTS record before its start is known; none: its key does not unwrap or its channel is missing. -/
def restoredSlot (st : State) (t : InstId) (ck : Bytes) (recs : List (Nat × Nat × Bytes)) (r : Bytes) :
    Option (SliceId × ChIx × An × ChRec × Bytes × Slot) :=
  match chanRec recs (recSlice r) (recIx r), keyUnwrap ck (sub r 44 40) with
  | some cr, some key =>
    let c := restoredCh st t cr
    let b := (byteAt r 1).toNat
    let state := slotStateOf (b / 4 % 8)
    let src := leVal (sub r 36 4)
    let left := leVal (sub r 40 4)
    let x := loadedSlot c.suite key (BitVec.ofNat 96 (leVal (sub r 4 12))) (BitVec.ofNat 32 (leVal (sub r 16 4)))
      (leVal (sub r 20 8)) 0 (src.testBit 31) false (src % 2 ^ 17)
    some (Fin.ofNat 4 (recSlice r), Fin.ofNat 16384 (recIx r), Fin.ofNat 4 b, c, key,
      { x with state := state
               due := if state = .retiring ∨ state = .guard then some (elNs st + 1000000 * left) else none })
  | _, _ => none

/-! Rebuilding the instance (R525). -/

def buildNode (t : InstId) (st : State) (r : Bytes) : State :=
  let n := leVal (sub r 0 4)
  let w := BitVec.ofNat 32 (leVal (sub r 8 4))
  match node? st n with
  | some m => putNode st n { m with owner := t }
  | none =>
    match node? st (leVal (sub r 4 4)) with
    | none => st
    | some p =>
      let key := kdf p.key (sub r 16 32) (p.depth.val + 1)
      putNode st n { key := key, mordant := sub r 16 32, root := false, cinnabar := st.debug
                     type := Fin.ofNat 8 (getF w ⟨28, 26⟩), depth := p.depth + 1, leafType := Fin.ofNat 8 (getF w ⟨22, 20⟩)
                     parent := leVal (sub r 4 4), owner := t, kcv := kcvOf key }

def buildCh (t : InstId) (st : State) (r : Bytes) : State :=
  let s : SliceId := Fin.ofNat 4 (recSlice r)
  let ch : ChIx := Fin.ofNat 16384 (recIx r)
  let c := restoredCh st t r
  let st := modSl (modCh st s ch (fun _ => c)) s (fun x =>
    { x with chCtr := clearCtrs x.chCtr (16 * ch.val) (16 * ch.val + 16) })
  if c.dirRx && (sciFind st s c.sci).isNone then
    match sciFree st s c.sci with
    | some ix => modHash st s (fun m => m.put ix { sci := c.sci, ch := ch })
    | none => st
  else st

def buildRule (t : InstId) (st : State) (r : Bytes) : State :=
  let s : SliceId := Fin.ofNat 4 (recSlice r)
  let w (i : Nat) : Nat := recWord r (if i < 33 then i else i - 1)
  let e := ruleOfWords w (sl st s).current true
  let v := e.value.toNat
  let e := { e with value := BitVec.ofNat 512 (v - v / 2 ^ 488 % 256 * 2 ^ 488 + t.val * 2 ^ 488) }
  modRules st s (sideOfBit ((byteAt r 1).toNat % 2)) (fun m => m.put (recIx r) e)

/-- A peer entry of the capsule takes the place of one that was inserted for the target in the meantime: a key stands once (05
R190, R206; DESIGN CHOICE, log entry 148). -/
def buildMac (t : InstId) (st : State) (r : Bytes) : State :=
  let s : SliceId := Fin.ofNat 4 (recSlice r)
  let e := macOfWords (recWord r) (sl st s).tick
  let e := { e with key := { e.key with inst := t } }
  match ((macFind st (sl st s).mac e.key).map Prod.fst).or (macFree st (sl st s).mac e.key) with
  | some ix => modMac st s (fun m => m.put ix e)
  | none => st

def buildLpm (t : InstId) (st : State) (r : Bytes) : State :=
  let s : SliceId := Fin.ofNat 4 (recSlice r)
  let e := { lpmOfWords (recWord r) with inst := t }
  let (n, st) := drawFree st
  match lpmFind (sl st s).lpm e with
  | some (ix, _) => modLpm st s (fun m => m.put ix e)
  | none =>
    if 16384 ≤ (sl st s).lpm.length then st
    else
    match lpmPlace (sl st s).lpm e n with
    | some m => modLpm st s (fun _ => m)
    | none => st

def buildRcp (t : InstId) (st : State) (r : Bytes) : State :=
  let s : SliceId := Fin.ofNat 4 (recSlice r)
  let a := Reg.clsRcp s ((byteAt r 1).toNat % 16)
  let w := putF (BitVec.ofNat 32 (recWord r 0)) Fld.clsRcp_INST t.val
  wrA (wr st a w) a w

/-- Counters in the order in which SAVE wrote them. -/
def buildCtrs (st : State) (recs : List (Nat × Nat × Bytes)) : State :=
  let of (t : Nat) : List Bytes := (recs.filter (fun p => p.2.1 == t)).map (fun p => p.2.2)
  let vals := (of 9).map leVal
  let dir (r : Bytes) : Bool := (chOf st (Fin.ofNat 4 (recSlice r)) (Fin.ofNat 16384 (recIx r))).dirRx
  let keys : List (Nat × Bool × Nat) :=
    (of 3).flatMap (fun r => (List.range (if dir r then 13 else 7)).map (fun j => (recSlice r, true, 16 * recIx r + j))) ++
    (of 4).flatMap (fun r => (List.range (if dir r then 5 else 2)).map (fun j =>
      (recSlice r, false, 8 * (4 * recIx r + (byteAt r 1).toNat % 4) + j)))
  (keys.zip vals).foldl (fun st p =>
    let c : Ctr := { chip := 0, back := BitVec.ofNat 64 p.2 }
    modSl st (Fin.ofNat 4 p.1.1) (fun x =>
      if p.1.2.1 then { x with chCtr := x.chCtr.put p.1.2.2 c } else { x with slotCtr := x.slotCtr.put p.1.2.2 c })) st

/-- A slot has been filled; one whose key was revoked on the way stands in DROPPING, and that is reported (06 R263, 07 R299). -/
def slotPlaced (st : State) (s : SliceId) (ch : ChIx) (an : An) : State :=
  if (slotOf st s ch an).state = .dropping then
    raise st { block := 23, index := 2, slice := s.val, ps := [ch.val, an.val] } else st

/-- The instance is rebuilt and left FROZEN; every slot's record is committed. -/
def restoreBuild (st : State) (r : RestoreSt) : State :=
  let t := r.inst
  let st := r.recs.foldl (fun st p =>
    match p.2.1 with
    | 2 => buildNode t st p.2.2
    | 3 => buildCh t st p.2.2
    | 5 => buildRule t st p.2.2
    | 6 => buildMac t st p.2.2
    | 7 => buildLpm t st p.2.2
    | 8 => buildRcp t st p.2.2
    | _ => st) { st with restore := none, ktr := { st.ktr with capNode := none } }
  let st := r.slots.foldl (fun st p => slotPlaced (modSlot st p.1 p.2.1 p.2.2.1 (fun _ => p.2.2.2)) p.1 p.2.1 p.2.2.1) st
  modInst (buildCtrs st r.recs) t (fun x => { x with state := .frozen, restoredAt := some (elNs st) })

end Sys2Proof.Machine
end

