-- ==== Sys2Proof/Machine/TribOps.lean ====
section
/-!
DEFINITION. Tributaries as the journal, the time base and the CTF path share them (10): key positions, reservations, frame
count jumps, defects and performance seconds. A tributary i of lane k is named by 256 k + i.
-/
namespace Sys2Proof.Machine

def trib? (st : State) (s : SliceId) (t : Nat) : Option TribSt := (sl st s).ctf.trib.get? t
def modTrib (st : State) (s : SliceId) (t : Nat) (f : TribSt → TribSt) : State :=
  modCtf st s (fun c => match c.trib.get? t with
    | some x => { c with trib := c.trib.put t (f x) }
    | none => c)
def modPos (st : State) (s : SliceId) (t : Nat) (p : Fin 2) (f : KeyPos → KeyPos) : State :=
  modTrib st s t (fun x => { x with pos := upd x.pos p f })
def laneOfTrib (t : Nat) : PortIx := Fin.ofNat 8 (t / 256)
def ctfLane (st : State) (s : SliceId) (k : PortIx) : CtfLaneSt := (sl st s).ctf.lanes[k]
def modCtfLane (st : State) (s : SliceId) (k : PortIx) (f : CtfLaneSt → CtfLaneSt) : State :=
  modCtf st s (fun c => { c with lanes := upd c.lanes k f })
def positions : List (Fin 2) := [0, 1]

def tribLast : Nat := 2 ^ 56 - 1
/-- A position that holds a usable key. -/
def posLive (k : KeyPos) : Bool := k.state == .loaded || k.state == .inUse

/-! Reservations of tributary frame counters (09 R349-R351). -/

/-- TNUM (10 R392). -/
def tribTnum (spn : Nat) (id : BitVec 16) : Nat := spn % 2 ^ 16 * 2 ^ 24 + id.toNat

/-- Fingerprint of a tributary key in one direction: kind 3 under the own SPN, kind 4 under the peer's (09 Table 9-2). -/
def tribFp (st : State) (s : SliceId) (t : Nat) (tx : Bool) (salt : BitVec 96) (id : BitVec 16) (key : Bytes) : Bytes :=
  let peer := fldA st (Reg.ctfLaneCfg s (laneOfTrib t)) Fld.ctfLaneCfg_PEER_SPN
  fingerprint st (if tx then 3 else 4) 0x10 key (tribBase salt (tribTnum (if tx then (spn st).toNat else peer) id))

/-- Kind and fingerprint of the record of a key position: those of the record held at its index, or of its key while that is
not written. -/
def posRec (st : State) (s : SliceId) (t : Nat) (tx : Bool) (x : TribSt) (k : KeyPos) : Fin 16 × Bytes :=
  match st.jnl.index.get? (if tx then k.txIdx else k.rxIdx) with
  | some r => (r.kind, r.fp)
  | none => (if tx then 3 else 4, tribFp st s t tx x.salt x.tribId k.key)

/-- Ask for RES `req` of a position, or keep it for when the one outstanding has applied. -/
def reserveTrib (st : State) (s : SliceId) (t : Nat) (p : Fin 2) (tx : Bool) (req : Nat) : State :=
  match trib? st s t with
  | none => st
  | some x =>
    let k := x.pos[p]
    if (if tx then k.txPend else k.rxPend) then
      modPos st s t p (fun k => if tx then { k with txWant := max k.txWant req } else { k with rxWant := max k.rxWant req })
    else
      let r := posRec st s t tx x k
      jnlRequest (modPos st s t p (fun k => if tx then { k with txPend := true } else { k with rxPend := true }))
        { cls := 0, kind := r.1, tomb := false, fp := r.2, value := req, use := .reserveTrib s t p tx req }

/-- R349 for one counter of a position. -/
def tribCheck (st : State) (s : SliceId) (t : Nat) (p : Fin 2) (tx : Bool) (pos res : Nat) (pend : Bool) : State :=
  let b := blockOf st 3
  if pend || res == tribLast then st
  else if res + 1 ≤ pos + b / 4 then reserveTrib st s t p tx (min (res + b) tribLast)
  else st

/-- R349 at every frame, for each position in LOADED or IN_USE (R398); `fc` is the next frame count. -/
def tribReserve (st : State) (s : SliceId) (t : Nat) (fc : Nat) : State :=
  positions.foldl (fun st p =>
    match trib? st s t with
    | none => st
    | some x =>
      let k := x.pos[p]
      if posLive k then
        let st := tribCheck st s t p true fc k.txRes k.txPend
        tribCheck st s t p false k.rxNext k.rxRes k.rxPend
      else st) st

/-- A position no longer keeps a jump waiting. -/
def jumpDone (st : State) (s : SliceId) (t : Nat) (p : Fin 2) : State :=
  modCtfLane st s (laneOfTrib t) (fun x =>
    { x with jump := x.jump.map (fun j => { j with waits := j.waits.filter (fun w => w != (t, p)) }) })

/-- A transmit reservation up to `res` is committed: a jump that needed no more does not wait for the position (R397). -/
def jumpReserved (st : State) (s : SliceId) (t : Nat) (p : Fin 2) (res : Nat) : State :=
  match (ctfLane st s (laneOfTrib t)).jump with
  | some j => if j.need ≤ res then jumpDone st s t p else st
  | none => st

/-- A committed reservation applies at the step-epoch boundary: RES takes the requested value, and a higher request that has
been waiting follows (R350, R351). -/
def applyRes (st : State) (u : JUse) : State :=
  match u with
  | .reserveSlot s ch an req =>
    let w := (slotOf st s ch an).resWant
    let st := modSlot st s ch an (fun x => { x with res := max x.res req, resPend := false, resWant := 0 })
    if req < w then reserveSlot st s ch an w else st
  | .reserveTrib s t p tx req =>
    (match trib? st s t with
     | none => st
     | some x =>
       let k := x.pos[p]
       let w := if tx then k.txWant else k.rxWant
       let st := modPos st s t p (fun k =>
         if tx then { k with txRes := max k.txRes req, txPend := false, txWant := 0 }
         else { k with rxRes := max k.rxRes req, rxPend := false, rxWant := 0 })
       let st := if tx then jumpReserved st s t p req else st
       if req < w then reserveTrib st s t p tx w else st)
  | _ => st

/-! Frame count jumps (R397). -/

/-- The lane is to jump to J, or further if a jump to a larger J is pending; every position of the lane but the one whose start
set that J reserves beyond it. -/
def requestJump (st : State) (s : SliceId) (t : Nat) (p : Fin 2) (start : Nat) : State :=
  let k := laneOfTrib t
  let own := ceilDiv start 256 * 256
  let old := match (ctfLane st s k).jump with | some x => x.target | none => 0
  let j := max own old
  let req := min (j + blockOf st 3 - 1) tribLast
  let ws := ((sl st s).ctf.trib.filter (fun x => x.1 / 256 == k.val)).flatMap (fun x =>
    (positions.filter (fun q => posLive x.2.pos[q] && !(x.1 == t && q == p && decide (old ≤ own)) &&
      decide (x.2.pos[q].txRes < req))).map (fun q => (x.1, q)))
  let st := ws.foldl (fun st w => reserveTrib st s w.1 w.2 true req) st
  modCtfLane st s k (fun x => { x with jump := some { target := j, need := req, waits := ws } })

/-! Key positions (R395, R396, R401, R402). -/

/-- A position becomes EMPTY, its key zeroised; its records leave their user state (R401). -/
def releasePos (st : State) (s : SliceId) (t : Nat) (p : Fin 2) : State :=
  match trib? st s t with
  | none => st
  | some x =>
    let k := x.pos[p]
    let st := dropUse (fun u => match u with
      | .reserveTrib s' t' p' _ _ | .adoptTrib s' t' p' _ => s' == s && t' == t && p' == p
      | _ => false) st
    let st := modTrib st s t (fun x => { x with
      pos := x.pos.set p {}, revoke := x.revoke.set p false
      txPos := if x.txPos = some p then none else x.txPos, rxPos := if x.rxPos = some p then none else x.rxPos })
    let st := jumpDone st s t p
    leaveRecord (leaveRecord st k.txIdx false false) k.rxIdx false false

/-- Revocation takes effect at the tributary's next frame (R402). -/
def revokeNow (x : TribSt) : TribSt :=
  positions.foldl (fun (x : TribSt) (p : Fin 2) =>
    if x.revoke[p] then
      { x with pos := upd x.pos p (fun k => { k with state := .revoked }), revoke := x.revoke.set p false
               txPos := if x.txPos = some p then none else x.txPos, rxPos := if x.rxPos = some p then none else x.rxPos }
    else x) x

def tribDone (s : SliceId) (w : Word) (code : Nat) (st : State) : State :=
  cmdDone st (Reg.tsiTribCmd s) Fld.tsiTribCmd_RESULT Fld.tsiTribCmd_OP w code

/-- Both records of an INSTALL are committed: the position takes its key (R396), and a lane behind its start jumps. -/
def placePos (st : State) (s : SliceId) (t : Nat) (p : Fin 2) (k : KeyPos) : State :=
  let st := modTrib st s t (fun x =>
    let used := x.pos.toList.any (fun q => q.state == .inUse)
    let x := { x with installing := none }
    if k.state = .revoked then { x with pos := x.pos.set p k }
    else if used then { x with pos := x.pos.set p { k with state := .loaded } }
    else { x with pos := x.pos.set p { k with state := .inUse }, txPos := some p, rxPos := some p })
  let st := tribDone s (rd st (Reg.tsiTribCmd s)) 0 st
  if k.jump then requestJump (modPos st s t p (fun k => { k with jump := false })) s t p k.txStart else st

/-- One record of an INSTALL has committed at ring position `ix`. -/
def installCommitted (st : State) (s : SliceId) (t : Nat) (tx : Bool) (ix : Nat) : State :=
  match trib? st s t with
  | none => st
  | some x =>
    match x.installing with
    | none => st
    | some (p, k, a, b) =>
      let k := if tx then { k with txIdx := ix } else { k with rxIdx := ix }
      let a := a && !tx
      let b := b && tx
      if a || b then modTrib st s t (fun x => { x with installing := some (p, k, a, b) }) else placePos st s t p k

/-- An INSTALL whose record failed twice is refused with JOURNAL; its other record is not needed any more (09 R371). -/
def installFailed (st : State) (s : SliceId) (t : Nat) : State :=
  let st := dropUse (fun u => match u with | .install s' t' _ _ => s' == s && t' == t | _ => false) st
  let st := modTrib (jnlRefused st 5 2 s 0 t) s t (fun x => { x with installing := none })
  tribDone s (rd st (Reg.tsiTribCmd s)) 7 st

/-! Defects and performance seconds (R387, R411, R414, R418-R420). -/

/-- Bytes 1-15 of the expected trace. -/
def traceExp (st : State) (s : SliceId) (k : PortIx) : Bytes :=
  (((List.range 4).map (fun w => leBytes 4 (rd st (Reg.ctfTraceExp s k w)).toNat)).flatten).drop 1

/-- TIM: an accepted trace differs from the expected one (R414). -/
def tim (st : State) (s : SliceId) (k : PortIx) : Bool :=
  match (ctfLane st s k).traceAcc with
  | some a => sub a 1 15 != traceExp st s k
  | none => false

/-- A defect of a receive lane: LOS, LOF, or TIM with TIM_ACT (R387). -/
def laneDefect (st : State) (s : SliceId) (k : PortIx) : Bool :=
  (laneOf st (.lane .line s k)).stage != .ready || !(ctfLane st s k).lock ||
  (flagA st (Reg.ctfLaneCfg s k) Fld.ctfLaneCfg_TIM_ACT && tim st s k)

/-- Slots of tributary `i` in a page, ascending; a slot that is not stored is unassigned. -/
def slotsOf (page : NMap Nat) (i : Nat) : List Nat := (page.filter (fun p => p.2 == i)).map Prod.fst

def isTilora (st : State) (s : SliceId) (k : PortIx) : Bool := (laneCfg st .line s k).tilora

/-- PLM of a tributary (R411); labels are not checked on a Tilora lane (R417). -/
def plm (st : State) (s : SliceId) (t : Nat) (x : TribSt) : Bool :=
  let k := laneOfTrib t
  !isTilora st s k &&
  (match x.labAcc with
   | none => false
   | some (l, n) =>
     (x.expLabel != 0xFF && l != x.expLabel) ||
     decide (n.toNat ≠ (slotsOf (sl st s).ctf.rx[k].active (t % 256)).length))
def plmDefect (st : State) (s : SliceId) (t : Nat) (x : TribSt) : Bool :=
  flagA st (Reg.ctfLaneCfg s (laneOfTrib t)) Fld.ctfLaneCfg_PLM_ACT && plm st s t x
def tribDefect (st : State) (s : SliceId) (t : Nat) (x : TribSt) : Bool :=
  laneDefect st s (laneOfTrib t) || plmDefect st s t x

/-- Defects of the moment mark the second in progress. -/
def markDefects (st : State) (s : SliceId) : State :=
  modCtf st s (fun c => { c with
    lanes := Vector.ofFn (fun (k : Fin 8) =>
      let x := c.lanes[k]
      if isCtf st s k && laneDefect st s k then { x with perf := { x.perf with curDefect := true } } else x)
    trib := c.trib.map (fun p =>
      (p.1, if tribDefect st s p.1 p.2 then { p.2 with perf := { p.2.perf with curDefect := true } } else p.2)) })

/-- A second ends: it waits for its class (R420). -/
def perfEnd (el : Nat) (p : PerfSt) : PerfSt :=
  { p with hist := p.hist ++ [(p.curEb, p.curDefect, el)], curEb := 0, curDefect := false }

/-- A performance second ends and the next one starts, in every slice (R418). -/
def perfSecond (st : State) : State :=
  let el := elNs st
  slices4.foldl (fun st s =>
    let st := markDefects st s
    modCtf st s (fun c => { c with
      secStart := el
      lanes := Vector.ofFn (fun (k : Fin 8) =>
        let x := c.lanes[k]
        if isCtf st s k then { x with perf := perfEnd el x.perf } else x)
      trib := c.trib.map (fun p => (p.1, { p.2 with perf := perfEnd el p.2.perf })) })) st

/-- The internal second: 1.0001 s after the last one began (R418). -/
def execPerfSecond (st : State) : Out :=
  .next (if slices4.all (fun s => decide ((sl st s).ctf.secStart + 1000100000 ≤ elNs st)) then perfSecond st else st)

/-- SES: 30,000 errored blocks, or a defect. -/
def isSes (x : Nat × Bool × Nat) : Bool := x.2.1 || decide (30000 ≤ x.1)

/-- Class every second that ended 10 s ago; what is added to ES, SES and UAS (R420). -/
def classify (el : Nat) : Nat → PerfSt → Nat × Nat × Nat → PerfSt × (Nat × Nat × Nat)
  | 0, p, a => (p, a)
  | n + 1, p, a =>
    match p.hist with
    | [] => (p, a)
    | h :: t =>
      if el < h.2.2 + 10000000000 then (p, a)
      else
        let ten := (h :: t).take 10
        let bad := if p.unavail then !(ten.length == 10 && ten.all (fun x => !isSes x)) else ten.length == 10 && ten.all isSes
        let a := if bad then (a.1, a.2.1, a.2.2 + 1)
          else (a.1 + b2n (decide (0 < h.1) || h.2.1), a.2.1 + b2n (isSes h), a.2.2)
        classify el n { p with hist := t, unavail := bad } a

def perfClass (el : Nat) (p : PerfSt) : PerfSt × (Nat × Nat × Nat) := classify el p.hist.length p (0, 0, 0)

/-- Ten seconds after a second has ended, its class is known and counted (R420). -/
def execPerfSecondClassify (st : State) : Out :=
  let el := elNs st
  .next (slices4.foldl (fun st s =>
    let st := ports8.foldl (fun st k =>
      let r := perfClass el (ctfLane st s k).perf
      let st := modCtfLane st s k (fun x => { x with perf := r.1 })
      countN (countN (countN st (Reg.ctfCnt s k 1) r.2.1) (Reg.ctfCnt s k 2) r.2.2.1) (Reg.ctfCnt s k 3) r.2.2.2) st
    modCtf st s (fun c => { c with trib := c.trib.map (fun p =>
      let r := perfClass el p.2.perf
      (p.1, { p.2 with perf := { r.1 with es := r.1.es + BitVec.ofNat 32 r.2.1, ses := r.1.ses + BitVec.ofNat 32 r.2.2.1
                                          uas := r.1.uas + BitVec.ofNat 32 r.2.2.2 } })) })) st)

end Sys2Proof.Machine
end

