-- ==== Sys2Proof/Machine/Ctf.lean ====
section
/-!
DEFINITION. The Cipher Transport Frame (10): building and sending one frame of each lane at a boundary, receiving one,
slip buffers, frame timing, the lane injectors, and the commands of TSI and CTF.
-/
namespace Sys2Proof.Machine

/-! Frame layout (R380, R381, R416). -/

def ctfSlots (tilora : Bool) : Nat := if tilora then 120 else 240
def ctfLen (tilora : Bool) : Nat := if tilora then 125000 else 250000
/-- Where slot 0 and the tags start. -/
def slotBase (tilora : Bool) : Nat := if tilora then 272 else 4096
def slotAt (tilora : Bool) (n : Nat) : Nat := slotBase tilora + 1024 * n
def tagAt (tilora : Bool) (i : Nat) : Nat := if tilora then 256 else 256 + 16 * i
def faw : Bytes := [0x3C, 0xA5, 0x96, 0x5A, 0xC3, 0x0F]

/-- Put `bs` over `b` from offset `o` on. -/
def overlay (b : Bytes) (o : Nat) (bs : Bytes) : Bytes := b.take o ++ bs ++ b.drop (o + bs.length)

/-- XOR of the 32-bit words of a frame (R383). -/
def bip32 : Bytes → Word
  | a :: b :: c :: d :: bs => BitVec.ofNat 32 (beVal [a, b, c, d]) ^^^ bip32 bs
  | _ => 0

/-- Bytes 6 to the end, scrambled or descrambled (R384). -/
def ctfScramble (b : Bytes) : Bytes := b.take 6 ++ scramble (BitVec.allOnes 23) (b.drop 6)

/-- Nonce of a tributary frame (R392). -/
def tribNonce (salt : BitVec 96) (tnum fc : Nat) : Bytes :=
  beBytes 12 (salt ^^^ BitVec.ofNat 96 (tnum * 2 ^ 56 + fc % 2 ^ 56)).toNat
/-- Additional data of a tributary frame (R393; byte 7 is 0xFF on a Tilora lane, R417). -/
def tribAad (fc i : Nat) (an : An) (page : Bool) : Bytes :=
  beBytes 7 fc ++ beBytes 1 i ++ beBytes 1 an.val ++ beBytes 1 (128 * b2n page) ++ [0, 0]

/-! Client mapping (R389, R390). -/

/-- The local-fault ordered set as a 66-bit block: sync header, then eight bytes (IEEE 802.3 clause 49). -/
def localFaultBlock : BitVec 66 := BitVec.ofNat 66 (2 * 2 ^ 64 + 0x4B00000100000000)

/-- The error control block: eight error characters, seven bits each, the first in the lowest bits (IEEE 802.3 clause 49). -/
def errorBlock : BitVec 66 :=
  BitVec.ofNat 66 (2 * 2 ^ 64 + beVal (0x1E :: leBytes 7 (sumOf (fun i => 0x1E * 128 ^ i) (List.range 8))))

def bitsOf (b : BitVec 66) : List Bool := (List.range 66).map (fun i => b.getLsbD (65 - i))
/-- Bits to bytes, first bit in bit 7; a last part byte is filled with 0. -/
def packBits : Nat → List Bool → Bytes
  | 0, _ => []
  | n + 1, bs => byteOfBits (bs.take 8 ++ List.replicate (8 - (bs.take 8).length) false) :: packBits n (bs.drop 8)

/-- Blocks that a tributary frame of `n` slots holds at most. -/
def blockCap (n : Nat) : Nat := (8192 * n - 32) / 66
/-- Plaintext of a tributary frame of `n` slots. -/
def mapBlocks (n : Nat) (bs : List (BitVec 66)) : Bytes :=
  beBytes 4 bs.length ++ packBits (1024 * n - 4) (bs.flatMap bitsOf)

/-- The blocks that a tributary frame carries, as many as DATA_COUNT says and the frame holds (R390; log entry 146). -/
def unmapBlocks (pt : Bytes) : List (BitVec 66) :=
  let bits := bitsOfBytes (pt.drop 4)
  let n := min (beVal (pt.take 4)) (bits.length / 66)
  (List.range n).map (fun i => BitVec.ofNat 66 (((bits.drop (66 * i)).take 66).foldl (fun a b => 2 * a + b2n b) 0))

/-- Least slot count of an L1 client port (Table 10-3). -/
def minSlots (c : PortCfg) : Nat :=
  match speedOf c with
  | 10 => 13 | 25 => 32 | 50 => 63 | _ => 126

/-! Transmit (R388-R399, R412, R421). -/

def txPage (st : State) (s : SliceId) (k : PortIx) : NMap Nat := (sl st s).ctf.tx[k].active
def rxPage (st : State) (s : SliceId) (k : PortIx) : NMap Nat := (sl st s).ctf.rx[k].active
/-- Tributaries of a lane, by index. -/
def laneTribs (st : State) (s : SliceId) (k : PortIx) : List (Nat × TribSt) :=
  ((sl st s).ctf.trib.filter (fun p => p.1 / 256 == k.val)).map (fun p => (p.1 % 256, p.2))
def tribNo (k : PortIx) (i : Nat) : Nat := 256 * k.val + i

/-- Revocations take effect at this frame (R402). -/
def revokeLane (st : State) (s : SliceId) (k : PortIx) : State :=
  modCtf st s (fun c => { c with trib := c.trib.map (fun p => if p.1 / 256 = k.val then (p.1, revokeNow p.2) else p) })

/-- TX_POS moves to the LOADED position; the one it leaves is released unless it receives (R399, R401). -/
def moveTxPos (st : State) (s : SliceId) (t : Nat) : State :=
  match trib? st s t with
  | none => st
  | some x =>
    let st := modTrib st s t (fun x => { x with switchFc := none })
    match positions.find? (fun p => x.pos[p].state == .loaded) with
    | none => st
    | some p =>
      let st := modTrib st s t (fun x =>
        { x with txPos := some p, pos := upd x.pos p (fun k => { k with state := .inUse }), lastAn := x.pos[p].an })
      match x.txPos with
      | some q => if x.rxPos = some q then st else releasePos st s t q
      | none => st

/-- Multiframe boundary `fc`: pages swap, positions move, and a jump whose reservations are committed is made (R397, R399,
R404). The frame count that the frame takes is the lane's FC afterwards. -/
def multiframe (st : State) (s : SliceId) (k : PortIx) : State :=
  let fc := (ctfLane st s k).fc.toNat
  if fc % 256 ≠ 0 then st
  else
    let st := match (ctfLane st s k).swapFc with
      | some f =>
        if f ≤ fc then
          let st := modCtf st s (fun c => { c with tx := upd c.tx k (fun m => { active := m.standby, standby := m.active }) })
          modCtfLane st s k (fun x => { x with swapFc := none, txPhase := !x.txPhase })
        else st
      | none => st
    let st := modCtf st s (fun c => { c with swapPend := c.swapPend && c.lanes.toList.any (fun x => x.swapFc.isSome) })
    let st := (laneTribs st s k).foldl (fun st p =>
      match p.2.switchFc with
      | some f => if f ≤ fc then moveTxPos st s (tribNo k p.1) else st
      | none => st) st
    match (ctfLane st s k).jump with
    | some j =>
      if !j.waits.isEmpty then st
      else
        let st := modCtfLane st s k (fun x => { x with jump := none })
        if fc < j.target then count (modCtfLane st s k (fun x => { x with fc := BitVec.ofNat 56 j.target })) (Reg.ctfCnt s k 4)
        else st
    | none => st

/-- The trace sequence of the transmit registers (R412). -/
def traceTx (st : State) (s : SliceId) (k : PortIx) : Bytes :=
  let b := (((List.range 16).map (fun w => leBytes 4 (rdA st (Reg.ctfTraceTx s k w)).toNat)).flatten).drop 1
  let b := b.map (fun x => x &&& 0x7F)
  (0x80 ||| (crc7 b).setWidth 8) :: b

/-- The position that seals a tributary's frame `fc`; none: Umber fill on the line (R398). -/
def sealPos (x : TribSt) (fc : Nat) : Option (Fin 2) :=
  match x.txPos with
  | some p =>
    let q := x.pos[p]
    if q.state == .inUse && decide (q.txStart ≤ fc) && decide (fc ≤ q.txRes) then some p else none
  | none => none

/-- TX_POS lies above its RES: the frame is not sealed, and counted (R398). -/
def sealOver (x : TribSt) (fc : Nat) : Bool :=
  match x.txPos with
  | some p => x.pos[p].state == .inUse && decide (x.pos[p].txRes < fc)
  | none => false

/-- Blocks that the next tributary frame carries: those of its client port, or local-fault blocks while the port is not up
(R390); how many of these is open. -/
def takeBlocks (st : State) (s : SliceId) (t n : Nat) : List (BitVec 66) × State :=
  match trib? st s t with
  | none => ([], st)
  | some x =>
    if portUp st .client s x.cport then
      ((sl st s).ctf.blocks[x.cport].take (blockCap n),
        modCtf st s (fun c => { c with blocks := upd c.blocks x.cport (List.drop (blockCap n)) }))
    else
      let (v, st) := drawFree st
      (List.replicate (v % (blockCap n + 1)) localFaultBlock,
        modCtf st s (fun c => { c with blocks := c.blocks.set x.cport [] }))

/-- Lay the bytes of a tributary frame into its slots. -/
def placeSlots (tilora : Bool) (b : Bytes) : List Nat → Bytes → Bytes
  | [], _ => b
  | n :: ns, bs => placeSlots tilora (overlay b (slotAt tilora n) (padTo 1024 (bs.take 1024))) ns (bs.drop 1024)
/-- The bytes of these slots. -/
def takeSlots (tilora : Bool) (b : Bytes) (ns : List Nat) : Bytes := (ns.map (fun n => sub b (slotAt tilora n) 1024)).flatten

/-- Seal plaintext `pt` of tributary `t` for frame `fc`, or leave Umber fill; ciphertext and tag (R393, R398). A slice that is
not RUNNING sends Umber fill (16 R610). -/
def sealTrib (st : State) (s : SliceId) (k : PortIx) (i fc : Nat) (pt : Bytes) : Option (Bytes × Bytes) × State :=
  let t := tribNo k i
  match trib? st s t with
  | none => (none, st)
  | some x =>
    match (if st.img.sl[s] = .running then sealPos x fc else none) with
    | some p =>
      let q := x.pos[p]
      let aadI := if isTilora st s k then 0xFF else i
      let r := gcmSeal q.key (tribNonce x.salt (tribTnum (spn st).toNat x.tribId) fc)
        (tribAad fc aadI q.an (ctfLane st s k).txPhase) pt
      (some r, modTrib (pcEvent st s 0x020 (tribClocks (pt.length / 1024))) s t (fun x => { x with lastAn := q.an }))
    | none =>
      (none, if st.img.sl[s] = .running ∧ sealOver x fc = true then modTrib st s t (fun x => { x with nUnres := x.nUnres + 1 }) else st)

/-- One tributary of a CTF-200 lane enters the frame `b`. -/
def putTrib (s : SliceId) (k : PortIx) (fc : Nat) (a : Bytes × State) (i : Nat) : Bytes × State :=
  let ns := slotsOf (txPage a.2 s k) i
  if ns.isEmpty then a
  else
    let (bs, st) := takeBlocks a.2 s (tribNo k i) ns.length
    match sealTrib st s k i fc (mapBlocks ns.length bs) with
    | (some (ct, tag), st) => (overlay (placeSlots false a.1 ns ct) (tagAt false i) tag, st)
    | (none, st) => (a.1, st)

/-- All 120 slots of a Tilora lane under the context of tributary 0 (R417). -/
def putTilora (s : SliceId) (k : PortIx) (fc : Nat) (b : Bytes) (st : State) : Bytes × State :=
  let r := (laneTribs st s k).foldl (fun (a : Bytes × State) p =>
    let ns := slotsOf (txPage a.2 s k) p.1
    if ns.isEmpty then a
    else
      let (bs, st) := takeBlocks a.2 s (tribNo k p.1) ns.length
      (placeSlots true a.1 ns (mapBlocks ns.length bs), st)) (b, st)
  let all := List.range 120
  match sealTrib r.2 s k 0 fc (takeSlots true r.1 all) with
  | (some (ct, tag), st) => (overlay (placeSlots true r.1 all ct) (tagAt true 0) tag, st)
  | (none, st) => (b, st)

/-- Key phases, four to a byte, tributary 0 in the highest bits (Table 10-2). -/
def phaseBytes (an : Nat → Nat) : Bytes :=
  (List.range 60).map (fun b => BitVec.ofNat 8 (64 * an (4 * b) + 16 * an (4 * b + 1) + 4 * an (4 * b + 2) + an (4 * b + 3)))

/-- The overhead of frame `fc` (Table 10-2). -/
def overhead (st : State) (s : SliceId) (k : PortIx) (fc : Nat) : Bytes :=
  let x := ctfLane st s k
  let til := isTilora st s k
  let j := fc % 256
  let tribOf (i : Nat) : Option TribSt := trib? st s (tribNo k i)
  let owner : Nat := if til || decide (240 ≤ j) then 0xFF else (txPage st s k).getD j 0xFF
  let label : Byte := if til || decide (240 ≤ j) then 0 else match tribOf j with | some y => y.txLabel | none => 0
  let slots : Nat := if til || decide (240 ≤ j) then 0 else (slotsOf (txPage st s k) j).length
  let an (i : Nat) : Nat := if til && i != 0 then 0 else match tribOf i with | some y => y.lastAn.val | none => 0
  faw ++ beBytes 7 fc ++
  beBytes 1 (128 * b2n x.txPhase + 64 * b2n (laneDefect st s k) + 16 * b2n til) ++
  [byteAt x.traceTx (fc % 64)] ++ beBytes 1 owner ++ beBytes 4 x.bipTx.toNat ++
  [label] ++ beBytes 1 slots ++ [0, 0] ++ phaseBytes an ++ List.replicate 172 0

/-- The lane injector acts on frame `b` (R421). -/
def ctfInject (st : State) (s : SliceId) (k : PortIx) (b : Bytes) : Bytes × State :=
  let fi := (ctfLane st s k).fi
  if !fi.armed || !fi.recorded then (b, st)
  else
    let n := fi.seen + 1
    let hit := n % (getF fi.cfg Fld.ctfFiCfg_N_MINUS_1 + 1) == 0
    let st := modCtfLane st s k (fun x => { x with fi := { x.fi with
      seen := n, acted := if hit && x.fi.acted != BitVec.allOnes 24 then x.fi.acted + 1 else x.fi.acted } })
    if !hit then (b, st)
    else
      let o := getF fi.sel Fld.ctfFiSel_OFFSET
      let i := getF fi.sel Fld.ctfFiSel_TRIB
      let at_ := if getF fi.cfg Fld.ctfFiCfg_ACTION = 0 then 16 + o
        else if !isTilora st s k && decide (240 ≤ i) then b.length
        else tagAt (isTilora st s k) i + o
      (b.modify at_ (fun y => y ^^^ BitVec.ofNat 8 (getF fi.sel Fld.ctfFiSel_BITMASK)), st)

/-- R349 at a frame of the lane, sent or received, for each of its tributaries. -/
def reserveLane (st : State) (s : SliceId) (k : PortIx) : State :=
  (laneTribs st s k).foldl (fun st p => tribReserve st s (tribNo k p.1) (ctfLane st s k).fc.toNat) st

/-- One frame of a lane: multiframe changes, sealing, overhead, BIP, injector, and the pins (R380-R399). -/
def sendCtf (s : SliceId) (st : State) (k : PortIx) : State :=
  if !isCtf st s k then st
  else
    let st := multiframe (revokeLane st s k) s k
    let til := isTilora st s k
    let fc := (ctfLane st s k).fc.toNat
    let st := if fc % 64 = 0 then modCtfLane st s k (fun x => { x with traceTx := traceTx st s k }) else st
    let blank : Bytes := List.replicate (ctfLen til) 0
    let (b, st) := if til then putTilora s k fc blank st
      else (laneTribs st s k).foldl (fun a p => putTrib s k fc a p.1) (blank, st)
    let b := overlay b 0 (overhead st s k fc)
    let (b, st) := ctfInject st s k b
    let st := modCtfLane st s k (fun x => { x with bipTx := bip32 b, fc := x.fc + 1 })
    let out := ctfScramble b
    let (levels, code) := codeFrame (laneCfg st .line s k) (Config.precoderStart s.val k.val) (ctfLane st s k).code fc out
    let st := modCtfLane st s k (fun x => { x with code := code })
    let live (st : State) : Bool := laneOut st .line s k != .electricalIdle
    let st := if live (modTwin st (fun t => { t with txEn := true })) then digPort st .line s k out else st
    let st := if live st then emit (emit st (.ctf s k out)) (.levels s k levels) else st
    reserveLane st s k

/-! Slip buffers (R407, R408). -/

/-- EB of a tributary (R419). -/
def tribErr (x : TribSt) : TribSt := { x with perf := { x.perf with eb := x.perf.eb + 1, curEb := x.perf.curEb + 1 } }

/-- The tributary that a client port takes its blocks from: the first that has slots in a receive active page, else the first
that names the port (R388, R407). -/
def feeds (st : State) (s : SliceId) (cp : PortIx) : Option Nat :=
  let ts := (sl st s).ctf.trib.filter (fun p => p.2.cport == cp)
  ((ts.find? (fun p => !(slotsOf (rxPage st s (laneOfTrib p.1)) (p.1 % 256)).isEmpty)).or ts.head?).map Prod.fst

/-- Local-fault blocks for the time of one tributary frame, 10 µs of the port's block stream; whether a frame whose time is no
whole number of blocks takes the part block is open (R391, Table 10-3). -/
def faultFill (st : State) (s : SliceId) (cp : PortIx) : List (BitVec 66) × State :=
  let n := speedOf (portCfg st .client s cp) * 3125
  let (v, st) := drawFree st
  (List.replicate (n / 20 + (if n % 20 = 0 then 0 else v % 2)) localFaultBlock, st)

/-- A tributary frame, or Umber fill, leaves toward its client port as the blocks of the port's stream (R391). -/
def deliver (s : SliceId) (t : Nat) (b : Option Bytes) (st : State) : State :=
  match trib? st s t with
  | none => st
  | some x =>
    if feeds st s x.cport ≠ some t then st
    else
      let (bs, st) := match b with
        | some pt => (unmapBlocks pt, st)
        | none => faultFill st s x.cport
      let bits := bs.flatMap bitsOf
      sendPort st .client s x.cport (packBits (ceilDiv bits.length 8) bits) (.client s x.cport bs)

/-- What a tributary delivers at this boundary: the frame, or local-fault blocks. -/
def slipRead (s : SliceId) (st : State) (p : Nat × TribSt) : State :=
  let t := p.1
  let deliver := deliver s t
  let slip (sl : SlipSt) (st : State) : State := modTrib st s t (fun x => { x with slip := sl })
  let x := p.2
  if laneDefect st s (laneOfTrib t) then deliver none (slip {} st)
  else
    let wait (a : Nat) : Nat := elNs st - a
    match x.slip.started, x.slip.frames with
    | false, [] => deliver none st
    | false, f :: fs =>
      if 10000 ≤ wait f.2 then deliver f.1 (slip { frames := fs, started := true, last := f.1 } st) else deliver none st
    | true, [] =>
      let st := modTrib st s t (fun x => tribErr { x with nSlip := x.nSlip + 1 })
      deliver x.slip.last (raise st { block := 18, index := 0, slice := s.val, ps := [t] })
    | true, f :: fs =>
      if wait f.2 < 2000 then
        let st := modTrib st s t (fun x => tribErr { x with nSlip := x.nSlip + 1 })
        deliver x.slip.last (raise st { block := 18, index := 0, slice := s.val, ps := [t] })
      else if 18000 < wait f.2 then
        let st := modTrib st s t (fun x => tribErr { x with nSlip := x.nSlip + 1 })
        let st := raise st { block := 18, index := 1, slice := s.val, ps := [t] }
        match fs with
        | [] => deliver x.slip.last (slip { x.slip with frames := [] } st)
        | g :: gs => deliver g.1 (slip { x.slip with frames := gs, last := g.1 } st)
      else deliver f.1 (slip { x.slip with frames := fs, last := f.1 } st)

/-- Client blocks that have arrived since the last boundary wait by port; a block of an uncorrectable codeword becomes an error
control block (R390). -/
def addBlocks (st : State) (s : SliceId) (bs : List (PortIx × List (Option (BitVec 66)))) : State :=
  modCtf st s (fun c => bs.foldl (fun c p =>
    { c with blocks := upd c.blocks p.1 (fun q => q ++ p.2.map (fun b => b.getD errorBlock)) }) c)

/-- Some tributary of a CTF lane has slots in the transmit active page and carries the port (R388). -/
def carried (st : State) (s : SliceId) (cp : PortIx) : Bool :=
  ports8.any (fun k => isCtf st s k &&
    (laneTribs st s k).any (fun p => p.2.cport == cp && !(slotsOf (txPage st s k) p.1).isEmpty))

/-- The blocks of a port that no tributary carries go nowhere (R388). -/
def dropBlocks (st : State) (s : SliceId) : State :=
  modCtf st s (fun c => { c with blocks := Vector.ofFn (fun (k : Fin 8) => if carried st s k then c.blocks[k] else []) })

/-- The frame boundary moves toward C by at most 256 ps (R410). -/
def fsyncMove (c : CtfSt) : CtfSt :=
  let d : Int := if c.corr < 0 then max c.corr (-256) else min c.corr 256
  { c with corr := c.corr - d, phase := c.phase + d }

/-- A transmit frame boundary of a slice (R380). -/
def execCtfFrameBoundary (s : SliceId) (blocks : List (PortIx × List (Option (BitVec 66)))) (st : State) : Out :=
  .next (if !sliceOn st s || st.glb.halted then st
    else
      let st := modCtf (addBlocks st s blocks) s fsyncMove
      let st := dropBlocks (ports8.foldl (sendCtf s) st) s
      markDefects ((sl st s).ctf.trib.foldl (slipRead s) st) s)

/-! Receive (R386, R387, R400-R406, R411-R414). -/

/-- A tributary frame, or Umber fill in its place, enters the slip buffer, which holds two (R408); one that finds it full is
lost (DESIGN CHOICE, log entry 147). -/
def slipPut (st : State) (s : SliceId) (t : Nat) (b : Option Bytes) : State :=
  modTrib st s t (fun x => { x with slip := { x.slip with frames := (x.slip.frames ++ [(b, elNs st)]).take 2 } })

/-- The position whose AN a frame names (R400). -/
def openPos (x : TribSt) (an : An) : Option (Fin 2) := positions.find? (fun p => posLive x.pos[p] && x.pos[p].an == an)

/-- RX_POS moves to `p`; the position it leaves is released unless it transmits (R400, R401). -/
def moveRxPos (st : State) (s : SliceId) (t : Nat) (p : Fin 2) : State :=
  match trib? st s t with
  | none => st
  | some x =>
    if x.rxPos = some p then st
    else
      let st := modTrib st s t (fun x =>
        { x with rxPos := some p, pos := upd x.pos p (fun k => { k with state := .inUse }) })
      match x.rxPos with
      | some q => if x.txPos = some q then st else releasePos st s t q
      | none => st

/-- open_trib up to its plaintext (R400); none: Umber fill. -/
def openTrib (st : State) (s : SliceId) (k : PortIx) (i fc : Nat) (an : An) (page : Bool) (ct tag : Bytes) :
    Option Bytes × State :=
  let t := tribNo k i
  match trib? st s t with
  | none => (none, st)
  | some x =>
    if laneDefect st s k || plmDefect st s t x then (none, st)
    else
      match openPos x an with
      | none => (none, modTrib st s t (fun x => tribErr { x with nNoKey := x.nNoKey + 1 }))
      | some p =>
        let q := x.pos[p]
        let peer := fldA st (Reg.ctfLaneCfg s k) Fld.ctfLaneCfg_PEER_SPN
        let aadI := if isTilora st s k then 0xFF else i
        let st := pcEvent st s 0x021 (tribClocks (ct.length / 1024))
        match gcmOpen q.key (tribNonce x.salt (tribTnum peer x.tribId) fc) (tribAad fc aadI an page) ct tag with
        | none => (none, modTrib st s t (fun x => tribErr { x with nTagFail := x.nTagFail + 1 }))
        | some pt =>
          if fc < q.rxNext then (none, modTrib st s t (fun x => tribErr { x with nReplay := x.nReplay + 1 }))
          else if q.rxRes < fc then
            let st := modTrib st s t (fun x => tribErr { x with nUnres := x.nUnres + 1 })
            (none, reserveTrib st s t p false (min (fc + blockOf st 3 - 1) tribLast))
          else (some pt, moveRxPos (modPos st s t p (fun q => { q with rxNext := fc + 1 })) s t p)

/-- Key phase of tributary `i` in a frame. -/
def phaseOf (b : Bytes) (i : Nat) : An := Fin.ofNat 4 ((byteAt b (24 + i / 4)).toNat / 4 ^ (3 - i % 4))

/-- Every tributary of a lane takes its frame. -/
def openLane (st : State) (s : SliceId) (k : PortIx) (fc : Nat) (b : Bytes) : State :=
  let page := (byteAt b 13).getLsbD 7
  if isTilora st s k then
    let r := openTrib st s k 0 fc (phaseOf b 0) page (takeSlots true b (List.range 120)) (sub b (tagAt true 0) 16)
    let plain := r.1.map (placeSlots true b (List.range 120))
    (laneTribs r.2 s k).foldl (fun st p =>
      let ns := slotsOf (rxPage st s k) p.1
      if ns.isEmpty then st else slipPut st s (tribNo k p.1) (plain.map (fun b => takeSlots true b ns))) r.2
  else
    (laneTribs st s k).foldl (fun st p =>
      let ns := slotsOf (rxPage st s k) p.1
      if ns.isEmpty then st
      else
        let r := openTrib st s k p.1 fc (phaseOf b p.1) page (takeSlots false b ns) (sub b (tagAt false p.1) 16)
        slipPut r.2 s (tribNo k p.1) r.1) st

/-- The receive pages swap at j = 0; a tributary that gains slots, or loses all of them, starts anew (R405, R407). -/
def rxSwap (st : State) (s : SliceId) (k : PortIx) : State :=
  let m := (sl st s).ctf.rx[k]
  let st := modCtf st s (fun c => { c with rx := upd c.rx k (fun m => { active := m.standby, standby := m.active }) })
  let st := modCtfLane st s k (fun x => { x with rxPhase := !x.rxPhase })
  modCtf st s (fun c => { c with trib := c.trib.map (fun p =>
    if p.1 / 256 = k.val then
      let old := slotsOf m.active (p.1 % 256)
      let new := slotsOf m.standby (p.1 % 256)
      if new.isEmpty || new.any (fun n => !old.contains n) then (p.1, { p.2 with slip := {} }) else p
    else p) })

/-- One byte of the trace (R412, R413). -/
def traceByte (st : State) (s : SliceId) (k : PortIx) (b : Byte) : State :=
  let x := ctfLane st s k
  let buf : Option Bytes := if b.getLsbD 7 then some [b] else x.traceBuf.map (fun r => r ++ [b])
  match buf with
  | none => st
  | some r =>
    if r.length < 64 then modCtfLane st s k (fun x => { x with traceBuf := some r })
    else
      let st := modCtfLane st s k (fun x => { x with traceBuf := none })
      if (byteAt r 0).setWidth 7 != crc7 (r.drop 1) then count st (Reg.ctfCnt s k 7)
      else
        let n := if x.traceCand = r then x.traceCount + 1 else 1
        modCtfLane st s k (fun x => { x with traceCand := r, traceCount := n, traceAcc := if 3 ≤ n then some r else x.traceAcc })

/-- LABEL and LABEL_SLOTS of tributary j in frame `fc`: in a row they count only from one multiframe to the next (R411). -/
def labelRx (st : State) (s : SliceId) (t fc : Nat) (l n : Byte) : State :=
  modTrib st s t (fun x =>
    let c := if x.labSeen = some (l, n) ∧ fc = x.labFc + 256 then x.labCount + 1 else 1
    { x with labSeen := some (l, n), labFc := fc, labCount := c, labAcc := if 3 ≤ c then some (l, n) else x.labAcc })

/-- SLOT_OWNER against the receive active page (R406). -/
def ownerRx (st : State) (s : SliceId) (k : PortIx) (j : Nat) (o : Byte) : State :=
  let st := modCtfLane st s k (fun x => { x with mapMis := x.mapMis - 1 })
  if isTilora st s k || decide (240 ≤ j) || (rxPage st s k).getD j 0xFF == o.toNat then st
  else count (modCtfLane st s k (fun x => { x with mapMis := 256 })) (Reg.ctfCnt s k 6)

/-- A frame whose FAW fails counts toward loss of frame lock (R386). -/
def fawRx (st : State) (s : SliceId) (k : PortIx) (b : Bytes) : State :=
  if b.take 6 = faw then modCtfLane st s k (fun x => { x with badFaw := 0 })
  else
    let st := modCtfLane st s k (fun x => { x with badFaw := x.badFaw + 1 })
    if (ctfLane st s k).badFaw < 5 then st else laneBack st (.lane .line s k) .pcsLock

/-- The alignment marker before the first frame of a superframe: three superframes in a row without it take the lane back to
step 4 (R386). -/
def markerRx (st : State) (s : SliceId) (k : PortIx) (m : Option Bool) : State :=
  match m with
  | none => st
  | some true => modCtfLane st s k (fun x => { x with noMarker := 0 })
  | some false =>
    let st := modCtfLane st s k (fun x => { x with noMarker := x.noMarker + 1 })
    if (ctfLane st s k).noMarker < 3 then st else laneBack st (.lane .line s k) .fecLock

/-- A frame while the lane seeks frame lock: the FAW in three in a row completes step 5 (R386). -/
def seekRx (st : State) (s : SliceId) (k : PortIx) (b : Bytes) : State :=
  let at_ := (laneOf st (.lane .line s k)).since
  let st := modCtfLane st s k (fun x =>
    { x with goodFaw := if b.take 6 = faw then (if x.seekAt = at_ then x.goodFaw else 0) + 1 else 0, seekAt := at_ })
  if (ctfLane st s k).goodFaw < 3 then st
  else pcsLocked (.lane .line s k) (modCtfLane st s k (fun x => { x with goodFaw := 0 }))

/-- BIP of the frame before (R383, R419); the first frame after lock has none to compare. -/
def bipRx (st : State) (s : SliceId) (k : PortIx) (b : Bytes) : State :=
  let x := ctfLane st s k
  let bad := decide (0 < x.good) && BitVec.ofNat 32 (beVal (sub b 16 4)) != x.bipRx
  let st := if bad then
      count (modCtfLane st s k (fun x => { x with perf := { x.perf with curEb := x.perf.curEb + 1 } })) (Reg.ctfCnt s k 0)
    else st
  modCtfLane st s k (fun x => { x with bipRx := bip32 b, good := x.good + 1 })

/-- A received CTF frame on a lane in frame lock (R400), or on one that seeks it (R386). -/
def execCtfFrameRx (s : SliceId) (k : PortIx) (f : CtfRx) (st : State) : Out :=
  .next (if !isCtf st s k || st.glb.halted then st
    else if (laneOf st (.lane .line s k)).stage == .pcsLock then seekRx st s k f.bytes
    else if (laneOf st (.lane .line s k)).stage != .ready || !(ctfLane st s k).lock then st
    else
      let st := markerRx (revokeLane st s k) s k f.marker
      let st := if (ctfLane st s k).lock then fawRx st s k f.bytes else st
      if !(ctfLane st s k).lock then markDefects st s
      else
        let b := ctfScramble (padTo (ctfLen (isTilora st s k)) f.bytes)
        let fc := beVal (sub b 6 7)
        let j := fc % 256
        let ctl := byteAt b 13
        let st := bipRx st s k b
        let st := modCtfLane st s k (fun x => { x with rxFc := BitVec.ofNat 56 fc, rdiRx := ctl.getLsbD 6 })
        let st := if ctl.getLsbD 7 = (ctfLane st s k).rxPhase then st
          else if j = 0 then rxSwap st s k else count st (Reg.ctfCnt s k 5)
        let st := ownerRx (traceByte st s k (byteAt b 14)) s k j (byteAt b 15)
        let st := if isTilora st s k || decide (240 ≤ j) then st
          else labelRx st s (tribNo k j) fc (byteAt b 20) (byteAt b 21)
        markDefects (reserveLane (openLane st s k fc b) s k) s)

/-! Frame synchronisation (R409, R410, R422). -/

/-- The address under which the mirror carries a correction of slice `s`; no register lies there. -/
def fsyncAddr (s : SliceId) : Nat := 0x20000000 + s.val

/-- A correction of `off` ns replaces the one that is pending. -/
def fsyncApply (s : SliceId) (off : Int) (st : State) : State :=
  modCtf st s (fun c => { c with corr := 1000 * off, alignArmed := false, lastOff := BitVec.ofInt 14 off })

/-- A rising edge of FSYNC_IN, `off` ns from the nearest frame start; a standby leaves the measurement to its partner
(R422). -/
def execFsyncEdge (s : SliceId) (off : Int) (st : State) : Out :=
  .next (if !sliceOn st s || st.glb.halted || twinStandby st || !flagA st (Reg.ctfFsyncCfg s) Fld.ctfFsyncCfg_FSYNC_EN ||
      decide (off ≤ -5000) || decide (5000 < off) then st
    else if !(sl st s).ctf.alignArmed && (decide (off < -1000) || decide (1000 < off)) then
      modCtf st s (fun c => { c with ignored := if c.ignored = BitVec.allOnes 16 then c.ignored else c.ignored + 1 })
    else if twinOwner st then
      forward (modCtf st s (fun c => { c with alignArmed := false })) (fsyncAddr s) (BitVec.ofInt 32 off)
    else fsyncApply s off st)

/-- The ALIGN strobe. -/
def alignStrobe (s : SliceId) (w : Word) (st : State) : State :=
  if bitW w 31 then modCtf st s (fun c => { c with alignArmed := true }) else st
def execAlign (s : SliceId) (st : State) : Out :=
  let w := word [(Fld.ctfFsyncStat_ALIGN, 1)]
  .next (viaPF (Reg.ctfFsyncStat s) w (alignStrobe s w) st)

/-! Expected trace, frame counts (R415, R423). -/

/-- A write to an expected-trace register takes effect at once and restarts acceptance (R415). -/
def traceExpWrite (s : SliceId) (k : PortIx) (w : Nat) (v : Word) (st : State) : State :=
  modCtfLane (wr st (Reg.ctfTraceExp s k w) v) s k (fun x => { x with traceAcc := none, traceCand := [], traceCount := 0 })
def execTraceExpWrite (s : SliceId) (k : PortIx) (w : Fin 4) (v : Word) (st : State) : Out :=
  .next (viaPF (Reg.ctfTraceExp s k w) v (traceExpWrite s k w v) st)

/-- FC of the frame last sent, 0 before the first one. -/
def txFcNow (x : CtfLaneSt) : BitVec 56 := if x.fc = 0 then 0 else x.fc - 1

/-- A read of CTF_FC_0 or _2 latches the word after it. -/
def execCtfFcRead (s : SliceId) (k : PortIx) (rx : Bool) (st : State) : Out :=
  .next (if !sliceOn st s then { st with lastRead := 0 }
    else
      let v := if rx then (ctfLane st s k).rxFc else txFcNow (ctfLane st s k)
      let hi : Word := (v >>> 32).setWidth 32
      { modCtfLane st s k (fun x => if rx then { x with rxLatch := hi } else { x with fcLatch := hi }) with
        lastRead := v.setWidth 32 })

/-! Lane injectors (R421, R110-R113, Table 2-7). -/

/-- A record of arming or disarming: side 2 is a CTF lane. -/
def fiRecord (st : State) (source : Fin 256) (unit : Nat) (s : SliceId) (k : PortIx) (cfg sel : Word) : State :=
  logRec st source (Config.detail source.val [unit, s.val, k.val, cfg.toNat, sel.toNat]) 0
    (if source = 33 then some (s, k, unit == 2) else none)

/-- A write of CTF_FI_CMD. -/
def ctfFiStrobe (s : SliceId) (k : PortIx) (w : Word) (st : State) : State :=
  let res (code : Nat) (st : State) : State := setF st (Reg.ctfFiStat s k) Fld.ctfFiStat_RESULT code
  let arm := bitW w 31
  let dis := bitW w 30
  if !arm && !dis then st
  else
    let cfg := rdA st (Reg.ctfFiCfg s k)
    let sel := rdA st (Reg.ctfFiSel s k)
    let act := getF cfg Fld.ctfFiCfg_ACTION
    let armed := (ctfLane st s k).fi.armed
    let badArm := decide (2 ≤ act) || (act == 0 && decide (4 ≤ getF sel Fld.ctfFiSel_OFFSET))
    let (code, st) := pickCode st
      [(!isCtf st s k, 5), (arm && dis, 4), (logFull st, 3), (arm && !dis && badArm, 4), (arm && !dis && armed, 1),
       (dis && !arm && !armed, 2)]
    if code ≠ 0 then res code st
    else if arm then
      fiRecord (res 0 (modCtfLane st s k (fun x => { x with fi := { armed := true, cfg := cfg, sel := sel } }))) 33 2 s k cfg sel
    else
      let fi := (ctfLane st s k).fi
      fiRecord (res 0 (modCtfLane st s k (fun x => { x with fi := { x.fi with armed := false } }))) 34 2 s k fi.cfg fi.sel

def execCtfFiArm (s : SliceId) (k : PortIx) (other : Bool) (st : State) : Out :=
  let w := word [(Fld.ctfFiCmd_ARM, 1), (Fld.ctfFiCmd_DISARM, b2n other)]
  .next (viaPF (Reg.ctfFiCmd s k) w (ctfFiStrobe s k w) st)
def execCtfFiDisarm (s : SliceId) (k : PortIx) (other : Bool) (st : State) : Out :=
  let w := word [(Fld.ctfFiCmd_ARM, b2n other), (Fld.ctfFiCmd_DISARM, 1)]
  .next (viaPF (Reg.ctfFiCmd s k) w (ctfFiStrobe s k w) st)

/-! Tributary commands (R424, R425, Table 10-9). -/

def tribWord (op : Nat) (k : PortIx) (i : Byte) (an : An) : Word :=
  word [(Fld.tsiTribCmd_OP, op), (Fld.tsiTribCmd_AN, an.val), (Fld.tsiTribCmd_LANE, k.val), (Fld.tsiTribCmd_TRIB, i.toNat)]

def tribData (st : State) (s : SliceId) (i : Nat) : Word := rd st (Reg.tsiTribData0 s + 4 * i)

/-- Refusals that every OP shares: the lane or tributary does not exist (log entry 12 for an index above 239). -/
def tribLaneBad (st : State) (s : SliceId) (k : PortIx) (i : Nat) : Bool := !isCtf st s k || decide (240 ≤ i)

/-- End a tributary command with one of its causes, or go on. -/
def tribJudge (s : SliceId) (w : Word) (i : InstId) (causes : List (Bool × Nat)) (ok : State → State) (st : State) : State :=
  let (code, st) := pickCode st causes
  if code = 0 then ok st else tribDone s w code (stateRecord st code 9 10 2 s i)

/-- Position states as a number; a revoked position that has still to be taken from service reads as it stands. -/
def posNum : PosState → Nat
  | .empty => 0 | .loaded => 1 | .inUse => 2 | .revoked => 3

/-- Words 0-7 of TSI_TRIB_DATA. -/
def tribImage (st : State) (s : SliceId) (t : Nat) : List Word :=
  match trib? st s t with
  | none => List.replicate 8 0
  | some x =>
    let salt (i : Nat) : Word := BitVec.ofNat 32 (x.salt.toNat / 2 ^ (32 * i))
    [word [(Fld.tsiTribData_VALID, 1), (Fld.tsiTribData_CPORT, x.cport.val), (Fld.tsiTribData_INSTANCE, x.inst.val),
       (Fld.tsiTribData_TX_LABEL, x.txLabel.toNat), (Fld.tsiTribData_EXP_LABEL, x.expLabel.toNat)],
     word [(Fld.tsiTribData_TRIB_ID, x.tribId.toNat), (Fld.tsiTribData_RX_LABEL, (match x.labAcc with | some l => l.1.toNat | none => 0)),
       (Fld.tsiTribData_PLM, b2n (plm st s t x))],
     salt 0, salt 1, salt 2, word [(Fld.tsiTribData_NODE, x.node)],
     word [(⟨31, 30⟩, posNum x.pos[0].state), (⟨29, 28⟩, x.pos[0].an.val), (⟨27, 26⟩, posNum x.pos[1].state),
       (⟨25, 24⟩, x.pos[1].an.val), (⟨23, 23⟩, b2n (x.txPos == some 1)), (⟨22, 22⟩, b2n (x.rxPos == some 1))],
     0]

def tribRead (s : SliceId) (k : PortIx) (i : Nat) (w : Word) (st : State) : State :=
  if tribLaneBad st s k i then tribDone s w 3 st
  else tribDone s w 0 ((tribImage st s (tribNo k i)).zipIdx.foldl (fun st p => wr st (Reg.tsiTribData0 s + 4 * p.2) p.1) st)

/-- A tributary whose key positions are both EMPTY. -/
def posEmpty (x : TribSt) : Bool := x.pos.toList.all (fun p => p.state == .empty)

/-- WRITE creates or changes a tributary (R424). -/
def tribWrite (s : SliceId) (k : PortIx) (i : Nat) (w : Word) (st : State) : State :=
  let t := tribNo k i
  let w0 := tribData st s 0
  let cp : PortIx := Fin.ofNat 8 (getF w0 Fld.tsiTribData_CPORT)
  let ins : InstId := Fin.ofNat 256 (getF w0 Fld.tsiTribData_INSTANCE)
  let id := BitVec.ofNat 16 (getF (tribData st s 1) Fld.tsiTribData_TRIB_ID)
  let salt := BitVec.ofNat 96 ((tribData st s 2).toNat + (tribData st s 3).toNat * 2 ^ 32 + (tribData st s 4).toNat * 2 ^ 64)
  let c := portCfg st .client s cp
  let old := trib? st s t
  let moves := match old with
    | some x => !posEmpty x && (x.cport != cp || x.inst != ins || x.tribId != id || x.salt != salt)
    | none => false
  let oldInst : InstId := match old with | some x => x.inst | none => ins
  tribJudge s w oldInst
    ([(tribLaneBad st s k i || !(c.enabled && c.l1), 3), (!instExists st ins, 4), (moves, 2)] ++
      stateCauses st oldInst 9 10 ++ stateCauses st ins 9 10)
    (fun st =>
      let x := old.getD {}
      let x := { x with cport := cp, inst := ins, tribId := id, salt := salt
                        txLabel := BitVec.ofNat 8 (getF w0 Fld.tsiTribData_TX_LABEL)
                        expLabel := BitVec.ofNat 8 (getF w0 Fld.tsiTribData_EXP_LABEL)
                        node := getF (tribData st s 5) Fld.tsiTribData_NODE }
      tribDone s w 0 (modCtf st s (fun c => { c with trib := c.trib.put t x }))) st

/-- The two start rules of an INSTALL, and its two requests (R396): none if either refuses. -/
def installRules (st : State) (s : SliceId) (t : Nat) (p : Fin 2) (an : An) (x : TribSt) (n : Nat) (r : Node) :
    Except Nat State :=
  let key := r.key
  let fp3 := tribFp st s t true x.salt x.tribId key
  let fp4 := tribFp st s t false x.salt x.tribId key
  let req := (ctfLane st s (laneOfTrib t)).fc.toNat + 2
  match startRule st 3 tribLast fp3 req with
  | .error e => .error e
  | .ok (s3, r3, ev3) =>
    let st := match ev3 with | some q => evict st q | none => st
    let st := jnlRequest st { cls := 2, kind := 3, tomb := false, fp := fp3, value := r3, use := .install s t p true }
    match startRule st 4 tribLast fp4 1 with
    | .error e => .error e
    | .ok (s4, r4, ev4) =>
      let st := match ev4 with | some q => evict st q | none => st
      let st := jnlRequest st { cls := 2, kind := 4, tomb := false, fp := fp4, value := r4, use := .install s t p false }
      let q : KeyPos := { state := .loaded, an := an, key := key, h := hashKey key, node := n, txStart := s3, txRes := r3
                          rxNext := s4, rxRes := r4, jump := decide (req < s3) }
      .ok (modTrib st s t (fun x => { x with installing := some (p, q, true, true) }))

/-- INSTALL (R396, R417). -/
def tribInstall (s : SliceId) (k : PortIx) (i : Nat) (an : An) (w : Word) (st : State) : State :=
  let t := tribNo k i
  let n := getF (tribData st s 5) Fld.tsiTribData_NODE
  let st := nodeCheck st n
  let x := trib? st s t
  let bad := tribLaneBad st s k i || (isTilora st s k && i != 0)
  let pos := match x with | some x => positions.find? (fun p => x.pos[p].state == .empty) | none => none
  let dup := match x with | some x => x.pos.toList.any (fun p => p.state != .empty && p.an == an) | none => false
  let ins : InstId := match x with | some x => x.inst | none => 0
  let node := match node? st n with
    | none => [(true, 6)]
    | some r => [(r.type != 3, 5), (x.isSome && r.owner != ins, 4)]
  tribJudge s w ins ([(bad || dup, 3), (!bad && pos.isNone, 2)] ++ node ++ (if x.isSome then stateCauses st ins 9 10 else []))
    (fun st =>
      match x, pos, node? st n with
      | some x, some p, some r =>
        (match installRules st s t p an x n r with
         | .error e => tribDone s w 7 (jnlRefused st e 2 s 0 t)
         | .ok st => cmdBusy st (Reg.tsiTribCmd s) Fld.tsiTribCmd_OP w)
      | _, _, _ => tribDone s w 2 st) st

/-- SWITCH (R399). -/
def tribSwitch (s : SliceId) (k : PortIx) (i : Nat) (w : Word) (st : State) : State :=
  let t := tribNo k i
  let x := trib? st s t
  let loaded := match x with | some x => x.pos.toList.any (fun p => p.state == .loaded) | none => false
  let ins : InstId := match x with | some x => x.inst | none => 0
  tribJudge s w ins ([(tribLaneBad st s k i, 3), (!tribLaneBad st s k i && !loaded, 2)] ++
      (if x.isSome then stateCauses st ins 9 10 else []))
    (fun st => tribDone s w 0
      (modTrib st s t (fun x => { x with switchFc := x.switchFc.or (some ((ctfLane st s k).fc.toNat + 2)) }))) st

/-- CLEAR of a LOADED or REVOKED position (R402). -/
def tribClear (s : SliceId) (k : PortIx) (i : Nat) (an : An) (w : Word) (st : State) : State :=
  let t := tribNo k i
  let x := trib? st s t
  let pos := match x with
    | some x => positions.find? (fun p => (x.pos[p].state == .loaded || x.pos[p].state == .revoked) && x.pos[p].an == an)
    | none => none
  let ins : InstId := match x with | some x => x.inst | none => 0
  tribJudge s w ins ([(tribLaneBad st s k i, 3), (!tribLaneBad st s k i && pos.isNone, 2)] ++
      (if x.isSome then stateCauses st ins 9 10 else []))
    (fun st => tribDone s w 0 (match pos with | some p => releasePos st s t p | none => st)) st

/-- Whether a page of lane `k` names tributary `i`. -/
def inPages (st : State) (s : SliceId) (k : PortIx) (i : Nat) : Bool :=
  let c := (sl st s).ctf
  [c.tx[k].active, c.tx[k].standby, c.rx[k].active, c.rx[k].standby].any (fun m => m.any (fun p => p.2 == i))

/-- DELETE (R424). -/
def tribDelete (s : SliceId) (k : PortIx) (i : Nat) (w : Word) (st : State) : State :=
  let t := tribNo k i
  let x := trib? st s t
  let used := match x with | some x => !posEmpty x | none => false
  let ins : InstId := match x with | some x => x.inst | none => 0
  tribJudge s w ins ([(tribLaneBad st s k i, 3), (used, 2), (inPages st s k i, 8)] ++
      (if x.isSome then stateCauses st ins 9 10 else []))
    (fun st => tribDone s w 0 (modCtf st s (fun c => { c with trib := c.trib.del t }))) st

/-- PM_READ fills TSI_TRIB_PM (R424). -/
def pmRead (s : SliceId) (k : PortIx) (i : Nat) (w : Word) (st : State) : State :=
  if tribLaneBad st s k i then tribDone s w 3 st
  else
    let vs : List Word := match trib? st s (tribNo k i) with
      | none => List.replicate 9 0
      | some x => [x.perf.eb, x.perf.es, x.perf.ses, x.perf.uas, x.nSlip, x.nTagFail, x.nNoKey, x.nReplay, x.nUnres]
    tribDone s w 0 (vs.zipIdx.foldl (fun st p => wr st (Reg.tsiTribPm s p.2) p.1) st)

/-- A command written to TSI_TRIB_CMD, by OP; 0 is no action. -/
def tribCmd (s : SliceId) (w : Word) (st : State) : State :=
  let k : PortIx := Fin.ofNat 8 (getF w Fld.tsiTribCmd_LANE)
  let i := getF w Fld.tsiTribCmd_TRIB
  let an : An := Fin.ofNat 4 (getF w Fld.tsiTribCmd_AN)
  match getF w Fld.tsiTribCmd_OP with
  | 1 => tribRead s k i w st
  | 2 => tribWrite s k i w st
  | 3 => tribInstall s k i an w st
  | 4 => tribSwitch s k i w st
  | 5 => tribClear s k i an w st
  | 6 => tribDelete s k i w st
  | 7 => pmRead s k i w st
  | _ => tribDone s w (fld st (Reg.tsiTribCmd s) Fld.tsiTribCmd_RESULT) st

def tribOp (s : SliceId) (w : Word) (eff : Word → State → State) (st : State) : Out :=
  .next (cmdPF (Reg.tsiTribCmd s) Fld.tsiTribCmd_RESULT w (eff w) st)

def execTribRead (s : SliceId) (k : PortIx) (i : Byte) (st : State) : Out :=
  tribOp s (tribWord 1 k i 0) (tribRead s k i.toNat) st
def execTribWrite (s : SliceId) (k : PortIx) (i : Byte) (st : State) : Out :=
  tribOp s (tribWord 2 k i 0) (tribWrite s k i.toNat) st
def execInstall (s : SliceId) (k : PortIx) (i : Byte) (an : An) (st : State) : Out :=
  tribOp s (tribWord 3 k i an) (tribInstall s k i.toNat an) st
def execTribSwitch (s : SliceId) (k : PortIx) (i : Byte) (st : State) : Out :=
  tribOp s (tribWord 4 k i 0) (tribSwitch s k i.toNat) st
def execTribClear (s : SliceId) (k : PortIx) (i : Byte) (an : An) (st : State) : Out :=
  tribOp s (tribWord 5 k i an) (tribClear s k i.toNat an) st
def execTribDelete (s : SliceId) (k : PortIx) (i : Byte) (st : State) : Out :=
  tribOp s (tribWord 6 k i 0) (tribDelete s k i.toNat) st
def execPmRead (s : SliceId) (k : PortIx) (i : Byte) (st : State) : Out :=
  tribOp s (tribWord 7 k i 0) (pmRead s k i.toNat) st

/-! Connection memory commands (R403, R404, R425). -/

def pageWord (op : Nat) (d : Side) (act : Bool) (k : PortIx) (slot i : Nat) : Word :=
  word [(Fld.tsiPageCmd_OP, op), (Fld.tsiPageCmd_DIR, sideNum d), (Fld.tsiPageCmd_ACT, b2n act), (Fld.tsiPageCmd_LANE, k.val),
    (Fld.tsiPageCmd_SLOT, slot), (Fld.tsiPageCmd_TRIB, i)]

/-- End of a page command; SWAP_PEND is read from the slice. -/
def pageDone (s : SliceId) (w : Word) (code : Nat) (st : State) : State :=
  cmdDone st (Reg.tsiPageCmd s) Fld.tsiPageCmd_RESULT Fld.tsiPageCmd_OP w code

/-- The memory of a direction: 0 transmit, 1 receive. -/
def tsiMem (c : CtfSt) (d : Side) (k : PortIx) : TsiMem := match d with | .client => c.tx[k] | .line => c.rx[k]
def modTsi (st : State) (s : SliceId) (d : Side) (k : PortIx) (f : TsiMem → TsiMem) : State :=
  modCtf st s (fun c => match d with
    | .client => { c with tx := upd c.tx k f }
    | .line => { c with rx := upd c.rx k f })

def slotBad (st : State) (s : SliceId) (k : PortIx) (slot : Nat) : Bool :=
  !isCtf st s k || decide (ctfSlots (isTilora st s k) ≤ slot)

def pageRead (s : SliceId) (d : Side) (act : Bool) (k : PortIx) (slot : Nat) (w : Word) (st : State) : State :=
  if slotBad st s k slot then pageDone s w 2 st
  else
    let m := tsiMem (sl st s).ctf d k
    pageDone s (putF w Fld.tsiPageCmd_TRIB ((if act then m.active else m.standby).getD slot 0xFF)) 0 st

def pageWrite (s : SliceId) (d : Side) (k : PortIx) (slot i : Nat) (w : Word) (st : State) : State :=
  let (code, st) := pickCode st
    [(slotBad st s k slot || (decide (240 ≤ i) && i != 0xFF), 2), (d == .client && (sl st s).ctf.swapPend, 3)]
  if code ≠ 0 then pageDone s w code st
  else pageDone s w 0 (modTsi st s d k (fun m =>
    { m with standby := if i = 0xFF then m.standby.del slot else m.standby.put slot i }))

/-- COPY: active to standby on every lane (R425). -/
def pageCopy (s : SliceId) (d : Side) (w : Word) (st : State) : State :=
  if d == .client && (sl st s).ctf.swapPend then pageDone s w 3 st
  else pageDone s w 0 (ports8.foldl (fun st k => modTsi st s d k (fun m => { m with standby := m.active })) st)

/-- Tributaries that the standby transmit page of a lane names. -/
def standbyTribs (st : State) (s : SliceId) (k : PortIx) : List Nat :=
  ((sl st s).ctf.tx[k].standby.map Prod.snd).eraseDups

/-- BAD_MAP (R404, R417). -/
def badMap (st : State) (s : SliceId) : Bool :=
  let named := ports8.flatMap (fun k => if isCtf st s k then (standbyTribs st s k).map (fun i => (k, i)) else [])
  let trs := named.map (fun p => (p, trib? st s (tribNo p.1 p.2)))
  let cps := trs.filterMap (fun p => p.2.map (fun x => x.cport))
  trs.any (fun p => match p.2 with
    | none => true
    | some x => decide ((slotsOf (sl st s).ctf.tx[p.1.1].standby p.1.2).length < minSlots (portCfg st .client s x.cport))) ||
  cps.any (fun c => decide (1 < countP (· == c) cps))

/-- SWAP is scheduled on every CTF lane (R404). -/
def pageSwap (s : SliceId) (w : Word) (st : State) : State :=
  let (code, st) := pickCode st [((sl st s).ctf.swapPend, 3), (badMap st s, 4)]
  if code ≠ 0 then pageDone s w code st
  else
    let st := ports8.foldl (fun st k =>
      if isCtf st s k then modCtfLane st s k (fun x => { x with swapFc := some (x.fc.toNat + 2) }) else st) st
    pageDone s w 0 (modCtf st s (fun c => { c with swapPend := c.lanes.toList.any (fun x => x.swapFc.isSome) }))

/-- A command written to TSI_PAGE_CMD, by OP; other codes are no action. -/
def pageCmd (s : SliceId) (w : Word) (st : State) : State :=
  let d := sideOfBit (getF w Fld.tsiPageCmd_DIR)
  let k : PortIx := Fin.ofNat 8 (getF w Fld.tsiPageCmd_LANE)
  let slot := getF w Fld.tsiPageCmd_SLOT
  match getF w Fld.tsiPageCmd_OP with
  | 1 => pageRead s d (getF w Fld.tsiPageCmd_ACT == 1) k slot w st
  | 2 => pageWrite s d k slot (getF w Fld.tsiPageCmd_TRIB) w st
  | 3 => pageCopy s d w st
  | 4 => pageSwap s w st
  | _ => pageDone s w (fld st (Reg.tsiPageCmd s) Fld.tsiPageCmd_RESULT) st

def pageOp (s : SliceId) (w : Word) (eff : Word → State → State) (st : State) : Out :=
  .next (cmdPF (Reg.tsiPageCmd s) Fld.tsiPageCmd_RESULT w (eff w) st)

def execPageRead (s : SliceId) (d : Side) (act : Bool) (k : PortIx) (slot : Byte) (st : State) : Out :=
  pageOp s (pageWord 1 d act k slot.toNat 0) (pageRead s d act k slot.toNat) st
def execPageWrite (s : SliceId) (d : Side) (k : PortIx) (slot i : Byte) (st : State) : Out :=
  pageOp s (pageWord 2 d false k slot.toNat i.toNat) (pageWrite s d k slot.toNat i.toNat) st
def execCopy (s : SliceId) (d : Side) (st : State) : Out :=
  pageOp s (pageWord 3 d false 0 0 0) (pageCopy s d) st
def execSwap (s : SliceId) (st : State) : Out := pageOp s (pageWord 4 .client false 0 0 0) (pageSwap s) st

end Sys2Proof.Machine
end

