-- ==== Sys2Proof/Machine/MeeOps.lean ====
section
/-!
DEFINITION. The memory encryption engine as the rest of the device uses it (14): lines and their layout, the cipher blocks
of Table 14-4, the counter tree, integrity failures, and the association archive's lines.
-/
namespace Sys2Proof.Machine

/-! Layout (R537-R539, Table 14-2). -/

/-- Data lines of the image's capacity. -/
def meeData (st : State) : Nat :=
  2 ^ 24 * (match st.img.content.cap.toNat with | 0 => 6 | 1 => 12 | _ => 24)
/-- Tree levels in DRAM. -/
def meeLevels (st : State) : Nat := if st.img.content.cap.toNat < 2 then 5 else 6
/-- Lines of tree level `l`, level 0 being the data lines (R544). -/
def levelSize (st : State) (l : Nat) : Nat := meeData st / 8 ^ l
/-- The physical line of node `n` of level `l`. -/
def nodeLine (st : State) (l n : Nat) : Nat :=
  meeData st + levelSize st 1 + sumOf (levelSize st) ((List.range (l - 1)).map (· + 1)) + n
/-- The tag line of data line `i` (R543). -/
def tagLine (st : State) (i : Nat) : Nat := meeData st + i / 8

/-- What a physical line is. -/
inductive LineKind where
  | data (i : Nat)
  | tag (i : Nat)
  | node (l n : Nat)
  | unused
  deriving DecidableEq, Repr

/-- Level and index of the node at `k` lines above the first node of level `l`, with `f` levels to look at. -/
def nodeAt (st : State) : Nat → Nat → Nat → LineKind
  | 0, _, _ => .unused
  | f + 1, l, k => if k < levelSize st l then .node l k else nodeAt st f (l + 1) (k - levelSize st l)

def lineKind (st : State) (p : Nat) : LineKind :=
  let d := meeData st
  if p < d then .data p
  else if p < d + d / 8 then .tag (p - d)
  else nodeAt st (meeLevels st) 1 (p - d - d / 8)

/-- REGION of MEE_FAIL for a line (Table 14-3). -/
def lineRegion (st : State) (p : Nat) : Nat :=
  match lineKind st p with
  | .data i =>
    let a := 64 * i
    if a < 0x8000000 then 0 else if a < 0x18000000 then 1 else if a < 0x58000000 then 2 else if a < 0x68000000 then 3 else 4
  | .tag _ => 5
  | .node .. => 6
  | .unused => 7
def lineLevel (st : State) (p : Nat) : Nat := match lineKind st p with | .node l _ => l | _ => 0

/-! Integrity failure (R556, R557). -/

/-- Steps of Table 14-5: what is not yet released is abandoned, the device halts, K_M and H_M are zeroised. -/
def meeFail (st : State) (cause region level p : Nat) : State :=
  let st := modMee st (fun m => { m with held := [] })
  let st := carmineHalt st 3 (if cause = 7 then 12 else 0) 0 0 37 (Config.detail 37 [cause, region, level, p % 4])
  modMee st (fun m => { m with
    ready := false, km := List.replicate 32 0, hm := List.replicate 16 0, cache := [], root := []
    failLine := BitVec.ofNat 32 p
    failWord := word [(Fld.meeFail_CAUSE, cause), (Fld.meeFail_REGION, region), (Fld.meeFail_LEVEL, level),
      (Fld.meeFail_SUBCH, p % 4)] })

/-- An integrity failure at line `p`. -/
def meeFailAt (st : State) (cause p : Nat) : State := meeFail st cause (lineRegion st p) (lineLevel st p) p

/-! Encryption and tags (R541-R544). -/

/-- The cipher input block of Table 14-4. -/
def meeBlock (p ctr k : Nat) : Bytes := beBytes 8 p ++ beBytes 7 ctr ++ beBytes 1 k
/-- The keystream of a line. -/
def meeStream (st : State) (p ctr : Nat) : Bytes :=
  ([0, 1, 2, 3].map (fun b => aesEnc st.mee.km (meeBlock p ctr b))).flatten
/-- The 64-bit tag over `bs`, under mask block `k`. -/
def meeTag (st : State) (bs : Bytes) (p ctr k : Nat) : Bytes :=
  (xorBytes (ghash st.mee.hm bs) (aesEnc st.mee.km (meeBlock p ctr k))).take 8
def dataTag (st : State) (i ctr : Nat) (c : Bytes) : Bytes := meeTag st c i ctr 0x10
/-- Bytes 0-55 of a node. -/
def nodeBytes (ctrs : List (BitVec 56)) : Bytes := (ctrs.map (fun c => beBytes 7 c.toNat)).flatten
def nodeTag (st : State) (p ctr : Nat) (b : Bytes) : Bytes := meeTag st (padTo 64 (b.take 56)) p ctr 0x11
def ctrsOf (b : Bytes) : List (BitVec 56) := (List.range 8).map (fun j => BitVec.ofNat 56 (beVal (sub b (7 * j) 7)))

/-- A line as DRAM holds it. -/
def dramLine (st : State) (p : Nat) : Bytes := st.mee.dram.getD p (List.replicate 64 0)

/-! Counter tree (R544-R546). -/

/-- Room in the counter cache for one more node: the first clean node leaves (log entry 19). -/
def cacheRoom (st : State) : Option State :=
  if st.mee.cache.length < 65536 then some st
  else (st.mee.cache.find? (fun p => !p.2.dirty)).map (fun p => modMee st (fun m => { m with cache := m.cache.del p.1 }))

/-- The counter of child `n` of level `l`: in the root array for the top level, else in its parent, which is in the cache. -/
def ctrOf (st : State) (l n : Nat) : Nat :=
  if l = meeLevels st then (st.mee.root.getD n 0).toNat
  else ((st.mee.cache.getD (nodeLine st (l + 1) (n / 8)) {}).ctrs.getD (n % 8) 0).toNat

/-- Node `n` of level `l` comes into the cache, after every node above it, with its tag verified, `b` being its bytes as
read. An error is a cause of MEE_FAIL at a line; 0: the cache has no room and the access waits. -/
def takeNode (st : State) (l n : Nat) (b : Bytes) : Except (Nat × Nat) State :=
  let p := nodeLine st l n
  let ctr := ctrOf st l n
  if ctr ≠ 0 ∧ nodeTag st p ctr b ≠ b.drop 56 then .error (5, p)
  else
    match cacheRoom (count st (Reg.meeCnt 3)) with
    | none => .error (0, p)
    | some st =>
      let x : NodeLine := { ctrs := if ctr = 0 then List.replicate 8 0 else ctrsOf b }
      .ok (modMee st (fun m => { m with cache := m.cache.put p x }))

/-- The path from the root array to node `n` of level `l`, with `f` levels above it at most. -/
def fetchNode : Nat → State → Nat → Nat → Except (Nat × Nat) State
  | 0, st, _, _ => .ok st
  | f + 1, st, l, n =>
    if st.mee.cache.has (nodeLine st l n) then .ok st
    else
      match (if l = meeLevels st then .ok st else fetchNode f st (l + 1) (n / 8)) with
      | .error e => .error e
      | .ok st => takeNode st l n (dramLine st (nodeLine st l n))

/-- The counter of a line comes into the cache with its whole path verified. -/
def fetchCtr (st : State) (l n : Nat) : Except (Nat × Nat) State :=
  if l = meeLevels st then .ok st else fetchNode 6 st (l + 1) (n / 8)

/-- The counter of child `n` of level `l` takes a new value. -/
def setCtr (st : State) (l n v : Nat) : State :=
  if l = meeLevels st then modMee st (fun m => { m with root := m.root.put n (BitVec.ofNat 56 v) })
  else
    let q := nodeLine st (l + 1) (n / 8)
    modMee st (fun m =>
      let x := m.cache.getD q {}
      { m with cache := m.cache.put q { ctrs := x.ctrs.set (n % 8) (BitVec.ofNat 56 v), dirty := true } })

/-! Writes that the device makes (R547, R551). -/

/-- The bytes of `old` where `mask` has a 0, of `new` where it has a 1. -/
def mergeLine (mask : BitVec 64) (old new : Bytes) : Bytes :=
  (List.range 64).map (fun i => if mask.getLsbD i then byteAt new i else byteAt old i)

/-- Bytes for one data line wait in the write-back cache. -/
def wbPut (w : WbLine) (off : Nat) (bs : Bytes) : WbLine :=
  let m := BitVec.ofNat 64 ((2 ^ min bs.length (64 - off) - 1) * 2 ^ off)
  { bytes := mergeLine m w.bytes (List.replicate off 0 ++ bs), mask := w.mask ||| m }

/-- A write of `bs` at address `a` of the protected data space. -/
def meeWrite : Nat → State → Nat → Bytes → State
  | 0, st, _, _ => st
  | f + 1, st, a, bs =>
    if bs.isEmpty || !st.mee.ready then st
    else
      let n := 64 - a % 64
      let st := modMee st (fun m => { m with wb := m.wb.put (a / 64) (wbPut (m.wb.getD (a / 64) {}) (a % 64) (bs.take n)) })
      meeWrite f st (a + n) (bs.drop n)

/-! Association archive (R559-R561). -/

/-- Entry `n` is written, at 128 × n of the protected data space. -/
def arcPut (st : State) (n : Nat) (e : ArcEnt) : State :=
  meeWrite 3 (modMee st (fun m => { m with arc := m.arc.put n e })) (128 * n) (padTo 128 (Config.archiveBytes e))
/-- Entry `n` is freed and zeroised. -/
def arcFree (st : State) (n : Nat) : State :=
  meeWrite 3 (modMee st (fun m => { m with arc := m.arc.del n })) (128 * n) (List.replicate 128 0)
/-- Every entry of an instance is freed and zeroised (R561). -/
def arcDrop (st : State) (i : InstId) : State :=
  ((st.mee.arc.filter (fun p => p.2.inst == i)).map Prod.fst).foldl arcFree st

end Sys2Proof.Machine
end

