-- ==== Sys2Proof/Machine/Journal.lean ====
section
/-!
DEFINITION. The Ochre journal in service (09): record writes and their failure, the scan after reset, and the commands of
PNJ_CMD.
-/
namespace Sys2Proof.Machine

/-! Records in MRAM (R364, R365). -/

def ringBase : Nat := 0x02000000
def ringSize : Nat := 262144

/-- A record as Table 9-5 lays it out. -/
def recBytes (r : JRec) : Bytes :=
  let b := leBytes 7 r.seq.toNat ++ leBytes 1 (16 * b2n r.tomb + r.kind.val) ++ padTo 12 r.fp ++ leBytes 8 r.value
  b ++ leBytes 4 (crc32 b).toNat

/-- The record that 32 bytes hold, if their CRC is right. -/
def recOfBytes (b : Bytes) : Option JRec :=
  if leVal (sub b 28 4) = (crc32 (b.take 28)).toNat then
    let k := (byteAt b 7).toNat
    some { seq := BitVec.ofNat 56 (leVal (sub b 0 7)), tomb := k.testBit 4, kind := Fin.ofNat 16 k, fp := sub b 8 12
           value := leVal (sub b 20 8) }
  else none

def ringRead (st : State) (p : Nat) : Bytes := memRead st.mram (ringBase + 32 * p) 32
def ringWrite (st : State) (p : Nat) (b : Bytes) : State := { st with mram := memWrite st.mram (ringBase + 32 * p) b }

/-- The next position that a record may take from `p` on: not held, and not failed twice (R365, R371). -/
def nextPos (st : State) (p : Nat) : Nat :=
  ((firstFrom (fun q => !st.jnl.index.has (q % ringSize) && decide (st.jnl.badPos.getD (q % ringSize) 0 < 2))
    p ringSize).getD p) % ringSize

/-! Commands that wait for a record. -/

def pnjDone (w : Word) (code : Nat) (st : State) : State :=
  cmdDone st Reg.pnjCmd Fld.pnjCmd_RESULT Fld.pnjCmd_OP w code
/-- The command in progress has completed. -/
def pnjEnd (st : State) (code : Nat) : State := pnjDone (rd st Reg.pnjCmd) code st

/-- Records of the TOMB_DORMANT in progress that are not done. -/
def tombLeft (st : State) : Bool :=
  st.jnl.reqs.any (fun r => r.use == .tombDormant) ||
  (match st.jnl.writing with | some (r, _) => r.use == .tombDormant | none => false)
/-- TOMB_DORMANT completes with its last record. -/
def tombEnd (st : State) : State :=
  if tombLeft st then st
  else pnjEnd (modJnl st (fun j => { j with tombFail := false })) (if st.jnl.tombFail then 6 else 0)

/-- Why the record of a fingerprint cannot be made a tombstone: 3 not held, 4 live, 5 a tombstone already; 0 it can. -/
def tombCode (st : State) (fp : Bytes) : Nat :=
  match heldRecord st fp with
  | none => 3
  | some (p, r) => if r.tomb then 5 else if jnlLive st p || jnlInstalling st fp then 4 else 0

/-! Effects of a commit. -/

/-- A slot whose installation has committed at ring position `ix` (R353): it takes its key, and its counters start at 0. A
pre-install whose conditions do not hold any more fills no slot (08 R327, R337); its record stays, without a user. -/
def slotInstalled (st : State) (src : Fin 4) (s : SliceId) (ch : ChIx) (an : An) (x : Slot) (ix : Nat) : State :=
  let x := { x with jidx := ix }
  if src = 3 then
    match st.restore with
    | none => st
    | some r =>
      let r := { r with left := r.left - 1, slots := r.slots ++ [(s, ch, an, x)] }
      if r.left = 0 then
        let st := count (restoreBuild st r) (Reg.vimCnt 6)
        cmdDone st Reg.vimCmd Fld.vimCmd_RESULT Fld.vimCmd_OP (rd st Reg.vimCmd) 0
      else { st with restore := some r }
  else if src = 1 ∧ !preInstallOk st s ch an then st
  else
    let st := modSlot st s ch an (fun _ => x)
    let lo := 8 * (4 * ch.val + an.val)
    let st := modSl st s (fun y => { y with slotCtr := clearCtrs y.slotCtr lo (lo + 8) })
    let st := slotPlaced st s ch an
    match src with
    | 0 => cmdDone st (Reg.saeCmd s) Fld.saeCmd_RESULT Fld.saeCmd_OP (rd st (Reg.saeCmd s)) 0
    | 1 => count st (Reg.saeLcCnt s 2)
    | _ =>
      let e := getF (rd st Reg.meeArcCmd) Fld.meeArcCmd_ENTRY
      let st := count (arcFree st e) (Reg.meeCnt 5)
      cmdDone st Reg.meeArcCmd Fld.meeArcCmd_RESULT Fld.meeArcCmd_OP (rd st Reg.meeArcCmd) 0

/-- A RESTORE is refused; nothing of it stays but records already committed (13 R524). -/
def restoreFail (st : State) (code sec : Nat) : State :=
  let st := dropUse (fun u => match u with | .load 3 _ _ _ _ => true | _ => false) st
  let st := { st with restore := none, ktr := { st.ktr with capNode := none } }
  let st := setF (count st (Reg.vimCnt 7)) Reg.vimCapStat Fld.vimCapStat_SECTION sec
  cmdDone st Reg.vimCmd Fld.vimCmd_RESULT Fld.vimCmd_OP (rd st Reg.vimCmd) code

/-- The section of a slot's record in the capsule being restored. -/
def slotSection (st : State) (s : SliceId) (ch : ChIx) (an : An) : Nat :=
  match st.restore with
  | none => 0
  | some r => ((r.recs.find? (fun p => p.2.1 == 4 && recSlice p.2.2 == s.val && recIx p.2.2 == ch.val &&
      (byteAt p.2.2 1).toNat % 4 == an.val)).map Prod.fst).getD 0

/-- An installation is refused with COMMIT_FAIL (R355, R371, R376). -/
def installRefused (st : State) (u : JUse) : State :=
  match u with
  | .load src s ch an _ =>
    let st := jnlRefused st 5 (if src = 2 then 0 else src.val) s an.val ch.val
    (match src with
     | 0 => cmdDone st (Reg.saeCmd s) Fld.saeCmd_RESULT Fld.saeCmd_OP (rd st (Reg.saeCmd s)) 12
     | 1 => preFail s ch an 4 st
     | 2 =>
       let st := setF st Reg.meeArcStat Fld.meeArcStat_SAE_RESULT 12
       cmdDone st Reg.meeArcCmd Fld.meeArcCmd_RESULT Fld.meeArcCmd_OP (rd st Reg.meeArcCmd) 6
     | 3 => restoreFail st 14 (slotSection st s ch an))
  | .install s t _ _ => installFailed st s t
  | _ => st

/-- What the commit of a record at ring position `ix` does to the use it was written for. -/
def committed (st : State) (u : JUse) (ix : Nat) : State :=
  match u with
  | .reserveSlot s ch an req =>
    count (modJnl (modSlot st s ch an (fun x => { x with jidx := ix }))
      (fun j => { j with applies := j.applies ++ [.reserveSlot s ch an req] })) (Reg.pnjCnt 1)
  | .reserveTrib s t p tx req =>
    let st := modPos st s t p (fun k => if tx then { k with txIdx := ix } else { k with rxIdx := ix })
    let st := if tx then jumpReserved st s t p req else st
    count (modJnl st (fun j => { j with applies := j.applies ++ [.reserveTrib s t p tx req] })) (Reg.pnjCnt 1)
  | .load src s ch an x => count (slotInstalled st src s ch an x ix) (Reg.pnjCnt 2)
  | .install s t _ tx => count (installCommitted st s t tx ix) (Reg.pnjCnt 2)
  | .tombAuto => count st (Reg.pnjCnt 5)
  | .destroy => pnjEnd (count st (Reg.pnjCnt 5)) 0
  | .tombDormant => tombEnd (count st (Reg.pnjCnt 5))
  | .adopt s ch an => modSlot st s ch an (fun x => { x with jidx := ix })
  | .adoptTrib s t p tx => modPos st s t p (fun k => if tx then { k with txIdx := ix } else { k with rxIdx := ix })
  | .dropped => st

/-! Service (R370, R371). -/

/-- Requests that are retried until they commit. -/
def forever (u : JUse) : Bool :=
  match u with
  | .load .. | .install .. | .destroy | .tombDormant => false
  | _ => true

/-- The request to serve next: lowest class, then first come. -/
def jnlHead (rs : List JReq) : Option JReq :=
  (rs.find? (fun r => r.cls == 0)).or ((rs.find? (fun r => r.cls == 1)).or (rs.find? (fun r => r.cls == 2)))

/-- Take the request to be written next; a tombstone whose record has gone, lives or is one already is not written. -/
def jnlTake : Nat → State → Option (JReq × BitVec 56) × State
  | 0, st => (none, st)
  | n + 1, st =>
    match jnlHead st.jnl.reqs with
    | none => (none, st)
    | some r =>
      let st := modJnl st (fun j => { j with reqs := j.reqs.erase r })
      let code := if r.tomb then tombCode st r.fp else 0
      if code = 0 then (some (r, st.jnl.nextSeq), modJnl st (fun j => { j with nextSeq := j.nextSeq + 1 }))
      else
        jnlTake n (match r.use with
          | .destroy => pnjEnd st code
          | .tombDormant => tombEnd st
          | _ => st)

/-- VALUE of the record that a request writes (R351, R353, R358, R360). -/
def valueOf (st : State) (r : JReq) : Nat :=
  let held := match heldRecord st r.fp with | some (_, x) => x.value | none => 0
  match r.use with
  | .load .. => r.value
  | .install .. => r.value
  | .tombAuto | .destroy | .tombDormant => held
  | _ => max r.value held

/-- The read-back matched: the record is held. -/
def writeOk (st : State) (r : JReq) (seq : BitVec 56) : State :=
  let p := nextPos st st.jnl.head
  let x : JRec := { seq := seq, tomb := r.tomb, kind := r.kind, fp := r.fp, value := valueOf st r }
  let st := ringWrite st p (recBytes x)
  let old := heldRecord st r.fp
  let st := modJnl st (fun j => { j with
    index := (match old with | some (q, _) => j.index.del q | none => j.index).put p x
    head := (p + 1) % ringSize, writing := none, failingSince := none })
  committed (count st (Reg.pnjCnt 0)) r.use p

/-- The read-back did not match: the position holds undefined bytes, of the old record or the new one in every bit, and the
same record is written again (R371). -/
def writeBad (st : State) (r : JReq) (seq : BitVec 56) : State :=
  let p := nextPos st st.jnl.head
  let new := recBytes { seq := seq, tomb := r.tomb, kind := r.kind, fp := r.fp, value := valueOf st r }
  let old := ringRead st p
  let (m, st) := draw st
  let mix := (old.zip (new.zip m)).map (fun b => (b.1 &&& ~~~ b.2.2) ||| (b.2.1 &&& b.2.2))
  let st := ringWrite st p mix
  let st := modJnl st (fun j => { j with
    badPos := j.badPos.put p (j.badPos.getD p 0 + 1), head := (p + 1) % ringSize
    failingSince := j.failingSince.or (some (elNs st))
    writing := if forever r.use || r.tries == 0 then some ({ r with tries := r.tries + 1 }, seq) else none })
  let st := raise (count st (Reg.pnjCnt 3)) { block := 9, index := 2, ps := [p] }
  if forever r.use || r.tries == 0 then st
  else
    match r.use with
    | .destroy => pnjEnd st 6
    | .tombDormant => tombEnd (modJnl st (fun j => { j with tombFail := true }))
    | u => installRefused st u

/-- The journal writes: it has been scanned, is not closed, and the device is not halted (R366, R378, 20 R698). -/
def jnlWrites (st : State) : Bool := st.jnl.ready && !st.jnl.closed && !st.glb.halted

/-- A tamper record waits for the MRAM (15 R579). -/
def tamperWaits (st : State) : Bool := st.evl.ready && st.evl.queue.any isTamperRec

/-- A record write completes its read-back (R370). While a tamper record waits, only a write already in progress does (15
R579). -/
def execJournalCommit (ok : Bool) (st : State) : Out :=
  .next (if !jnlWrites st || (tamperWaits st && st.jnl.passed) then st
    else
      let st := modJnl st (fun j => { j with passed := tamperWaits st })
      let w := match st.jnl.writing with
        | some w => (some w, st)
        | none => jnlTake st.jnl.reqs.length st
      match w with
      | (none, st) => st
      | (some (r, seq), st) => if ok then writeOk st r seq else writeBad st r seq)

/-- 1 ms has passed after a commit failure with no record committed (R372). -/
def execJournalHaltTimeout (st : State) : Out :=
  .next (match st.jnl.failingSince with
    | some a => if a + 1000000 ≤ elNs st ∧ !st.glb.halted then carmineHalt st 4 0 0 0 35 [] else st
    | none => st)

/-! The scan (R366, R367). -/

/-- Ring positions with a byte that is not 0, rising. -/
def ringUsed (m : Memory) : List Nat :=
  (m.filter (fun c => decide (ringBase ≤ c.1) && decide (c.1 < ringBase + 32 * ringSize))).foldr
    (fun c ps => let p := (c.1 - ringBase) / 32; if ps.head? = some p then ps else p :: ps) []

/-- Keep a valid record if it is the newest of its fingerprint; of equal SEQ, the higher VALUE (R366, R371). -/
def indexAdd (m : NMap JRec) (p : Nat × JRec) : NMap JRec :=
  match m.find? (fun q => q.2.fp == p.2.fp) with
  | none => m.put p.1 p.2
  | some q =>
    if q.2.seq < p.2.seq ∨ (q.2.seq = p.2.seq ∧ q.2.value < p.2.value) then (m.del q.1).put p.1 p.2 else m

/-- The first `n` positions from `p`, in steps of `d`, that hold no held record. -/
def notHeld (m : NMap JRec) (d : Nat) : Nat → Nat → Nat → List Nat
  | 0, _, _ => []
  | f + 1, n, p =>
    if n = 0 then []
    else if m.has p then notHeld m d f n ((p + d) % ringSize)
    else p :: notHeld m d f (n - 1) ((p + d) % ringSize)

/-- Positions written last: within 32 of `p` on either side, held records not counted (R367). -/
def writtenLast (m : NMap JRec) (p : Nat) : List Nat :=
  notHeld m 1 ringSize 32 p ++ notHeld m (ringSize - 1) ringSize 32 ((p + ringSize - 1) % ringSize)

/-- Evict tombstones until HELD_MAX records remain. -/
def trimHeld : Nat → State → State
  | 0, st => st
  | n + 1, st =>
    if st.jnl.index.length ≤ heldMax then st
    else
      match oldestTomb st with
      | none => st
      | some p => trimHeld n (evict st p)

/-- A damaged record: DAMAGED, counted, reported and logged (R367). -/
def damagedRec (st : State) (p : Nat) : State :=
  let st := modJnl st (fun j => { j with damaged := true })
  logRec (raise (count st (Reg.pnjCnt 7)) { block := 9, index := 1, ps := [p] }) 36 (Config.detail 36 [p])

/-- The scan after reset completes; `bad` are the positions at which the MRAM's BCH code could not correct (R366, R367). -/
def execJournalScanDone (bad : List Nat) (st : State) : Out :=
  .next (if st.jnl.ready then st
    else
      let ps := ringUsed st.mram
      let good := ps.filterMap (fun p => if bad.contains p then none else (recOfBytes (ringRead st p)).map (fun r => (p, r)))
      let index := good.foldl indexAdd []
      let newest := good.foldl (fun (m : Option (Nat × JRec)) x => match m with
        | none => some x
        | some y => if y.2.seq < x.2.seq then some x else some y) none
      let p := (newest.map Prod.fst).getD (ringSize - 1)
      let torn := writtenLast index p
      let st := modJnl st (fun j => { j with
        ready := true, index := index, head := (p + 1) % ringSize
        nextSeq := match newest with | some x => x.2.seq + 1 | none => 1 })
      let fail := ps.filter (fun q => !(good.any (fun g => g.1 == q)) && !torn.contains q)
      enablePorts (trimHeld (index.length - heldMax) (fail.foldl damagedRec st)))

/-! Commands (R378, Table 9-8). -/

def pnjFp (st : State) : Bytes := ((List.range 3).map (fun i => leBytes 4 (rd st (Reg.pnjFp i)).toNat)).flatten

/-- Not READY, or closed by the hold-up sequence. -/
def pnjNotReady (st : State) : Bool := !st.jnl.ready || st.jnl.closed

/-- READ returns a ring position's record; a held record comes from the index (R369, R378). -/
def pnjRead (w : Word) (st : State) : State :=
  let p := getF w Fld.pnjCmd_INDEX
  let held := st.jnl.index.get? p
  let b := match held with | some r => recBytes r | none => ringRead st p
  let st := (List.range 8).foldl (fun st i => wr st (Reg.pnjRdata i) (BitVec.ofNat 32 (leVal (sub b (4 * i) 4)))) st
  let st := wr st Reg.pnjRstat (word [(Fld.pnjRstat_HELD, b2n held.isSome), (Fld.pnjRstat_LIVE, b2n (held.isSome && jnlLive st p))])
  pnjDone w 0 st

/-- FIND returns the position of a fingerprint's held record. -/
def pnjFind (w : Word) (st : State) : State :=
  if pnjNotReady st then pnjDone w 8 st
  else
    match heldRecord st (pnjFp st) with
    | none => pnjDone w 3 st
    | some (p, _) => pnjDone (putF w Fld.pnjCmd_INDEX p) 0 st

/-- DESTROY makes a dormant record a tombstone (R360). -/
def pnjDestroy (w : Word) (st : State) : State :=
  if pnjNotReady st then pnjDone w 8 st
  else
    let fp := pnjFp st
    let code := tombCode st fp
    match heldRecord st fp with
    | none => pnjDone w 3 st
    | some (_, r) =>
      if code ≠ 0 then pnjDone w code st
      else
        jnlRequest (cmdBusy st Reg.pnjCmd Fld.pnjCmd_OP w)
          { cls := 1, kind := r.kind, tomb := true, fp := fp, value := r.value, use := .destroy }

/-- TOMB_DORMANT makes every dormant record a tombstone (R360). -/
def pnjTombDormant (w : Word) (st : State) : State :=
  if pnjNotReady st then pnjDone w 8 st
  else
    let st := cmdBusy st Reg.pnjCmd Fld.pnjCmd_OP w
    let ds := st.jnl.index.filter (fun p => tombCode st p.2.fp == 0)
    tombEnd (modJnl st (fun j => { j with tombFail := false, reqs := j.reqs ++ ds.map (fun p =>
      { cls := 1, kind := p.2.kind, tomb := true, fp := p.2.fp, value := p.2.value, use := .tombDormant }) }))

/-- ACK_DAMAGE ends the refusal that DAMAGED causes (R368). -/
def pnjAckDamage (w : Word) (st : State) : State :=
  if pnjNotReady st then pnjDone w 8 st
  else if !st.jnl.damaged || st.jnl.acked then pnjDone w 7 st
  else pnjDone w 0 (modJnl st (fun j => { j with acked := true }))

/-- A command written to PNJ_CMD, by OP: 0 starts nothing, 6 and 7 are refused (Table 9-8). -/
def pnjCmd (w : Word) (st : State) : State :=
  match getF w Fld.pnjCmd_OP with
  | 0 => pnjDone w (fld st Reg.pnjCmd Fld.pnjCmd_RESULT) st
  | 1 => pnjRead w st
  | 2 => pnjFind w st
  | 3 => pnjDestroy w st
  | 4 => pnjTombDormant w st
  | 5 => pnjAckDamage w st
  | _ =>
    let (code, st) := pickCode st [(true, 2), (pnjNotReady st, 8)]
    pnjDone w code st

def pnjWord (op ix : Nat) : Word := word [(Fld.pnjCmd_OP, op), (Fld.pnjCmd_INDEX, ix)]
def pnjOp (w : Word) (eff : Word → State → State) (st : State) : Out :=
  .next (cmdPF Reg.pnjCmd Fld.pnjCmd_RESULT w (eff w) st)

def execPnjRead (ix : BitVec 18) (st : State) : Out := pnjOp (pnjWord 1 ix.toNat) pnjRead st
def execFind (st : State) : Out := pnjOp (pnjWord 2 0) pnjFind st
def execDestroy (st : State) : Out := pnjOp (pnjWord 3 0) pnjDestroy st
def execTombDormant (st : State) : Out := pnjOp (pnjWord 4 0) pnjTombDormant st
def execAckDamage (st : State) : Out := pnjOp (pnjWord 5 0) pnjAckDamage st

end Sys2Proof.Machine
end

