-- ==== Sys2Proof/Machine/Pmu.lean ====
section
/-!
DEFINITION. Statistics (19): the central reader and its snapshots, secure-channel and port counters, bandwidth windows,
slice performance counters and tenant statistics.
-/
namespace Sys2Proof.Machine

/-! The central reader (R670-R674). -/

/-- Snapshot entries `e`, `e + 1`, … for the `n` counters from register `a` on. -/
def snapRun (e a n : Nat) : List (Nat × Nat) := (List.range n).map (fun i => (e + i, a + 4 * i))

/-- Entry and register of every 32-bit block counter, entries rising (Table 19-1; GLB_FLT_CNT as block 0, 20 R709). -/
def snapRegs : List (Nat × Nat) :=
  snapRun 0 (Reg.glbFltCnt 0) 5 ++ snapRun 128 (Reg.pwrCnt 0) 3 ++ snapRun 192 (Reg.hifCnt 0) 3 ++
  snapRun 256 (Reg.vimCnt 0) 8 ++ snapRun 320 (Reg.twnCnt 0) 9 ++ snapRun 384 (Reg.tmpCnt 0) 4 ++
  snapRun 448 Reg.evlCnt0 1 ++ snapRun 512 (Reg.ktrCnt 0) 4 ++ snapRun 576 (Reg.pnjCnt 0) 8 ++
  snapRun 640 (Reg.meeCnt 0) 6 ++ snapRun 704 (Reg.drcCnt 0) 7 ++ snapRun 768 (Reg.safCnt 0) 11 ++
  [0, 1, 2, 3].flatMap (fun s =>
    (List.range 8).flatMap (fun k => snapRun (1152 + 512 * s + 8 * k) (Reg.ctfCnt s k 0) 8) ++
    [0, 1].flatMap (fun d => snapRun (1280 + 512 * s + 8 * d) (Reg.prsCnt s d 0) 8) ++
    [0, 1].flatMap (fun d => snapRun (1344 + 512 * s + 16 * d) (Reg.clsCnt s d 0) 15) ++
    snapRun (1408 + 512 * s) (Reg.fwdCnt s 0) 11 ++ snapRun (1472 + 512 * s) (Reg.saeCnt s 0) 5 ++
    snapRun (1480 + 512 * s) (Reg.saeLcCnt s 0) 4)

/-- The accumulated value of an entry: the 32-bit difference since the last snapshot is added (R671). -/
def snapAcc (st : State) (e a : Nat) : BitVec 64 :=
  st.pmu.acc.getD e 0 + (rd st a - st.pmu.prev.getD e 0).setWidth 64

/-- Entries of the cycle and programmable counters (Table 19-1). -/
def snapPc (st : State) : NMap (BitVec 64) :=
  slices4.flatMap (fun s =>
    let c := st.pmu.pc[s]
    (3072 + 16 * s.val, c.cyc) :: fin8.map (fun i => (3073 + 16 * s.val + i.val, c.cnt[i].setWidth 64)))

/-- Take a snapshot at this tick (R670, R671). -/
def takeSnap (st : State) : State :=
  let acc := snapRegs.map (fun e => (e.1, snapAcc st e.1 e.2))
  let prev := snapRegs.map (fun e => (e.1, rd st e.2))
  modPmu st (fun p => { p with
    acc := acc, prev := prev
    taking := some { vals := acc ++ snapPc st, ns := nowNs st, el := BitVec.ofNat 64 (elNs st) } })

/-- SAMPLE_MS in ns (R671). -/
def sampleNs (st : State) : Nat := 1000000 * clampN 1 1000 (fldA st Reg.pmuCfg Fld.pmuCfg_SAMPLE_MS)

/-- Every SAMPLE_MS of ELAPSED a snapshot is taken (R670). -/
def execSnapshot (st : State) : Out :=
  .next (if flagA st Reg.pmuCfg Fld.pmuCfg_SAMPLE_EN && decide (st.pmu.nextAt ≤ elNs st) && st.pmu.taking.isNone then
    takeSnap (modPmu st (fun p => { p with nextAt := (elNs st / sampleNs st + 1) * sampleNs st }))
  else st)

/-- The SNAP strobe (R670, R674). -/
def snapStrobe (st : State) : State :=
  if !booted st || st.pmu.taking.isSome then setF st Reg.pmuSnapCmd Fld.pmuSnapCmd_RESULT 1
  else takeSnap (setF st Reg.pmuSnapCmd Fld.pmuSnapCmd_RESULT 0)

def execSnap (st : State) : Out :=
  .next (viaPF Reg.pmuSnapCmd (word [(Fld.pmuSnapCmd_SNAP, 1)]) snapStrobe st)

/-- The snapshot taken becomes visible in one step (R673). -/
def execSnapshotVisible (st : State) : Out :=
  .next (match st.pmu.taking with
    | none => st
    | some x =>
      let st := modPmu st (fun p => { p with visible := x.vals, taking := none })
      let st := wr (count st Reg.pmuSnapSeq) Reg.pmuSnapNs x.ns
      wr (wr st Reg.pmuSnapElLo (x.el.setWidth 32)) Reg.pmuSnapElHi ((x.el >>> 32).setWidth 32))

/-! Secure-channel and port counters (R675-R678). -/

/-- Move the on-chip part into the backing value (R675). -/
def flushCtr (m : NMap Ctr) (key : Nat) : NMap Ctr :=
  let c := m.getD key {}
  if 2 ^ 31 ≤ c.chip.toNat then m.put key { chip := 0, back := c.back + c.chip.setWidth 64 } else m

/-- The counters of a slice by kind of Table 19-2. -/
def ctrsOfKind (x : SliceSt) (kind : Fin 4) : NMap Ctr :=
  match kind with | 0 => x.chCtr | 1 => x.slotCtr | 2 => x.lpCtr | 3 => x.cpCtr
def setCtrs (x : SliceSt) (kind : Fin 4) (m : NMap Ctr) : SliceSt :=
  match kind with
  | 0 => { x with chCtr := m }
  | 1 => { x with slotCtr := m }
  | 2 => { x with lpCtr := m }
  | 3 => { x with cpCtr := m }

/-- Where the statistics region of DRAM holds a counter's backing value; the spec gives no layout (log entry 139). -/
def statAddr (kind : Fin 4) (s : SliceId) (key : Nat) : Nat := 0x8000000 + 8 * (Config.statPlace kind.val s.val key % 2 ^ 25)

/-- An on-chip part that has reached 2^31 is flushed (R675, 01 R50); `kind` as in Table 19-2. -/
def execCounterFlush (kind : Fin 4) (s : SliceId) (key : Nat) (st : State) : Out :=
  let m := ctrsOfKind (sl st s) kind
  .next (if (m.getD key {}).chip.toNat < 2 ^ 31 then st
    else
      let m := flushCtr m key
      meeWrite 2 (modSl st s (fun x => setCtrs x kind m)) (statAddr kind s key) (leBytes 8 (m.getD key {}).back.toNat))

/-- Values of a scope of Table 19-2, 13 of them (R678). -/
def scVals (st : State) (kind : Fin 4) (s : SliceId) (ch : ChIx) (an : An) : List (BitVec 64) :=
  let x := sl st s
  let rx := (chOf st s ch).dirRx
  (List.range 13).map (fun j =>
    match kind with
    | 0 => if j < (if rx then 13 else 7) then ctrVal x.chCtr (16 * ch.val + j) else 0
    | 1 => if j < (if rx then 5 else 2) then ctrVal x.slotCtr (8 * (4 * ch.val + an.val) + j) else 0
    | 2 => if j < 6 then ctrVal x.lpCtr (8 * (ch.val % 8) + j) else 0
    | 3 => if j < 1 then ctrVal x.cpCtr (ch.val % 8) else 0)

/-- The 26 data words from register `a` on. -/
def scWrite (st : State) (a : Nat) (vs : List (BitVec 64)) : State :=
  vs.zipIdx.foldl (fun st (p : BitVec 64 × Nat) =>
    wr (wr st (a + 8 * p.2) (p.1.setWidth 32)) (a + 8 * p.2 + 4) ((p.1 >>> 32).setWidth 32)) st

/-- BAD_PARAM: slice or port not enabled, channel not VALID. -/
def scBad (st : State) (kind : Fin 4) (s : SliceId) (ch : ChIx) : Bool :=
  !sliceOn st s || !st.img.content.slices[s].enabled ||
  (match kind with
   | 0 => !(chOf st s ch).valid
   | 1 => !(chOf st s ch).valid
   | 2 => !(portCfg st .line s (Fin.ofNat 8 ch.val)).enabled
   | 3 => !(portCfg st .client s (Fin.ofNat 8 ch.val)).enabled)

/-- Operands of a word of PMU_SC_CMD. -/
def scKind (w : Word) : Fin 4 := Fin.ofNat 4 (getF w Fld.pmuScCmd_KIND)
def scSlice (w : Word) : SliceId := Fin.ofNat 4 (getF w Fld.pmuScCmd_SLICE)
def scCh (w : Word) : ChIx := Fin.ofNat 16384 (getF w Fld.pmuScCmd_CHANNEL)
def scAn (w : Word) : An := Fin.ofNat 4 (getF w Fld.pmuScCmd_AN)
def scWord (kind : Fin 4) (s : SliceId) (ch : ChIx) (an : An) : Word :=
  word [(Fld.pmuScCmd_OP, 1), (Fld.pmuScCmd_KIND, kind.val), (Fld.pmuScCmd_SLICE, s.val), (Fld.pmuScCmd_AN, an.val),
    (Fld.pmuScCmd_CHANNEL, ch.val)]

/-- A command written to PMU_SC_CMD (R676). -/
def pmuScCmd (w : Word) (st : State) : State :=
  if getF w Fld.pmuScCmd_OP = 1 then
    let (code, st) := pickCode st [(scBad st (scKind w) (scSlice w) (scCh w), 2), (!st.mee.ready, 4)]
    let st := if code = 0
      then scWrite st (Reg.pmuScData 0) (scVals st (scKind w) (scSlice w) (scCh w) (scAn w)) else st
    cmdDone st Reg.pmuScCmd Fld.pmuScCmd_RESULT Fld.pmuScCmd_OP w code
  else cmdDone st Reg.pmuScCmd Fld.pmuScCmd_RESULT Fld.pmuScCmd_OP w (fld st Reg.pmuScCmd Fld.pmuScCmd_RESULT)

def execScRead (kind : Fin 4) (s : SliceId) (ch : ChIx) (an : An) (st : State) : Out :=
  let w := scWord kind s ch an
  .next (cmdPF Reg.pmuScCmd Fld.pmuScCmd_RESULT w (pmuScCmd w) st)

/-! Tenant statistics (R685, R686). -/

/-- The SR-IOV capability of the PF as configuration reads show it (13 R496, 18 R659). -/
structure SrIov where
  firstOffset : Nat
  stride : Nat
  totalVfs : Nat
  numVfs : Nat
  deriving DecidableEq, Repr

def sriov (st : State) : SrIov := { firstOffset := 1, stride := 1, totalVfs := st.img.content.ni - 1, numVfs := st.pcie.numVfs }

/-- Whether instance `i` has a VF, and so a VF page (18 R659). -/
def hasVf (st : State) (i : InstId) : Bool := i != 0 && decide (i.val ≤ (sriov st).totalVfs)
/-- The page index of a VF's registers. -/
def vfIx (i : InstId) : Nat := i.val - 1

/-- A command written to VF_SC_CMD of instance `i` (R686). -/
def vfScCmd (i : InstId) (w : Word) (st : State) : State :=
  let a := Reg.vfScCmd (vfIx i)
  if !hasVf st i || st.glb.halted then st
  else if !booted st then wr st a (putF (cmdWord st a w) Fld.pmuScCmd_RESULT 4)
  else if getF w Fld.pmuScCmd_OP = 1 then
    let k := scKind w
    let c := chOf st (scSlice w) (scCh w)
    let port := decide (2 ≤ k.val)
    let (code, st) := pickCode st [(port, 2), (!port && scBad st k (scSlice w) (scCh w), 2),
      (!port && c.valid && c.inst != i, 3), (!st.mee.ready, 4)]
    let st := if code = 0
      then scWrite st (Reg.vfScData (vfIx i) 0) (scVals st k (scSlice w) (scCh w) (scAn w)) else st
    cmdDone st a Fld.pmuScCmd_RESULT Fld.pmuScCmd_OP w code
  else cmdDone st a Fld.pmuScCmd_RESULT Fld.pmuScCmd_OP w (fld st a Fld.pmuScCmd_RESULT)

def execVfScRead (i : InstId) (kind : Fin 4) (s : SliceId) (ch : ChIx) (an : An) (st : State) : Out :=
  .next (vfScCmd i (scWord kind s ch an) st)

/-- An instance counter of Table 19-4 counts. -/
def bumpVf (st : State) (i : InstId) (n : Fin 8) : State :=
  modInst st i (fun x => { x with vfCnt := x.vfCnt.set n (x.vfCnt[n] + 1) })

/-- A read of VF_STAT_LO_n latches the high word (R685). -/
def execVfStatRead (i : InstId) (n : Fin 8) (st : State) : Out :=
  .next (if hasVf st i then
    let v := (inst st i).vfCnt[n]
    { modInst st i (fun x => { x with vfLatch := x.vfLatch.set n ((v >>> 32).setWidth 32) }) with
      lastRead := v.setWidth 32 }
  else st)

/-! Bandwidth windows (R679-R681). -/

/-- The end of a window (R680). -/
def execBwWindowEnd (st : State) : Out := .next (bwAdvance st)

/-- BW_EN and a pair of window and sub-interval that has been applied: the first window starts at the next multiple of
WIN_US; the one in progress is discarded (R681). -/
def bwRestart (st : State) : State :=
  let win := (elNs st / bwWinNs st + 1) * bwWinNs st
  modPmu st (fun p => { p with bw := [], winStart := win, subStart := win })

/-! Slice performance counters (R682, R683, R688). -/

def modPc (st : State) (s : SliceId) (f : PcSt → PcSt) : State := modPmu st (fun p => { p with pc := upd p.pc s f })

/-- A write of PMU_PC_CTL: a single strobe acts, more than one acts on none (R688). -/
def pcStrobe (s : SliceId) (w : Word) (st : State) : State :=
  if !st.fuses.is4832 then st
  else
    match bitW w 31, bitW w 30, bitW w 29 with
    | true, false, false => modPc st s (fun c => { c with run := true })
    | false, true, false => modPc st s (fun c => { c with run := false })
    | false, false, true => modPc st s (fun c => { c with cyc := 0, cnt := Vector.replicate 8 0, ovf := 0 })
    | _, _, _ => st

/-- The word that a strobe writes; `other` sets another strobe beside it. -/
def pcWord (f g : Field) (other : Bool) : Word := word [(f, 1), (g, b2n other)]

def execPcStart (s : SliceId) (other : Bool) (st : State) : Out :=
  let w := pcWord Fld.pmuPcCtl_START Fld.pmuPcCtl_STOP other
  .next (viaPF (Reg.pmuPcCtl s) w (pcStrobe s w) st)
def execPcStop (s : SliceId) (other : Bool) (st : State) : Out :=
  let w := pcWord Fld.pmuPcCtl_STOP Fld.pmuPcCtl_CLEAR other
  .next (viaPF (Reg.pmuPcCtl s) w (pcStrobe s w) st)
def execPcClear (s : SliceId) (other : Bool) (st : State) : Out :=
  let w := pcWord Fld.pmuPcCtl_CLEAR Fld.pmuPcCtl_START other
  .next (viaPF (Reg.pmuPcCtl s) w (pcStrobe s w) st)

/-- The event that takes a running counter from 2^48 − 1: it wraps and sets its OVF bit (R682). -/
def execPcWrap (s : SliceId) (i : Fin 8) (st : State) : Out :=
  let c := st.pmu.pc[s]
  .next (if st.fuses.is4832 && c.run && c.cnt[i] == BitVec.allOnes 48 then
    modPc st s (fun c => { c with cnt := c.cnt.set i 0, ovf := c.ovf ||| BitVec.ofNat 8 (2 ^ i.val) })
  else st)

/-- A read of PMU_CYC_LO (`none`) or PMU_PC_LO_i latches its high word (R682). -/
def execPmuCounterRead (s : SliceId) (i : Option (Fin 8)) (st : State) : Out :=
  let c := st.pmu.pc[s]
  .next (if !st.fuses.is4832 then { st with lastRead := 0 }
    else
      match i with
      | none => { modPc st s (fun c => { c with cycLatch := (c.cyc >>> 32).setWidth 32 }) with lastRead := c.cyc.setWidth 32 }
      | some i =>
        { modPc st s (fun c => { c with pcLatch := c.pcLatch.set i ((c.cnt[i] >>> 32).setWidth 32) }) with
          lastRead := c.cnt[i].setWidth 32 })

/-- Cells in use, of the slice's 65,536 (01 Table 1-2). -/
def cellsUsed (x : SliceSt) : Nat :=
  sumOf (fun f => cellsOf f.bytes) (framesHeld x) + sumOf (fun f => cellsOf f.bytes) x.engine
/-- Cells of the recirculation queue, of 1,024 (04 R176). -/
def recCells (x : SliceSt) : Nat := sumOf (fun f => cellsOf f.bytes) x.recirc

/-- Engines of a pool that are powered; one that failed its test is not (01 R46, R48). -/
def enginesOn (p : PoolSt) : Nat := p.inPool + p.rising + p.draining

/-- Two packet clocks of slice `s`: the cycle counter and the events that Table 19-3 counts in clocks. Those of busy engines come
with each frame (R40, log entry 28). -/
def pcClocks (st : State) (s : SliceId) : State :=
  if !st.fuses.is4832 || !st.pmu.pc[s].run || !sliceOn st s then st
  else
    let x := sl st s
    let p := x.pools[(0 : Fin 2)]
    let v := x.pools[(1 : Fin 2)]
    let xoff := x.cPorts.toList.any (fun p => p.flow.xoff || p.flow.pfcXoff != 0)
    let st := modPc st s (fun c => { c with cyc := c.cyc + 2 })
    [(0x022, p.rising + v.rising),
     (0x023, enginesOn p + enginesOn v),
     (0x031, b2n (decide (49152 ≤ cellsUsed x))), (0x040, b2n (decide (1024 ≤ recCells x))),
     (0x051, b2n (decide (1024 ≤ x.learns.length))), (0x080, b2n xoff)].foldl
      (fun st e => pcEvent st s e.1 (2 * e.2)) st

end Sys2Proof.Machine
end

