-- ==== Sys2Proof/Machine/Vim.lean ====
section
/-!
DEFINITION. Virtual instances (13): mailboxes, state commands, shares, SAVE and RESTORE, and function-level resets.
-/
namespace Sys2Proof.Machine

/-- Number of an instance state (Table 13-3). -/
def instStateNum : InstState → Nat
  | .disabled => 0 | .enabled => 1 | .quiescing => 2 | .quiesced => 3 | .frozen => 4

def allInsts : List InstId := (List.range 256).map (fun n => Fin.ofNat 256 n)

/-! Mailboxes (R499-R502). -/

/-- The request registers of the VF page of instance `i`. -/
def vfRequest (st : State) (i : InstId) : List Word := (List.range 16).map (fun w => rd st (Reg.vfMbxReq (vfIx i) w))

/-- A write of 1 to VF_MBX_CTL.DOORBELL (R499, R500, R502). -/
def doorbell (i : InstId) (st : State) : State :=
  if !hasVf st i || st.glb.halted || (inst st i).state == .disabled then st
  else if (inst st i).pending then modInst st i (fun x => { x with overrun := true })
  else
    raise (count (modInst st i (fun x => { x with mbox := vfRequest st i, pending := true })) (Reg.vimCnt 4))
      { block := 4, index := 0, ps := [i.val] }
def execDoorbell (i : InstId) (st : State) : Out := .next (doorbell i st)

/-- VF_MBX_CTL as read. -/
def mbxCtl (x : InstSt) : Word :=
  word [(Fld.vfMbxCtl_PENDING, b2n x.pending), (Fld.vfMbxCtl_RESP_READY, b2n x.respReady),
    (Fld.vfMbxCtl_OVERRUN, b2n x.overrun), (Fld.vfMbxCtl_STATE, instStateNum x.state)]

/-- A read of VF_MBX_CTL clears RESP_READY and OVERRUN. -/
def execVfMbxCtlRead (i : InstId) (st : State) : Out :=
  .next (if !hasVf st i then st
    else { modInst st i (fun x => { x with respReady := false, overrun := false }) with lastRead := mbxCtl (inst st i) })

def mbxWord (op : Nat) (i : InstId) : Word := word [(Fld.vimMbxCmd_OP, op), (Fld.vimMbxCmd_INSTANCE, i.val)]
def mbxDone (w : Word) (code : Nat) (st : State) : State := cmdDone st Reg.vimMbxCmd Fld.vimMbxCmd_RESULT Fld.vimMbxCmd_OP w code

def mbxRead (i : InstId) (w : Word) (st : State) : State :=
  if !hasVf st i then mbxDone w 3 st
  else mbxDone w 0 ((inst st i).mbox.zipIdx.foldl (fun st p => wr st (Reg.vimMbxData p.2) p.1) st)

def mbxRespond (i : InstId) (w : Word) (st : State) : State :=
  if !hasVf st i then mbxDone w 3 st
  else if !(inst st i).pending then mbxDone w 2 st
  else
    let st := (List.range 16).foldl (fun st n => wr st (Reg.vfMbxResp (vfIx i) n) (rd st (Reg.vimMbxData n))) st
    mbxDone w 0 (hostOut (modInst st i (fun x => { x with pending := false, respReady := true })) (.msix i 0))

/-- A command written to VIM_MBX_CMD, by OP. -/
def mbxCmd (w : Word) (st : State) : State :=
  let i : InstId := Fin.ofNat 256 (getF w Fld.vimMbxCmd_INSTANCE)
  match getF w Fld.vimMbxCmd_OP with
  | 1 => mbxRead i w st
  | 2 => mbxRespond i w st
  | _ => mbxDone w (fld st Reg.vimMbxCmd Fld.vimMbxCmd_RESULT) st

def execMbxRead (i : InstId) (st : State) : Out :=
  .next (cmdPF Reg.vimMbxCmd Fld.vimMbxCmd_RESULT (mbxWord 1 i) (mbxRead i (mbxWord 1 i)) st)
def execRespond (i : InstId) (st : State) : Out :=
  .next (cmdPF Reg.vimMbxCmd Fld.vimMbxCmd_RESULT (mbxWord 2 i) (mbxRespond i (mbxWord 2 i)) st)

/-! State commands (R513-R520). -/

def vimDone (w : Word) (code : Nat) (st : State) : State := cmdDone st Reg.vimCmd Fld.vimCmd_RESULT Fld.vimCmd_OP w code
def vimWord (op : Nat) (i : InstId) (s : SliceId) : Word :=
  word [(Fld.vimCmd_OP, op), (Fld.vimCmd_SLICE, s.val), (Fld.vimCmd_INSTANCE, i.val)]

/-- Refusals of a state command: instance, shutdown, state (R496, R497, R515, R518); 0 none. -/
def stateCode (st : State) (i : InstId) (shutdown : Bool) (allowed : InstState → Bool) : Nat :=
  if !instExists st i || i == 0 then 2
  else if shutdown && (inst st i).state == .quiescing then 4
  else if !allowed (inst st i).state then 3
  else 0

/-- A refusal by instance state is kept in VIM_LAST_REF. -/
def vimRefuse (w : Word) (code : Nat) (i : InstId) (s : SliceId) (st : State) : State :=
  vimDone w code (stateRecord st code 4 15 5 s i)

def setInst (st : State) (i : InstId) (q : InstState) : State := modInst st i (fun x => { x with state := q })

def vimEnable (i : InstId) (w : Word) (st : State) : State :=
  let code := stateCode st i true (fun q => q == .disabled || q == .quiesced)
  if code ≠ 0 then vimRefuse w code i 0 st else vimDone w 0 (setInst st i .enabled)

/-- Saffron frames of instance `i` that have not made their slot access; a frame in the clear makes none (11 R455). -/
def safFlush (st : State) (i : InstId) : State :=
  let goes (f : SafFrame) : Bool :=
    f.inst == i && (f.stage != .accessed || (match f.out with | some (_, e) => e.prot.isNone | none => true))
  countN { st with saf := st.saf.filter (fun f => !goes f) } (Reg.safCnt 7) (countP goes st.saf)

/-- QUIESCE begins (R514). -/
def startQuiesce (st : State) (i : InstId) : State :=
  let st := safFlush st i
  modInst st i (fun x => { x with state := .quiescing, quiesceUntil := elNs st + 100000 })

def vimQuiesce (i : InstId) (w : Word) (st : State) : State :=
  let code := stateCode st i true (fun q => q == .enabled)
  if code ≠ 0 then vimRefuse w code i 0 st else vimDone w 0 (startQuiesce st i)

def vimFreeze (i : InstId) (w : Word) (st : State) : State :=
  let code := stateCode st i true (fun q => q == .quiesced)
  if code ≠ 0 then vimRefuse w code i 0 st else vimDone w 0 (setInst st i .frozen)

/-- Windows of restored slots run from THAW on (R525). -/
def thawSlots (st : State) (i : InstId) : State :=
  match (inst st i).restoredAt with
  | none => st
  | some a =>
    let d := elNs st - a
    let st := slices4.foldl (fun st s => (instChans st s i).foldl (fun st c => ans.foldl (fun st an =>
      modSlot st s c.1 an (fun x => { x with due := x.due.map (· + d) })) st) st) st
    modInst st i (fun x => { x with restoredAt := none })

def vimThaw (i : InstId) (w : Word) (st : State) : State :=
  let code := stateCode st i false (fun q => q == .frozen)
  if code ≠ 0 then vimRefuse w code i 0 st else vimDone w 0 (setInst (thawSlots st i) i .quiesced)

/-! RESET and REMOVE (R516, R517). -/

/-- A page of a TSI holds a tributary of the instance. -/
def tribInPage (st : State) (i : InstId) : Bool :=
  slices4.any (fun s => (instTribs st s i).any (fun t =>
    let c := (sl st s).ctf
    let k := laneOfTrib t
    [c.tx[k].active, c.tx[k].standby, c.rx[k].active, c.rx[k].standby].any (fun m => m.any (fun p => p.2 == t % 256))))

/-- Channels of a slice go: slots emptied, hash entries and counters removed. -/
def dropChans (i : InstId) (st : State) (s : SliceId) : State :=
  (instChans st s i).foldl (fun st c =>
    let st := ans.foldl (fun st an => slotEmpty st s c.1 an) st
    let st := sciRemove st s c.1
    modSl st s (fun x => { x with
      chans := x.chans.del c.1.val
      chCtr := clearCtrs x.chCtr (16 * c.1.val) (16 * c.1.val + 16)
      slotCtr := clearCtrs x.slotCtr (32 * c.1.val) (32 * c.1.val + 32) })) st

/-- Recirculation profiles of the instance are disabled, as written and as applied. -/
def dropRcps (i : InstId) (st : State) (s : SliceId) : State :=
  (List.range 16).foldl (fun st p =>
    let a := Reg.clsRcp s p
    let off (w : Word) : Word := if getF w Fld.clsRcp_INST = i.val then putF w Fld.clsRcp_EN 0 else w
    wrA (wr st a (off (rd st a))) a (off (rdA st a))) st

/-- Tributaries go, their keys with them. -/
def dropTribs (i : InstId) (st : State) (s : SliceId) : State :=
  (instTribs st s i).foldl (fun st t =>
    modCtf (positions.foldl (fun st p => releasePos st s t p) st) s (fun c => { c with trib := c.trib.del t })) st

/-- Everything of the instance in one slice. -/
def dropSlice (i : InstId) (st : State) (s : SliceId) : State :=
  let st := dropTribs i (dropRcps i (dropChans i st s) s) s
  let keepRule (p : Nat × RuleEnt) : Bool := ruleInst p.2 != i.val
  let st := modRules (modRules st s .client (fun m => m.filter keepRule)) s .line (fun m => m.filter keepRule)
  modLpm (modMac st s (fun m => m.filter (fun p => p.2.key.inst != i))) s (fun m => m.filter (fun p => p.2.inst != i))

/-- Madder nodes of the instance, with their subtrees (07 R296). -/
def dropNodes (st : State) (i : InstId) : State :=
  let own := (st.ktr.nodes.filter (fun p => p.2.owner == i)).map Prod.fst
  let t := (own.flatMap (subtree st)).eraseDups
  revokeUsers { st with ktr := { st.ktr with nodes := st.ktr.nodes.filter (fun p => !t.contains p.1) } } t

/-- The VF page of the instance reads as after reset. -/
def clearVfPage (st : State) (i : InstId) : State :=
  if i = 0 then st
  else
    let base := 0x100010000 + 0x10000 * vfIx i
    { st with regs := st.regs.filter (fun p => !(decide (base ≤ p.1) && decide (p.1 < base + 0x10000))) }

/-- The instance becomes DISABLED; its shares stay, or go with REMOVE (R516, R517). -/
def instClear (st : State) (i : InstId) (remove : Bool) : State :=
  let st := dropNodes (slices4.foldl (dropSlice i) st) i
  let st := arcDrop (clearVfPage st i) i
  modInst st i (fun x => if remove then {} else { shares := x.shares, calendar := x.calendar })

def vimReset (i : InstId) (remove : Bool) (w : Word) (st : State) : State :=
  let code := stateCode st i false (fun q => q == .quiesced)
  if code ≠ 0 then vimRefuse w code i 0 st
  else if tribInPage st i then vimDone w 6 st
  else vimDone w 0 (instClear st i remove)

/-- QUIESCED (R514): a reset that a function-level reset asked for follows (R519). -/
def quiesced (st : State) (i : InstId) : State :=
  let flr := (inst st i).flrPend
  let st := raise (modInst st i (fun x => { x with state := .quiesced, flrPend := false }))
    { block := 4, index := 2, ps := [i.val] }
  if flr && !tribInPage st i then instClear st i false else st

def execQuiesceDone (i : InstId) (st : State) : Out :=
  .next (if (inst st i).state = .quiescing ∧ instFrames st i = 0 then quiesced st i else st)

/-- Frames still held after 100 µs are discarded (R514). -/
def execQuiesceTimeout (i : InstId) (st : State) : Out :=
  .next (if (inst st i).state = .quiescing ∧ (inst st i).quiesceUntil ≤ elNs st then
    let n := instFrames st i
    quiesced (countN (instDiscard st i) (Reg.vimCnt 3) n) i
  else st)

/-! Function-level resets (R519, R661). -/

/-- The rings of a VF are disabled. -/
def flrRings (st : State) (i : InstId) : State :=
  let st := modInst st i (fun x => { x with rings := x.rings.map (fun r => { r with en := false, run := false, hand := none }) })
  (List.range 16).foldl (fun st r => setF st (Reg.vfRingCtl (vfIx i) r) ⟨31, 31⟩ 0) st

/-- A function-level reset of VF `i`. -/
def vfFlr (st : State) (i : InstId) : State :=
  if !hasVf st i || st.glb.halted then st
  else
    let st := flrRings st i
    match (inst st i).state with
    | .enabled => modInst (startQuiesce st i) i (fun x => { x with flrPend := true })
    | .quiescing => modInst st i (fun x => { x with flrPend := true })
    | .quiesced => if tribInPage st i then st else instClear st i false
    | _ => st

def execVfFlr (i : InstId) (st : State) : Out := .next (vfFlr st i)

/-- VF Enable is cleared: the same for every VF. -/
def execVfEnableClear (st : State) : Out :=
  .next (allInsts.foldl vfFlr { st with pcie := { st.pcie with numVfs := 0 } })

/-! Shares (R505-R512). -/

/-- A share that the registers ask for. -/
def shareAsked (st : State) : Share :=
  { cells := fld st Reg.vimShare0 Fld.vimShare_CELLS, weight := fld st Reg.vimShare0 Fld.vimShare_WEIGHT
    assocs := fld st Reg.vimShare1 Fld.vimShare_ASSOCS, channels := fld st Reg.vimShare1 Fld.vimShare_CHANNELS
    rules := fld st Reg.vimShare2 Fld.vimShare_RULES }
def calendarAsked (st : State) : Nat := fld st Reg.vimShare3 Fld.vimShare_CALENDAR

/-- Every sum stays within its capacity when instance `i` takes share `q` (R506). -/
def sharesFit (st : State) (s : SliceId) (i : InstId) (q : Share) (cal : Nat) : Bool :=
  let sum (f : Share → Nat) : Nat := sumOf (fun j => if j = i then f q else f (inst st j).shares[s]) allInsts
  decide (sum Share.channels ≤ 16384) && decide (sum Share.assocs ≤ 65536) && decide (sum Share.rules ≤ 8192) &&
  decide (sum Share.cells ≤ 65536) &&
  decide (sumOf (fun j => if j = i then cal else (inst st j).calendar) allInsts ≤ 4194304)

def sliceEnabled (st : State) (s : SliceId) : Bool := sliceOn st s && st.img.content.slices[s].enabled

/-- SHRINKING ends when the occupancy lies below the share (R510). -/
def shareUpdate (st : State) (s : SliceId) : State :=
  st.insts.foldl (fun st p =>
    let i : InstId := Fin.ofNat 256 p.1
    let x := inst st i
    if x.shrinking[s] && decide (instCells (sl st s) i < x.shares[s].cells) then
      raise (modInst st i (fun x => { x with shrinking := x.shrinking.set s false }))
        { block := 4, index := 1, ps := [i.val] }
    else st) st

def vimShareWrite (i : InstId) (s : SliceId) (w : Word) (st : State) : State :=
  let q := shareAsked st
  let (code, st) :=
    if !instExists st i then (2, st)
    else pickCode st [((inst st i).state == .quiescing, 4), ((inst st i).state == .frozen, 15),
      (!sliceEnabled st s || q.weight == 0 || !sharesFit st s i q (calendarAsked st), 5)]
  if code ≠ 0 then vimRefuse w code i s st
  else
    let cal := calendarAsked st
    let above := decide (q.cells < instCells (sl st s) i)
    let st := modInst st i (fun x => { x with
      shares := x.shares.set s q, calendar := cal, shrinking := x.shrinking.set s (x.shrinking[s] || above) })
    vimDone w 0 (shareUpdate st s)

def vimShareRead (i : InstId) (s : SliceId) (w : Word) (st : State) : State :=
  if !instExists st i then vimDone w 2 st
  else if !sliceEnabled st s then vimDone w 5 st
  else
    let x := inst st i
    let q := x.shares[s]
    let st := wr st Reg.vimShare0 (word [(Fld.vimShare_WEIGHT, q.weight), (Fld.vimShare_CELLS, q.cells)])
    let st := wr st Reg.vimShare1 (word [(Fld.vimShare_ASSOCS, q.assocs), (Fld.vimShare_CHANNELS, q.channels)])
    let st := wr st Reg.vimShare2 (word [(Fld.vimShare_RULES, q.rules)])
    let st := wr st Reg.vimShare3 (word [(Fld.vimShare_CALENDAR, x.calendar)])
    let st := wr st (Reg.vimUse 0) (word [(⟨31, 31⟩, b2n x.shrinking[s]), (Fld.vimShare_CELLS, instCells (sl st s) i)])
    let st := wr st (Reg.vimUse 1) (word [(Fld.vimShare_ASSOCS, assocsOf st s i), (Fld.vimShare_CHANNELS, channelsOf st s i)])
    let st := wr st (Reg.vimUse 2) (word [(⟨29, 16⟩, rulesOf st s .line i.val), (⟨13, 0⟩, rulesOf st s .client i.val)])
    vimDone w 0 (wr st (Reg.vimUse 3) (word [(Fld.vimShare_CALENDAR, countP (fun f => f.inst == i) st.saf)]))

def vimStateRead (i : InstId) (w : Word) (st : State) : State :=
  if !instExists st i then vimDone w 2 st
  else vimDone w 0 (setF st Reg.vimCmd Fld.vimCmd_STATE (instStateNum (inst st i).state))

/-! SAVE (R521, R522). -/

def capAddr (st : State) : Nat := (rd st Reg.vimCapAddrHi).toNat * 2 ^ 32 + (rd st Reg.vimCapAddrLo).toNat / 64 * 64
def capNodeIx (st : State) : Nat := fld st Reg.vimCapNode Fld.vimCapNode_NODE

/-- The WRAP node of instance `i` that VIM_CAP_NODE names. -/
def wrapNode (st : State) (i : InstId) : Option Node :=
  (node? st (capNodeIx st)).filter (fun r => r.type == 4 && r.owner == i)

/-- A capsule passes through its staging area in DRAM, from its start (14 Table 14-3, 01 R50). -/
def capStage (st : State) (bs : Bytes) : State := meeWrite (bs.length / 64 + 2) st 0x18000000 bs

def capUnits (len : Nat) : Nat := min (ceilDiv len 4096) 65535

/-- The slots that went into the capsule are EXPORTED and encode no more (06 R235), their records turned into tombstones (R356, R521). -/
def exportSlots (st : State) (i : InstId) : State :=
  (carriedSlots st i).foldl (fun st p =>
    let st := slotLeaves st p.1 p.2.1 p.2.2 true
    let st := modCh st p.1 p.2.1 (fun c => { c with encAn := if c.encAn = some p.2.2 then none else c.encAn })
    modSlot st p.1 p.2.1 p.2.2 (fun x => { x with state := .exported, due := none })) st

def vimSave (i : InstId) (w : Word) (st : State) : State :=
  let st := nodeCheck st (capNodeIx st)
  let base := stateCode st i false (fun q => q == .frozen)
  if base ≠ 0 then vimRefuse w base i 0 st
  else
    let len := capLen (capSections (capRecs st i []))
    let (code, st) := pickCode st [((wrapNode st i).isNone, 7), (slices4.any (fun s => !(instTribs st s i).isEmpty), 8),
      (decide ((rd st Reg.vimCapLen).toNat < len), 9)]
    let stat (st : State) : State := setF st Reg.vimCapStat Fld.vimCapStat_LENGTH (capUnits len)
    match wrapNode st i with
    | none => vimDone w code (if code = 9 then stat st else st)
    | some n =>
      if code ≠ 0 then vimDone w code (if code = 9 then stat st else st)
      else
        let (id, st) := draw st
        let cap := capsuleBytes st i (capNodeIx st) n id
        let st := capStage st cap
        let st := if twinStandby st then st else dma st (capAddr st) cap
        let st := arcDrop (exportSlots st i) i
        vimDone w 0 (count (stat st) (Reg.vimCnt 5))

/-! RESTORE (R524, R525). -/

/-- A request for one slot's record: the start rule, and the slot with its start in place. -/
def restoreSlot (t : InstId) (st : State) (x : SliceId × ChIx × An × ChRec × Bytes × Slot) : Except Nat State :=
  let c := x.2.2.2.1
  let q := x.2.2.2.2.2
  let k := kindOf c.dirRx
  let fp := fingerprint st k.val c.suite.val (suiteKey c.suite x.2.2.2.2.1) (assocBase c.suite c.sci q.salt q.ssci)
  match startRule st k.val (lastPn c.suite) fp q.pn with
  | .error e => .error e
  | .ok (start, res, ev) =>
    let st := match ev with | some p => evict st p | none => st
    let q := { q with pn := start, res := res, floor := start }
    .ok (modInst (jnlRequest st { cls := 1, kind := k, tomb := false, fp := fp, value := res
                                  use := .load 3 x.1 x.2.1 x.2.2.1 q }) t id)

/-- Every slot of the capsule in turn; a refusal names its section. -/
def restoreSlots (t : InstId) (ck : Bytes) (recs : List (Nat × Nat × Bytes)) :
    List (Nat × Bytes) → State → Except (Nat × Nat × SliceId × An × ChIx × Nat) State
  | [], st => .ok st
  | r :: rs, st =>
    match restoredSlot st t ck recs r.2 with
    | none => .error (11, r.1, 0, 0, 0, 0)
    | some x =>
      match restoreSlot t st x with
      | .error e => .error (14, r.1, x.1, x.2.2.1, x.2.1, e)
      | .ok st => restoreSlots t ck recs rs st

/-- The checks of R524 up to its journal step: the capsule key and records, or result and section. -/
def restoreCheck (st : State) (t : InstId) (bs : Bytes) : Except (Nat × Nat) (Bytes × List (Nat × Nat × Bytes)) :=
  match capFormat (rd st Reg.vimCapLen).toNat bs with
  | .error e => .error e
  | .ok secs =>
    match wrapNode st t with
    | none => .error (7, 0)
    | some n =>
      if sub bs 32 4 ≠ padTo 4 n.kcv then .error (7, 0)
      else
        let ck := capKey n (sub bs 40 32)
        let head := sub bs 0 112
        match gcmOpen ck (capNonce 0) head [] (sub bs 112 16) with
        | none => .error (11, 0)
        | some _ =>
          match capOpen ck head 1 secs with
          | .error e => .error e
          | .ok recs =>
            match recs.find? (fun p => !recFits st recs p) with
            | some p => .error (12, p.1)
            | none =>
              match recs.find? (fun p => p.2.1 == 1 && (!recSliceOk st p.2.2 || !summaryFits st t p.2.2)) with
              | some p => .error (if recSliceOk st p.2.2 then 13 else 12, p.1)
              | none => .ok (ck, recs)

/-- RESTORE of the capsule bytes that host memory returned. -/
def vimRestore (t : InstId) (w : Word) (st : State) : State :=
  let bs := st.capBytes
  let st := nodeCheck { st with capBytes := [] } (capNodeIx st)
  let base := stateCode st t false (fun q => q == .disabled)
  if base ≠ 0 then vimRefuse w base t 0 st
  else
    let fail (code sec : Nat) (st : State) : State :=
      vimDone w code (setF (count st (Reg.vimCnt 7)) Reg.vimCapStat Fld.vimCapStat_SECTION sec)
    match restoreCheck st t bs with
    | .error e => fail e.1 e.2 st
    | .ok (ck, recs) =>
      let st := capStage st bs
      let slots := (recs.filter (fun p => p.2.1 == 4)).map (fun p => (p.1, p.2.2))
      match restoreSlots t ck recs slots st with
      | .error (14, sec, s, an, ch, reason) => fail 14 sec (jnlRefused st reason 3 s an.val ch.val)
      | .error (code, sec, _) => fail code sec st
      | .ok st =>
        let r : RestoreSt := { inst := t, node := capNodeIx st, recs := recs, left := slots.length }
        if slots.isEmpty then vimDone w 0 (count (restoreBuild st r) (Reg.vimCnt 6))
        else
          let st := { st with restore := some r, ktr := { st.ktr with capNode := some (capNodeIx st) } }
          cmdBusy st Reg.vimCmd Fld.vimCmd_OP w

/-! VIM_CMD. -/

/-- A command written to VIM_CMD, by OP; other codes are no action. -/
def vimCmd (w : Word) (st : State) : State :=
  let i : InstId := Fin.ofNat 256 (getF w Fld.vimCmd_INSTANCE)
  let s : SliceId := Fin.ofNat 4 (getF w Fld.vimCmd_SLICE)
  match getF w Fld.vimCmd_OP with
  | 1 => vimEnable i w st
  | 2 => vimQuiesce i w st
  | 3 => vimFreeze i w st
  | 4 => vimThaw i w st
  | 5 => vimReset i false w st
  | 6 => vimReset i true w st
  | 7 => vimSave i w st
  | 8 => vimRestore i w st
  | 9 => vimShareWrite i s w st
  | 10 => vimShareRead i s w st
  | 11 => vimStateRead i w st
  | _ => vimDone w (fld st Reg.vimCmd Fld.vimCmd_RESULT) st

def vimOp (w : Word) (eff : Word → State → State) (st : State) : Out :=
  .next (cmdPF Reg.vimCmd Fld.vimCmd_RESULT w (eff w) st)

def execEnable (i : InstId) (st : State) : Out := vimOp (vimWord 1 i 0) (vimEnable i) st
def execQuiesce (i : InstId) (st : State) : Out := vimOp (vimWord 2 i 0) (vimQuiesce i) st
def execFreeze (i : InstId) (st : State) : Out := vimOp (vimWord 3 i 0) (vimFreeze i) st
def execThaw (i : InstId) (st : State) : Out := vimOp (vimWord 4 i 0) (vimThaw i) st
def execInstanceReset (i : InstId) (st : State) : Out := vimOp (vimWord 5 i 0) (vimReset i false) st
def execRemove (i : InstId) (st : State) : Out := vimOp (vimWord 6 i 0) (vimReset i true) st
def execSave (i : InstId) (st : State) : Out := vimOp (vimWord 7 i 0) (vimSave i) st
def execShareWrite (i : InstId) (s : SliceId) (st : State) : Out := vimOp (vimWord 9 i s) (vimShareWrite i s) st
def execShareRead (i : InstId) (s : SliceId) (st : State) : Out := vimOp (vimWord 10 i s) (vimShareRead i s) st
def execStateRead (i : InstId) (st : State) : Out := vimOp (vimWord 11 i 0) (vimStateRead i) st

/-- RESTORE with the capsule bytes that host memory returns; an owner also sends them to its partner (R529). -/
def execRestore (i : InstId) (cap : Bytes) (st : State) : Out :=
  let busy := st.glb.halted || twinStandby st || fld st Reg.vimCmd busyF != 0
  let st := if busy then st else { st with capBytes := cap }
  let st := if !busy && twinOwner st && booted st
    then modTwin st (fun t => { t with stream := t.stream ++ [.restoreBytes cap] }) else st
  vimOp (vimWord 8 i 0) (vimRestore i) st

end Sys2Proof.Machine
end

