-- ==== Sys2Proof/Machine/Rings.lean ====
section
/-!
DEFINITION. Punt and inject rings (18 R660-R668): their registers, their interrupts, and the punt of a frame.
-/
namespace Sys2Proof.Machine

/-! Ring registers: at HIF for instance 0, on the VF page of any other instance (R662). -/

def ringLoA (i : InstId) (r : Fin 16) : Nat := if i = 0 then Reg.ringBaseLo r else Reg.vfRingBaseLo (vfIx i) r
def ringHiA (i : InstId) (r : Fin 16) : Nat := if i = 0 then Reg.ringBaseHi r else Reg.vfRingBaseHi (vfIx i) r
def ringCfgA (i : InstId) (r : Fin 16) : Nat := if i = 0 then Reg.ringCfg r else Reg.vfRingCfg (vfIx i) r
def ringTailA (i : InstId) (r : Fin 16) : Nat := if i = 0 then Reg.ringTail r else Reg.vfRingTail (vfIx i) r

def ringOf (st : State) (i : InstId) (r : Fin 16) : RingSt := (inst st i).rings[r]
def modRing (st : State) (i : InstId) (r : Fin 16) (f : RingSt → RingSt) : State :=
  modInst st i (fun x => { x with rings := upd x.rings r f })

/-- Base address, descriptors, and the next descriptor that software will post. -/
def ringAddr (st : State) (i : InstId) (r : Fin 16) : Nat :=
  (rd st (ringHiA i r)).toNat * 2 ^ 32 + (rd st (ringLoA i r)).toNat / 64 * 64
def ringSizeLog (st : State) (i : InstId) (r : Fin 16) : Nat := fld st (ringCfgA i r) Fld.ringCfg_SIZE_LOG2
def ringTail (st : State) (i : InstId) (r : Fin 16) : Nat := fld st (ringTailA i r) Fld.ringTail_TAIL
/-- The ring holds work (R662). -/
def ringWork (st : State) (i : InstId) (r : Fin 16) : Bool := (ringOf st i r).head.toNat != ringTail st i r
/-- Address of the descriptor at HEAD. -/
def ringDesc (st : State) (i : InstId) (r : Fin 16) : Nat := ringAddr st i r + 32 * (ringOf st i r).head.toNat
/-- HEAD advances. -/
def ringAdvance (st : State) (i : InstId) (r : Fin 16) : State :=
  let n := 2 ^ ringSizeLog st i r
  modRing st i r (fun x => { x with head := BitVec.ofNat 16 ((x.head.toNat + 1) % n) })

/-- The ring's vector fires, or waits until MOD_US has passed (R657, Table 18-4); on the PF, vectors 1-3 act as 0. -/
def fireRing (st : State) (i : InstId) (r : Fin 16) : State :=
  let v : Fin 8 := Fin.ofNat 8 (fld st (ringCfgA i r) Fld.ringCfg_VEC)
  if v = 0 ∨ (i = 0 ∧ v.val < 4) then st
  else if (ringOf st i r).nextFire ≤ elNs st then
    let next := elNs st + 1000 * fld st (ringCfgA i r) Fld.ringCfg_MOD_US
    hostOut (modRing st i r (fun x => { x with nextFire := next, held := false })) (.msix i v)
  else modRing st i r (fun x => { x with held := true })

/-- The spacing of a ring's vector ends: a held interrupt fires (R657). -/
def ringModEnd (st : State) (i : InstId) (r : Fin 16) : State :=
  if (ringOf st i r).held && decide ((ringOf st i r).nextFire ≤ elNs st) then fireRing st i r else st

/-- Punts and completions are written while the instance is ENABLED or QUIESCING (13 R503). -/
def writesHost (st : State) (i : InstId) : Bool :=
  match (inst st i).state with
  | .enabled | .quiescing => true
  | _ => false

/-- What a punt descriptor says of a frame (Table 18-8). -/
structure PuntInfo where
  reason : Nat
  code : Nat := 0
  d : Side
  s : SliceId
  k : PortIx
  verified : Bool
  recirc : Bool
  ns : Word
  rxCh : Option ChIx
  rule : Option Nat
  deriving DecidableEq, Repr

/-- Bytes 10-31 of a punt descriptor (Table 18-8). -/
def puntDesc (n : PuntInfo) (len : Nat) (cut : Bool) : Bytes :=
  leBytes 2 len ++ leBytes 1 n.reason ++ leBytes 1 n.code ++
  leBytes 1 (128 * sideNum n.d + 32 * n.s.val + n.k.val) ++
  leBytes 1 (1 + 2 * b2n cut + 4 * b2n n.verified + 8 * b2n n.recirc) ++ leBytes 4 n.ns.toNat ++
  leBytes 2 ((n.rxCh.map (fun c => c.val)).getD 0xFFFF) ++ leBytes 2 (n.rule.getD 0xFFFF) ++ leBytes 8 0

/-- Punt a frame to ring `q` of instance `i` (R668). Where the buffer of the descriptor lies and how long it is stand in
host memory: both are drawn (log entry 1). A package that does not own builds every punt and
discards it (12 R478). -/
def punt (st : State) (i : InstId) (q : Fin 8) (bs : Bytes) (n : PuntInfo) : State :=
  let r : Fin 16 := ⟨q.val, by omega⟩
  let x := ringOf st i r
  let st := digHost st n.s (bs ++ puntDesc n bs.length false)
  if !hostOwner st then count st (Reg.twnCnt 8)
  else if !(x.en && x.run && writesHost st i && ringWork st i r) then bumpVf (count st (Reg.vimCnt 2)) i 3
  else
    let (addr, st) := drawFree st
    let (size, st) := drawFree st
    let out := bs.take (256 + size % 16129)
    let desc := puntDesc n out.length (decide (out.length < bs.length))
    let at_ := ringDesc st i r + 10
    let st := hostOut (hostOut st (.dma (BitVec.ofNat 64 addr) out)) (.dma (BitVec.ofNat 64 at_) desc)
    fireRing (ringAdvance (bumpVf st i 2) i r) i r

end Sys2Proof.Machine
end

