-- ==== Sys2Proof/Machine/Classify.lean ====
section
/-!
DEFINITION. A frame at a parser and classifier (03, 04): its instance and priority, the parse result, the malformed
action, the key, the rule, the peer-table lookups and the fragment table.
-/
namespace Sys2Proof.Machine

/-- What a parser and the classifier know of a frame. -/
structure Pkt where
  bytes : Bytes
  /-- table and parser: protect path or verify path -/
  d : Side
  s : SliceId
  /-- PORT of the parse result, and byte 14 of a punt descriptor -/
  side : Side
  k : PortIx
  inst : InstId := 0
  ver : BitVec 16 := 0
  verified : Bool := false
  rcp : Option (Fin 16) := none
  rxCh : Option ChIx := none
  src : InSrc
  /-- the port that the frame may leave on (01 R28, R29) -/
  outPort : Option PortIx
  injected : Bool := false
  ended : Bool := true
  cellErr : Bool := false
  rxNs : Word
  rxEl : BitVec 96
  /-- its place among the frames of its input, by arrival (01 R34) -/
  order : Nat := 0
  /-- SECTAG_TCI, SECTAG_PN and SCI of the first pass (03 R125) -/
  sec : Option (Nat × Nat × Option Nat) := none
  deriving DecidableEq, Repr

def isRecirc (c : Pkt) : Bool := c.rcp.isSome

/-- The port paired with a port (01 R26). -/
def pairOf (st : State) (d : Side) (s : SliceId) (k : PortIx) : Option PortIx :=
  let p := portCfg st d s k
  if p.paired then some p.pair else none

/-- PRS_CFG of a slice, for a whole frame. -/
def prsCfg (st : State) (s : SliceId) : PrsCfg :=
  { tpidAlt := fldA st (Reg.prsCfg s) Fld.prsCfg_TPID_ALT, vxlan := flagA st (Reg.prsCfg s) Fld.prsCfg_VXLAN_EN
    gtpu := flagA st (Reg.prsCfg s) Fld.prsCfg_GTPU_EN }

/-- The outermost tag, if the frame has one. -/
def tag0 (p : Parse) : Option Nat := if p.get 7 = 0 then none else some (p.get 8)
/-- VID of TAG0, or 0 (04 R163, 05 R193). -/
def vid0 (p : Parse) : Nat := ((tag0 p).getD 0) % 4096
/-- Priority of a frame: the PCP of its outer tag (02 R98, 01 R34). -/
def prioOf (p : Parse) : Fin 8 := Fin.ofNat 8 (((tag0 p).getD 0) / 2 ^ 13)

/-- The instance that a frame takes at parser entry (03 R141). -/
def instAt (st : State) (d : Side) (s : SliceId) (k : PortIx) (p : Parse) : InstId :=
  let a := Reg.prsPortCfg s (sideNum d) k
  if flagA st a Fld.prsPortCfg_INST_MODE then Fin.ofNat 256 ((sl st s).imap.getD (imapKey d k (vid0 p)) 0)
  else Fin.ofNat 256 (fldA st a Fld.prsPortCfg_INST)

def prsCount (st : State) (c : Pkt) (n : Nat) : State := count st (Reg.prsCnt c.s (sideNum c.d) n)
def clsCount (c : Pkt) (st : State) (n : Nat) : State := count st (Reg.clsCnt c.s (sideNum c.d) n)

/-- A frame that enters slice `s` takes the next number of arrival. -/
def arrive (st : State) (s : SliceId) : Nat × State :=
  ((sl st s).arrivals, modSl st s (fun x => { x with arrivals := x.arrivals + 1 }))

/-- Counters of a parse result (03 Table 3-5). Whether a truncated frame is malformed shows only at its end (R137): until
then it is not counted in TRUNC. -/
def countParse (st : State) (c : Pkt) (p : Parse) : State :=
  let st := if c.ended && p.has 0 && !p.has 1 then prsCount st c 2 else st
  let st := if p.has 6 then prsCount st c 6 else st
  if p.has 7 then prsCount st c 7 else st

/-- Punt frame `c`. -/
def puntPkt (st : State) (c : Pkt) (q : Fin 8) (reason code : Nat) (rule : Option Nat) : State :=
  punt st c.inst q c.bytes
    { reason := reason, code := code, d := c.side, s := c.s, k := c.k, verified := c.verified, recirc := isRecirc c
      ns := c.rxNs, rxCh := c.rxCh, rule := rule }

/-- A malformed frame is counted and recorded (03 Table 3-5, PRS_MAL_LAST). -/
def noteMal (st : State) (c : Pkt) (f : Nat × Nat) : State :=
  wr (prsCount st c 3) (Reg.prsMalLast c.s (sideNum c.d))
    (word [(Fld.prsMalLast_REASON, f.1), (Fld.prsMalLast_PASS2, b2n (c.d == .line && c.verified)),
      (Fld.prsMalLast_RECIRC, b2n (isRecirc c)), (Fld.prsMalLast_PORT, c.k.val), (Fld.prsMalLast_OFFSET, f.2),
      (Fld.prsMalLast_INSTANCE, c.inst.val)])

/-- The malformed action of the frame's instance: drop, or punt ring 0 with the code (03 R135), and
the rule that a frame found malformed late had matched (18 Table 18-8). -/
def malAction (st : State) (c : Pkt) (f : Nat × Nat) (rule : Option Nat := none) : State :=
  if bitW (rdA st (Reg.prsMalAct c.s (c.inst.val / 32))) (c.inst.val % 32) then
    puntPkt (prsCount st c 5) c 0 5 f.1 rule
  else st

/-! The key (04 R151, R152). -/

/-- Widths of the fields of 03 Table 3-3. -/
def fieldWidths : List Nat :=
  [16, 48, 4, 8, 16, 48, 48, 2, 18, 18, 18, 16, 4, 23, 23, 2, 128, 128, 8, 8, 8, 20, 4, 32, 13, 16, 16, 8, 32, 48, 48, 18,
   16, 2, 128, 128, 8, 16, 16, 8, 32, 64, 4, 8, 8, 8, 9, 5]

/-- The parse result with the fields that come from outside the frame (03 Table 3-3). -/
def fullParse (c : Pkt) (p : Parse) : Parse :=
  let p := match c.sec with
    | none => p
    | some (tci, pn, sci) =>
      let p := ({ p with fields := p.fields.del 41 }.set 39 tci).set 40 pn
      match sci with | some v => p.set 41 v | none => p
  let p := if isRecirc c then p.flag 12 else p
  let p := (((p.set 0 p.flags.toNat).set 2 (8 * sideNum c.side + c.k.val)).set 3 c.inst.val).set 4 c.ver.toNat
  p.set 1 (sumOf (fun e => 2 ^ e.1) ((p.set 1 0).fields))

/-- Word `w` of field `f`, with its EVALID bit. -/
def extract (p : Parse) (f w : Nat) : Nat × Bool :=
  match fieldWidths[f]? with
  | none => (0, false)
  | some n =>
    if n ≤ 32 * w then (0, false)
    else match p.fields.get? f with
      | none => (0, false)
      | some v => (v / 2 ^ (32 * w) % 2 ^ 32, true)

/-- The classification key (04 Table 4-1). -/
def clsKey (st : State) (c : Pkt) (p : Parse) : BitVec 512 :=
  let es := (List.range 14).map (fun e =>
    let a := Reg.clsKprof c.s (sideNum c.d) e
    (e, extract p (fld st a Fld.clsKprof_FIELD) (fld st a Fld.clsKprof_WORD)))
  BitVec.ofNat 512
    (p.flags.toNat * 2 ^ 496 + c.inst.val * 2 ^ 488 + (8 * sideNum c.side + c.k.val) * 2 ^ 484 + p.get 15 * 2 ^ 482 +
     p.get 33 * 2 ^ 480 + sumOf (fun e => b2n e.2.2 * 2 ^ (465 + e.1)) es + ((c.rcp.map (fun r => r.val)).getD 0) * 2 ^ 461 +
     b2n c.verified * 2 ^ 460 + sumOf (fun e => e.2.1 * 2 ^ (32 * e.1)) es)

/-! Actions (04 R157-R164). -/

/-- What classification gives: the decision, the decision that a fragment entry keeps where it is another one, punt reason
and rule of Table 18-8, whether nothing is to be kept of it, and the counters of Table 4-6 that it moves. -/
structure Res where
  dec : Decision
  keep : Option Decision := none
  reason : Nat := 0
  rule : Option Nat := none
  miss : Bool := false
  cnts : List Nat := []
  deriving DecidableEq, Repr

/-- The MISS action (04 R163). -/
def missRes (ix : Nat) (r : RuleEnt) : Res :=
  if actMiss r then { dec := .slow (actQueue r), reason := 2, rule := some ix, miss := true, cnts := [9, 4] }
  else { dec := .drop, rule := some ix, miss := true, cnts := [9] }

/-- LOOKUP_MAC and LOOKUP_LPM: the channel of a peer table; an entry of another line port is a miss (04 R163, 01 R30). -/
def lookupRes (st : State) (c : Pkt) (p : Parse) (ix : Nat) (r : RuleEnt) : Res × State :=
  let hit (k : PortIx) (ch : ChIx) : Res :=
    if some k = c.outPort then { dec := .channel ch (actTc r), rule := some ix } else missRes ix r
  if actCode r = 2 then
    match p.fields.get? 5 with
    | none => (missRes ix r, st)
    | some da =>
      let (e, st) := macLookup st c.s { inst := c.inst, vid := BitVec.ofNat 12 (vid0 p), mac := BitVec.ofNat 48 da }
      (match e with | some e => hit e.2.lport e.2.chan | none => missRes ix r, st)
  else
    let (f, l3) := if actLpmInner r then (35, 33) else (17, 15)
    match p.fields.get? f with
    | none => (missRes ix r, st)
    | some dst =>
      let (e, st) := lpmLookup st c.s c.inst (p.get l3 == 1) (BitVec.ofNat 128 dst)
      (match e with | some e => hit e.2.lport e.2.chan | none => missRes ix r, st)

/-- The profile of a RECIRCULATE rule is enabled (04 R176). -/
def rcpOn (st : State) (s : SliceId) (p : Fin 16) : Bool := getF (ruleRcp st s p.val) Fld.clsRcp_EN != 0

/-- What a rule's action gives (04 Table 4-2, R177, R178). -/
def ruleRes (st : State) (c : Pkt) (p : Parse) (ix : Nat) (r : RuleEnt) : Res × State :=
  let clear (dec : Decision) : Res :=
    if c.d = .client ∧ isRecirc c then { dec := .drop, keep := some dec, rule := some ix, cnts := [8] }
    else { dec := dec, rule := some ix, cnts := [2] }
  match actCode r with
  | 1 => ({ dec := .channel r.chan (actTc r), rule := some ix }, st)
  | 2 | 3 => lookupRes st c p ix r
  | 4 => (clear (.bypass (actTc r)), st)
  | 5 => ({ dec := .slow (actQueue r), rule := some ix, cnts := [4] }, st)
  | 6 =>
    if isRecirc c then ({ dec := .drop, rule := some ix, miss := true, cnts := [6] }, st)
    else if !rcpOn st c.s (actRcp r) then ({ dec := .drop, rule := some ix, miss := true, cnts := [7] }, st)
    else ({ dec := .recirc (actRcp r), rule := some ix }, st)
  | 7 => (clear .timestamp, st)
  | _ => ({ dec := .drop, rule := some ix, cnts := [3] }, st)

/-- The default action (04 R162), and the drop of a truncated frame (03 R132). -/
def defaultRes (st : State) (c : Pkt) (p : Parse) : Res :=
  let a := Reg.clsDefault c.s (sideNum c.d)
  if p.has 0 then { dec := .drop, cnts := [1] }
  else if c.d = .line ∧ c.verified then
    match fldA st a Fld.clsDefault_ACT_VERIFIED with
    | 0 => { dec := .deliverVerified, cnts := [0] }
    | 2 => { dec := .slow (Fin.ofNat 8 (fldA st a Fld.clsDefault_Q_VERIFIED)), reason := 1, cnts := [0, 4] }
    | _ => { dec := .drop, cnts := [0] }
  else if fldA st a Fld.clsDefault_ACT_CLEAR = 1 then
    { dec := .slow (Fin.ofNat 8 (fldA st a Fld.clsDefault_Q_CLEAR)), reason := 1, cnts := [0, 4] }
  else { dec := .drop, cnts := [0] }

/-- The first rule entry with a bad word that a classification under version `v` meets (20 R702). -/
def badRule (m : NMap RuleEnt) (v : BitVec 16) : Option Nat := (m.find? (fun e => e.2.bad && applies e.2 v)).map Prod.fst

/-- The action of the winning rule, or the default (04 R155, R162). An entry with a bad word drops the frame and is freed
(20 R702). -/
def matchRes (st : State) (c : Pkt) (p : Parse) : Res × State :=
  let m := ruleTbl st c.s c.d
  match badRule m c.ver with
  | some ix => ({ dec := .drop, miss := true, cnts := [0] }, sramUe (modRules st c.s c.d (fun m => m.del ix)) 7 c.s.val ix)
  | none =>
    match pickRule m (clsKey st c p) c.ver with
    | some (ix, r) => ruleRes st c p ix r
    | none => (defaultRes st c p, st)

/-! Fragments (04 R179-R183). -/

def fragKeyOf (c : Pkt) (p : Parse) : FragKey :=
  { dir := c.d, inst := c.inst, src := BitVec.ofNat 128 (p.get (if p.fragInner then 34 else 16))
    dst := BitVec.ofNat 128 (p.get (if p.fragInner then 35 else 17))
    proto := BitVec.ofNat 8 (p.get (if p.fragInner then 36 else 18)), fragId := BitVec.ofNat 32 (p.get 23) }

def modFrags (st : State) (s : SliceId) (f : List FragEnt → List FragEnt) : State :=
  modSl st s (fun x => { x with frags := f x.frags })
def fragLife (st : State) : Nat := elNs st + 100000000

/-- Entries whose 100 ms have passed leave, counted by direction (R183). -/
def fragSweep (st : State) (s : SliceId) : State :=
  let gone := (sl st s).frags.filter (fun e => decide (e.expires ≤ elNs st))
  let n (d : Side) : Nat := countP (fun (e : FragEnt) => e.key.dir == d) gone
  if gone.isEmpty then st
  else
    countN (countN (modFrags st s (fun l => l.filter (fun e => !decide (e.expires ≤ elNs st)))) (Reg.clsCnt s 0 13) (n .client))
      (Reg.clsCnt s 1 13) (n .line)

/-- A channel decision of a fragment whose channel has PRIV set (R182). -/
def privRes (rule : Option Nat) : Res := { dec := .slow 0, reason := 4, rule := rule, miss := true, cnts := [14, 4] }

/-- A later fragment takes the stored decision (R180); a TIMESTAMP decision makes no correction. A recirculated one that hits
BYPASS or TIMESTAMP is dropped as its first fragment was, and counted in RECIRC_CLEAR (DEDUCED from R178, log entry 132). -/
def fragHit (st : State) (c : Pkt) (e : FragEnt) : Res :=
  match e.dec with
  | .channel ch tc => if (chOf st c.s ch).priv then privRes none else { dec := .channel ch tc }
  | .bypass _ | .timestamp =>
    if c.d = .client ∧ isRecirc c then { dec := .drop, cnts := [8] } else { dec := .bypass false, cnts := [2] }
  | .slow q => { dec := .slow q, reason := if e.byRule then 0 else 1, cnts := [4] }
  | .drop => { dec := .drop, cnts := if e.byRule then [3] else [] }
  | d => { dec := d }

/-- A later fragment that misses (R181); `r` is what its own classification gives. -/
def fragMissRes (st : State) (c : Pkt) (r : Res) : Res :=
  match r.dec with
  | .channel ch _ =>
    if (chOf st c.s ch).priv then privRes r.rule
    else if (chOf st c.s ch).fragMissSlow then { dec := .slow 0, reason := 3, rule := r.rule, cnts := [4] }
    else { dec := .drop, rule := r.rule }
  | .drop | .slow _ => r
  | _ => { dec := .drop, rule := r.rule }

/-- A first fragment's decision is stored, or PRIV sends it to the slow path (R179, R182, R183). -/
def fragStore (st : State) (c : Pkt) (p : Parse) (r : Res) : Res × State :=
  let priv := match r.dec with | .channel ch _ => (chOf st c.s ch).priv | _ => false
  let recirc := match r.dec with | .recirc _ => true | _ => false
  if priv then (privRes r.rule, st)
  else if r.miss || recirc then (r, st)
  else
    let key := fragKeyOf c p
    let e : FragEnt := { key := key, dec := r.keep.getD r.dec, byRule := r.rule.isSome, expires := fragLife st }
    let l := (sl st c.s).frags
    if l.any (fun x => x.key == key) then
      (r, modFrags st c.s (fun l => l.map (fun x => if x.key = key then e else x)))
    else if l.length < 4096 then (r, modFrags st c.s (fun l => l ++ [e]))
    else ({ r with cnts := r.cnts ++ [12] }, st)

/-- The classification of a later fragment. -/
def classifyLater (st : State) (c : Pkt) (p : Parse) : Res × State :=
  let key := fragKeyOf c p
  let missed (st : State) : Res × State :=
    let (r, st) := matchRes st c p
    let r := fragMissRes st c r
    ({ r with cnts := 11 :: r.cnts }, st)
  match (sl st c.s).frags.find? (fun e => e.key == key) with
  | none => missed st
  | some e =>
    if e.bad then
      let ix := (sl st c.s).frags.findIdx (fun e => e.key == key)
      ({ dec := .drop }, sramUe (modFrags st c.s (fun l => l.filter (fun e => e.key != key))) 8 c.s.val ix)
    else if e.dec = .deliverVerified ∧ !c.verified then missed st
    else
      let until_ := fragLife st
      let st := modFrags st c.s (fun l => l.map (fun x => if x.key = key then { x with expires := until_ } else x))
      let r := fragHit st c e
      ({ r with cnts := 10 :: r.cnts }, st)

/-- BYPASS and SLOWPATH count frames that leave so: of a frame that waits for its end they move there (Table 4-6). -/
def countsLater (n : Nat) : Bool := n == 2 || n == 4

/-- Classify a frame that is not malformed, and count (04); the answer keeps the counters that its end is to move. -/
def classifyPkt (st : State) (c : Pkt) (p : Parse) : Res × State :=
  let p := fullParse c p
  let st := if p.has 6 || p.has 7 then fragSweep st c.s else st
  let (r, st) :=
    if p.has 7 then classifyLater st c p
    else
      let (r, st) := matchRes st c p
      if p.has 6 then fragStore st c p r else (r, st)
  let now := if c.ended then r.cnts else r.cnts.filter (fun n => !countsLater n)
  ({ r with cnts := if c.ended then [] else r.cnts.filter countsLater }, now.foldl (clsCount c) st)

/-- An entry of the fragment table expires (R183). -/
def execFragAged (s : SliceId) (ix : Nat) (st : State) : Out :=
  .next (match (sl st s).frags[ix]? with
    | none => st
    | some e =>
      if e.expires ≤ elNs st then
        count (modFrags st s (fun l => l.eraseIdx ix)) (Reg.clsCnt s (sideNum e.key.dir) 13)
      else st)

end Sys2Proof.Machine
end

