-- ==== Sys2Proof/Machine/SaePath.lean ====
section
/-!
DEFINITION. The SAE's share of both paths (06): PN taking, the SecTAG, GCM-AES, receive slot
selection, PN recovery and the two replay checks.
-/
namespace Sys2Proof.Machine

/-! Nonce and additional data (R239-R242). -/

/-- The confidentiality offset in bytes (Table 6-1). -/
def confBytes (c : ChRec) : Nat :=
  match c.confOff.toNat with
  | 1 => 30
  | 2 => 50
  | _ => 0

/-- The 12 bytes of the nonce (Table 6-5). -/
def nonceOf (suite : Fin 4) (sci : BitVec 64) (salt : BitVec 96) (ssci : Word) (pn : Nat) : Bytes :=
  if isXpn suite then beBytes 12 (salt ^^^ ((ssci.setWidth 96 <<< 64) ||| BitVec.ofNat 96 (pn % 2 ^ 64))).toNat
  else beBytes 8 sci.toNat ++ beBytes 4 pn

/-- The SCI that a source address implies, with a port identifier (R227, R253). -/
def implicitSci (bs : Bytes) (pi : Nat) : BitVec 64 := BitVec.ofNat 64 (beVal (sub bs 6 6) * 2 ^ 16 + pi)

/-! Protect path (R244-R250). -/

/-- SecTAG of Table 6-7, with SL 0. -/
def secTagOf (c : ChRec) (an : An) (pn : Nat) : Bytes :=
  beBytes 2 0x88E5 ++
  beBytes 1 (64 * b2n (!c.incSci && c.useEs) + 32 * b2n c.incSci + 12 * b2n c.encrypt + an.val) ++ [0] ++ beBytes 4 pn ++
  (if c.incSci then beBytes 8 c.sci.toNat else [])

/-- SL of a frame of `n` bytes of secure data (Table 6-7). -/
def withSl (tag : Bytes) (n : Nat) : Bytes := if n < 48 then tag.set 3 (BitVec.ofNat 8 n) else tag

/-- The frame on the line: SecTAG behind the SA, secure data encrypted from the offset when E is 1, and the ICV (R242). -/
def protectFrame (p : Prot) (bs : Bytes) : Bytes :=
  let data := bs.drop 12
  let clear := if p.encrypt then p.confOff else data.length
  let aad := bs.take 12 ++ withSl p.secTag data.length ++ data.take clear
  let key := aesKeyOf p.suite p.key
  let nonce := nonceOf p.suite p.sci p.salt p.ssci p.pn
  let ct := gcmCrypt key nonce (data.drop clear)
  aad ++ ct ++ gcmTag key p.h nonce aad ct

/-- A frame beyond RES is dropped (R245, R256, 19 Table 19-3). -/
def unreserved (st : State) (s : SliceId) (ch : ChIx) (j : Nat) : State := pcEvent (bumpCh st s ch j 1) s 0x062 1

/-- The slot after its PN has been taken (R245). -/
def pnTaken (suite : Fin 4) (x : Slot) : Slot :=
  let x := if x.pn = lastPn suite then { x with exhausted := true } else { x with pn := x.pn + 1 }
  x

/-- take_pn of R245: the slot as read, or none when the frame is dropped. -/
def takePn (st : State) (s : SliceId) (ch : ChIx) : Option (An × Slot) × State :=
  let c := chOf st s ch
  match c.encAn with
  | none => (none, count st (Reg.saeCnt s 0))
  | some an =>
    let x := slotOf st s ch an
    if x.bad then (none, slotEcc st s ch an)
    else if x.state = .dropping then (none, bumpCh st s ch 6 1)
    else if x.exhausted then (none, bumpCh st s ch 4 1)
    else if x.res < x.pn then (none, checkReserve (unreserved st s ch 5) s ch an)
    else
      let st := modSlot st s ch an (pnTaken c.suite)
      let st := if x.pn = lastPn c.suite then
          raise st { block := 23, index := 0, slice := s.val, ps := [ch.val, an.val] } else st
      let st := if !isXpn c.suite && x.pn == 0xC0000000 then
          raise (modSlot st s ch an (fun x => { x with rekeyReq := true }))
            { block := 23, index := 1, slice := s.val, ps := [ch.val, an.val] }
        else st
      (some (an, x), pcEvent (checkReserve st s ch an) s 0x070 1)

/-- Steps 1 to 4 of Table 6-6 for a frame from input `src` (R230: 0-7 a client port, 8 the recirculation queue). -/
def protAccess (st : State) (s : SliceId) (ch : ChIx) (src : Nat) (bs : Bytes) : Option Prot × State :=
  let st := chanCheck st s ch
  let c := chOf st s ch
  if !c.valid || c.dirRx || c.eccFail then (none, count st (Reg.saeCnt s 0))
  else if c.bind ≠ 15 ∧ c.bind.toNat ≠ src then (none, count st (Reg.saeCnt s 1))
  else
    let st := boundaryWith (pcEvent st s 0x060 1) s ch none true
    match takePn st s ch with
    | (none, st) => (none, st)
    | (some (an, x), st) =>
      (some { ch := ch, an := an, pn := x.pn, key := x.key, h := x.h, salt := x.salt, ssci := x.ssci, suite := c.suite
              confOff := confBytes c, encrypt := c.encrypt, secTag := secTagOf c an x.pn
              sci := if !c.incSci && c.useEs then implicitSci bs 1 else c.sci }, st)

/-- Step 6 of Table 6-6: packets and octets of a protected frame (R269), and the clocks of its engine (19 Table 19-3). -/
def protCount (st : State) (s : SliceId) (p : Prot) (len : Nat) : State :=
  let e := b2n p.encrypt
  let st := pcEvent st s 0x020 (engineClocks (len + p.secTag.length))
  bumpSlot (bumpCh (bumpCh st s p.ch e 1) s p.ch (2 + e) (len - 12)) s p.ch p.an e 1

/-! Verify path (R251-R261). -/

/-- The SecTAG of a first pass: where it begins, how long it is, and its fields. -/
structure SecTag where
  off : Nat
  len : Nat
  tci : Byte
  sl : Nat
  pn32 : Nat
  sci : Option Nat
  deriving DecidableEq, Repr

def secTagAt (p : Parse) (bs : Bytes) : SecTag :=
  let sci := p.fields.get? 41
  let len := if sci.isSome then 16 else 8
  let off := p.depth - len
  { off := off, len := len, tci := byteAt bs (off + 2), sl := (byteAt bs (off + 3)).toNat % 64, pn32 := p.get 40, sci := sci }

def tagC (t : Byte) : Bool := t.getLsbD 2
def tagE (t : Byte) : Bool := t.getLsbD 3

/-- The checks of R252. -/
def secTagBad (t : SecTag) (bs : Bytes) : Bool :=
  let n := bs.length - (t.off + t.len)
  t.tci.getLsbD 7 || (t.tci.getLsbD 6 && t.tci.getLsbD 5) || (t.tci.getLsbD 5 && t.tci.getLsbD 4) ||
  (tagE t.tci != tagC t.tci) || decide (48 ≤ t.sl) || (t.sl == 0 && decide (n < 48 + 16)) || decide (n < t.sl + 16)

/-- The SCI of a received frame (R253). -/
def rxSci (st : State) (s : SliceId) (k : PortIx) (t : SecTag) (bs : Bytes) : BitVec 64 :=
  match t.sci with
  | some v => BitVec.ofNat 64 v
  | none =>
    if t.tci.getLsbD 6 then implicitSci bs 1
    else implicitSci bs (fldA st (Reg.saeLportCfg s k) Fld.saeLportCfg_IMPLICIT_PI)

/-- The line port's VALIDATE is Strict (SAE_LPORT_CFG; 3 as 2). -/
def portStrict (st : State) (s : SliceId) (k : PortIx) : Bool :=
  decide (2 ≤ fldA st (Reg.saeLportCfg s k) Fld.saeLportCfg_VALIDATE)

/-- The channel of an SCI; an entry with a bad word is invalidated and misses, and so does a channel whose record is damaged
(R254, R264). -/
def rxChannel (st : State) (s : SliceId) (sci : BitVec 64) : Option ChIx × State :=
  match sciFind st s sci with
  | none => (none, st)
  | some (ix, e) =>
    if e.bad then (none, hashEcc st s ix)
    else
      let st := chanCheck st s e.ch
      let c := chOf st s e.ch
      if c.eccFail || !c.valid || !c.dirRx then (none, st) else (some e.ch, st)

/-- lowest(s) of R256: the lowest acceptable PN. -/
def lowestPn (c : ChRec) (x : Slot) : Nat :=
  if c.replayWindow.toNat < x.pn - x.floor then x.pn - c.replayWindow.toNat else x.floor

/-- recover(s, pn32) of R256. -/
def recoverPn (c : ChRec) (x : Slot) (pn32 : Nat) : Nat :=
  if !isXpn c.suite then pn32
  else
    let lo := lowestPn c x
    if lo % 2 ^ 32 ≤ pn32 then lo / 2 ^ 32 * 2 ^ 32 + pn32 else (lo / 2 ^ 32 + 1) * 2 ^ 32 + pn32

/-- A slot that is not usable (Tables 6-9, 6-10). -/
def notUsable (st : State) (s : SliceId) (ch : ChIx) (an : An) (cBit : Bool) : State :=
  if cBit || (chOf st s ch).validate == 2 then bumpSlot (bumpCh st s ch 6 1) s ch an 3 1
  else bumpSlot (bumpCh st s ch 7 1) s ch an 4 1

/-- Steps 3 and 4 of Table 6-8: the slot of AN, and the early replay check. The answer is what the frame carries into its
engine, or none when it is dropped. -/
def rxSelect (st : State) (s : SliceId) (ch : ChIx) (c : Pkt) (t : SecTag) (sci : BitVec 64) : Option VFrame × State :=
  if !isXpn (chOf st s ch).suite && t.pn32 == 0 then (none, bumpLp st s c.k 2)
  else
    let an : An := Fin.ofNat 4 t.tci.toNat
    let st := boundary (pcEvent st s 0x061 1) s ch none
    let r := chOf st s ch
    let x := slotOf st s ch an
    if x.bad then (none, slotEcc st s ch an)
    else
      match x.state with
      | .guard => (none, bumpCh st s ch 10 1)
      | .dropping => (none, bumpCh st s ch 11 1)
      | .empty | .loaded | .exported => (none, notUsable st s ch an (tagC t.tci))
      | .active | .retiring =>
        let st := pcEvent st s 0x070 1
        let pn := recoverPn r x t.pn32
        if r.replayEn && decide (pn < lowestPn r x) then (none, bumpCh st s ch 3 1)
        else
          (some { bytes := c.bytes, port := c.k, ver := c.ver, inst := c.inst, ch := ch, an := an, pn := pn, key := x.key
                  h := x.h, salt := x.salt, ssci := x.ssci, suite := r.suite, confOff := confBytes r, sci := sci
                  tci := t.tci, tagOff := t.off, pn32 := BitVec.ofNat 32 t.pn32, secTagLen := t.len, sl := t.sl
                  rxNs := c.rxNs, rxEl := c.rxEl, cellErr := c.cellErr, order := c.order }, st)

/-- Length of the secure data (R252, R261). -/
def secureLen (v : VFrame) : Nat := if v.sl ≠ 0 then v.sl else v.bytes.length - (v.tagOff + v.secTagLen) - 16

/-- Step 5 of Table 6-8: the frame as it will be delivered, when its ICV passes (R242, R261). -/
def openFrame (v : VFrame) : Option Bytes :=
  let o := v.tagOff + v.secTagLen
  let data := sub v.bytes o (secureLen v)
  let icv := sub v.bytes (o + secureLen v) 16
  let clear := if tagE v.tci then v.confOff else data.length
  let aad := v.bytes.take 12 ++ sub v.bytes v.tagOff v.secTagLen ++ data.take clear
  let ct := data.drop clear
  let key := aesKeyOf v.suite v.key
  let nonce := nonceOf v.suite v.sci v.salt v.ssci v.pn
  if gcmTag key v.h nonce aad ct = icv then some (v.bytes.take v.tagOff ++ data.take clear ++ gcmCrypt key nonce ct) else none

/-- A failed ICV (Table 6-10). -/
def icvFailed (st : State) (s : SliceId) (v : VFrame) : State :=
  if tagC v.tci || (chOf st s v.ch).validate == 2 then bumpSlot (bumpCh st s v.ch 5 1) s v.ch v.an 2 1
  else bumpSlot (bumpCh st s v.ch 4 1) s v.ch v.an 1 1

/-- Octets of a delivered frame (R269). -/
def rxOctets (st : State) (s : SliceId) (v : VFrame) : State :=
  bumpCh st s v.ch (if tagE v.tci then 9 else 8) (secureLen v)

/-- A frame that passed with its PN at or above the lowest one (Table 6-10). -/
def rxPassed (st : State) (s : SliceId) (v : VFrame) : State :=
  if (chOf st s v.ch).validate = 0 then bumpCh st s v.ch 1 1
  else bumpSlot (bumpCh st s v.ch 0 1) s v.ch v.an 0 1

/-- The final replay commit up to its threshold test: whether the frame is delivered (R256). A damaged channel word found here
puts the slot into DROPPING, and the frame is dropped with it (R263, R264). -/
def commitFrame (st : State) (s : SliceId) (v : VFrame) : Bool × State :=
  let st := boundary (pcEvent st s 0x061 1) s v.ch none
  let c := chOf st s v.ch
  let x := slotOf st s v.ch v.an
  if x.bad then (false, slotEcc st s v.ch v.an)
  else if x.state = .dropping then (false, bumpCh st s v.ch 11 1)
  else if v.pn < lowestPn c x then
    if c.replayEn then (false, bumpCh st s v.ch 3 1)
    else (true, rxOctets (bumpCh st s v.ch 2 1) s v)
  else if x.res < v.pn then
    let st := unreserved st s v.ch 12
    (false, if slotUses x then reserveAbove st s v.ch v.an v.pn else st)
  else
    let up := x.pn ≤ v.pn ∧ (x.state = .active ∨ x.state = .retiring)
    let st := if up then modSlot st s v.ch v.an (fun x => { x with pn := v.pn + 1 }) else st
    let st := rxOctets (rxPassed st s v) s v
    (true, if slotUses x then checkReserve st s v.ch v.an else st)

/-- Step 6 of Table 6-8: the final replay commit of a frame whose ICV has passed; whether it is delivered. A commit that leaves
NEXT_PN at the threshold switches the channel at the boundary after it (08 R317). -/
def rxCommit (st : State) (s : SliceId) (v : VFrame) : Bool × State :=
  let r := commitFrame st s v
  (r.1, if thresholdMet r.2 s v.ch then boundaryWith r.2 s v.ch none true else r.2)

end Sys2Proof.Machine
end

