-- ==== Sys2Proof/Machine/Egress.lean ====
section
/-!
DEFINITION. The way out (01 R34, 02 R106-R113, 11 R441-R451, 20 R694, R695, R702): output queues, the one-step correction,
the line-port fault injector on transmit, the egress guard.
-/
namespace Sys2Proof.Machine

/-! Buffer cells (01 Table 1-2, 20 R702). -/

/-- A frame of these bytes finds free cells. -/
def cellsFree (st : State) (s : SliceId) (bs : Bytes) : Bool := decide (cellsUsed (sl st s) + cellsOf bs ≤ 65536)

/-- An uncorrectable error in a buffer cell; which cell is not modelled, so its number is drawn (log entry 1). -/
def cellUe (st : State) (s : SliceId) : State :=
  let (n, st) := drawFree st
  sramUe st 9 s.val (n % 65536)

/-- What follows whenever frames move: versions retire, XOFF states and shares follow (04 R171, 02 R99, 13 R510). -/
def settle (st : State) (s : SliceId) : State := shareUpdate (fcUpdateAll (versionRetire st s) s) s

/-! Output queues. -/

def downDrop (st : State) (d : Side) (s : SliceId) (k : PortIx) : State :=
  modPort st d s k (fun p => { p with downDrops := p.downDrops + 1 })

/-- A frame takes its place in an output queue: behind those that stand there, but before those of its own input that
arrived later (01 R34). -/
def placeFrame (f : EgrFrame) (l : List EgrFrame) : List EgrFrame :=
  let later (g : EgrFrame) : Bool := !g.raw && g.src == f.src && decide (f.order < g.order)
  l.takeWhile (fun g => !later g) ++ f :: l.dropWhile (fun g => !later g)

/-- A frame is routed to an output port: queued, or dropped and counted at a port that is down or in Umber (02 R78, 20
R694). -/
def enqueue (st : State) (d : Side) (s : SliceId) (k : PortIx) (f : EgrFrame) : State :=
  if txLive st d s k then modPort st d s k (fun p => { p with queue := placeFrame f p.queue }) else downDrop st d s k

/-- Remove the `n`-th frame of a queue. -/
def dequeue (st : State) (d : Side) (s : SliceId) (k : PortIx) (n : Nat) : State :=
  modPort st d s k (fun p => { p with queue := p.queue.eraseIdx n })

/-! Sending (20 R695). -/

/-- A frame in the clear that no rule released is ended with its FCS inverted, and the guard trips. -/
def guardTrip (st : State) (s : SliceId) (k : PortIx) : State :=
  let i := 8 * s.val + k.val
  let st := wr st Reg.glbGuard (rd st Reg.glbGuard ||| BitVec.ofNat 32 (2 ^ i))
  let st := raise (count st (Reg.glbFltCnt 2)) { block := 0, index := 1, ps := [s.val, k.val] }
  if st.img.content.twin then carmineHalt st 10 0 s.val k.val 39 (Config.detail 39 [10])
  else modPort st .line s k (fun p => { p with guardTrip := true })

/-- Bytes on the pins of a port, and their measurement (19 R679). -/
def sendOut (st : State) (d : Side) (s : SliceId) (k : PortIx) (bs : Bytes) (fcsOk : Bool) : State :=
  bwFrame (sendPort st d s k bs (.frame d s k bs fcsOk)) d s k true (bs.length + 4)

/-- The client port's count of frames sent in the clear (06 Table 6-11). -/
def untaggedOut (st : State) (s : SliceId) (f : EgrFrame) : State :=
  match f.src with
  | .client k => if f.released then bumpCp st s k else st
  | _ => st

/-- Send a frame whose bytes are final, past the egress guard of a line port. -/
def transmit (st : State) (d : Side) (s : SliceId) (k : PortIx) (f : EgrFrame) : State :=
  if !txLive st d s k then downDrop st d s k
  else
    match d with
    | .client => sendOut st .client s k f.bytes (!f.badFcs)
    | .line =>
      if beVal (sub f.bytes 12 2) ≠ 0x88E5 ∧ !f.released then guardTrip (sendOut st .line s k f.bytes false) s k
      else sendOut (untaggedOut st s f) .line s k f.bytes (!f.badFcs)

/-! Launch times (11 R451). -/

/-- The instant at which a frame launched at `l` leaves line port `k`, as a value of NOW. -/
def launchAt (st : State) (s : SliceId) (k : PortIx) (l : Word) : BitVec 64 :=
  let cal := BitVec.ofNat 16 (fldA st (Reg.tsuLcal (8 * s.val + k.val)) Fld.tsuLcal_CAL)
  (l.setWidth 64 <<< 32) + (cal.signExtend 64 <<< 28)

/-- NOW + `ahead` (in 2⁻³² ns) has reached instant `t`. -/
def reached (st : State) (ahead : Nat) (t : BitVec 64) : Bool := !(st.tsu.now + BitVec.ofNat 64 ahead - t).msb

/-- The line port of a Saffron frame. -/
def safPort (st : State) (f : SafFrame) : Option PortIx := pairOf st .client f.s f.k

/-- Time of 10,272 B plus 20 B at the port's rate, in 2⁻³² ns. -/
def guardTime (st : State) (s : SliceId) (k : PortIx) : Nat := 10292 * 8 * 2 ^ 32 / speedOf (portCfg st .line s k)

/-- A launch is so near that the port starts no other frame (R451). -/
def launchNear (st : State) (s : SliceId) (k : PortIx) : Bool :=
  st.saf.any (fun f => f.s == s && f.stage != .dram && safPort st f == some k &&
    reached st (guardTime st s k) (launchAt st s k f.launch))

/-- A launched frame and its inter-frame gap are still on the wire of line port `k` (R454). -/
def wireBusy (st : State) (s : SliceId) (k : PortIx) : Bool := decide (st.tsu.elapsed.toNat < (port st .line s k).wireUntil)

/-- Time of a frame of these bytes on the wire with its FCS, preamble and inter-frame gap, in 2⁻³² ns. -/
def wireTime (st : State) (s : SliceId) (k : PortIx) (bs : Bytes) : Nat :=
  ceilDiv ((bs.length + 24) * 8 * 2 ^ 32) (speedOf (portCfg st .line s k))

/-! The fault injector (02 R106-R109, Table 2-6). -/

inductive FiVerdict where
  | pass (bs : Bytes)
  | drop
  | hold (m : Nat)
  deriving DecidableEq, Repr

/-- The byte that CORRUPT changes, when its offset lies within the target (R109). -/
def fiTarget (sel cfg : Word) (t : SecTag) (len : Nat) : Option Nat :=
  let o := getF sel Fld.pcsFiSel_OFFSET
  let data := t.off + t.len
  let n := if t.sl ≠ 0 then t.sl else len - data - 16
  if getF cfg Fld.pcsFiCfg_TARGET = 0 then (if o < n ∧ data + o < len then some (data + o) else none)
  else if o < 16 ∧ data + n + o < len then some (data + n + o) else none

/-- What the injector does to a selected frame. -/
def fiAct (fi : FiSt) (t : SecTag) (bs : Bytes) : FiVerdict :=
  match getF fi.cfg Fld.pcsFiCfg_ACTION with
  | 0 => .drop
  | 1 =>
    (match fiTarget fi.sel fi.cfg t bs.length with
     | some i => .pass (bs.set i (byteAt bs i ^^^ BitVec.ofNat 8 (getF fi.sel Fld.pcsFiSel_BITMASK)))
     | none => .pass bs)
  | _ => .hold (getF fi.sel Fld.pcsFiSel_HOLD_M)

/-- A frame of line port `k` meets the injector in direction `rx`: counted and perhaps selected (R107). The injector acts from
the instant at which the record of its ARM is written: counting and selection both begin there (R110; DEDUCED, log entry
134). -/
def fiStep (st : State) (s : SliceId) (k : PortIx) (rx : Bool) (bs : Bytes) : FiVerdict × State :=
  let fi := (port st .line s k).fi
  if !fi.armed || !fi.recorded || bitW fi.cfg 29 != rx then (.pass bs, st)
  else
    let p := parse (prsCfg st s) bs
    if !p.has 2 then (.pass bs, st)
    else
      let seen := fi.seen + 1
      let sel := seen % (getF fi.cfg Fld.pcsFiCfg_N_MINUS_1 + 1) = 0
      let acted := if sel ∧ fi.acted ≠ BitVec.allOnes 24 then fi.acted + 1 else fi.acted
      let st := modPort st .line s k (fun x => { x with fi := { x.fi with seen := seen, acted := acted } })
      (if sel then fiAct fi (secTagAt p bs) bs else .pass bs, st)

def heldRx : HeldFrame → Bool
  | .rx _ => true
  | .tx _ => false

/-- One further frame of the direction has come: held frames whose count is reached are released (Table 2-6). -/
def fiFurther (st : State) (s : SliceId) (k : PortIx) (rx : Bool) : List HeldFrame × State :=
  let l := (port st .line s k).fiHeld.map (fun h => if heldRx h.1 = rx then (h.1, h.2.1 - 1, h.2.2) else h)
  let goes (h : HeldFrame × Nat × Nat) : Bool := heldRx h.1 == rx && h.2.1 == 0
  ((l.filter goes).map (fun h => h.1), modPort st .line s k (fun x => { x with fiHeld := l.filter (fun h => !goes h) }))

/-- Hold a frame back for `m` further frames or 1 ms. -/
def fiHold (st : State) (s : SliceId) (k : PortIx) (h : HeldFrame) (m : Nat) : State :=
  let due := elNs st + 1000000
  modPort st .line s k (fun x => { x with fiHeld := x.fiHeld ++ [(h, m, due)] })

/-- Line port `k` may start no frame of priority `q` now: output is held, a launch is near, or a frame is on its way. -/
def lineBusy (st : State) (s : SliceId) (k : PortIx) (q : Fin 8) : Bool :=
  outputHeld st .line s k q || launchNear st s k || wireBusy st s k || (port st .line s k).queue.any (fun g => g.started)

/-- A released transmit frame goes out, or waits at the head of the port's queue until the port may start it (R105). -/
def releaseTx (s : SliceId) (k : PortIx) (st : State) : HeldFrame → State
  | .tx f =>
    if lineBusy st s k f.prio then
      modPort st .line s k (fun p => { p with
        queue := p.queue.takeWhile (fun g => g.raw) ++ f :: p.queue.dropWhile (fun g => g.raw) })
    else transmit st .line s k f
  | .rx _ => st

/-- A frame leaves its engine toward a line port: the injector, then the MAC (R106). -/
def injectTx (st : State) (s : SliceId) (k : PortIx) (f : EgrFrame) : State :=
  let (out, st) := fiFurther st s k false
  let (v, st) := fiStep st s k false f.bytes
  let st := match v with
    | .pass bs => transmit st .line s k { f with bytes := bs }
    | .drop => st
    | .hold m => fiHold st s k (.tx f) m
  out.foldl (releaseTx s k) st

/-- A granted frame whose end has come: encrypted, past the injector, and sent. -/
def finish (st : State) (d : Side) (s : SliceId) (k : PortIx) (f : EgrFrame) (fcsOk : Bool) : State :=
  if f.raw then transmit st d s k f
  else
    let bs := match f.prot with | some p => protectFrame p f.bytes | none => f.bytes
    let f := { f with bytes := bs, raw := true, badFcs := !fcsOk }
    match d with
    | .client => transmit st .client s k f
    | .line => injectTx st s k f

/-! One-step correction (11 R441-R446). -/

/-- Residence of a frame from its input pin to output port `k`, in 2⁻¹⁶ ns: to its grant, on through engine and MAC, and the pin
delays (R443-R445). -/
def residence (st : State) (d : Side) (s : SliceId) (k : PortIx) (f : EgrFrame) : Int :=
  let core := ((st.tsu.elapsed - f.rxEl).toNat + 2 ^ 15) / 2 ^ 16
  let inCfg := match f.src with
    | .client i => portCfg st .client s i
    | .line i | .recirc i => portCfg st .line s i
  let outCfg := portCfg st d s k
  let adj := BitVec.ofNat 16 (fldA st Reg.tsuTcAdj (match d with
    | .line => Fld.tsuTcAdj_PROT_ADJ | .client => Fld.tsuTcAdj_VER_ADJ))
  (core : Int) + Config.coreExit (d == .line) outCfg.speed.val outCfg.width.val + Config.pinDelay inCfg.speed.val inCfg.width.val false +
    Config.pinDelay outCfg.speed.val outCfg.width.val true + adj.toInt * 4096

/-- The new correctionField (R441). -/
def newCorr (old : BitVec 64) (r : Int) : BitVec 64 :=
  if old = 0x7FFFFFFFFFFFFFFF then old
  else if 2 ^ 63 - 1 < old.toInt + r then 0x7FFFFFFFFFFFFFFF
  else if old.toInt + r < -(2 ^ 63) then 0x8000000000000000
  else BitVec.ofInt 64 (old.toInt + r)

/-- Fold a sum of 16-bit words to 16 bits. -/
def foldSum (n : Nat) : Nat :=
  let a := n % 65536 + n / 65536
  a % 65536 + a / 65536
/-- The 16-bit words of a value, inverted or not, summed. -/
def wordSum (v : BitVec 64) : Nat := sumOf (fun i => v.toNat / 2 ^ (16 * i) % 65536) (List.range 4)
/-- A nonzero UDP checksum after the field changed from `old` to `new` (R446; RFC 1624, and 0xFFFF for 0 as UDP sends it). -/
def newSum (hc : Nat) (old new : BitVec 64) : Nat :=
  let s := foldSum (foldSum ((0xFFFF - hc) + wordSum (~~~old) + wordSum new))
  if 0xFFFF - s = 0 then 0xFFFF else 0xFFFF - s

/-- Bytes of `bs` from `o` on replaced by `v`. -/
def patch (bs : Bytes) (o : Nat) (v : Bytes) : Bytes := bs.take o ++ v ++ bs.drop (o + v.length)

/-- Write the correction into the PTP header at `o`, and the checksum of the UDP header before it. -/
def correct (st : State) (d : Side) (s : SliceId) (k : PortIx) (f : EgrFrame) (o : Nat) (udp : Bool) : Bytes :=
  let old := BitVec.ofNat 64 (beAt f.bytes (o + 8) 8)
  let new := newCorr old (residence st d s k f)
  let bs := patch f.bytes (o + 8) (beBytes 8 new.toNat)
  let hc := beAt f.bytes (o - 2) 2
  if udp ∧ hc ≠ 0 then patch bs (o - 2) (beBytes 2 (newSum hc old new)) else bs

/-- The correction of a frame that is granted its output port (R441, R442, R444). -/
def tcCorrect (st : State) (d : Side) (s : SliceId) (k : PortIx) (f : EgrFrame) : EgrFrame × State :=
  match f.tc with
  | none => (f, st)
  | some (o, udp) =>
    let b (i : Nat) : Nat := (byteAt f.bytes (o + i)).toNat
    if f.injected || decide (4 ≤ b 0 % 16) || b 1 % 16 != 2 || (b 6).testBit 1 then
      ({ f with tc := none }, count st (Reg.safCnt 9))
    else ({ f with bytes := correct st d s k f o udp, tc := none }, count st (Reg.safCnt 8))

/-! Grants (01 R34, R35). -/

/-- Frame `g`, queued before frame `f`, keeps it back: they came in by one input, or one of them was released by the injector
and goes after all that stood before it (02 R112); only received PFC that holds `g` alone lets `f` pass (R34, R35). -/
def keepsBack (st : State) (d : Side) (s : SliceId) (k : PortIx) (f g : EgrFrame) : Bool :=
  (g.raw || f.raw || g.src == f.src) && !(g.prio != f.prio && outputHeld st d s k g.prio)

/-- A frame that arrived earlier by the same input has not come so far: it stands in an engine, or waits for its end (R34). -/
def earlierOnWay (x : SliceSt) (f : EgrFrame) : Bool :=
  match f.src with
  | .line k => x.engine.any (fun v => v.port == k && decide (v.order < f.order))
  | .client k => x.waiting.any (fun w => w.1 == k && decide (w.2.frame.order < f.order))
  | .recirc _ => false

/-- The first frame of priority `q` that may go, with its place. -/
def firstOf (st : State) (d : Side) (s : SliceId) (k : PortIx) (q : Fin 8) (l : List EgrFrame) : Option (EgrFrame × Nat) :=
  l.zipIdx.find? (fun p => p.1.prio == q && !(l.take p.2).any (keepsBack st d s k p.1) && !earlierOnWay (sl st s) p.1)

/-- Grant the first frame of priority `q` its output port. -/
def grant (st : State) (d : Side) (s : SliceId) (k : PortIx) (q : Fin 8) : State :=
  let l := (port st d s k).queue
  if l.any (fun f => f.started) then st
  else
    match firstOf st d s k q l with
    | none => st
    | some (f, n) =>
      if !txLive st d s k then downDrop (dequeue st d s k n) d s k
      else if outputHeld st d s k q || (d == .line && (launchNear st s k || wireBusy st s k)) then st
      else if f.cellErr then cellUe (dequeue st d s k n) s
      else
        let (f, st) := tcCorrect st d s k f
        if f.ended then finish (dequeue st d s k n) d s k f true
        else modPort st d s k (fun p => { p with queue := p.queue.set n { f with started := true } })

/-- A queued frame is granted its output port and sent (01 R34). -/
def execFrameEgressGrant (d : Side) (s : SliceId) (k : PortIx) (q : Fin 8) (st : State) : Out :=
  .next (if isL2 st d s k && !(port st d s k).queue.isEmpty then settle (grant st d s k q) s else st)

end Sys2Proof.Machine
end

