-- ==== Sys2Proof/Machine/Path.lean ====
section
/-!
DEFINITION. The protect path and the verify path of a slice from end to end (01 Tables 1-3 and 1-4): admission at a port,
parse and classification, the SAE, recirculation, delivery.
-/
namespace Sys2Proof.Machine

/-- The slice admits frames: it is RUNNING, and admission is not stopped device-wide (16 R610, 20 R692, R696). -/
def admits (st : State) (s : SliceId) : Bool :=
  sliceOn st s && st.img.sl[s] == .running && !admissionStopped st

/-- A frame of an instance that is not ENABLED (13 R504); dropped at the SCI lookup or at parser entry. -/
def instDrop (st : State) (i : InstId) : State := bumpVf (count st (Reg.vimCnt 0)) i 5
/-- A frame beyond its instance's CELLS share (13 R509). -/
def shareDrop (st : State) (i : InstId) : State := bumpVf (count st (Reg.vimCnt 1)) i 4

/-- Whether the frame's instance admits it; when not, it is counted. Cells are allocated as it enters. -/
def admitInst (st : State) (s : SliceId) (i : InstId) (bs : Bytes) : Bool × State :=
  if (inst st i).state ≠ .enabled then (false, instDrop st i)
  else if (inst st i).shares[s].cells ≤ instCells (sl st s) i then (false, shareDrop st i)
  else (true, pcEvent st s 0x030 (cellsOf bs))

/-- A parse is begun: PARSED, and the parser event of the path (03 Table 3-5, 19 Table 19-3). -/
def parserEntry (st : State) (c : Pkt) : State :=
  let st := pcEvent (prsCount st c 0) c.s (0x010 + sideNum c.d) 1
  if isRecirc c then pcEvent st c.s 0x012 1 else st

/-! Protect path (01 Table 1-3). -/

/-- A frame on its way out, from what the parser knows of it. -/
def egrOf (c : Pkt) (p : Parse) (prot : Option Prot) (released tc : Bool) : EgrFrame :=
  let udp (o : Nat) : Bool := p.get 18 == 17 && p.fields.has 45 && p.get 45 + 8 == o
  { bytes := c.bytes, src := c.src, inst := c.inst, prio := prioOf p, prot := prot, released := released
    tc := if tc then (p.fields.get? 43).map (fun o => (o, udp o)) else none, rxNs := c.rxNs, rxEl := c.rxEl, ended := c.ended
    started := false, cellErr := c.cellErr, injected := c.injected, order := c.order, late := p.late
    trunc := p.has 0 && !p.has 1 }

/-- The input that BIND names (06 R230). -/
def bindNo (c : Pkt) : Nat :=
  match c.src with
  | .client k => k.val
  | .recirc _ => 8
  | .line k => k.val

/-- A decision that leads to protection: the SAE takes the frame, and it is committed to its line port (03 R138). -/
def protectPkt (st : State) (c : Pkt) (p : Parse) (ch : ChIx) (tc : Bool) : State :=
  match protAccess st c.s ch (bindNo c) c.bytes with
  | (none, st) => st
  | (some pr, st) =>
    let st := if c.ended then protCount st c.s pr c.bytes.length else st
    match c.outPort with
    | some k => enqueue st .line c.s k (egrOf c p (some pr) false tc)
    | none => st

/-- What a decision of the protect path does with a complete frame. -/
def doProtect (st : State) (c : Pkt) (p : Parse) (r : Res) : State :=
  let clear (tc : Bool) : State :=
    match c.outPort with
    | some k => enqueue st .line c.s k (egrOf c p none true tc)
    | none => st
  match r.dec with
  | .channel ch tc => protectPkt st c p ch tc
  | .slow q => puntPkt st c q r.reason 0 r.rule
  | .bypass tc => clear tc
  | .timestamp => clear true
  | .drop | .deliverVerified | .recirc _ => st

/-- A frame whose end has not come waits for it, unless it is bound for protection (03 R138). -/
def waitPkt (st : State) (c : Pkt) (p : Parse) (k : PortIx) (mal : Option (Nat × Nat)) (r : Res) : State :=
  let w : WaitFrame := { frame := egrOf c p none false false, parse := if p.needs then none else some p, mal := mal
                         dec := r.dec, reason := r.reason, rule := r.rule, cnts := r.cnts }
  modSl st c.s (fun x => { x with waiting := x.waiting ++ [(k, w)] })

/-- A frame at the protect-path parser, its instance and version known. -/
def protectParsed (st : State) (c : Pkt) (p : Parse) : State :=
  let st := countParse st c p
  match p.fails.head? with
  | some f =>
    (match c.ended, c.src with
     | false, .client k => waitPkt st c p k (some f) { dec := .drop }
     | _, _ => malAction (noteMal st c f) c f)
  | none =>
    let (r, st) := classifyPkt st c p
    match r.dec, c.ended, c.src with
    | .channel ch tc, _, _ => protectPkt st c p ch tc
    | _, false, .client k => waitPkt st c p k none r
    | _, _, _ => doProtect st c p r

/-- The PCP priority's or the port's limit is reached (02 R101). -/
def portFull (st : State) (s : SliceId) (k : PortIx) (q : Fin 8) : Bool :=
  decide (fldA st (Reg.pcsFcLim s 0 k) Fld.pcsFcLim_PORT_CELLS ≤
    occupancy st s k (if fcMode st s k = 2 then some q else none))

def fcDrop (st : State) (s : SliceId) (k : PortIx) : State := modPort st .client s k (fun p => { p with fcDrops := p.fcDrops + 1 })

/-- The packet that a client port received. -/
def clientPkt (st : State) (s : SliceId) (k : PortIx) (f : RxFrame) (p : Parse) : Pkt :=
  { bytes := f.bytes, d := .client, s := s, side := .client, k := k, inst := instAt st .client s k p, ver := (sl st s).current
    src := .client k, outPort := pairOf st .client s k, ended := f.ended, rxNs := nowNs st, rxEl := st.tsu.elapsed }

/-- Admission of a frame of client port `k`, and its way to the classifier. -/
def clientPass (st : State) (c : Pkt) (p : Parse) (k : PortIx) : State :=
  if portFull st c.s k (prioOf p) then fcDrop st c.s k
  else if !cellsFree st c.s c.bytes then st
  else
    let st := parserEntry st c
    match admitInst st c.s c.inst c.bytes with
    | (false, st) => st
    | (true, st) => protectParsed st c p

/-- A frame arrives at client port `k`. Where the bytes of a frame that has not ended do not complete its parse, the parse
completes with the frame's end, and the frame waits for it (03 R137; DEDUCED, log entry 135). -/
def clientIn (st : State) (s : SliceId) (k : PortIx) (f : RxFrame) : State :=
  let p := parse { prsCfg st s with more := !f.ended } f.bytes
  let (n, st) := arrive st s
  let c := { clientPkt st s k f p with order := n }
  if !f.ended && p.needs then waitPkt st c p k none { dec := .drop } else clientPass st c p k

/-- A frame arrives on a client port (01 R28). -/
def execClientFrameRx (s : SliceId) (k : PortIx) (f : RxFrame) (st : State) : Out :=
  .next (if !rxOn st .client s k then st
    else
      let st := if f.ended then bwFrame st .client s k false (f.bytes.length + 4) else st
      if f.ended && macBad .client f then macDrop .client s k st
      else if pauseKind f.bytes ≠ 0 then (if f.ended then takePause .client s k f.bytes st else st)
      else if admits st s then settle (clientIn st s k f) s
      else st)

/-! Frame ends and late checks (03 R137-R139). -/

/-- The first late check that a frame of `n` bytes fails (checks 4 and 7), of those that its parse left open. -/
def lateFail (late : List (Nat × Nat × Nat)) (n : Nat) : Option (Nat × Nat) :=
  (late.find? (fun x => decide (n < x.2.2))).map (fun x => (x.1, x.2.1))

/-- The packet of a frame that waited, its bytes complete. -/
def waitedPkt (st : State) (s : SliceId) (k : PortIx) (f : EgrFrame) (bs : Bytes) : Pkt :=
  { bytes := bs, d := .client, s := s, side := .client, k := k, inst := f.inst, src := f.src
    outPort := pairOf st .client s k, cellErr := f.cellErr, rxNs := f.rxNs, rxEl := f.rxEl, order := f.order }

/-- A truncated frame that proved not malformed is counted in TRUNC at its end (R149). -/
def countTrunc (st : State) (c : Pkt) (f : EgrFrame) : State := if f.trunc then prsCount st c 2 else st

/-- A frame that waited for its end: dropped by the MAC, malformed, or what was decided (R138). A frame to be dropped is
dropped whatever a late check finds. A failure found at parse completion stands: no late check is then made, and MAL_REASON
keeps the code found first in time (DEDUCED, log entry 136). -/
def endWaiting (st : State) (s : SliceId) (k : PortIx) (w : WaitFrame) (f : RxFrame) : State :=
  let bs := w.frame.bytes ++ f.bytes.drop w.frame.bytes.length
  let c := waitedPkt st s k w.frame bs
  match w.parse with
  | none =>
    if macBad .client { f with bytes := bs } then macDrop .client s k st
    else
      let p := parse (prsCfg st s) bs
      clientPass st { c with inst := instAt st .client s k p, ver := (sl st s).current } p k
  | some p =>
    if macBad .client { f with bytes := bs } then macDrop .client s k (if w.mal.isSome then st else countTrunc st c w.frame)
    else
      match w.mal with
      | some m => malAction (noteMal st c m) c m
      | none =>
        match lateFail w.frame.late bs.length with
        | some m => if w.dec = .drop then noteMal st c m else malAction (noteMal st c m) c m w.rule
        | none =>
          let st := w.cnts.foldl (clsCount c) (countTrunc st c w.frame)
          doProtect st c p { dec := w.dec, reason := w.reason, rule := w.rule }

/-- The end of a frame that is committed to line port `lp`, the `n`-th of its queue (R139). -/
def endQueued (st : State) (s : SliceId) (k lp : PortIx) (g : EgrFrame) (n : Nat) (f : RxFrame) : State :=
  let bs := g.bytes ++ f.bytes.drop g.bytes.length
  let g' := { g with bytes := bs, ended := true, started := false }
  let c := waitedPkt st s k g bs
  let bad := macBad .client { f with bytes := bs }
  let late := if bad then none else lateFail g.late bs.length
  let st := match late with
    | some m => prsCount (noteMal st c m) c 4
    | none => countTrunc st c g
  let st := if bad then macDrop .client s k st else st
  if bad || late.isSome then
    let st := dequeue st .line s lp n
    if g.started then finish st .line s lp g' false else st
  else
    let st := match g.prot with | some p => protCount st s p bs.length | none => st
    if g.started then
      let st := dequeue st .line s lp n
      if g.cellErr then finish (cellUe st s) .line s lp g' false else finish st .line s lp g' true
    else modPort st .line s lp (fun p => { p with queue := p.queue.set n g' })

/-- The frame of client port `k` that has not ended, in the queue of its line port. -/
def unended (k : PortIx) (l : List EgrFrame) : Option (EgrFrame × Nat) :=
  l.zipIdx.find? (fun p => !p.1.ended && p.1.src == .client k)

/-- The end of a cut-through frame comes: `f` is the whole frame (03 R137). -/
def execProtectFrameEnd (s : SliceId) (k : PortIx) (f : RxFrame) (st : State) : Out :=
  let st := if rxOn st .client s k then bwFrame st .client s k false (f.bytes.length + 4) else st
  .next (match (sl st s).waiting.find? (fun w => w.1 == k) with
    | some w =>
      let st := modSl st s (fun x => { x with waiting := x.waiting.eraseP (fun w => w.1 == k) })
      settle (endWaiting st s k w.2 f) s
    | none =>
      match pairOf st .client s k with
      | none => st
      | some lp =>
        match unended k (port st .line s lp).queue with
        | none => st
        | some (g, n) => settle (endQueued st s k lp g n f) s)

/-! Verify path (01 Table 1-4). -/

/-- A frame takes its place in the recirculation queue: behind those that stand there, but before those of its own line port
that arrived later (01 R36). -/
def placeRec (f : RecFrame) (l : List RecFrame) : List RecFrame :=
  let later (g : RecFrame) : Bool := g.lport == f.lport && decide (f.order < g.order)
  l.takeWhile (fun g => !later g) ++ f :: l.dropWhile (fun g => !later g)

/-- Into the recirculation queue, or dropped when it would overfill (04 R176). -/
def recirculate (st : State) (c : Pkt) (rcp : Fin 16) : State :=
  let x := sl st c.s
  let f : RecFrame := { bytes := c.bytes, lport := c.k, ver := c.ver, inst := c.inst, rcp := rcp, rxCh := c.rxCh
                        rxNs := c.rxNs, rxEl := c.rxEl, order := c.order }
  if 1024 < recCells x + cellsOf c.bytes then count st (Reg.clsCnt c.s 1 7)
  else count (modSl st c.s (fun x => { x with recirc := placeRec f x.recirc })) (Reg.clsCnt c.s 1 5)

/-- What a decision of the verify path does (01 R29). -/
def doVerify (st : State) (c : Pkt) (p : Parse) (r : Res) : State :=
  let deliver (tc : Bool) : State :=
    match c.outPort with
    | some k => enqueue st .client c.s k (egrOf c p none true tc)
    | none => st
  match r.dec with
  | .slow q => puntPkt st c q r.reason 0 r.rule
  | .bypass tc => deliver tc
  | .timestamp => deliver true
  | .deliverVerified => deliver false
  | .recirc q => recirculate st c q
  | .drop | .channel _ _ => st

/-- A frame of the verify path whose parse is final. -/
def verifyParsed (st : State) (c : Pkt) (p : Parse) : State :=
  let st := countParse st c p
  match p.fails.head? with
  | some f => malAction (noteMal st c f) c f
  | none =>
    let (r, st) := classifyPkt st c p
    doVerify st c p r

/-- A frame with a SecTAG: steps 1 to 5 of 06 Table 6-8, up to its engine. -/
def secTagIn (st : State) (c : Pkt) (p : Parse) : State :=
  let t := secTagAt p c.bytes
  if secTagBad t c.bytes then bumpLp st c.s c.k 2
  else
    let sci := rxSci st c.s c.k t c.bytes
    match rxChannel st c.s sci with
    | (none, st) => bumpLp st c.s c.k (if tagC t.tci || portStrict st c.s c.k then 4 else 3)
    | (some ch, st) =>
      let c := { c with inst := (chOf st c.s ch).inst }
      match admitInst st c.s c.inst c.bytes with
      | (false, st) => st
      | (true, st) =>
        match rxSelect st c.s ch c t sci with
        | (none, st) => st
        | (some v, st) =>
          let st := pcEvent st c.s 0x021 (engineClocks (v.tagOff + v.secTagLen + secureLen v))
          modSl st c.s (fun x => { x with engine := x.engine ++ [v] })

/-- A frame without a SecTAG: counted on its line port and classified (06 R260). -/
def untaggedIn (st : State) (c : Pkt) (p : Parse) : State :=
  let st := bumpLp st c.s c.k (if portStrict st c.s c.k then 1 else 0)
  match admitInst st c.s c.inst c.bytes with
  | (false, st) => st
  | (true, st) => verifyParsed st c p

/-- A frame behind the receive injector of line port `k`. -/
def lineIn (st : State) (s : SliceId) (k : PortIx) (bs : Bytes) : State :=
  if !cellsFree st s bs then bumpLp st s k 5
  else
    let p := parse (prsCfg st s) bs
    let (n, st) := arrive st s
    let c : Pkt := { bytes := bs, d := .line, s := s, side := .line, k := k, inst := instAt st .line s k p
                     ver := (sl st s).current, src := .line k, outPort := pairOf st .line s k, rxNs := nowNs st
                     rxEl := st.tsu.elapsed, order := n }
    let st := parserEntry st c
    if p.has 2 then secTagIn st c p else untaggedIn st c p

/-- A released receive frame goes on to the verify path (02 Table 2-6). -/
def releaseRx (s : SliceId) (k : PortIx) (st : State) : HeldFrame → State
  | .rx f => if admits st s then lineIn st s k f.bytes else st
  | .tx _ => st

/-- A frame arrives on a line port (06 R251); the receive injector stands before the verify path (02 R106). -/
def execLineFrameRx (s : SliceId) (k : PortIx) (f : RxFrame) (st : State) : Out :=
  .next (if !rxOn st .line s k then st
    else
      let st := bwFrame st .line s k false (f.bytes.length + 4)
      if macBad .line f then macDrop .line s k st
      else if pauseKind f.bytes ≠ 0 then takePause .line s k f.bytes st
      else if !admits st s then st
      else
        let (out, st) := fiFurther st s k true
        let (v, st) := fiStep st s k true f.bytes
        let st := match v with
          | .pass bs => lineIn st s k bs
          | .drop => st
          | .hold m => fiHold st s k (.rx f) m
        settle (out.foldl (releaseRx s k) st) s)

/-- The verified frame as the second parser sees it (03 R125). -/
def verifiedPkt (st : State) (s : SliceId) (v : VFrame) (bs : Bytes) : Pkt :=
  { bytes := bs, d := .line, s := s, side := .line, k := v.port, inst := v.inst, ver := v.ver, verified := true
    rxCh := some v.ch, src := .line v.port, outPort := pairOf st .line s v.port, cellErr := v.cellErr, rxNs := v.rxNs
    rxEl := v.rxEl, order := v.order
    sec := some (v.tci.toNat, v.pn32.toNat, if v.tci.getLsbD 5 then some v.sci.toNat else none) }

/-- A verified frame teaches its source address (05 R192, R193). -/
def learnFrom (st : State) (c : Pkt) (p : Parse) (ch : ChIx) : State :=
  let r := chOf st c.s ch
  match p.fields.get? 6 with
  | some sa =>
    if r.learnEn then
      queueLearn st c.s { key := { inst := c.inst, vid := BitVec.ofNat 12 (vid0 p), mac := BitVec.ofNat 48 sa }
                          chan := r.learnTx, lport := c.k } (beBytes 6 sa)
    else st
  | none => st

/-- Step 7 of 06 Table 6-8: the second parse, learning, classification under the frame's version. -/
def secondPass (st : State) (s : SliceId) (v : VFrame) (bs : Bytes) : State :=
  let p := parse (prsCfg st s) bs
  let c := verifiedPkt st s v bs
  verifyParsed (learnFrom (prsCount st c 1) c p v.ch) c p

/-- The engine's ICV check of the channel's next frame completes, and the final replay commit is made (06 R256). -/
def execFinalReplayCommit (s : SliceId) (ch : ChIx) (st : State) : Out :=
  .next (match (sl st s).engine.find? (fun v => v.ch == ch) with
    | none => st
    | some v =>
      let st := modSl st s (fun x => { x with engine := x.engine.eraseP (fun v => v.ch == ch) })
      let st :=
        if v.cellErr then cellUe st s
        else
          match openFrame v with
          | none => icvFailed st s v
          | some bs =>
            match rxCommit st s v with
            | (false, st) => st
            | (true, st) => secondPass st s v bs
      settle st s)

/-! Recirculation (01 R32, 04 R175-R178). -/

/-- A frame that arrived earlier by the same line port still stands in an engine (01 R36). -/
def recWaits (x : SliceSt) (f : RecFrame) : Bool := x.engine.any (fun v => v.port == f.lport && decide (v.order < f.order))

/-- The first frame of the recirculation queue enters the protect-path parser, with its version and instance; one that an
earlier frame of its line port may still precede waits. A frame whose profile has been disabled or changed since it was
queued enters all the same, and leaves by the LPORT of this instant (DESIGN CHOICE, log entry 137). -/
def execRecircEntry (s : SliceId) (st : State) : Out :=
  .next (match (sl st s).recirc.find? (fun f => !recWaits (sl st s) f) with
    | none => st
    | some f =>
      let st := modSl st s (fun x => { x with recirc := x.recirc.eraseP (fun f => !recWaits x f) })
      let p := parse (prsCfg st s) f.bytes
      let lp : PortIx := Fin.ofNat 8 (getF (ruleRcp st s f.rcp.val) Fld.clsRcp_LPORT)
      let c : Pkt := { bytes := f.bytes, d := .client, s := s, side := .line, k := f.lport, inst := f.inst, ver := f.ver
                       verified := true, rcp := some f.rcp, rxCh := f.rxCh, src := .recirc f.lport, outPort := some lp
                       rxNs := f.rxNs, rxEl := f.rxEl, order := f.order }
      settle (protectParsed (parserEntry st c) c p) s)

end Sys2Proof.Machine
end

