-- ==== Sys2Proof/Machine/Mem.lean ====
section
/-!
DEFINITION. External memory in service (14): training, the symbol code, reads and writes of the memory encryption engine,
the patrol scrub, and the commands of the association archive; the background scrub of on-chip memory (20 R701, R702).
-/
namespace Sys2Proof.Machine

/-! Training (R533, R534). -/

/-- A training of every subchannel ends; bits of `failed` are subchannels that failed, which are trained again up to three
times (R533). K_M is drawn when the DRAM is trained (log entry 6). -/
def dramTrained (failed : BitVec 4) (st : State) : State :=
  if st.mee.trained || st.glb.halted || !booted st then st
  else if failed = 0 then
    let (km, st) := draw st
    enablePorts (modMee st (fun m => { m with
      trained := true, ready := true, km := km, hm := aesEnc km (List.replicate 16 0xFF), retrainAt := elNs st + 100000000 }))
  else
    let st := modMee st (fun m => { m with tries := m.tries.mapFinIdx (fun i n _ => if failed.getLsbD i then n + 1 else n) })
    let gone := (List.range 4).filter (fun i => decide (3 < st.mee.tries.toList.getD i 0))
    if gone.isEmpty then st
    else
      let st := modMee st (fun m => { m with trainFail := BitVec.ofNat 4 (sumOf (fun i => 2 ^ i) gone) })
      carmineHalt st 6 0 0 0 38 (Config.detail 38 gone)

def execDramTrained (failed : BitVec 4) (st : State) : Out := .next (dramTrained failed st)

/-- The DQS interval oscillators are retrained every 100 ms (R534). -/
def execDqsRetrain (st : State) : Out :=
  .next (if st.mee.trained ∧ st.mee.retrainAt ≤ elNs st then
    count (modMee st (fun m => { m with retrainAt := m.retrainAt + 100000000 })) (Reg.drcCnt 5)
  else st)

/-- A rank's temperature report crosses 85 °C (R534). -/
def execMr4TemperatureReport (c : Fin 4) (rank hot : Bool) (st : State) : Out :=
  let bit : BitVec 8 := BitVec.ofNat 8 (2 ^ (2 * c.val + b2n rank))
  .next (if !st.mee.trained || (rank && !st.img.content.dramRanks) then st
    else modMee st (fun m => { m with hot := if hot then m.hot ||| bit else m.hot &&& ~~~ bit }))

/-! Symbol code (R535, R536). -/

/-- Multiplication by α^n in GF(16) under x⁴ + x + 1. -/
def gfMulPow : Nat → BitVec 4 → BitVec 4
  | 0, a => a
  | n + 1, a => gfMulPow n ((a <<< 1) ^^^ (if a.getLsbD 3 then 3 else 0))

/-- A syndrome of an error pattern of ten symbols: the sum of e_i α^(i b). -/
def syndrome (b : Nat) (e : Nat → BitVec 4) : BitVec 4 :=
  (List.range 10).foldl (fun s i => s ^^^ gfMulPow (i * b % 15) (e i)) 0

/-- What decoding makes of an error pattern: none uncorrectable; else the symbol corrected, if any, and the correction. -/
def decodeBeat (e : Nat → BitVec 4) : Option (Option (Nat × BitVec 4)) :=
  let b := Config.rsRoot % 15
  let s0 := syndrome b e
  let s1 := syndrome (b + 1) e
  if s0 = 0 ∧ s1 = 0 then some none
  else
    match (List.range 10).find? (fun i => gfMulPow i s0 == s1) with
    | some i => if s0 = 0 then none else some (some (i, gfMulPow ((15 - i * b % 15) % 15) s0))
    | none => none

/-- The errors of beat `t`, by symbol. -/
def beatErr (errs : List BeatErr) (t i : Nat) : BitVec 4 :=
  errs.foldl (fun s x => if x.beat.val = t ∧ x.pos.val = i then s ^^^ x.err else s) 0

/-- The four bytes of line data that an error pattern changes; symbol i holds data bits [4i+3:4i] of its beat. -/
def errBytes (e : Nat → BitVec 4) : Bytes :=
  [0, 1, 2, 3].map (fun j => (e (2 * j + 1)).setWidth 8 <<< 4 ||| (e (2 * j)).setWidth 8)

/-- A burst with its errors: none if a beat is uncorrectable; else the 64 bytes passed on, and the position corrected in
each beat that was. -/
def decodeLine (b : Bytes) (errs : List BeatErr) : Option (Bytes × List Nat) :=
  (List.range 16).foldl (fun r t =>
    match r, decodeBeat (beatErr errs t) with
    | some (bs, ps), some none => some (bs ++ xorBytes (sub b (4 * t) 4) (errBytes (beatErr errs t)), ps)
    | some (bs, ps), some (some (i, c)) =>
      let e : Nat → BitVec 4 := fun j => if j = i then beatErr errs t j ^^^ c else beatErr errs t j
      some (bs ++ xorBytes (sub b (4 * t) 4) (errBytes e), ps ++ [i])
    | _, _ => none) (some ([], []))

/-! Corrections (R553, R555). -/

/-- A line corrected in a position joins the count of its one-second window; at the threshold the device is suspect. -/
def suspect (st : State) (p : Nat) (rank : Bool) (pos : Nat) : State :=
  let sec := elNs st / 1000000000
  let st := if st.mee.suspectSec = sec then st else modMee st (fun m => { m with suspects := [], suspectSec := sec })
  let key := 20 * (p % 4) + 10 * b2n rank + pos
  let old := st.mee.suspects.getD key []
  if old.contains p then st
  else
    let st := modMee st (fun m => { m with suspects := m.suspects.put key (p :: old) })
    let thr := max 1 (fldA st Reg.drcCtl Fld.drcCtl_SUSPECT_THR)
    let rested := match st.mee.suspectAt.get? key with
      | some a => decide (a + 60000000000 ≤ elNs st)
      | none => true
    if decide (thr ≤ old.length + 1) && rested then
      raise (count (modMee st (fun m => { m with suspectAt := m.suspectAt.put key (elNs st) })) (Reg.drcCnt 6))
        { block := 11, index := 0, ps := [p % 4, b2n rank, pos] }
    else st

/-- One corrected beat: counted and recorded. -/
def corrected (p : Nat) (rank patrol : Bool) (st : State) (pos : Nat) : State :=
  let st := count st (Reg.drcCnt (p % 4))
  let st := wr st Reg.drcCeLast (word [(Fld.drcCeLast_SUBCH, p % 4), (Fld.drcCeLast_RANK, b2n rank),
    (Fld.drcCeLast_POS, pos), (Fld.drcCeLast_PATROL, b2n patrol)])
  suspect (wr st Reg.drcCeLine (BitVec.ofNat 32 p)) p rank pos

/-- Cause of MEE_FAIL for an uncorrectable beat. -/
def ueCause (st : State) (p : Nat) : Nat :=
  match lineKind st p with | .data _ => 1 | .tag _ => 2 | _ => 3

/-- The burst of line `p`: corrected, counted, rewritten with the corrected bytes when a beat was; or a cause. -/
def readBurst (st : State) (p : Nat) (rank patrol : Bool) (errs : List BeatErr) : Except (Nat × Nat) (Bytes × State) :=
  match decodeLine (dramLine st p) errs with
  | none => .error (ueCause st p, p)
  | some (b, ps) =>
    let st := ps.foldl (corrected p rank patrol) st
    .ok (b, if ps.isEmpty then st else modMee st (fun m => { m with dram := m.dram.put p b }))

/-! Reads (R549, R551, R552). -/

/-- Bytes go to their requester; in twin mode at the start of epoch n + 2 (R552). -/
def meeRelease (st : State) (p : Nat) (bs : Bytes) : State :=
  let st := count st (Reg.meeCnt 0)
  if st.img.content.twin then modMee st (fun m => { m with held := m.held ++ [(st.twin.epoch + 2, p, bs)] })
  else modMee st (fun m => { m with lastRead := bs })

/-- The bytes a reader gets: those that wait in the write-back cache over those of the line (R551). -/
def overWb (st : State) (i : Nat) (b : Bytes) : Bytes :=
  match st.mee.wb.get? i with
  | some w => mergeLine w.mask b w.bytes
  | none => b

/-- Data line `i`, its burst having given `c`: verified and decrypted under its counter. -/
def openData (st : State) (i : Nat) (c : Bytes) : Except (Nat × Nat) Bytes :=
  let ctr := ctrOf st 0 i
  if dataTag st i ctr c ≠ sub (dramLine st (tagLine st i)) (8 * (i % 8)) 8 then .error (4, i)
  else .ok (xorBytes c (meeStream st i ctr))

/-- A tag line whose burst gave `b`: every tag of a written line is the right one. -/
def tagsOk (st : State) (k : Nat) (b : Bytes) : Except (Nat × Nat) State :=
  match fetchCtr st 0 (8 * k) with
  | .error e => .error e
  | .ok st =>
    if (List.range 8).all (fun j =>
        let i := 8 * k + j
        ctrOf st 0 i == 0 || dataTag st i (ctrOf st 0 i) (dramLine st i) == sub b (8 * j) 8)
    then .ok st else .error (4, meeData st + k)

/-- An integrity failure, or an access that waits (cause 0). -/
def meeEnd (st : State) (r : Except (Nat × Nat) State) : State :=
  match r with
  | .ok st => st
  | .error (c, p) => if c = 0 then st else meeFailAt st c p

/-- The read of a line completes. -/
def meeReadDone (p : Nat) (rank : Bool) (errs : List BeatErr) (st : State) : State :=
  if !st.mee.ready || st.glb.halted || (rank && !st.img.content.dramRanks) then st
  else
    match lineKind st p with
    | .unused => st
    | .data i =>
      match fetchCtr st 0 i with
      | .error e => meeEnd st (.error e)
      | .ok st =>
        if ctrOf st 0 i = 0 then meeRelease st p (overWb st i (List.replicate 64 0))
        else
          match readBurst st p rank false errs with
          | .error e => meeEnd st (.error e)
          | .ok (c, st) =>
            match openData st i c with
            | .error e => meeEnd st (.error e)
            | .ok b => meeRelease st p (overWb st i b)
    | .tag k =>
      if !st.mee.dram.has p then st
      else
        match readBurst st p rank false errs with
        | .error e => meeEnd st (.error e)
        | .ok (b, st) => meeEnd st (tagsOk st k b)
    | .node l n =>
      match fetchCtr st l n with
      | .error e => meeEnd st (.error e)
      | .ok st =>
        if st.mee.cache.has p then st
        else if ctrOf st l n = 0 then meeEnd st (takeNode st l n [])
        else
          match readBurst st p rank false errs with
          | .error e => meeEnd st (.error e)
          | .ok (b, st) => meeEnd st (takeNode st l n b)

def execMeeReadDone (p : Nat) (rank : Bool) (errs : List BeatErr) (st : State) : Out := .next (meeReadDone p rank errs st)

/-- The counter of a line comes from the cache or from the tree (R554); a tag line has none. -/
def patrolCtr (st : State) (p : Nat) : Except (Nat × Nat) State :=
  match lineKind st p with
  | .data i => fetchCtr st 0 i
  | .node l n => fetchCtr st l n
  | _ => .ok st

/-- The patrol scrub reads a written line and corrects it (R553, R554). -/
def patrol (p : Nat) (rank : Bool) (errs : List BeatErr) (st : State) : State :=
  if !st.mee.ready || st.glb.halted || (rank && !st.img.content.dramRanks) || !flagA st Reg.drcCtl Fld.drcCtl_PATROL_EN ||
      !st.mee.dram.has p then st
  else
    match patrolCtr st p with
    | .error e => meeEnd st (.error e)
    | .ok st =>
      match readBurst (count st (Reg.drcCnt 4)) p rank true errs with
      | .error e => meeEnd st (.error e)
      | .ok (_, st) => st

def execPatrolScrub (p : Nat) (rank : Bool) (errs : List BeatErr) (st : State) : Out := .next (patrol p rank errs st)

/-! Writes (R546-R548, R550). -/

/-- A physical line may be written again: 1.024 µs have passed (R547). -/
def mayWrite (st : State) (p : Nat) : Bool :=
  match st.mee.lastWrite.get? p with
  | some a => decide (a + 1024 ≤ elNs st)
  | none => true

def dramWrite (st : State) (p : Nat) (b : Bytes) : State :=
  modMee st (fun m => { m with dram := m.dram.put p b, lastWrite := m.lastWrite.put p (elNs st) })

/-- Data line `i` goes out under its next counter, with its tag. -/
def writeData (st : State) (i : Nat) (w : WbLine) : Except (Nat × Nat) State :=
  match fetchCtr st 0 i with
  | .error e => .error e
  | .ok st =>
    let ctr := ctrOf st 0 i
    let part := w.mask != BitVec.allOnes 64
    if ctr = 2 ^ 56 - 1 then .error (6, i)
    else
      match (if part && decide (ctr ≠ 0) then openData st i (dramLine st i) else .ok (List.replicate 64 0)) with
      | .error e => .error e
      | .ok old =>
        let c := xorBytes (mergeLine w.mask old w.bytes) (meeStream st i (ctr + 1))
        let t := tagLine st i
        let old := dramLine st t
        let tags := old.take (8 * (i % 8)) ++ dataTag st i (ctr + 1) c ++ old.drop (8 * (i % 8) + 8)
        let st := dramWrite (dramWrite (setCtr st 0 i (ctr + 1)) i c) t tags
        let st := count (modMee st (fun m => { m with wb := m.wb.del i })) (Reg.meeCnt 1)
        .ok (if part then count st (Reg.meeCnt 2) else st)

/-- A dirty node goes out of the cache to DRAM under its next counter (R546). -/
def writeNode (st : State) (l n : Nat) (x : NodeLine) : Except (Nat × Nat) State :=
  match fetchCtr st l n with
  | .error e => .error e
  | .ok st =>
    let p := nodeLine st l n
    let ctr := ctrOf st l n
    if ctr = 2 ^ 56 - 1 then .error (6, p)
    else
      let b := nodeBytes x.ctrs
      let st := dramWrite (setCtr st l n (ctr + 1)) p (b ++ nodeTag st p (ctr + 1) b)
      .ok (modMee st (fun m => { m with cache := m.cache.put p { x with dirty := false } }))

/-- The write-back cache or the counter cache writes line `p` to DRAM. A failed read-modify-write is discarded (R550). -/
def meeWriteBack (p : Nat) (st : State) : State :=
  if !st.mee.ready || st.glb.halted || !mayWrite st p then st
  else
    match lineKind st p with
    | .data i =>
      match st.mee.wb.get? i with
      | none => st
      | some w =>
        if !mayWrite st (tagLine st i) then st
        else
          match writeData st i w with
          | .ok st => st
          | .error (c, q) =>
            if c = 0 then st else meeFailAt (modMee st (fun m => { m with wb := m.wb.del i })) c q
    | .node l n =>
      match st.mee.cache.get? p with
      | some x => if x.dirty then meeEnd st (writeNode st l n x) else st
      | none => st
    | _ => st

def execMeeWriteBack (p : Nat) (st : State) : Out := .next (meeWriteBack p st)

/-! Archive commands (R559-R562, Table 14-8). -/

def arcDone (w : Word) (code : Nat) (st : State) : State :=
  cmdDone st Reg.meeArcCmd Fld.meeArcCmd_RESULT Fld.meeArcCmd_OP w code
def arcEntry (w : Word) : Nat := getF w Fld.meeArcCmd_ENTRY
/-- The slot that MEE_ARC_SEL names. -/
def selSlice (st : State) : SliceId := Fin.ofNat 4 (fld st Reg.meeArcSel Fld.meeArcSel_SLICE)
def selCh (st : State) : ChIx := Fin.ofNat 16384 (fld st Reg.meeArcSel Fld.meeArcSel_CHANNEL)
def selAn (st : State) : An := Fin.ofNat 4 (fld st Reg.meeArcSel Fld.meeArcSel_AN)

/-- PARK copies a LOADED slot into a free entry and empties the slot (R559). -/
def arcPark (w : Word) (st : State) : State :=
  let s := selSlice st
  let ch := selCh st
  let an := selAn st
  let st := if st.mee.ready && sliceOn st s then slotCheck (boundary st s ch none) s ch an else st
  let c := chOf st s ch
  let x := slotOf st s ch an
  let e := arcEntry w
  let on := sliceEnabled st s
  let (code, st) := pickCode st
    [(!st.mee.ready, 7), (!on, 3), (on && (x.state != .loaded || st.mee.arc.has e || instRefusal st c.inst != 0), 2),
     (on && x.state == .loaded && x.keySrc, 5)]
  if code ≠ 0 then arcDone w code st
  else
    let st := arcPut st e { inst := c.inst, dirRx := c.dirRx, suite := c.suite, key := x.key, salt := x.salt, ssci := x.ssci
                            pn := x.pn }
    arcDone w 0 (count (slotEmpty st s ch an) (Reg.meeCnt 4))

/-- LOAD acts as an SA_LOAD with the entry's key, salt, SSCI and PN (R560); the causes of that SA_LOAD answer SAE. -/
def arcLoad (w : Word) (st : State) : State :=
  let s := selSlice st
  let ch := selCh st
  let an := selAn st
  let st := if st.mee.ready && sliceOn st s then slotCheck (boundary st s ch none) s ch an else st
  let c := chOf st s ch
  let on := sliceEnabled st s
  match st.mee.arc.get? (arcEntry w) with
  | none =>
    let (code, st) := pickCode st [(!st.mee.ready, 7), (!on, 3), (true, 2)]
    arcDone w code st
  | some x =>
    let okCh := c.valid && !c.eccFail
    let (sae, st) := pickCode st
      ([(!okCh, 3), (okCh && ((slotOf st s ch an).state != .empty || c.epochMode), 2),
        (okCh && decide ((inst st c.inst).shares[s].assocs ≤ assocsOf st s c.inst), 7)] ++
       (if okCh then saeState st c.inst else []))
    let (code, st) := pickCode st
      [(!st.mee.ready, 7), (!on, 3), (on && c.valid && (c.dirRx != x.dirRx || c.suite != x.suite), 3),
       (on && c.valid && c.inst != x.inst, 4), (on && decide (sae ≠ 0), 6)]
    let st := setF st Reg.meeArcStat Fld.meeArcStat_SAE_RESULT (if code = 6 then sae else 0)
    if code ≠ 0 then arcDone w code (if code = 6 then stateRecord st sae 13 14 0 s c.inst else st)
    else
      startInstall st 2 1 s ch an x.key x.salt x.ssci x.pn false false 0
        (fun st => cmdBusy st Reg.meeArcCmd Fld.meeArcCmd_OP w)
        (fun st => arcDone w 6 (setF st Reg.meeArcStat Fld.meeArcStat_SAE_RESULT 12))

/-- READ shows an entry's status (MEE_ARC_STAT). -/
def arcRead (w : Word) (st : State) : State :=
  let e := st.mee.arc.get? (arcEntry w)
  let (code, st) := pickCode st [(!st.mee.ready, 7), (e.isNone, 2)]
  match e with
  | some x =>
    if code ≠ 0 then arcDone w code st
    else arcDone w 0 (wr st Reg.meeArcStat (word [(Fld.meeArcStat_VALID, 1), (Fld.meeArcStat_DIR, b2n x.dirRx),
      (Fld.meeArcStat_SUITE, x.suite.val), (Fld.meeArcStat_SAE_RESULT, fld st Reg.meeArcStat Fld.meeArcStat_SAE_RESULT)]))
  | none => arcDone w code st

/-- DELETE frees and zeroises an entry. -/
def arcDelete (w : Word) (st : State) : State :=
  let (code, st) := pickCode st [(!st.mee.ready, 7), (!st.mee.arc.has (arcEntry w), 2)]
  arcDone w code (if code = 0 then arcFree st (arcEntry w) else st)

/-- A command written to MEE_ARC_CMD, by OP; other codes are no action. -/
def arcCmd (w : Word) (st : State) : State :=
  match getF w Fld.meeArcCmd_OP with
  | 1 => arcPark w st
  | 2 => arcLoad w st
  | 3 => arcRead w st
  | 4 => arcDelete w st
  | _ => arcDone w (fld st Reg.meeArcCmd Fld.meeArcCmd_RESULT) st

/-- The command with OP `op` and entry `e` written to MEE_ARC_CMD. -/
def arcOp (op : Nat) (e : BitVec 20) (eff : Word → State → State) (st : State) : Out :=
  let w := word [(Fld.meeArcCmd_OP, op), (Fld.meeArcCmd_ENTRY, e.toNat)]
  .next (cmdPF Reg.meeArcCmd Fld.meeArcCmd_RESULT w (eff w) st)

/-- The write of MEE_ARC_SEL that names the slot. -/
def arcSelect (s : SliceId) (ch : ChIx) (an : An) (st : State) : State :=
  let w := word [(Fld.meeArcSel_SLICE, s.val), (Fld.meeArcSel_AN, an.val), (Fld.meeArcSel_CHANNEL, ch.val)]
  viaPF Reg.meeArcSel w (fun st => wr st Reg.meeArcSel w) st

def execPark (e : BitVec 20) (s : SliceId) (ch : ChIx) (an : An) (st : State) : Out :=
  arcOp 1 e arcPark (arcSelect s ch an st)
def execArcLoad (e : BitVec 20) (s : SliceId) (ch : ChIx) (an : An) (st : State) : Out :=
  arcOp 2 e arcLoad (arcSelect s ch an st)
def execArcRead (e : BitVec 20) (st : State) : Out := arcOp 3 e arcRead st
def execArcDelete (e : BitVec 20) (st : State) : Out := arcOp 4 e arcDelete st

/-! On-chip memory (20 R701-R703, Table 20-3). -/

/-- Set the on-chip part of a counter to 0 (20 R702): `kind` 0 slot, 1 channel, 2 line port, 3 client port. -/
def ctrUe (kind : Nat) (x : SliceSt) (key : Nat) : SliceSt :=
  let z (m : NMap Ctr) : NMap Ctr := if m.has key then m.put key { m.getD key {} with chip := 0 } else m
  match kind with
  | 0 => { x with slotCtr := z x.slotCtr }
  | 1 => { x with chCtr := z x.chCtr }
  | 2 => { x with lpCtr := z x.lpCtr }
  | _ => { x with cpCtr := z x.cpCtr }

/-- Mark the `n`-th frame of a list, by `f`; none if there is no such frame. -/
def markNth {α : Type} (l : List α) (n : Nat) (f : α → α) : Option (List α) := (l[n]?).map (fun x => l.set n (f x))

/-- The frame at place `n` of region `r` has a bad cell: regions 0-7 the queues of the client ports, 8-15 of the line ports,
16 frames that wait for their end, 17 frames in an engine. -/
def cellBad (x : SliceSt) (r n : Nat) : Option SliceSt :=
  let q (ps : Vector PortSt 8) (k : PortIx) : Option (Vector PortSt 8) :=
    (markNth ps[k].queue n (fun f => { f with cellErr := true })).map (fun l => ps.set k { ps[k] with queue := l })
  if r < 8 then (q x.cPorts (Fin.ofNat 8 r)).map (fun ps => { x with cPorts := ps })
  else if r < 16 then (q x.lPorts (Fin.ofNat 8 r)).map (fun ps => { x with lPorts := ps })
  else if r = 16 then
    (markNth x.waiting n (fun w => (w.1, { w.2 with frame := { w.2.frame with cellErr := true } }))).map
      (fun l => { x with waiting := l })
  else (markNth x.engine n (fun f => { f with cellErr := true })).map (fun l => { x with engine := l })

/-- A buffer cell is bad: its frame is dropped, or cut, and counted, when it comes to leave; an unused cell is counted at
once (20 R702). -/
def cellScrub (st : State) (s : SliceId) (ix : Nat) : State :=
  match cellBad (sl st s) (ix / 65536) (ix % 65536) with
  | some x => modSl st s (fun _ => x)
  | none => sramUe st 9 s.val (ix % 65536)

/-- The scrub finds an uncorrectable word: Table 20-3 by code. `ix` names the entry: slot 4 channel + AN; rule entry with
8,192 added on the verify path; cell 2^16 × region + place; counter 2^20 × kind + key. -/
def scrubUe (code : Fin 14) (s : SliceId) (ix : Nat) (st : State) : State :=
  match code.val with
  | 0 => st
  | 1 => slotEcc st s (Fin.ofNat 16384 (ix / 4)) (Fin.ofNat 4 ix)
  | 2 => chanEcc st s (Fin.ofNat 16384 ix)
  | 3 => hashEcc st s ix
  | 4 => nodeEcc st ix
  | 5 => parityError (sramUncorr st) s .mac ix
  | 6 => parityError (sramUncorr st) s .lpm ix
  | 7 => sramUe (modRules st s (if ix < 8192 then .client else .line) (fun m => m.del (ix % 8192))) 7 s.val (ix % 8192)
  | 8 => sramUe (modFrags st s (fun l => l.eraseIdx ix)) 8 s.val ix
  | 9 => cellScrub st s ix
  | 10 => sramUe (modSl st s (fun x => ctrUe (ix / 2 ^ 20) x (ix % 2 ^ 20))) 10 s.val (ix % 2 ^ 20)
  | 11 => carmineHalt (sramUncorr st) 5 11 s.val ix 39 (Config.detail 39 [5])
  | 12 => if st.glb.halted then st else meeFail (sramUncorr st) 7 7 0 0
  | _ => carmineHalt (sramUncorr st) 9 13 s.val ix 39 (Config.detail 39 [9])

/-- A correctable word is written back and counted, also by its block (20 R701, 06 R264, 07 R307). -/
def scrubCe (code : Fin 14) (s : SliceId) (st : State) : State :=
  let st := count st (Reg.glbFltCnt 0)
  match code.val with
  | 1 => count st (Reg.saeCnt s 2)
  | 2 => count st (Reg.saeCnt s 3)
  | 3 => count st (Reg.saeCnt s 4)
  | 4 => count st (Reg.ktrCnt 3)
  | _ => st

/-- Codes whose memory belongs to a slice. -/
def codeOfSlice (code : Fin 14) : Bool :=
  (decide (1 ≤ code.val) && decide (code.val ≤ 3)) || (decide (5 ≤ code.val) && decide (code.val ≤ 10))

/-- The background scrub meets a SECDED word with an error. MAC and LPM tables have parity and no correction. -/
def execSramScrub (code : Fin 14) (s : SliceId) (ix : Nat) (ue : Bool) (st : State) : Out :=
  .next (if code = 0 ∨ (codeOfSlice code ∧ !sliceOn st s) ∨ st.glb.halted then st
    else if ue then scrubUe code s ix st
    else if code = 5 ∨ code = 6 then st
    else scrubCe code s st)

end Sys2Proof.Machine
end

