-- ==== Sys2Proof/Machine/Tamper.lean ====
section
/-!
DEFINITION. The tamper unit and the Verdigris log (15): alarm groups and their responses, the start-up check, record writes,
and the commands of TMP_CMD, TMP_RESP and EVL_CMD.
-/
namespace Sys2Proof.Machine

def fins30 : List (Fin 30) := (List.range 30).map (fun i => Fin.ofNat 30 i)

/-- A source is watched: case inputs and loops that the image enables, and sources 24-29 always (R565). -/
def tmpWatched (st : State) (n : Fin 30) : Bool :=
  if n.val < 8 then st.img.content.caseEn.getLsbD n.val
  else if n.val < 24 then st.img.content.loopEn.getLsbD (n.val - 8)
  else true

def modSrc (st : State) (n : Fin 30) (f : TmpSrc → TmpSrc) : State := modTmp st (fun t => { t with src := upd t.src n f })

/-- ns since PWRFAIL_N fell, in the hold-up state (17 R639). -/
def heldUpFor (st : State) : Nat := if st.glb.holdup then elNs st - st.glb.pwrfailAt else 0

/-! Alarm groups (R570-R580, R583). -/

/-- An alarm: the source, its own response, and what its record names. -/
structure Alarm where
  n : Fin 30
  resp : Fin 4
  items : List Nat

/-- A source trips: an alarm unless its cause has been present within 1 ms; VCORE and GLITCH are ignored late in the
hold-up (R583). -/
def tripped (st : State) (n : Fin 30) (resp : Fin 4) (items : List Nat) : Option Alarm × State :=
  if !tmpWatched st n || ((n == 24 || n == 28) && st.glb.holdup && decide (150000 ≤ heldUpFor st)) then (none, st)
  else if st.tmp.src[n].present then (none, st)
  else (some { n := n, resp := resp, items := items }, count (modSrc st n (fun x => { x with present := true })) (Reg.tmpCnt 0))

/-- The detail of an alarm's record, none where the rate limit leaves it out (R580); the first record of a second carries the
number suppressed in the one before. -/
def rated (st : State) (a : Alarm) : Option Bytes × State :=
  let sec := elNs st / 1000000000
  let x := st.tmp.src[a.n]
  let x := if x.secStart = sec then x else { x with secStart := sec, secCount := 0 }
  if 16 ≤ x.secCount then
    (none, count (modSrc st a.n (fun _ => { x with suppressed := x.suppressed + 1 })) (Reg.tmpCnt 2))
  else
    let d := Config.detail a.n.val (a.items ++ [if x.secCount = 0 then x.suppressed else 0])
    (some d, modSrc st a.n (fun _ => { x with secCount := x.secCount + 1, suppressed := if x.secCount = 0 then 0 else x.suppressed }))

/-- The strongest response of a group. -/
def strongest (g : List Alarm) : Fin 4 := g.foldl (fun r a => if r < a.resp then a.resp else r) 0

/-- The records of a group, in source order (R577). -/
def groupRecords (st : State) (g : List Alarm) (start : Bool) : State :=
  let executed := strongest g
  let (ds, st) := g.foldl (fun (p : List (Alarm × Bytes) × State) a =>
    match rated p.2 a with
    | (some d, st) => (p.1 ++ [(a, d)], st)
    | (none, st) => (p.1, st)) ([], st)
  ds.zipIdx.foldl (fun st (p : (Alarm × Bytes) × Nat) =>
    logPut st { bootNs := BitVec.ofNat 64 (elNs st), tsuNs := nowNs st, source := Fin.ofNat 256 p.1.1.n.val
                flags := BitVec.ofNat 8 (logFlags st + 32 * b2n start + 4 * executed.val + p.1.1.resp.val)
                groupSize := BitVec.ofNat 8 ds.length, groupIndex := BitVec.ofNat 8 p.2, detail := padTo 24 p.1.2
                zeroise := executed == 3 && p.2 == 0 }) st

/-- SQUELCH: device-wide Umber, ownership released, START in twin mode (R571, R575); nothing where Umber is in force for a
stronger cause. -/
def squelch (st : State) (g : List Alarm) : State :=
  if st.glb.halted || st.glb.holdup then st
  else
    let st := g.foldl (fun st a => if a.resp = 1 then modSrc st a.n (fun x => { x with squelching := true }) else st) st
    if st.tmp.squelched then st
    else modTmp (enterUmber (twinSquelch st)) (fun t => { t with squelched := true })

/-- HALT or ZEROISE (R571, R576): the Carmine halt, unless in force already. -/
def tamperHalt (st : State) (g : List Alarm) (zero : Bool) : State :=
  let r := strongest g
  let code := ((g.find? (fun a => a.resp == r)).map (fun a => a.n.val)).getD 0
  let st := if st.glb.halted then st else haltCore st (if zero then 2 else 1) code 0 0
  if zero && !st.glb.zeroised then
    modTmp st (fun t => { t with zeroisePend := t.zeroisePend.or (some (elNs st)) }) else st

/-- The steps of Table 15-5 for one group of alarms; alarms that raise no record late in the hold-up are counted (R583). -/
def alarmGroup (st : State) (g : List Alarm) (start : Bool) : State :=
  if g.isEmpty then st
  else
    let r := strongest g
    let was := st.glb.halted
    let st := match r with
      | 0 => st
      | 1 => squelch st g
      | 2 => tamperHalt st g false
      | 3 => tamperHalt st g true
    let st := if st.tmp.inForce < r then modTmp st (fun t => { t with inForce := r }) else st
    let st := if st.glb.holdup && decide (150000 ≤ heldUpFor st) then countN st (Reg.tmpCnt 3) g.length
      else groupRecords st g start
    if st.glb.halted then (if was then st else haltEvent st st.glb.cause)
    else g.foldl (fun st a => raise st { block := 6, index := 0, ps := [a.n.val, r.val] }) st

/-- Alarms of sources that trip in one tick, in source order, with `items` for each record's detail. -/
def trips (st : State) (srcs : List (Fin 30 × Fin 4 × List Nat)) : List Alarm × State :=
  fins30.foldl (fun (p : List Alarm × State) n =>
    match srcs.find? (fun x => x.1 == n) with
    | none => p
    | some x =>
      match tripped p.2 n x.2.1 x.2.2 with
      | (some a, st) => (p.1 ++ [a], st)
      | (none, st) => (p.1, st)) ([], st)

/-- Detector A (0), B (1) or both (2) report the trip of source `n`, which two detectors watch (R569). -/
def detReport (st : State) (n : Fin 30) (d : Fin 3) : State :=
  if 24 ≤ n.val || !tmpWatched st n then st
  else modSrc st n (fun x => { x with
    alone := if d = 2 then none
      else if x.present then x.alone.filter (fun a => a.1 == d)
      else some (d, elNs st) })

/-- Sources trip in one tick of the tamper oscillator, each by detector A (0), B (1) or both (2) (R576). -/
def execTamperTrip (srcs : List (Fin 30 × Fin 3)) (st : State) : Out :=
  let st := srcs.foldl (fun st x => detReport st x.1 x.2) st
  let (g, st) := trips st (srcs.map (fun x => (x.1, st.tmp.resp[x.1], [x.2.val])))
  .next (alarmGroup st g false)

/-- One detector of source `n` has reported its trip for 10 ms, the other not (R569). -/
def detsDisagree (st : State) (n : Fin 30) (det : Fin 3) : Bool :=
  match st.tmp.src[n].alone with
  | some (d, since) => d == det && decide (since + 10000000 ≤ elNs st)
  | none => false

/-- One detector of a case input or loop has reported a trip for 10 ms and the other has not: source 29 trips (R569). -/
def execMonitor (n : Fin 30) (det : Fin 3) (st : State) : Out :=
  .next (if detsDisagree st n det then
    let st := modSrc st n (fun x => { x with alone := none })
    let (g, st) := trips (count st (Reg.tmpCnt 1)) [(29, st.tmp.resp[(29 : Fin 30)], [n.val, det.val])]
    alarmGroup st g false
  else st)

/-- The cause of a source has been absent for 1 ms (R570). -/
def execCauseCleared (n : Fin 30) (st : State) : Out :=
  .next (modSrc st n (fun x => { x with present := false, alone := none }))

/-! ZEROISE (R571, R572, Table 15-4). -/

def zeroed (bs : Bytes) : Bytes := List.replicate bs.length 0

/-- The keys of one slice. -/
def zeroSlice (x : SliceSt) : SliceSt :=
  let pos (k : KeyPos) : KeyPos := { k with key := zeroed k.key, h := zeroed k.h }
  { x with
    chans := x.chans.map (fun p => (p.1, { p.2 with slots := p.2.slots.map (fun q => { q with key := zeroed q.key, h := zeroed q.h }) }))
    ctf := { x.ctf with trib := x.ctf.trib.map (fun p =>
      (p.1, { p.2 with pos := p.2.pos.map pos, installing := p.2.installing.map (fun i => (i.1, pos i.2.1, i.2.2)) })) } }

/-- Every store of Table 15-4; requests on their way to the journal hold keys too. -/
def zeroKeys (st : State) : State :=
  let st := { st with slices := st.slices.map zeroSlice, restore := none, capBytes := []
                      ktr := { st.ktr with nodes := [], capNode := none } }
  let st := modJnl st (fun j => { j with reqs := [], writing := none, applies := [] })
  let st := (List.range 8).foldl (fun st i => wr (wr st (Reg.ktrKey i) 0) (Reg.ktrMord i) 0) st
  let st := slices4.foldl clearSaeKey st
  let st := modTwin st (fun t => { t with keyed := false, sessKey := [] })
  modMee st (fun m => { m with ready := false, km := zeroed m.km, hm := zeroed m.hm, cache := [], root := [], wb := []
                               arc := m.arc.map (fun p => (p.1, { p.2 with key := zeroed p.2.key })) })

/-- Clearing is complete; it begins with the first record of the group, or 11 µs after the alarm (R576). -/
def execZeroiseDone (st : State) : Out :=
  .next (
    let due := match st.tmp.zeroisePend with | some a => decide (a + 11000 ≤ elNs st) | none => false
    if st.tmp.zeroising || due then
      modGlb (modTmp (zeroKeys st) (fun t => { t with zeroisePend := none, zeroising := false })) (fun g => { g with zeroised := true })
    else st)

/-! Start-up check (R568, R581, R582). -/

/-- A loop that the image runs with a PRBS. -/
def prbsLoop (st : State) (i : Nat) : Bool := st.img.content.loopEn.getLsbD i && st.img.content.loopPrbs.getLsbD i
/-- A measured delay as DELAY holds it; what a delay above 31 ticks leaves there is open. -/
def delayField (d : BitVec 8) : BitVec 5 := if d.toNat ≤ 31 then d.setWidth 5 else Config.loopDelay d
/-- The cause of source `n` is present at the check: that of a PRBS loop also when its delay exceeds 31 ticks (21 R734). -/
def causeAt (st : State) (causes : BitVec 30) (delays : Vector (BitVec 8) 16) (n : Fin 30) : Bool :=
  causes.getLsbD n.val ||
  (decide (8 ≤ n.val) && decide (n.val < 24) && prbsLoop st (n.val - 8) && decide (31 < (delays.toList.getD (n.val - 8) 0).toNat))

/-- The check ends: loop delays, CHECKED, and the alarms of the causes present, with the image's responses. -/
def execStartupCheckDone (causes : BitVec 30) (delays : Vector (BitVec 8) 16) (st : State) : Out :=
  .next (if !booted st || st.tmp.checked then st
    else
      let st := modTmp st (fun t => { t with
        checked := true, delays := delays.mapFinIdx (fun i d _ => if prbsLoop st i then delayField d else 0) })
      let (g, st) := trips st ((fins30.filter (causeAt st causes delays)).map (fun n => (n, st.img.content.resp[n], [2])))
      alarmGroup st g true)

/-! TMP_RESP and TMP_CMD (R573, R574, R591). -/

/-- A write of TMP_RESP_0 or _1: after LOCK a field takes the stronger of both. -/
def tmpRespSet (hi : Bool) (v : Word) (st : State) : State :=
  modTmp st (fun t => { t with resp := t.resp.mapFinIdx (fun i r _ =>
    if hi == decide (16 ≤ i) then
      let n : Fin 4 := Fin.ofNat 4 (v.toNat >>> (2 * (i % 16)))
      if t.locked && decide (n < r) then r else n
    else r) })
def respReg (hi : Bool) : Nat := if hi then Reg.tmpResp1 else Reg.tmpResp0
def execTmpRespWrite (hi : Bool) (v : Word) (st : State) : Out := .next (viaPF (respReg hi) v (tmpRespSet hi v) st)

def tmpResult (code : Nat) (st : State) : State := setF st Reg.tmpCmd Fld.tmpCmd_RESULT code

def tmpLock (st : State) : State :=
  if st.tmp.locked then tmpResult 3 st
  else tmpResult 0 (logRec (modTmp st (fun t => { t with locked := true })) 41 (Config.detail 41 []))

/-- ACK ends a SQUELCH when no cause of it has been present for 1 ms (R574). -/
def tmpAck (st : State) : State :=
  if !st.tmp.squelched then tmpResult 2 st
  else if st.tmp.src.toList.any (fun x => x.squelching && x.present) then tmpResult 1 st
  else
    let st := modTmp st (fun t => { t with squelched := false, src := t.src.map (fun x => { x with squelching := false }) })
    tmpResult 0 (logRec st 42 (Config.detail 42 []))

/-- A write of TMP_CMD. -/
def tmpCmd (w : Word) (st : State) : State :=
  match bitW w 31, bitW w 30 with
  | true, true => tmpResult 4 st
  | true, false => tmpLock st
  | false, true => tmpAck st
  | false, false => st

def tmpWord (f g : Field) (other : Bool) : Word := word [(f, 1), (g, b2n other)]
def execLock (other : Bool) (st : State) : Out :=
  let w := tmpWord Fld.tmpCmd_LOCK Fld.tmpCmd_ACK other
  .next (viaPF Reg.tmpCmd w (tmpCmd w) st)
def execTamperAck (other : Bool) (st : State) : Out :=
  let w := tmpWord Fld.tmpCmd_ACK Fld.tmpCmd_LOCK other
  .next (viaPF Reg.tmpCmd w (tmpCmd w) st)

/-! The Verdigris log (R584-R589). -/

def logBase : Nat := 0x02800000
def logSize : Nat := 65536
def logRead (st : State) (p : Nat) : Bytes := memRead st.mram (logBase + 64 * p) 64
def logWrite (st : State) (p : Nat) (b : Bytes) : State := { st with mram := memWrite st.mram (logBase + 64 * p) b }
def bootCount (st : State) : Nat := leVal (memRead st.mram mramBootAddr 4)

/-- CHAIN of a record's bytes 0-47 at position `p`. -/
def logChain (st : State) (p : Nat) (b : Bytes) : Bytes :=
  cmac st.ktr.macKey ((if p = 0 then List.replicate 16 0 else (logRead st (p - 1)).drop 48) ++ b)

/-- A record as Table 15-6 lays it out. -/
def logBytes (st : State) (r : LogRec) : Bytes :=
  let b := leBytes 4 st.evl.nextSeq.toNat ++ leBytes 4 (bootCount st) ++ leBytes 8 r.bootNs.toNat ++ leBytes 4 r.tsuNs.toNat ++
    [BitVec.ofNat 8 r.source.val, r.flags, r.groupSize, r.groupIndex] ++ padTo 24 r.detail
  b ++ logChain st st.evl.head b

def evlDone (w : Word) (code : Nat) (st : State) : State :=
  cmdDone st Reg.evlCmd Fld.evlCmd_RESULT Fld.evlCmd_OP w code

/-- Lose a waiting record for good. -/
def logLose (st : State) (r : LogRec) : State :=
  let st := mramCount st mramLostAddr
  if r.source = 40 ∧ st.evl.appendPend then
    evlDone (rd st Reg.evlCmd) 5 { st with evl := { st.evl with appendPend := false } }
  else st

/-- The head moves on: LOG_NEAR at 61,440; at 65,536 every record that waits is lost (R589). -/
def logAdvance (st : State) : State :=
  let st := { st with evl := { st.evl with head := st.evl.head + 1 } }
  let st := if st.evl.head = 61440 then raise st { block := 7, index := 0 } else st
  if st.evl.head < logSize then st
  else
    let q := st.evl.queue
    q.foldl logLose { st with evl := { st.evl with queue := [], tries := 0 } }

/-- The record of an ARM is written: the injector that still waits for it acts from now on (02 R110, 10 R421). -/
def armRecorded (st : State) (r : LogRec) : State :=
  match r.armOf with
  | none => st
  | some (s, k, ctf) =>
    if st.evl.queue.any (fun q => q.armOf == r.armOf) then st
    else if ctf then modCtfLane st s k (fun x => { x with fi := { x.fi with recorded := x.fi.armed } })
    else modPort st .line s k (fun p => { p with fi := { p.fi with recorded := p.fi.armed } })

/-- A record is committed: an APPEND completes, and a ZEROISE that waits for its group's first record begins. -/
def logCommitted (st : State) (r : LogRec) : State :=
  let st := { st with evl := { st.evl with queue := st.evl.queue.drop 1, nextSeq := st.evl.nextSeq + 1, tries := 0 } }
  let st := if isTamperRec r then modJnl st (fun j => { j with passed := false }) else st
  let st := armRecorded st r
  let st := if r.source = 40 ∧ st.evl.appendPend then
      evlDone (rd st Reg.evlCmd) 0 { st with evl := { st.evl with appendPend := false } }
    else st
  let st := if r.zeroise && st.tmp.zeroisePend.isSome then
      modTmp st (fun t => { t with zeroisePend := none, zeroising := true })
    else st
  logAdvance st

/-- The record read back differs: the same position once more, then the next one; the bytes left are undefined, of the old
ones or the record's in every bit (R586). -/
def logFailed (st : State) (r : LogRec) : State :=
  let old := logRead st st.evl.head
  let new := logBytes st r
  let (m1, st) := draw st
  let (m2, st) := draw st
  let mix := (old.zip (new.zip (m1 ++ m2))).map (fun b => (b.1 &&& ~~~ b.2.2) ||| (b.2.1 &&& b.2.2))
  let st := logWrite st st.evl.head mix
  let second := st.evl.tries % 2 = 1
  let st := { st with evl := { st.evl with tries := st.evl.tries + 1 } }
  if second then logAdvance (count st Reg.evlCnt0) else st

/-- A record may be written: the log is READY, and in the hold-up only as Table 9-6 allows. -/
def logWrites (st : State) (r : LogRec) : Bool :=
  st.evl.ready && decide (st.evl.head < logSize) &&
  (!st.glb.holdup || decide (heldUpFor st < (if r.source.val < 30 then 150000 else 40000)))

/-- The write of the record at the front of the queue has been read back. -/
def logResult (ok : Bool) (r : LogRec) (st : State) : State :=
  if !logWrites st r then st
  else if ok then logCommitted (logWrite st st.evl.head (logBytes st r)) r
  else logFailed st r

def execEvlRecordCommit (ok : Bool) (st : State) : Out :=
  .next (match st.evl.queue with
    | [] => st
    | r :: _ => logResult ok r st)

/-- As EVL_RECORD_COMMIT, for a record of a tamper source (R576). -/
def execTamperRecordCommit (ok : Bool) (st : State) : Out :=
  .next (match st.evl.queue with
    | [] => st
    | r :: _ => if r.source.val < 30 then logResult ok r st else st)

/-- The log has been scanned (R588): head and SEQ follow the last position that is not all zero. -/
def execEvlScanDone (st : State) : Out :=
  .next (if st.evl.ready then st
    else
      let last := st.mram.foldl (fun (m : Option Nat) c =>
        if logBase ≤ c.1 ∧ c.1 < logBase + 64 * logSize then some ((c.1 - logBase) / 64) else m) none
      let st := { st with evl := { st.evl with
        ready := true
        head := match last with | some p => p + 1 | none => 0
        nextSeq := match last with | some p => BitVec.ofNat 32 (leVal ((logRead st p).take 4)) + 1 | none => 0 } }
      if st.evl.head < logSize then st
      else st.evl.queue.foldl logLose { st with evl := { st.evl with queue := [] } })

/-! EVL_CMD (R590, R592). -/

def evlRead (w : Word) (st : State) : State :=
  let p := getF w Fld.evlCmd_INDEX
  if !st.evl.ready then evlDone w 4 st
  else if st.evl.head ≤ p then evlDone w 2 st
  else
    let b := logRead st p
    evlDone w 0 ((List.range 16).foldl (fun st i => wr st (Reg.evlRdata i) (BitVec.ofNat 32 (leVal (sub b (4 * i) 4)))) st)

/-- APPEND: a record of source 40 with the bytes of EVL_SW; it completes with its record (R586). -/
def evlAppend (w : Word) (st : State) : State :=
  if !st.evl.ready then evlDone w 4 st
  else if logFull st then evlDone w 3 st
  else
    let d := ((List.range 6).map (fun i => leBytes 4 (rd st (Reg.evlSw i)).toNat)).flatten
    let st := logRec st 40 d 128
    cmdBusy { st with evl := { st.evl with appendPend := true } } Reg.evlCmd Fld.evlCmd_OP w

/-- What VERIFY finds at position `p`: 0 PASS, 1 FAIL, 2 FOREIGN. -/
def verifyAt (st : State) (p : Nat) : Nat :=
  let b := logRead st p
  if (byteAt b 21).getLsbD 6 != st.debug then 2
  else if logChain st p (b.take 48) = b.drop 48 then 0 else 1

def evlVerify (w : Word) (st : State) : State :=
  let p := getF w Fld.evlCmd_INDEX
  if !st.evl.ready then evlDone w 4 st
  else if st.evl.head ≤ p then evlDone w 2 st
  else
    let rs := (List.range (st.evl.head - p)).map (fun i => (p + i, verifyAt st (p + i)))
    let n (k : Nat) : Nat := countP (fun (r : Nat × Nat) => r.2 == k) rs
    let first := rs.find? (fun r => r.2 == 1)
    let st := wr st (Reg.evlVerify 0) (word [(Fld.evlVerify0_FAILED, b2n first.isSome),
      (Fld.evlVerify0_FIRST_FAIL, (first.map Prod.fst).getD 0)])
    let st := wr st (Reg.evlVerify 1) (word [(Fld.evlVerify1_FAIL, n 1)])
    let st := wr st (Reg.evlVerify 2) (word [(Fld.evlVerify2_FOREIGN, n 2)])
    evlDone w 0 (wr st (Reg.evlVerify 3) (word [(Fld.evlVerify3_PASS, n 0)]))

/-- A command written to EVL_CMD, by OP. -/
def evlCmd (w : Word) (st : State) : State :=
  match getF w Fld.evlCmd_OP with
  | 1 => evlRead w st
  | 2 => evlAppend w st
  | 3 => evlVerify w st
  | _ => evlDone w (fld st Reg.evlCmd Fld.evlCmd_RESULT) st

/-- A write of EVL_CMD: READ and VERIFY are taken in the Carmine halt too (20 R698), and before step 4 of the start-up, when
APPEND is refused with NOT_READY (16 R608). -/
def evlPF (w : Word) (st : State) : State :=
  let reads := getF w Fld.evlCmd_OP = 1 ∨ getF w Fld.evlCmd_OP = 3
  if st.glb.halted ∨ !booted st then
    if st.glb.halted ∧ !reads then st
    else if fld st Reg.evlCmd busyF ≠ 0 then setF st Reg.evlCmd Fld.evlCmd_RESULT 1
    else if reads then evlCmd w st
    else cmdEarly st Reg.evlCmd Fld.evlCmd_RESULT w
  else cmdPF Reg.evlCmd Fld.evlCmd_RESULT w (evlCmd w) st

def evlWord (op : Nat) (ix : BitVec 16) : Word := word [(Fld.evlCmd_OP, op), (Fld.evlCmd_INDEX, ix.toNat)]
def execLogRead (ix : BitVec 16) (st : State) : Out := .next (evlPF (evlWord 1 ix) st)
def execAppend (st : State) : Out := .next (evlPF (evlWord 2 0) st)
def execVerify (ix : BitVec 16) (st : State) : Out := .next (evlPF (evlWord 3 ix) st)

end Sys2Proof.Machine
end

