-- ==== Sys2Proof/Machine/Boot.lean ====
section
/-!
DEFINITION. The Asvas image and start-up (16), and the resets of the whole device and of a slice (17 R634-R637): image checks,
image sources, the commands of IMG_CMD and IMG_SLICE_CMD.
-/
namespace Sys2Proof.Machine

/-! Image checks (R595-R598, Table 16-3). -/

/-- Bytes of an image at most. -/
def imgMax : Nat := 2 ^ 24
def imgLength (b : Bytes) : Nat := leVal (sub b 8 4)
def imgKind (b : Bytes) : Nat := (byteAt b 6).toNat
def imgKeyIx (b : Bytes) : Nat := (byteAt b 7).toNat
def imgSvn (b : Bytes) : Nat := (byteAt b 12).toNat
/-- The image without what follows it in its source. -/
def imgBytes (b : Bytes) : Bytes := b.take (imgLength b)

/-- The formations of Table 2-5: SPEED, WIDTH, rate code and FEC of PCS_PORT_CFG. -/
def formations : List (Nat × Nat × Nat × Nat) :=
  [(0, 0, 1, 0), (1, 0, 2, 0), (1, 0, 2, 1), (2, 0, 3, 2), (3, 2, 2, 1), (3, 1, 3, 2), (3, 0, 4, 2), (4, 2, 3, 2), (4, 1, 4, 2),
   (4, 0, 5, 2), (5, 3, 3, 2), (5, 2, 4, 2), (5, 1, 5, 2), (6, 3, 4, 2), (6, 2, 5, 2), (7, 3, 5, 2)]

def cfgPorts (c : SliceCfg) : Side → Vector PortCfg 8
  | .client => c.cPorts
  | .line => c.lPorts
def cfgLanes (c : SliceCfg) : Side → Vector LaneCfg 8
  | .client => c.cLanes
  | .line => c.lLanes
/-- A CTF line port: its lane is in CTF mode. -/
def cfgCtf (c : SliceCfg) (d : Side) (k : PortIx) : Bool := d == .line && c.lLanes[k].ctf
/-- An enabled L2 port. -/
def cfgL2 (c : SliceCfg) (d : Side) (k : PortIx) : Bool := (cfgPorts c d)[k].enabled && !(cfgPorts c d)[k].l1 && !cfgCtf c d k
/-- The lanes of the port at `k`. -/
def cfgSpan (c : SliceCfg) (d : Side) (k : PortIx) : List PortIx :=
  ports8.filter (fun i => decide (k.val ≤ i.val) && decide (i.val < k.val + 2 ^ (cfgPorts c d)[k].width.val))

/-- A port is formed as R90, R91, R94 and R389 allow. -/
def portForm (c : SliceCfg) (d : Side) (k : PortIx) : Bool :=
  let p := (cfgPorts c d)[k]
  let w := 2 ^ p.width.val
  let rate := (cfgLanes c d)[k].rate.val
  if !p.enabled then true
  else if cfgCtf c d k then
    p.width == 0 && !p.l1 && c.lLanes[k].enabled && rate == (if c.lLanes[k].tilora then 4 else 5) && p.fec == 2
  else
    k.val % w == 0 && decide (k.val + w ≤ 8) && formations.contains (p.speed.val, p.width.val, rate, p.fec.val) &&
    (cfgSpan c d k).all (fun i => (cfgLanes c d)[i].enabled && !(cfgLanes c d)[i].ctf && (cfgLanes c d)[i].rate.val == rate &&
      (i == k || !(cfgPorts c d)[i].enabled)) &&
    (!p.l1 || (d == .client && decide (p.speed.val < 4)))

/-- An L2 port is paired as R26 requires. -/
def pairForm (c : SliceCfg) (d : Side) (k : PortIx) : Bool :=
  let p := (cfgPorts c d)[k]
  let e := otherSide d
  let q := (cfgPorts c e)[p.pair]
  if cfgL2 c d k then p.paired && cfgL2 c e p.pair && q.paired && q.pair == k && q.speed == p.speed else !p.paired

/-- A slice's structure passes the rules that check 8 names. -/
def sliceForm (c : SliceCfg) : Bool :=
  !c.enabled || sides.all (fun d => ports8.all (fun k => portForm c d k && pairForm c d k))

/-- Check 8 of a full image (R6, R26, R90, R91, R94, R389, twin rates, NI, CAP, I_MIN). -/
def contentOk (st : State) (x : ImgContent) : Bool :=
  slices4.all (fun s => sliceForm x.slices[s] && (!x.slices[s].enabled || sliceExists st s)) &&
  (!x.twin || x.twinLanes.toList.all (fun l => l.rate.val == 5)) && decide (1 ≤ x.ni) && decide (x.ni ≤ 256) &&
  decide (x.cap.toNat < 3) && (List.range 16).all (fun i => decide (x.iMin.toList.getD i 0 < x.iMax.toList.getD i 0))

/-- The sections of a body, TYPE of each in order; none where a section header or its length is wrong (R596). -/
def sectionTypes : Nat → Bytes → Option (List Nat)
  | 0, b => if b.isEmpty then some [] else none
  | f + 1, b =>
    if b.isEmpty then some []
    else
      let n := leVal (sub b 2 4)
      if b.length < 8 + n ∨ leVal (sub b 6 2) ≠ 0 then none
      else (sectionTypes f (b.drop (8 + n))).map (fun ts => leVal (sub b 0 2) :: ts)

/-- One DEVICE, four SLICE, one TAMPER, at most one DEFAULTS and one KEYS section, or those of a partial image; END closes the
body (R596). -/
def sectionsOk (part : Bool) (b : Bytes) : Bool :=
  match sectionTypes (b.length / 8 + 1) b with
  | none => false
  | some ts =>
    let n (t : Nat) : Nat := countP (· == t) ts
    let one : Nat := if part then 0 else 1
    n 1 == one && n 2 == 1 + 3 * one && n 3 == one && decide (n 4 ≤ 1) && decide (n 5 ≤ one) && n 6 == 1 &&
    ts.getLast? == some 6 && ts.all (fun t => decide (1 ≤ t) && decide (t ≤ 6))

/-- The form of the header and of the sections; `part`: the slice that a partial image is for. -/
def imgForm (img : ImageSrc) (part : Option SliceId) : Bool :=
  let b := img.bytes
  img.present && decide (352 ≤ b.length) && b.take 6 == [0x41, 0x53, 0x56, 0x53, 0x01, 0x00] &&
  decide (352 ≤ imgLength b) && decide (imgLength b ≤ imgMax) && decide (imgLength b ≤ b.length) && img.content.formOk &&
  sectionsOk part.isSome (sub b 256 (imgLength b - 352)) &&
  (match part with
   | none => imgKind b == 0
   | some s => imgKind b == 1 && byteAt b 13 == BitVec.ofNat 8 (2 ^ s.val) &&
      img.content.defaults.all (fun p => sliceOfAddr p.1 == some s))

/-- The check of an image: 1 passed, else the code of Table 16-3 (R597). A read that fails gives no bytes to check. -/
def checkImage (st : State) (img : ImageSrc) (part : Option SliceId) : Fin 16 :=
  let b := img.bytes
  let n := imgLength b
  let pub := sub b 68 96
  let key := st.fuses.keys.toList[imgKeyIx b]?
  if img.readErr then 10
  else if !imgForm img part then 2
  else
    match key with
    | none => 3
    | some k =>
      if !k.programmed || k.hash != sha384 pub then 3
      else if k.revoked then 4
      else if !ecdsaVerify pub (sha384 (b.take (n - 96))) (sub b (n - 96) 96) then 5
      else if imgSvn b < st.fuses.svn then 6
      else if leVal (sub b 14 2) ≠ 0 ∧ leVal (sub b 14 2) ≠ (devid st).toNat / 65536 then 7
      else
        match part with
        | none => if contentOk st img.content then 1 else 8
        | some s =>
          if !(sliceForm img.content.slices[s] && (!img.content.slices[s].enabled || sliceExists st s)) then 8
          else if sub b 20 48 ≠ st.img.runHash then 9 else 1

/-! Resets of the device (17 R634-R636, Table 17-5). -/

/-- A byte of the MRAM die (09 Table 9-4): image slots A and B, then the ring, the log and the persistent state. -/
def mramDie (st : State) (a : Nat) : Byte :=
  if a < 0x01000000 then byteAt st.sources[0].bytes a
  else if a < 0x02000000 then byteAt st.sources[1].bytes (a - 0x01000000)
  else memByte st.mram a

/-- The preferred MRAM slot (R604): 0 A, 1 B. -/
def prefSlot (st : State) : Fin 2 := Fin.ofNat 2 (mramDie st mramPrefAddr).toNat
def setPrefSlot (st : State) (v : Bool) : State := { st with mram := memSet st.mram mramPrefAddr (BitVec.ofNat 8 (b2n v)) }

/-- The two keys of Table 7-4, replaced while debug is enabled (07 R301, R305). -/
def bootKeys (st : State) : KtrSt :=
  let k (m : String) : Bytes := keyIn st (kdf st.fuses.dus (m.toList.map (fun c => BitVec.ofNat 8 c.toNat)) 1)
  { fpKey := k "OCHRE FINGERPRINT", macKey := k "VERDIGRIS CHAIN" }

/-- A nonzero 15-bit seed for each loop (15 R568). -/
def drawSeeds (st : State) : State :=
  (List.range 16).foldl (fun st i =>
    let (b, st) := draw st
    modTmp st (fun t => { t with seeds := t.seeds.mapFinIdx (fun j v _ => if j = i then BitVec.ofNat 15 (beVal b % 32767 + 1) else v) })) st

/-- Every slice rail is requested to 750 mV (17 R625). -/
def requestRails (st : State) : State := slices4.foldl (fun st s => if sliceExists st s then emit st (.avs s 750) else st) st

/-- The device right after a power-on or device reset: everything cleared but the MRAM die, which of its positions have failed
since power-on (09 R371), the fuses, the image sources, the straps and the levels of input pins. `keys` are the keys of
Table 7-4. The source of random bits fails its health test unless `trng` (16 R607). -/
def deviceReset (st : State) (cause : Fin 4) (keys : KtrSt) (trng : Bool) : State :=
  let z : State := State.reset
  let st : State := { z with
    pending := st.pending, fuses := st.fuses, sources := st.sources, mram := st.mram, out := st.out, lastRead := st.lastRead
    freeCount := st.freeCount, primary := st.primary, debugPin := st.debugPin, debug := st.debug, ktr := keys
    glb := { resetCause := cause, gpioIn := st.glb.gpioIn, pwrfailLow := st.glb.pwrfailLow }
    twin := { partnerOwn := st.twin.partnerOwn }
    jnl := { badPos := st.jnl.badPos }
    img := { sl := Vector.ofFn (fun s => if sliceExists st s then .off else .absent) }
    tap := { st.tap with driving := false } }
  let st := requestRails (drawSeeds (mramCount st mramBootAddr))
  if trng then st else carmineHalt st 7 0 0 0 39 (Config.detail 39 [7])

/-- PORESET_N has risen, with these levels on TWN_PRIMARY and DEBUG_EN (07 R301, R304). -/
def powerReset (cause : Fin 4) (primary debug trng : Bool) (st : State) : State :=
  let st := { st with primary := primary, debugPin := debug, debug := debug && !st.fuses.debugNever }
  deviceReset { st with tap := {}, jnl := {} } cause (bootKeys st) trng

def execPowerOnReset (primary debug trng : Bool) (st : State) : Out := .next (powerReset 0 primary debug trng st)
/-- The supply monitor starts a power-on reset; the straps are sampled again (R634). -/
def execSupplyMonitorReset (trng : Bool) (st : State) : Out := .next (powerReset 1 st.primary st.debugPin trng st)

/-- A power-on or device reset runs until step 10 of Table 16-4, or until a halt or the hold-up ends it, or until no stored
image is valid: the device then waits for the manager and no reset runs (R603; log entry 101). -/
def resetting (st : State) : Bool :=
  st.img.state != .running && st.img.state != .noImage && !st.glb.halted && !st.glb.holdup

/-- A device reset, ignored while a reset of its kind or of power-on runs (R634). -/
def softReset (cause : Fin 4) (trng : Bool) (st : State) : State :=
  if resetting st then st
  else deviceReset st cause { fpKey := st.ktr.fpKey, macKey := st.ktr.macKey } trng

def execDeviceReset (trng : Bool) (st : State) : Out := .next (softReset 2 trng st)
/-- A write of GLB_RESET; it is accepted in the Carmine halt too (20 R698). -/
def execGlbReset (key : Byte) (trng : Bool) (st : State) : Out := .next (if key = 0xD1 then softReset 3 trng st else st)

/-! A slice starts (R610, R611; 02 R70; 01 R45, R47, R48). -/

def modImgSl (st : State) (s : SliceId) (q : SliceState) : State := modImg st (fun i => { i with sl := i.sl.set s q })

/-- Engines that a starting pool powers: every one in twin mode, else the fewest that its loop keeps. -/
def startEngines (st : State) (s : SliceId) : State :=
  modSl st s (fun x => { x with pools := x.pools.mapFinIdx (fun d p _ =>
    { p with rising := if st.img.content.twin then 10
        else clampN 2 10 (fldA st (Reg.pwrEngCtl (2 * s.val + d)) Fld.pwrEngCtl_MIN_ON) }) })

/-- A slice's blocks come up under the image: lanes from step 1, engines into their test. -/
def startSlice (st : State) (s : SliceId) : State := startAges (startEngines (startLanes st s) s) s

/-! Image sources (R602-R603). -/

/-- The image is VERIFIED and loaded from source `src`: its items take effect, the enabled slices start (Table 16-4 steps 4
and 5; Table 17-5 for the twin state and the tamper responses). -/
def loadImage (src : Fin 4) (img : ImageSrc) (st : State) : State :=
  let b := img.bytes
  let x := img.content
  let st := modImg st (fun i => { i with
    state := .verified, source := src, content := x, keyIndex := Fin.ofNat 4 (imgKeyIx b), svn := imgSvn b
    buildId := BitVec.ofNat 32 (leVal (sub b 16 4)), runHash := sha384 (imgBytes b)
    sl := Vector.ofFn (fun s => if !sliceExists st s then .absent else if x.slices[s].enabled then .running else .off) })
  let st := modTmp { st with defaults := x.defaults } (fun t => { t with resp := x.resp })
  let st := slices4.foldl (fun st s => if sliceOn st s then startSlice st s else st) st
  if x.twin then
    modTwin { st with twinLanes := st.twinLanes.map (fun l => { l with stage := .sigWait, since := elNs st }) }
      (fun t => { t with state := .start })
  else st

/-- The source tried next (R602): its place in IMG_STAT and its number. -/
def nextSource (st : State) : Option (Fin 3 × Fin 3) :=
  let a := prefSlot st
  ([(0, a.castLE (by omega)), (1, (1 - a).castLE (by omega)), (2, 2)] : List (Fin 3 × Fin 3)).find?
    (fun p => st.img.res.toList.getD p.1.val 0 == 0)

/-- An image source is read and checked (R602): the first valid image is loaded; after the last one NO_IMAGE (R603). -/
def sourceTry (st : State) : State :=
  if st.img.state ≠ .loading ∨ st.glb.halted then st
  else
    match nextSource st with
    | none => st
    | some (p, n) =>
      let img := st.sources[n]
      let code := checkImage st img none
      let st := modImg st (fun i => { i with res := i.res.set p.val code })
      if code = 1 then loadImage (n.castLE (by omega)) img st
      else if p = 2 then raise (modImg st (fun i => { i with state := .noImage })) { block := 1, index := 0 }
      else st

def execImageSourceTry (st : State) : Out := .next (sourceTry st)

/-- Step 10: the device conditions of 01 R53 hold. -/
def execBootDone (st : State) : Out :=
  .next (if st.img.state = .verified ∧ devicePortsReady st = true ∧ !st.glb.halted then
    enablePorts (raise (modImg st (fun i => { i with state := .running })) { block := 1, index := 1 })
  else st)

/-! IMG_CMD (R599-R604, Table 16-7). -/

def imgDone (w : Word) (code : Nat) (st : State) : State := cmdDone st Reg.imgCmd Fld.imgCmd_RESULT Fld.imgCmd_OP w code
/-- The command ends with an image's check. -/
def imgChecked (w : Word) (code check : Nat) (st : State) : State := imgDone w code (setF st Reg.imgCmd Fld.imgCmd_CHECK check)

/-- What the host buffer holds for a command of IMG_CMD, or of IMG_SLICE_CMD: LEN bytes. -/
def hostImage (st : State) (part : Bool) : ImageSrc :=
  let img := if part then st.img.inHandPart else st.img.inHand
  { img with bytes := img.bytes.take (rd st Reg.imgLen).toNat }
/-- IMG_LEN outside its limits, or an image of the other kind. -/
def imgBadParam (st : State) (kind : Nat) : Bool :=
  let n := (rd st Reg.imgLen).toNat
  n == 0 || decide (imgMax < n) || (decide (imgKind (hostImage st (kind == 1)).bytes ≤ 1) && imgKind (hostImage st (kind == 1)).bytes != kind)

/-- DOWNLOAD in NO_IMAGE (R603). -/
def imgDownload (w : Word) (st : State) : State :=
  let (code, st) := pickCode st [(st.img.state != .noImage, 2), (imgBadParam st 0, 3)]
  if code ≠ 0 then imgDone w code st
  else
    let img := hostImage st false
    let c := checkImage st img none
    let st := modImg st (fun i => { i with res := i.res.set 3 c })
    if c = 1 then imgChecked w 0 1 (loadImage 3 img st) else imgChecked w 5 c.val st

/-- A command that writes the MRAM die: with the journal closed no such write starts, and the command goes on until the reset
that ends the hold-up (09 R375; DESIGN CHOICE, log entry 156). -/
def mramCmd (w : Word) (eff : State → State) (st : State) : State :=
  if st.jnl.closed then cmdBusy st Reg.imgCmd Fld.imgCmd_OP w else eff st

/-- STAGE into the MRAM slot that is not in use (R604). -/
def imgStage (w : Word) (st : State) : State :=
  let slot := getF w Fld.imgCmd_SLOT
  let (code, st) := pickCode st [(imgBadParam st 0, 3), (st.img.source.val == slot, 4)]
  if code ≠ 0 then imgDone w code st
  else
    let img := hostImage st false
    let c := checkImage st img none
    if c = 1 then mramCmd w (fun st => imgChecked w 0 1 { st with sources := st.sources.set (Fin.ofNat 2 slot).val img }) st
    else imgChecked w 5 c.val st

def imgSetPref (w : Word) (st : State) : State :=
  mramCmd w (fun st => imgDone w 0 (setPrefSlot st (getF w Fld.imgCmd_SLOT == 1))) st

/-- ADVANCE_SVN blows fuses up to the running full image's SVN (R599). -/
def imgAdvance (w : Word) (st : State) : State :=
  imgDone w 0 { st with fuses := { st.fuses with svn := max st.fuses.svn st.img.svn } }

/-- ADD_KEYS fuses the listed hashes of slots not yet programmed (R600). -/
def imgAddKeys (w : Word) (st : State) : State :=
  imgDone w 0 { st with fuses := { st.fuses with keys := st.img.content.keys.foldl (fun ks p =>
    upd ks p.1 (fun k => if k.programmed then k else { k with hash := p.2, programmed := true })) st.fuses.keys } }

/-- REVOKE_KEY (R601). -/
def imgRevoke (w : Word) (st : State) : State :=
  let k : Fin 4 := Fin.ofNat 4 (getF w Fld.imgCmd_KEY)
  let keys := upd st.fuses.keys k (fun x => { x with revoked := true })
  if k = st.img.keyIndex ∨ !keys.toList.any (fun x => x.programmed && !x.revoked) then imgDone w 7 st
  else imgDone w 0 { st with fuses := { st.fuses with keys := keys } }

/-- A command written to IMG_CMD, by OP; others are no action. -/
def imgCmd (w : Word) (st : State) : State :=
  match getF w Fld.imgCmd_OP with
  | 1 => imgDownload w st
  | 2 => imgStage w st
  | 3 => imgSetPref w st
  | 4 => imgAdvance w st
  | 5 => imgAddKeys w st
  | 6 => imgRevoke w st
  | _ => imgDone w (fld st Reg.imgCmd Fld.imgCmd_RESULT) st

/-- A write of IMG_CMD. Before step 4 only DOWNLOAD is taken (R608). -/
def imgPF (w : Word) (st : State) : State :=
  if st.glb.halted then st
  else if !booted st then
    if fld st Reg.imgCmd busyF ≠ 0 then setF st Reg.imgCmd Fld.imgCmd_RESULT 1
    else if getF w Fld.imgCmd_OP = 1 then imgCmd w st
    else cmdEarly st Reg.imgCmd Fld.imgCmd_RESULT w
  else cmdPF Reg.imgCmd Fld.imgCmd_RESULT w (imgCmd w) st

def putImage (part : Bool) (img : ImageSrc) (st : State) : State :=
  modImg st (fun i => if part then { i with inHandPart := img } else { i with inHand := img })

/-- The host buffer holds `img` for a command of IMG_CMD, or of IMG_SLICE_CMD: the owning package alone reads it, and sends it
to its partner (R614). -/
def withImage (part : Bool) (img : ImageSrc) (st : State) : State :=
  if st.glb.halted || twinStandby st || fld st (if part then Reg.imgSliceCmd else Reg.imgCmd) busyF != 0 then st
  else
    let st := putImage part img st
    if twinOwner st && booted st then modTwin st (fun t => { t with stream := t.stream ++ [.image part img] }) else st

def execDownload (img : ImageSrc) (st : State) : Out :=
  .next (imgPF (word [(Fld.imgCmd_OP, 1)]) (withImage false img st))
def execStage (slot : Bool) (img : ImageSrc) (st : State) : Out :=
  .next (imgPF (word [(Fld.imgCmd_OP, 2), (Fld.imgCmd_SLOT, b2n slot)]) (withImage false img st))
def execSetPref (slot : Bool) (st : State) : Out := .next (imgPF (word [(Fld.imgCmd_OP, 3), (Fld.imgCmd_SLOT, b2n slot)]) st)
def execAdvanceSvn (st : State) : Out := .next (imgPF (word [(Fld.imgCmd_OP, 4)]) st)
def execAddKeys (st : State) : Out := .next (imgPF (word [(Fld.imgCmd_OP, 5)]) st)
def execRevokeKey (k : Fin 4) (st : State) : Out := .next (imgPF (word [(Fld.imgCmd_OP, 6), (Fld.imgCmd_KEY, k.val)]) st)

/-! IMG_SLICE_CMD (R609-R613). -/

def sliceDone (w : Word) (code : Nat) (st : State) : State :=
  cmdDone st Reg.imgSliceCmd Fld.imgSliceCmd_RESULT Fld.imgSliceCmd_OP w code

/-- A slice's staged and held Saffron frames that have not made their slot access are discarded (R610). -/
def flushSlice (st : State) (s : SliceId) : State :=
  let goes (f : SafFrame) : Bool :=
    f.s == s && (f.stage != .accessed || (match f.out with | some (_, e) => e.prot.isNone | none => true))
  countN { st with saf := st.saf.filter (fun f => !goes f) } (Reg.safCnt 7) (countP goes st.saf)

/-- DRAIN (R610, R613). -/
def sliceDrain (s : SliceId) (w : Word) (st : State) : State :=
  if st.img.sl[s] ≠ .running then sliceDone w 2 st
  else
    let st := modImg (modImgSl (flushSlice st s) s .draining) (fun i => { i with
      drainUntil := i.drainUntil.set s (elNs st + 100000), powerOff := i.powerOff.set s (getF w Fld.imgSliceCmd_POWER_OFF == 1) })
    sliceDone w 0 st

/-- DRAINED, or OFF with POWER_OFF: lanes without power are at no step, and no engine is powered (R610, 17 R621). -/
def sliceDrained (st : State) (s : SliceId) : State :=
  if st.img.powerOff[s] then
    modSl (modImgSl st s .off) s (fun x => { x with
      cLanes := Vector.replicate 8 {}, lLanes := Vector.replicate 8 {}, pools := Vector.replicate 2 {} })
  else modImgSl st s .drained

def execDrainDone (s : SliceId) (st : State) : Out :=
  .next (if st.img.sl[s] = .draining ∧ framesIn (sl st s) = 0 ∧ st.saf.all (fun f => f.s != s) = true then sliceDrained st s else st)

/-- Frames still held at 100 µs are discarded (R610). -/
def execDrainTimeout (s : SliceId) (st : State) : Out :=
  .next (if st.img.sl[s] = .draining ∧ st.img.drainUntil[s] ≤ elNs st then
    let n := framesIn (sl st s) + countP (fun f => f.s == s) st.saf
    let st := modImg { modSl st s dropFrames with saf := st.saf.filter (fun f => f.s != s) }
      (fun i => { i with drainDiscard := BitVec.ofNat 16 (min 65535 (i.drainDiscard.toNat + n)) })
    sliceDrained (settle st s) s
  else st)

/-- LOAD reads a partial image and starts its checks (R611, R613). -/
def sliceLoad (s : SliceId) (w : Word) (st : State) : State :=
  let q := st.img.sl[s]
  let (code, st) := pickCode st [(q == .draining, 6), (q != .draining && q != .drained && q != .off, 2), (imgBadParam st 1, 3)]
  if code ≠ 0 then sliceDone w code st
  else
    let img := hostImage st true
    let st := modImg st (fun i => { i with checking := some (s, img), loadUntil := i.loadUntil.set s (elNs st + 150000000) })
    cmdBusy st Reg.imgSliceCmd Fld.imgSliceCmd_OP w

/-- Installations under way for the slice are refused; reservations for it are dropped. -/
def dropSliceUses (st : State) (s : SliceId) : State :=
  let here (u : JUse) : Bool := match u with
    | .reserveSlot s' .. | .reserveTrib s' .. | .load _ s' .. | .install s' .. | .adopt s' .. | .adoptTrib s' .. => s' == s
    | _ => false
  let us := (st.jnl.reqs ++ (match st.jnl.writing with | some (r, _) => [r] | none => [])).map (fun r => r.use)
  us.foldl (fun st u => match u with
    | .load 2 s' .. | .load 3 s' .. => if s' == s then installRefused st u else st
    | _ => st) (dropUse here st)

/-- A slice reset (17 R636, R637): slots and tributaries leave their user states, then everything of the slice is cleared. -/
def sliceReset (st : State) (s : SliceId) : State :=
  let st := dropSliceUses st s
  let st := (sl st s).chans.foldl (fun st p =>
    ans.foldl (fun st an => slotEmpty st s (Fin.ofNat 16384 p.1) an) st) st
  let st := (sl st s).ctf.trib.foldl (fun st p => positions.foldl (fun st q => releasePos st s p.1 q) st) st
  let own (e : Nat) : Bool := (decide (1024 + 512 * s.val ≤ e) && decide (e < 1536 + 512 * s.val)) || e / 16 == 192 + s.val
  let st := modPmu st (fun p => { p with
    acc := p.acc.filter (fun e => !own e.1), prev := p.prev.filter (fun e => !own e.1)
    visible := p.visible.filter (fun e => !own e.1), pc := p.pc.set s {}
    bw := p.bw.filter (fun e => e.1 / 16 % 4 != s.val) })
  let mine (a : Nat) : Bool := sliceOfAddr a == some s
  { modSl st s (fun _ => { msAt := elNs st / 1000000 }) with
    regs := st.regs.filter (fun p => !mine p.1), applied := st.applied.filter (fun p => !mine p.1)
    saf := st.saf.filter (fun f => f.s != s) }

/-- The checks of a partial image end (R611, R612). -/
def execSliceLoadChecked (st : State) : Out :=
  .next (match st.img.checking with
    | none => st
    | some (s, img) =>
      let c := checkImage st img (some s)
      let st := modImg st (fun i => { i with checking := none })
      let w := rd st Reg.imgSliceCmd
      let st := setF st Reg.imgCmd Fld.imgCmd_CHECK c.val
      if c ≠ 1 then sliceDone w 5 st
      else
        let st := sliceReset st s
        let st := { st with defaults := img.content.defaults.foldl (fun m p => m.put p.1 p.2) st.defaults }
        let st := modImg st (fun i => { i with
          content := { i.content with slices := i.content.slices.set s img.content.slices[s] }
          runHash := sha384 (i.runHash ++ sha384 (imgBytes img.bytes)) })
        sliceDone w 0 (startSlice (modImgSl st s .loading) s))

/-- A LOADING slice is RUNNING when the lanes of its enabled ports are READY, or 150 ms after acceptance (R611). -/
def execSliceRunning (s : SliceId) (st : State) : Out :=
  let ready := sides.all (fun d => ports8.all (fun k => !(portCfg st d s k).enabled || portUp st d s k))
  .next (if st.img.sl[s] = .loading ∧ (ready = true ∨ st.img.loadUntil[s] ≤ elNs st) then
    enablePorts (modImgSl st s .running) else st)

/-- RESUME (R611, R613). -/
def sliceResume (s : SliceId) (w : Word) (st : State) : State :=
  match st.img.sl[s] with
  | .draining => sliceDone w 6 st
  | .drained => sliceDone w 0 (enablePorts (modImgSl st s .running))
  | _ => sliceDone w 2 st

/-- A command written to IMG_SLICE_CMD, by OP. -/
def sliceCmd (w : Word) (st : State) : State :=
  let s : SliceId := Fin.ofNat 4 (getF w Fld.imgSliceCmd_SLICE)
  match getF w Fld.imgSliceCmd_OP with
  | 1 => sliceDrain s w st
  | 2 => sliceLoad s w st
  | 3 => sliceResume s w st
  | _ => sliceDone w (fld st Reg.imgSliceCmd Fld.imgSliceCmd_RESULT) st

/-- A write of IMG_SLICE_CMD. -/
def slicePF (w : Word) (st : State) : State := cmdPF Reg.imgSliceCmd Fld.imgSliceCmd_RESULT w (sliceCmd w) st

def sliceWord (op : Nat) (s : SliceId) (off : Bool) : Word :=
  word [(Fld.imgSliceCmd_OP, op), (Fld.imgSliceCmd_SLICE, s.val), (Fld.imgSliceCmd_POWER_OFF, b2n off)]
def execDrain (s : SliceId) (off : Bool) (st : State) : Out := .next (slicePF (sliceWord 1 s off) st)
def execSliceLoad (s : SliceId) (img : ImageSrc) (st : State) : Out := .next (slicePF (sliceWord 2 s false) (withImage true img st))
def execResume (s : SliceId) (st : State) : Out := .next (slicePF (sliceWord 3 s false) st)

end Sys2Proof.Machine
end

