-- ==== Sys2Proof/Machine/Fi.lean ====
section
/-!
DEFINITION. Commands of the line-port fault injectors, and the release of held frames (02 R106-R113, R117).
-/
namespace Sys2Proof.Machine

def modFi (st : State) (s : SliceId) (k : PortIx) (f : FiSt → FiSt) : State :=
  modPort st .line s k (fun p => { p with fi := f p.fi })

/-- A held frame of an accepted DISARM: a transmit frame goes behind the frames already queued, a receive frame goes on
(R112). -/
def disarmRelease (s : SliceId) (k : PortIx) (st : State) (h : HeldFrame) : State :=
  match h with
  | .tx f => enqueue st .line s k f
  | .rx _ => releaseRx s k st h

/-- The causes of Table 2-7 that refuse a strobe, and R117. -/
def fiCauses (st : State) (s : SliceId) (k : PortIx) (arm dis : Bool) : List (Bool × Nat) :=
  let cfg := rdA st (Reg.pcsFiCfg s k)
  let m := getF (rdA st (Reg.pcsFiSel s k)) Fld.pcsFiSel_HOLD_M
  let act := getF cfg Fld.pcsFiCfg_ACTION
  let armed := (port st .line s k).fi.armed
  [(!isL2 st .line s k, 5), (arm && dis, 4), (logFull st, 3),
   (arm && !dis && (act == 3 || (act == 2 && (m == 0 || decide (64 < m)))), 4), (arm && !dis && armed, 1),
   (dis && !arm && !armed, 2)]

/-- A write of PCS_FI_CMD (R110-R112). -/
def fiStrobe (s : SliceId) (k : PortIx) (w : Word) (st : State) : State :=
  let res (code : Nat) (st : State) : State := setF st (Reg.pcsFiStat s k) Fld.pcsFiStat_RESULT code
  let arm := bitW w 31
  let dis := bitW w 30
  if !arm && !dis then st
  else
    let (code, st) := pickCode st (fiCauses st s k arm dis)
    if code ≠ 0 then res code st
    else if arm then
      let cfg := rdA st (Reg.pcsFiCfg s k)
      let sel := rdA st (Reg.pcsFiSel s k)
      fiRecord (res 0 (modFi st s k (fun _ => { armed := true, cfg := cfg, sel := sel }))) 33 (b2n (bitW cfg 29)) s k cfg sel
    else
      let fi := (port st .line s k).fi
      let held := (port st .line s k).fiHeld.map (fun h => h.1)
      let st := modPort st .line s k (fun p => { p with fi := { p.fi with armed := false }, fiHeld := [] })
      let st := fiRecord (res 0 st) 34 (b2n (bitW fi.cfg 29)) s k fi.cfg fi.sel
      held.foldl (disarmRelease s k) st

/-- Whether a write of the strobes at the PF takes effect at once, so that what it releases settles. -/
def fiCmd (s : SliceId) (k : PortIx) (w : Word) (st : State) : State := settle (fiStrobe s k w st) s

def execFiArm (s : SliceId) (k : PortIx) (other : Bool) (st : State) : Out :=
  let w := word [(Fld.pcsFiCmd_ARM, 1), (Fld.pcsFiCmd_DISARM, b2n other)]
  .next (viaPF (Reg.pcsFiCmd s k) w (fiCmd s k w) st)
def execFiDisarm (s : SliceId) (k : PortIx) (other : Bool) (st : State) : Out :=
  let w := word [(Fld.pcsFiCmd_ARM, b2n other), (Fld.pcsFiCmd_DISARM, 1)]
  .next (viaPF (Reg.pcsFiCmd s k) w (fiCmd s k w) st)

/-- A frame held for 1 ms is released (Table 2-6). -/
def execFiHoldRelease (s : SliceId) (k : PortIx) (st : State) : Out :=
  let due (h : HeldFrame × Nat × Nat) : Bool := decide (h.2.2 ≤ elNs st)
  .next (match (port st .line s k).fiHeld.find? due with
    | none => st
    | some h =>
      let st := modPort st .line s k (fun p => { p with fiHeld := p.fiHeld.eraseP due })
      settle (match h.1 with | .tx _ => releaseTx s k st h.1 | .rx _ => releaseRx s k st h.1) s)

/-- A port reset disarms the injector of a CTF lane and writes a disarm record (R113, 10 R421). -/
def ctfFiReset (st : State) (s : SliceId) (k : PortIx) : State :=
  let fi := (ctfLane st s k).fi
  let st := modCtfLane st s k (fun x => { x with fi := { x.fi with armed := false } })
  if fi.armed then fiRecord st 34 2 s k fi.cfg fi.sel else st

/-- A port reset disarms the injector, discards held frames and writes a disarm record (R113); of an injector that is not
armed it writes none (DEDUCED, log entry 138). -/
def fiReset (st : State) (s : SliceId) (k : PortIx) : State :=
  let st := ctfFiReset st s k
  let fi := (port st .line s k).fi
  let st := modPort st .line s k (fun p => { p with fi := { p.fi with armed := false }, fiHeld := [] })
  if fi.armed then fiRecord st 34 (b2n (bitW fi.cfg 29)) s k fi.cfg fi.sel else st

end Sys2Proof.Machine
end

