-- ==== Sys2Proof/Machine/Saffron.lean ====
section
/-!
DEFINITION. The Saffron launch calendar (11 R447-R455): staging, parser entry, slot access, launch, late frames.
-/
namespace Sys2Proof.Machine

/-- L of a frame as an instant of NOW. -/
def launchTime (l : Word) : BitVec 64 := l.setWidth 64 <<< 32
/-- `us` microseconds in 2⁻³² ns. -/
def usTime (us : Nat) : Nat := us * 1000 * 2 ^ 32
/-- NOW has reached L − `us` microseconds. -/
def within (st : State) (us : Nat) (l : Word) : Bool := reached st (usTime us) (launchTime l)
/-- NOW has passed L − `us` microseconds. -/
def past (st : State) (us : Nat) (l : Word) : Bool :=
  within st us l && st.tsu.now + BitVec.ofNat 64 (usTime us) != launchTime l

/-- Frame `a` goes before frame `b`: by launch time, then by acceptance (R449). -/
def safBefore (st : State) (a b : SafFrame) : Bool :=
  let d := (a.launch - nowNs st).toInt - (b.launch - nowNs st).toInt
  decide (d < 0) || (d == 0 && decide (a.order < b.order))

/-- The first frame of slice `s` of which `p` holds, in the order of R449, with its place in the store. -/
def safFirst (st : State) (s : SliceId) (p : SafFrame → Bool) : Option (SafFrame × Nat) :=
  (st.saf.zipIdx.filter (fun f => f.1.s == s && p f.1)).foldl (fun b f =>
    match b with
    | none => some f
    | some g => if safBefore st f.1 g.1 then some f else some g) none

def safSet (st : State) (n : Nat) (f : SafFrame) : State := { st with saf := st.saf.set n f }
def safRemove (st : State) (n : Nat) : State := { st with saf := st.saf.eraseIdx n }

/-- The packet of a Saffron frame; it counts as arriving on the client port that its descriptor names (06 R230). -/
def safPkt (st : State) (f : SafFrame) (p : Parse) : Pkt :=
  { bytes := f.bytes, d := .client, s := f.s, side := .client, k := f.k, inst := instAt st .client f.s f.k p
    ver := (sl st f.s).current, src := .client f.k, outPort := pairOf st .client f.s f.k, injected := true
    rxNs := nowNs st, rxEl := st.tsu.elapsed, order := (sl st f.s).arrivals }

/-- The next frame of a slice moves on chip 100 µs before L, if the stage has room (R449). -/
def execSaffronStage (s : SliceId) (st : State) : Out :=
  .next (match safFirst st s (fun f => f.stage == .dram) with
    | none => st
    | some (f, n) =>
      let staged := countP (fun f => f.s == s && f.stage != .dram) st.saf
      if within st 100 f.launch && decide (staged < 4096) && !past st 10 f.launch then safSet st n { f with stage := .staged }
      else st)

/-- A launched frame is classified (R450): it waits for its slot access, or for its launch in the clear, or leaves the
calendar. -/
def safClassified (st : State) (n : Nat) (f : SafFrame) (c : Pkt) (p : Parse) : State :=
  let st := countParse st c p
  match p.fails.head? with
  | some m => malAction (noteMal (safRemove st n) c m) c m
  | none =>
    let (r, st) := classifyPkt st c p
    let f := { f with inst := c.inst }
    let clear (tc : Bool) : State :=
      match c.outPort with
      | some k => safSet st n { f with stage := .accessed, out := some (k, egrOf c p none true tc), chan := none }
      | none => safRemove st n
    match r.dec with
    | .channel ch tc => safSet st n { f with stage := .parsed, chan := some (ch, tc) }
    | .bypass tc => clear tc
    | .timestamp => clear true
    | _ => doProtect (safRemove st n) c p r

/-- A staged frame enters the protect-path parser within [L − 8 µs, L − 5 µs], and takes its version there (R449, R166). -/
def execSaffronParserEntry (s : SliceId) (st : State) : Out :=
  .next (match safFirst st s (fun f => f.stage == .staged) with
    | none => st
    | some (f, n) =>
      if within st 8 f.launch && !past st 5 f.launch && admits st s then
        let p := parse (prsCfg st s) f.bytes
        let c := safPkt st f p
        let st := parserEntry st c
        settle (match admitInst st s c.inst f.bytes with
          | (false, st) => safRemove st n
          | (true, st) => safClassified st n f c p) s
      else st)

/-- The slot access of a staged frame within [L − 5 µs, L − 2 µs] (R450). -/
def execSaffronSlotAccess (s : SliceId) (st : State) : Out :=
  .next (match safFirst st s (fun f => f.stage == .parsed) with
    | none => st
    | some (f, n) =>
      if within st 5 f.launch && !past st 2 f.launch && admits st s then
        let p := parse (prsCfg st s) f.bytes
        let c := safPkt st f p
        match f.chan with
        | none => safRemove st n
        | some (ch, tc) =>
          match protAccess st s ch (bindNo c) f.bytes with
          | (none, st) => safRemove st n
          | (some pr, st) =>
            let st := protCount st s pr f.bytes.length
            match c.outPort with
            | some k =>
              let e := { egrOf { c with inst := f.inst } p (some pr) false tc with inst := f.inst }
              safSet st n { f with stage := .accessed, out := some (k, e) }
            | none => safRemove st n
      else st)

/-- The bound of Table 11-1 in 2⁻³² ns; whether REFCLK_TWIN has spread is the board's. -/
def launchBound : Nat := (if Config.refclkSpread then 12 else 4) * 2 ^ 32

/-- The launched frame starts: within its bound, or late (R451, R454). -/
def launchNow (st : State) (n : Nat) (f : SafFrame) (k : PortIx) (e : EgrFrame) : State :=
  let st := safRemove st n
  if !txLive st .line f.s k then downDrop st .line f.s k
  else
    let late := st.tsu.now - launchAt st f.s k f.launch
    let st := if late.toNat ≤ launchBound then bumpVf (count st (Reg.safCnt 3)) f.inst 6 else count st (Reg.safCnt 6)
    let (e, st) := tcCorrect st .line f.s k e
    let bs := match e.prot with | some p => protectFrame p e.bytes | none => e.bytes
    let st := modPort st .line f.s k (fun p => { p with wireUntil := st.tsu.elapsed.toNat + wireTime st f.s k bs })
    finish st .line f.s k e true

/-- The first frame of line port `k` whose launch time has come is sent; it waits while output is held, and behind a launched
frame that is still on the wire (R451, R454). -/
def execSaffronLaunch (s : SliceId) (k : PortIx) (st : State) : Out :=
  let here (f : SafFrame) : Bool := match f.out with | some (j, _) => j == k && f.stage == .accessed | none => false
  .next (match safFirst st s here with
    | none => st
    | some (f, n) =>
      match f.out with
      | none => st
      | some (_, e) =>
        if reached st 0 (launchAt st s k f.launch) && !outputHeld st .line s k e.prio && !wireBusy st s k &&
            !(port st .line s k).queue.any (fun g => g.started) then
          settle (launchNow st n f k e) s
        else st)

/-- A held frame is late (R453): not staged by L − 10 µs, or no slot access by L − 2 µs. -/
def isLate (st : State) (f : SafFrame) : Bool :=
  match f.stage with
  | .dram => past st 10 f.launch
  | .staged | .parsed => past st 2 f.launch
  | .accessed => false

/-- A late frame is dropped, counted and reported, or sent as a protect-path frame without a launch time (R453). -/
def execLate (n : Nat) (st : State) : Out :=
  .next (match st.saf[n]? with
    | none => st
    | some f =>
      if !isLate st f then st
      else
        let st := safRemove st n
        if !f.sendLate then
          raise (bumpVf (count st (Reg.safCnt 4)) f.inst 7) { block := 12, index := 4, ps := [f.inst.val, f.launch.toNat] }
        else
          let st := count st (Reg.safCnt 5)
          let p := parse (prsCfg st f.s) f.bytes
          let c := safPkt st f p
          let st := (arrive st f.s).2
          match f.chan with
          | some (ch, tc) => settle (protectPkt st { c with inst := f.inst } p ch tc) f.s
          | none =>
            if !admits st f.s then st
            else
              let st := parserEntry st c
              settle (match admitInst st f.s c.inst f.bytes with
                | (false, st) => st
                | (true, st) => protectParsed st c p) f.s)

end Sys2Proof.Machine
end

