-- ==== Sys2Proof/Machine/Host.lean ====
section
/-!
DEFINITION. The host interface (18): event rings as software drives them, MSI-X moderation, punt and inject rings, inject
descriptors, DMA errors, function-level resets of the PF, the PCI Express link.
-/
namespace Sys2Proof.Machine

/-! Event rings (R655-R657). -/

def modEvt (st : State) (j : Fin 4) (f : EvtRing → EvtRing) : State := { st with rings := upd st.rings j f }

/-- HIF_EVT_CFG as software writes it: EN set starts the ring empty at entry 0 (events lost
before are then reported, R656), or is refused and reads 0; EN cleared stops
it at once, since no record is in hand between two commands. -/
def evtCfgWrite (j : Fin 4) (v : Word) (st : State) : State :=
  let r := st.rings[j]
  let a := Reg.hifEvtCfg j
  let size := getF v Fld.hifEvtCfg_SIZE_LOG2
  let keep := word [(Fld.hifEvtCfg_SIZE_LOG2, size), (Fld.hifEvtCfg_MOD_US, getF v Fld.hifEvtCfg_MOD_US)]
  if getF v Fld.hifEvtCfg_EN = 0 then modEvt (wr st a keep) j (fun r => { r with en := false, run := false })
  else if r.en then wr st a (putF keep Fld.hifEvtCfg_EN 1)
  else if r.run || decide (size < 6) || decide (16 < size) then wr st a keep
  else
    evtRecover (modEvt (wr st a (putF keep Fld.hifEvtCfg_EN 1)) j (fun r =>
      { r with en := true, run := true, head := 0, tail := 0, phase := true, held := false })) j

def execEvtRingEnable (j : Fin 4) (v : Word) (st : State) : Out := .next (viaPF (Reg.hifEvtCfg j) v (evtCfgWrite j v) st)

/-- HIF_EVT_HEAD as software writes it; an overflowed ring with two free entries again writes EVENTS_LOST (R656). -/
def evtHeadWrite (j : Fin 4) (v : Word) (st : State) : State := evtRecover (modEvt st j (fun r => { r with head := v.setWidth 16 })) j

def execEvtHeadWrite (j : Fin 4) (h : BitVec 16) (st : State) : Out :=
  .next (viaPF (Reg.hifEvtHead j) (h.setWidth 32) (evtHeadWrite j (h.setWidth 32)) st)

/-- The end of a vector's spacing: a held interrupt fires (R657). -/
def execMsixModerationEnd (evt : Bool) (i : InstId) (r : Fin 16) (st : State) : Out :=
  .next (if evt then
    let j : Fin 4 := Fin.ofNat 4 r.val
    if st.rings[j].held && decide (st.rings[j].nextFire ≤ elNs st) then fireEvt st j else st
  else ringModEnd st i r)

/-! Punt and inject rings (R662-R664). -/

/-- RING_CTL of an instance: at HIF for instance 0, on the VF page of any other. -/
def ringCtlA (i : InstId) (r : Fin 16) : Nat := if i = 0 then Reg.ringCtl r else Reg.vfRingCtl (vfIx i) r

/-- The instance has ring registers: instance 0, or a VF. -/
def hasRings (st : State) (i : InstId) : Bool := i == 0 || hasVf st i

/-- A base address as software wrote it is 64-byte aligned: BASE_LO[5:0] is reserved and reads 0, so every one is (R663,
R644). EN is refused for SIZE_LOG2 alone. -/
def ringParamBad (st : State) (i : InstId) (r : Fin 16) : Bool :=
  decide (ringSizeLog st i r < 6) || decide (16 < ringSizeLog st i r)

/-- EN set: the ring starts at entry 0 with HEAD 0, or EN is refused. -/
def ringStart (i : InstId) (r : Fin 16) (st : State) : State :=
  let x := ringOf st i r
  if x.en then st
  else if x.run then modRing st i r (fun x => { x with result := 1 })
  else if ringParamBad st i r then modRing st i r (fun x => { x with result := 2 })
  else modRing st i r (fun x => { x with en := true, run := true, result := 0, head := 0, held := false })

/-- A descriptor of the ring is in hand; one that is held at the head of its ring has not been taken (13 R509). -/
def handBusy (x : RingSt) : Bool := match x.hand with | some h => h.phase != .held | none => false

/-- EN cleared: the descriptor in hand is completed, then RUN clears; a held one is not carried over. On the PF, ERR follows
(R664). -/
def ringStop (i : InstId) (r : Fin 16) (st : State) : State :=
  modRing st i r (fun x =>
    let x := { x with en := false, result := 0, err := x.err && i != 0 }
    if handBusy x then x else { x with run := false, hand := none })

/-- A write to RING_CTL. -/
def ringCtlWrite (i : InstId) (r : Fin 16) (v : Word) (st : State) : State :=
  if !hasRings st i then st
  else if getF v Fld.ringCtl_EN = 1 then ringStart i r st else ringStop i r st

/-- An access through the function of the instance: the PF, or a VF while the device runs. -/
def viaFn (i : InstId) (a : Nat) (v : Word) (eff : State → State) (st : State) : State :=
  if i = 0 then viaPF a v eff st else if st.glb.halted then st else eff st

def execRingEnable (i : InstId) (r : Fin 16) (st : State) : Out :=
  .next (viaFn i (ringCtlA i r) (word [(Fld.ringCtl_EN, 1)]) (ringCtlWrite i r (word [(Fld.ringCtl_EN, 1)])) st)
def execRingDisable (i : InstId) (r : Fin 16) (st : State) : Out := .next (viaFn i (ringCtlA i r) 0 (ringCtlWrite i r 0) st)

/-- RUN clears once the descriptor in hand is complete (R663). -/
def execRingStopped (i : InstId) (r : Fin 16) (st : State) : Out :=
  .next (if !(ringOf st i r).en && (ringOf st i r).hand.isNone then modRing st i r (fun x => { x with run := false }) else st)

/-- RING_CTL as read. -/
def ringCtlValue (x : RingSt) : Word :=
  word [(Fld.ringCtl_EN, b2n x.en), (Fld.ringCtl_RUN, b2n x.run), (Fld.ringCtl_RESULT, x.result.toNat), (Fld.ringCtl_ERR, b2n x.err)]

/-- A read of RING_CTL; on a VF page it clears ERR (R654). -/
def execRingCtlRead (i : InstId) (r : Fin 16) (st : State) : Out :=
  .next (if !hasRings st i then st
    else
      let st' := { st with lastRead := ringCtlValue (ringOf st i r) }
      if i = 0 then st' else modRing st' i r (fun x => { x with err := false }))

/-- A read of VF_RING_ERR clears the bits that it returns (R654). -/
def execVfRingErrRead (i : InstId) (st : State) : Out :=
  .next (if !hasVf st i then st
    else wr { st with lastRead := rd st (Reg.vfRingErr (vfIx i)) } (Reg.vfRingErr (vfIx i)) 0)

/-! Inject descriptors (R665-R667, 13 R509, 11 R447, R448). -/

/-- A completion: STATUS, then DONE, then the ring moves on. A package that does not own discards it (12 R478). -/
def injComplete (st : State) (i : InstId) (r : Fin 16) (x : InjDesc) (code : Nat) : State :=
  let flags := leBytes 1 (b2n x.ltEn + 2 * b2n x.sendLate + 128)
  let st := digHost st x.sliceNo (leBytes 2 code ++ flags)
  let st := if code = 0 then bumpVf st i 0 else bumpVf (count st (Reg.hifCnt 2)) i 1
  if !hostOwner st then count st (Reg.twnCnt 8)
  else if writesHost st i then
    let a := ringDesc st i r
    fireRing (ringAdvance (dma (dma st (a + 16) (leBytes 2 code)) (a + 11) flags) i r) i r
  else st

def setHand (st : State) (i : InstId) (r : Fin 16) (h : Option InjHand) : State := modRing st i r (fun x => { x with hand := h })

/-- Cells of a Saffron frame, FCS included (14 R540). -/
def safCells (bs : Bytes) : Nat := ceilDiv (bs.length + 4 + 32) 256
/-- Saffron frame cells of the image's capacity (14 Table 14-3). -/
def safCapacity (st : State) : Nat := (64 * meeData st - 0x68000000) / 256

/-- The first cause of R666 that applies, apart from the launch's own; 0 none. -/
def injCode (st : State) (i : InstId) (x : InjDesc) (f : Bytes) : Nat :=
  if !isL2 st .client x.sliceNo x.port then 5
  else if x.length.toNat < 60 ∨ 10236 < x.length.toNat then 4
  else if instAt st .client x.sliceNo x.port (parse (prsCfg st x.sliceNo) f) ≠ i then 6
  else 0

/-- L − NS as a signed difference lies outside (0, 2,000,000,000] (R447). -/
def launchOut (ns l : Word) : Bool :=
  let d := (l - ns).toInt
  decide (d ≤ 0) || decide (2000000000 < d)

/-- SAFFRON_FULL, then QUOTA; 0 none (R448). -/
def safCode (st : State) (i : InstId) (f : Bytes) : Nat :=
  if 4194304 ≤ st.saf.length ∨ safCapacity st < sumOf (fun g => safCells g.bytes) st.saf + safCells f then 2
  else if (inst st i).calendar ≤ countP (fun g => g.inst == i) st.saf then 3
  else 0

/-- A refusal: completed at once; a launch's own causes are counted (R447, R448). -/
def injRefuse (st : State) (i : InstId) (r : Fin 16) (x : InjDesc) (code : Nat) : State :=
  let st := if code = 1 then count st (Reg.safCnt 1) else if code = 2 ∨ code = 3 then count st (Reg.safCnt 2) else st
  injComplete (setHand st i r none) i r x code

/-- The `n` lowest numbers that are not in use. -/
def lowestFree (used : List Nat) (n : Nat) : List Nat :=
  ((List.range (used.length + n)).filter (fun i => !used.contains i)).take n

/-- An accepted frame goes into the Saffron store in DRAM: one descriptor, and its cells in order (14 R540, Table 14-3, 01
R50); the lowest free ones (DESIGN CHOICE, log entry 140). -/
def safStore (st : State) (g : SafFrame) : State :=
  let g := { g with desc := ((lowestFree (st.saf.map (fun f => f.desc)) 1).headD 0)
                    cells := lowestFree (st.saf.flatMap (fun f => f.cells)) (safCells g.bytes) }
  let bs := padTo 32 (Config.saffronHead g) ++ g.bytes
  let st := meeWrite 2 st (0x58000000 + 64 * g.desc) (padTo 64 (Config.saffronDescriptor g))
  let st := g.cells.zipIdx.foldl (fun st (c : Nat × Nat) => meeWrite 5 st (0x68000000 + 256 * c.1) (sub bs (256 * c.2) 256)) st
  { st with saf := st.saf ++ [g] }

/-- A launch is held in the Saffron store, or refused with SAFFRON_FULL or QUOTA. -/
def safAccept (st : State) (i : InstId) (r : Fin 16) (x : InjDesc) (f : Bytes) : State :=
  let code := safCode st i f
  if code ≠ 0 then injRefuse st i r x code
  else
    let g : SafFrame := { inst := i, s := x.sliceNo, k := x.port, launch := x.launchNs, sendLate := x.sendLate, bytes := f
                          stage := .dram, out := none, chan := none, order := st.safOrder }
    let st := count { safStore st g with safOrder := st.safOrder + 1 } (Reg.safCnt 0)
    injComplete (setHand st i r none) i r x 0

/-- The slice takes inject descriptors of the instance: it admits frames, and the occupancy lies below CELLS (R509, 16
R610). -/
def takesInject (st : State) (i : InstId) (s : SliceId) : Bool :=
  admits st s && decide (instCells (sl st s) i < (inst st i).shares[s].cells)

/-- The copied frame enters the protect-path parser; it counts as arriving on its client port (06 R230, R665). The share of
R509 held its descriptor back, and drops no frame of it; R101 applies. -/
def injEnter (st : State) (x : InjDesc) (f : Bytes) : State :=
  let p := parse (prsCfg st x.sliceNo) f
  let (n, st) := arrive st x.sliceNo
  let c := { clientPkt st x.sliceNo x.port { bytes := f, fcsOk := true, ended := true } p with injected := true, order := n }
  if portFull st x.sliceNo x.port (prioOf p) then fcDrop st x.sliceNo x.port
  else if !cellsFree st x.sliceNo f then st
  else
    let st := parserEntry st c
    if (inst st c.inst).state ≠ .enabled then instDrop st c.inst
    else settle (protectParsed (pcEvent st x.sliceNo 0x030 (cellsOf f)) c p) x.sliceNo

/-- A frame has been copied: OK, and the frame enters (R667). -/
def injCopied (st : State) (i : InstId) (r : Fin 16) (x : InjDesc) (f : Bytes) : State :=
  injEnter (injComplete (setHand st i r none) i r x 0) x f

/-- A descriptor and its frame are judged: refused, held, accepted as a launch, or its frame copied; `ns` is NS of NOW as the
descriptor was read (11 R447), and `copy` says that the frame has come with it (11 R458). -/
def injJudge (i : InstId) (r : Fin 16) (x : InjDesc) (f : Bytes) (ns : Word) (copy : Bool) (st : State) : State :=
  let f := f.take x.length.toNat
  let code := injCode st i x f
  if code ≠ 0 then injRefuse st i r x code
  else if x.ltEn && launchOut ns x.launchNs then injRefuse st i r x 1
  else if x.ltEn && safCode st i f != 0 then injRefuse st i r x (safCode st i f)
  else if !takesInject st i x.sliceNo then setHand st i r (some { desc := x, bytes := f, phase := .held })
  else if x.ltEn then safAccept st i r x f
  else if copy then injCopied st i r x f
  else setHand st i r (some { desc := x, bytes := f, phase := .copying })

/-- The inject ring has a descriptor that the device may read (R503, R663). -/
def injWaits (st : State) (i : InstId) (r : Fin 16) : Bool :=
  let x := ringOf st i r
  hasRings st i && decide (8 ≤ r.val) && x.en && x.run && x.hand.isNone && ringWork st i r &&
  (inst st i).state == .enabled && !admissionStopped st && booted st && hostOwner st

/-- Rings 8-15 of an instance in turn, after the one served last (R665). -/
def injOrder (last : Fin 16) : List (Fin 16) := (List.range 8).map (fun j => Fin.ofNat 16 (8 + (last.val + 1 + j) % 8))

/-- The ring lets the device read its next descriptor, and it is the ring's turn (R503, R663, R665). -/
def injReadable (st : State) (i : InstId) (r : Fin 16) : Bool :=
  injWaits st i r && (injOrder (inst st i).injLast).find? (injWaits st i) == some r

/-- The next descriptor of an inject ring is read: in twin mode the mirror forwards it with its frame, and both packages
judge it at the start of epoch n + 2 (R458). -/
def execInjectDescriptorRead (i : InstId) (r : Fin 16) (x : InjDesc) (f : Bytes) (st : State) : Out :=
  .next (if !injReadable st i r then st
    else
    let st := modInst st i (fun x => { x with injLast := r })
    if twinOwner st then
      forwardOp (setHand st i r (some { desc := x, bytes := f, phase := .forwarded })) (.inject i r x f (nowNs st))
    else injJudge i r x f (nowNs st) false st)

/-- The copy of the frame in hand ends (R667). -/
def execInjectFrameCopied (i : InstId) (r : Fin 16) (f : Bytes) (st : State) : Out :=
  .next (match (ringOf st i r).hand with
    | some h => if h.phase = .copying ∧ ¬ st.glb.halted then injCopied st i r h.desc (f.take h.desc.length.toNat) else st
    | none => st)

/-- A held descriptor proceeds once the occupancy lies below CELLS; the store and the quota are judged again (R509). -/
def execHeldDescriptorResume (i : InstId) (r : Fin 16) (st : State) : Out :=
  .next (match (ringOf st i r).hand with
    | some h =>
      if h.phase ≠ .held ∨ !takesInject st i h.desc.sliceNo then st
      else if h.desc.ltEn then safAccept st i r h.desc h.bytes
      else if st.img.content.twin then injCopied st i r h.desc h.bytes
      else setHand st i r (some { h with phase := .copying })
    | none => st)

/-- A DMA that the host completes with an error stops the ring (R664); a frame in hand is judged DMA_ERR (R666). -/
def execDmaErr (i : InstId) (r : Fin 16) (st : State) : Out :=
  .next (if !hasRings st i || !(ringOf st i r).run || st.glb.halted then st
    else
      let st := match (ringOf st i r).hand with
        | some h => if h.phase = .copying then injRefuse st i r h.desc 7 else setHand st i r none
        | none => st
      let st := modRing st i r (fun x => { x with run := false, err := true })
      let st := if i = 0 then st
        else wr st (Reg.vfRingErr (vfIx i)) (rd st (Reg.vfRingErr (vfIx i)) ||| BitVec.ofNat 32 (2 ^ r.val))
      raise (count st (Reg.hifCnt 1)) { block := 3, index := 1, ps := [i.val, r.val] })

/-! Function-level reset of the PF and the link (R658, R661, 21 R722). -/

/-- Every event ring and every ring of instance 0 is disabled; the PF's own MSI-X table is PCI Express state. -/
def pfFlr (st : State) : State :=
  let st := { st with rings := st.rings.map (fun r => { r with en := false, run := false, held := false }) }
  let st := [0, 1, 2, 3].foldl (fun st j => setF st (Reg.hifEvtCfg j) Fld.hifEvtCfg_EN 0) st
  let st := modInst st 0 (fun x => { x with
    rings := x.rings.map (fun r => { r with en := false, run := false, hand := none, held := false, err := false }) })
  { st with regs := st.regs.filter (fun p => !(decide (0x2000000 ≤ p.1) && decide (p.1 < 0x2008100))) }

def execPfFlr (st : State) : Out := .next (if st.glb.halted then st else pfFlr st)

/-- PCIE_PERST_N low: the link is down, and the PF and every VF are reset. Before start-up has ended the endpoint alone is
held in reset (R722). -/
def execPciePerst (st : State) : Out :=
  let st := { st with pcie := { st.pcie with linkUp := false, speed := 0, width := 0 } }
  .next (if st.glb.halted then st else allInsts.foldl vfFlr { pfFlr st with pcie := {} })

/-- The link trains, or is lost: HIF_PCIE_STAT follows (R658). -/
def execPcieLinkTraining (up : Bool) (speed : Fin 8) (width : Fin 16) (st : State) : Out :=
  .next { st with pcie := if up then { st.pcie with linkUp := true, speed := speed, width := width }
                          else { st.pcie with linkUp := false, speed := 0, width := 0 } }

end Sys2Proof.Machine
end

