-- ==== Sys2Proof/Machine/Interlock.lean ====
section
/-!
DEFINITION. The twin unit's commands and ownership interlock (12 R465-R469, R487, R494), sessions (R472, R473), and the loss
of heartbeats (R475).
-/
namespace Sys2Proof.Machine

def twinStateNum : TwinState → Nat
  | .off => 0 | .start => 1 | .alone => 2 | .syncing => 3 | .standby => 4 | .active => 5 | .halted => 6

/-- The command goes on. -/
def twnBusy (w : Word) (st : State) : State := cmdBusy st Reg.twnCmd Fld.twnCmd_OP w

/-- A package leaves step, or joins, and is resynchronised. -/
def toSyncing (st : State) : State :=
  count (modTwin st (fun t => { t with state := .syncing, takingOver := false, candidateUntil := none, testing := false
                                       cutEpoch := none, matchCount := 0 })) (Reg.twnCnt 5)

/-- The partner has left step: ACTIVE goes on as ALONE (Table 12-3). -/
def toAlone (st : State) : State := modTwin (dropSwitch st) (fun t => { t with state := .alone, testing := false })

/-! CLAIM, SWITCH, LEAVE (Table 12-9). -/

/-- CLAIM waits for ownership, for at most 1 ms (R494). -/
def claim (w : Word) (st : State) : State :=
  let (code, st) := pickCode st [(st.twin.state == .off, 2), (st.twin.state != .start, 3), (!devicePortsReady st, 4)]
  if code ≠ 0 then twnDone w code st else twnBusy w (modTwin st (fun t => { t with claimUntil := some (elNs st + 1000000) }))

/-- The partner's line was not deasserted for 10 µs within 1 ms. -/
def claimExpire (st : State) : State :=
  match st.twin.claimUntil with
  | some t => if t ≤ elNs st ∧ st.twin.own = false then twnEnd 5 (modTwin st (fun t => { t with claimUntil := none })) else st
  | none => st

/-- SWITCH acts at the start of the epoch after next (R487). -/
def twinSwitch (w : Word) (st : State) : State :=
  let (code, st) := pickCode st [(st.twin.state == .off, 2), (st.twin.state != .active, 3), (st.twin.testing, 12)]
  if code ≠ 0 then twnDone w code st else twnBusy w (modTwin st (fun t => { t with switchAt := some (t.epoch + 2) }))

def leave (w : Word) (st : State) : State :=
  let (code, st) := pickCode st [(st.twin.state == .off, 2), (st.twin.state != .standby && st.twin.state != .syncing, 3)]
  if code ≠ 0 then twnDone w code st else twnDone w 0 (toStart st)

/-! HELLO and JOIN (R472, R473). -/

/-- KCVs of roots 0-15, 0 for an invalid root. -/
def rootKcvs (st : State) : Bytes :=
  ((List.range 16).map (fun n => match node? st n with | some r => padTo 4 r.kcv | none => [0, 0, 0, 0])).flatten
def rootBits (st : State) : Nat := sumOf (fun n => if (node? st n).isSome then 2 ^ n else 0) (List.range 16)
/-- The LINK node that TWN_CTL names. -/
def linkIx (st : State) : Nat := fldA st Reg.twnCtl Fld.twnCtl_LINK_NODE
def linkNode (st : State) : Option Node := (node? st (linkIx st)).filter (fun r => r.type == 5 && r.owner == 0)
def linkKcv (st : State) : Bytes := match node? st (linkIx st) with | some r => padTo 4 r.kcv | none => [0, 0, 0, 0]

/-- Body of the HELLO that this package sends (Table 12-5), integers most significant byte first. -/
def helloBody (st : State) : Bytes :=
  padTo 48 st.img.runHash ++ beBytes 4 (devid st).toNat ++ beBytes 1 (b2n st.debug) ++ beBytes 1 (twinStateNum st.twin.state) ++
  beBytes 2 (rootBits st) ++ rootKcvs st ++ beBytes 4 (linkIx st) ++ linkKcv st ++ padTo 16 st.twin.rand

/-- A HELLO leaves in the clear. -/
def sendHello (st : State) : State :=
  emit (modTwin st (fun t => { t with lastHello := elNs st })) (.indigo 1 0 (st.twin.epoch % 2 ^ 32) (helloBody st) [])

/-- The first item of Table 12-5 that differs, by its refusal reason; 0 none. -/
def helloMismatch (st : State) (h : Hello) : Fin 8 :=
  if h.runHash ≠ st.img.runHash then 1
  else if h.devid ≠ devid st then 2
  else if h.rootValid.toNat ≠ rootBits st ∨ h.rootKcv ≠ rootKcvs st then 3
  else if h.linkNode ≠ linkIx st ∨ h.linkKcv ≠ linkKcv st then 4
  else 0

/-- The session is keyed: both packages' random bytes, those of the strapped one first, under the LINK node (R473). The partner's
HELLO has served: the next JOIN takes a new one (R472). -/
def keySession (st : State) (n : Node) (h : Hello) : State :=
  let own := padTo 16 st.twin.rand
  let other := padTo 16 h.rand
  let key := kdf n.key (if st.primary then own ++ other else other ++ own) (n.depth.val + 1)
  modTwin st (fun t => { t with keyed := true, sessKey := key, txSeq := 0, rxSeq := 0, missing := []
                                linkNode := some (linkIx st), lastHb := elNs st, hbLost := false, partner := none })

/-- A fresh random item of the HELLO. -/
def freshRand (st : State) : State :=
  let (r, st) := draw st
  modTwin st (fun t => { t with rand := r.take 16 })

/-- JOIN: refused, or waiting for the partner's HELLO for at most 50 ms (R494), or the session is keyed and SYNCING begins. A JOIN
on a link that is keyed still ends that session, so that both packages exchange new HELLOs (R472; DESIGN CHOICE, log entry 163). -/
def join (w : Word) (st : State) : State :=
  let h := st.twin.partner
  let test (f : Hello → Bool) : Bool := match h with | some h => f h | none => false
  let st := nodeCheck st (linkIx st)
  let (code, st) := pickCode st [(st.twin.state == .off, 2), (st.twin.state != .start, 3), (!devicePortsReady st, 4),
    (!twinLinkUp st, 7), (test (fun h => h.twinState != .alone), 8), (test (fun h => helloMismatch st h != 0), 9),
    (st.debug || test (fun h => h.debug), 10), ((linkNode st).isNone, 11)]
  let since := st.twin.joinUntil
  let st := modTwin st (fun t => { t with joinUntil := none })
  if code ≠ 0 then
    twnDone w code (modTwin st (fun t =>
      { t with mismatch := match h with | some x => if code = 9 then helloMismatch st x else t.mismatch | none => t.mismatch }))
  else
    match h, linkNode st with
    | some h, some n =>
      modTwin (twnDone w 0 (sendHello (toSyncing (keySession (freshRand st) n h)))) (fun t => { t with rand := [] })
    | _, _ =>
      let st := if st.twin.keyed then endSession st else st
      twnBusy w (modTwin st (fun t => { t with joinUntil := since.or (some (elNs st + 50000000)) }))

/-- No HELLO of the partner has come within 50 ms: PARTNER_STATE (R494; DESIGN CHOICE, log entry 163). -/
def joinExpire (st : State) : State :=
  match st.twin.joinUntil with
  | some t => if t ≤ elNs st then twnEnd 8 (modTwin st (fun t => { t with joinUntil := none })) else st
  | none => st

/-- A command written to TWN_CMD, by OP; other codes are no action. -/
def twnCmd (w : Word) (st : State) : State :=
  match getF w Fld.twnCmd_OP with
  | 1 => claim w st
  | 2 => join w st
  | 3 => twinSwitch w st
  | 4 => leave w st
  | _ => twnDone w (fld st Reg.twnCmd Fld.twnCmd_RESULT) st

def twnPF (op : Nat) (st : State) : State :=
  let w := word [(Fld.twnCmd_OP, op)]
  cmdPF Reg.twnCmd Fld.twnCmd_RESULT w (twnCmd w) st

def execClaim (st : State) : Out := .next (twnPF 1 st)
def execJoin (st : State) : Out := .next (twnPF 2 st)
def execTwinSwitch (st : State) : Out := .next (twnPF 3 st)
def execLeave (st : State) : Out := .next (twnPF 4 st)

/-! The interlock (R465-R467, R486). -/

/-- Both lines asserted: the strapped package deasserts, reports and returns to START (R466). -/
def yieldTie (st : State) : State :=
  if !(st.twin.own && st.twin.partnerOwn && st.primary) then st
  else
    let claimed := st.twin.claimUntil.isSome
    let st := raise (toStart (releaseOwn st)) { block := 5, index := 0 }
    if claimed then twnEnd 6 st else st

/-- A switchover is in its steps 1 to 6 (Table 12-7). -/
def switching (st : State) : Bool := match st.twin.switchingUntil with | some t => decide (elNs st < t) | none => false
/-- A switchover begins: its step 6 ends within 23.1 µs (Table 12-7). -/
def beginSwitch (st : State) : State := modTwin st (fun t => { t with switchingUntil := some (elNs st + 23100) })

/-- A trigger seen in STANDBY begins a switchover; during one it is counted and has no other effect (Table 12-6, R490; log entry
164). -/
def ownReleased (st : State) : State :=
  if st.twin.state ≠ .standby then st
  else if switching st then count st (Reg.twnCnt 0)
  else beginSwitch (modTwin st (fun t => { t with takingOver := true }))

/-- TWN_OWN_N_I changes: a released line seen in STANDBY is a switchover trigger (Table 12-6). -/
def execOwnLineChange (on : Bool) (st : State) : Out :=
  let falls := st.twin.partnerOwn && !on
  let st := modTwin st (fun t => { t with partnerOwn := on, partnerSince := if falls then elNs st else t.partnerSince })
  .next (yieldTie (if falls then ownReleased st else st))

/-- The package may assert TWN_OWN_N_O now (R465, Table 12-2). -/
def mayAssert (st : State) : Bool :=
  let t := st.twin
  !st.glb.halted && !st.glb.holdup && !st.tmp.squelched && !t.own && !t.partnerOwn &&
  decide (t.partnerSince + 10000 ≤ elNs st) &&
  (match t.state with
   | .start => (match t.claimUntil with | some e => decide (elNs st < e) | none => false)
   | .alone | .active => true
   | .standby => t.takingOver
   | .off | .syncing | .halted => false)

/-- Age stamps of every learned entry are set to TICK (05 R221). -/
def restampAges (st : State) : State :=
  { st with slices := st.slices.map (fun x =>
      { x with mac := x.mac.map (fun p => if p.2.static_ then p else (p.1, { p.2 with age := x.tick })) }) }

/-- Every ring of every instance starts empty at the new owner's functions (R478). -/
def emptyRings (st : State) : State :=
  { st with insts := st.insts.map (fun p => (p.1, { p.2 with rings := Vector.replicate 16 {} })) }

/-- A standby takes over (R486). -/
def takeOver (st : State) : State :=
  count (modTwin (emptyRings (restampAges st)) (fun t =>
    { t with state := .alone, takingOver := false, candidateUntil := none, testing := false, matchCount := 0 })) (Reg.twnCnt 0)

/-- The partner's line has been deasserted for 10 µs: the package asserts ownership. -/
def execOwnAssert (st : State) : Out :=
  .next (if !mayAssert st then claimExpire st
    else
      let st := match st.twin.state with
        | .start => twnEnd 0 (modTwin (restampAges st) (fun t => { t with state := .alone }))
        | .standby => takeOver st
        | _ => st
      modTwin st (fun t => { t with own := true, assertedAt := some (elNs st) }))

/-- 2 µs after the assertion the transmitters are enabled and TWN_SEL_O rises (R465). -/
def execOwnTxEnable (st : State) : Out :=
  .next (match st.twin.assertedAt with
    | some a =>
      if a + 2000 ≤ elNs st ∧ st.twin.own ∧ ¬ st.glb.halted then
        modTwin st (fun t => { t with txEn := true, sel := true, assertedAt := none, claimUntil := none })
      else st
    | none => st)

/-! Loss of heartbeats (R474, R475). -/

def linkLost (st : State) : State := raise st { block := 5, index := 1 }

/-- Sixteen heartbeat periods without a valid HEARTBEAT; in the steps of a switchover that is counted alone (R490). -/
def execHbLost (st : State) : Out :=
  .next (if st.twin.hbLost || decide (elNs st < st.twin.lastHb + 16000) then st
    else
      match st.twin.state with
      | .active => linkLost (toAlone (count (modTwin st (fun t => { t with hbLost := true })) (Reg.twnCnt 2)))
      | .syncing => linkLost (toStart (count (modTwin st (fun t => { t with hbLost := true })) (Reg.twnCnt 2)))
      | .standby =>
        if switching st then count (modTwin st (fun t => { t with lastHb := elNs st })) (Reg.twnCnt 2)
        else
          let st := linkLost (count (modTwin st (fun t => { t with
            hbLost := true, candidateUntil := some (elNs st + 1000000) })) (Reg.twnCnt 2))
          if st.twin.partnerOwn || st.twin.takingOver then st else ownReleased st
      | .off | .start | .alone | .halted => st)

/-- A standby that has not taken over within 1 ms claims nothing. -/
def execCandidacyEnd (st : State) : Out :=
  .next (match st.twin.candidateUntil with
    | some t => if t ≤ elNs st ∧ st.twin.state = .standby then toStart st else st
    | none => st)

/-! Health (R481-R483). -/

/-- An input lane is out of READY while the partner reports it READY (R483). -/
def inputDown (st : State) : Bool :=
  sides.any (fun d => slices4.any (fun s => ports8.any (fun k =>
    sliceOn st s && (laneCfg st d s k).enabled && (laneOf st (.lane d s k)).stage != .ready &&
    st.twin.partnerReady.getLsbD (32 * sideNum d + 8 * s.val + k.val))))

/-- READY bits of the own input lanes. -/
def readyBits (st : State) : Nat :=
  sumOf (fun d => sumOf (fun s => sumOf (fun k =>
    if (laneOf st (.lane d s k)).stage = .ready then 2 ^ (32 * sideNum d + 8 * s.val + k.val) else 0) ports8) slices4) sides

/-- Engines out of their pools after a failed test. -/
def failedEngines (st : State) : Nat := sumOf (fun (x : SliceSt) => sumOf (fun p => p.failed) x.pools.toList) st.slices.toList

/-- TWN_HEALTH_LOCAL. -/
def healthLocal (st : State) : Word :=
  word [(Fld.twnHealthLocal_ENG_FAIL, b2n st.twin.engFail), (Fld.twnHealthLocal_SRAM_UNCORR, b2n st.twin.sramUncorr),
    (Fld.twnHealthLocal_TSU_OFFSET, b2n st.twin.tsuOffset), (Fld.twnHealthLocal_JNL_FAILING, b2n st.jnl.failingSince.isSome),
    (Fld.twnHealthLocal_INPUT_DOWN, b2n (inputDown st)), (Fld.twnHealthLocal_FINDING, b2n st.twin.finding),
    (Fld.twnHealthLocal_FAILED_ENGINES, min 255 (failedEngines st))]

/-- A health report that is a verdict (R483). -/
def isVerdict (w : Word) : Bool := bitW w 31 || bitW w 30 || bitW w 29 || bitW w 28 || bitW w 27

/-- An owner that its own health condemns releases the outputs; with no halt it returns to START (R486). -/
def handOver (st : State) : State := beginSwitch (toStart (releaseOwn st))

/-- Verdicts of one epoch (R483, R490). -/
def healthCheck (st : State) : State :=
  let own := isVerdict (healthLocal st)
  let partner := isVerdict st.twin.healthPartner
  match st.twin.state with
  | .active =>
    if own && partner then toAlone (raise st { block := 5, index := 4 })
    else if own then handOver st
    else if partner then toAlone st
    else st
  | .standby => if own then toSyncing st else st
  | .off | .start | .alone | .syncing | .halted => st

end Sys2Proof.Machine
end

