-- ==== Sys2Proof/Machine/Power.lean ====
section
/-!
DEFINITION. Power, clocks and hold-up (17): voltage loops, engine-pool loops, port resets, PLLs, the hold-up sequence (09
R375, Table 9-6); ports in the Umber state by register (20 R693).
-/
namespace Sys2Proof.Machine

/-! Adaptive voltage (R623-R626). -/

def modAvs (st : State) (s : SliceId) (f : AvsSt → AvsSt) : State := { st with avs := upd st.avs s f }
def avsCfg (st : State) (s : SliceId) (f : Field) : Nat := fldA st (Reg.pwrAvsCfg s) f

/-- VMIN and VMAX in force (R623). -/
def avsMax (st : State) (s : SliceId) : Nat := clampN 650 850 (avsCfg st s Fld.pwrAvsCfg_VMAX)
def avsMin (st : State) (s : SliceId) : Nat := min (clampN 650 850 (avsCfg st s Fld.pwrAvsCfg_VMIN)) (avsMax st s)

/-- A request on AVSBus; one that is not acknowledged after two retries holds the loop for 100 ms (R626). -/
def avsRequest (st : State) (s : SliceId) (mv : Nat) (ack : Bool) : State :=
  let st := emit (modAvs st s (fun a => { a with requested := BitVec.ofNat 10 mv })) (.avs s mv)
  if ack then st
  else
    raise (count (modAvs st s (fun a => { a with failUntil := some (elNs st + 100000000) })) (Reg.pwrCnt 0)) { block := 2, index := 1 }

/-- The voltage that R623 asks for, from the slack. -/
def avsNext (st : State) (s : SliceId) (slack : Nat) : Nat :=
  let v := (st.avs[s]).requested.toNat
  if slack < avsCfg st s Fld.pwrAvsCfg_SLACK_LO then clampN (avsMin st s) (avsMax st s) (v + 5)
  else if avsCfg st s Fld.pwrAvsCfg_SLACK_HI < slack then clampN (avsMin st s) (avsMax st s) (v - 5)
  else v

/-- The loop requests nothing: FRZ, an emergency not over, a failed transaction (R624-R626). -/
def avsHeld (st : State) (s : SliceId) : Bool :=
  avsCfg st s Fld.pwrAvsCfg_FRZ != 0 || (st.avs[s]).emergUntil.isSome || (st.avs[s]).failUntil.isSome

/-- The end of a 100 µs interval: its smallest slack, whether a monitor was below the emergency level, whether the
regulator acknowledges, and the voltage it reports. -/
def execAvsInterval (s : SliceId) (slack : BitVec 5) (emerg ack : Bool) (mv : BitVec 10) (st : State) : Out :=
  .next (if st.img.sl[s] ≠ .running ∨ st.glb.halted then st
    else
      let st := modAvs st s (fun a => { a with slack := slack, reported := if ack then mv else a.reported })
      if emerg then
        let free := avsCfg st s Fld.pwrAvsCfg_FRZ == 0 && (st.avs[s]).failUntil.isNone
        let st := modAvs st s (fun a => { a with emergUntil := some (elNs st + 1000000) })
        let st := raise (count st (Reg.pwrCnt 1)) { block := 2, index := 0 }
        if free then avsRequest st s (avsMax st s) ack else st
      else if avsHeld st s then st
      else
        let v := avsNext st s slack.toNat
        if v = (st.avs[s]).requested.toNat then st else avsRequest st s v ack)

/-- 1 ms after an emergency (R624). -/
def execAvsEmergEnd (s : SliceId) (st : State) : Out :=
  .next (match (st.avs[s]).emergUntil with
    | some a => if a ≤ elNs st then modAvs st s (fun x => { x with emergUntil := none }) else st
    | none => st)

/-- 100 ms after a failed transaction (R626). -/
def execAvsHoldEnd (s : SliceId) (st : State) : Out :=
  .next (match (st.avs[s]).failUntil with
    | some a => if a ≤ elNs st then modAvs st s (fun x => { x with failUntil := none }) else st
    | none => st)

/-! Engine pools (R628, R629; 01 R44-R49). -/

def poolOf (st : State) (s : SliceId) (d : Side) : PoolSt := (sl st s).pools.toList.getD (sideNum d) {}
def modPool (st : State) (s : SliceId) (d : Side) (f : PoolSt → PoolSt) : State :=
  modSl st s (fun x => { x with pools := x.pools.mapFinIdx (fun i p _ => if i = sideNum d then f p else p) })
def engCtl (st : State) (s : SliceId) (d : Side) (f : Field) : Nat := fldA st (Reg.pwrEngCtl (2 * s.val + sideNum d)) f
/-- MIN_ON, MAX_ON and DOWN_THR as the device takes them. -/
def engMin (st : State) (s : SliceId) (d : Side) : Nat := clampN 2 10 (engCtl st s d Fld.pwrEngCtl_MIN_ON)
def engMax (st : State) (s : SliceId) (d : Side) : Nat := clampN (engMin st s d) 10 (engCtl st s d Fld.pwrEngCtl_MAX_ON)
def engUp (st : State) (s : SliceId) (d : Side) : Nat := engCtl st s d Fld.pwrEngCtl_UP_THR
def engDown (st : State) (s : SliceId) (d : Side) : Nat :=
  let v := engCtl st s d Fld.pwrEngCtl_DOWN_THR
  if engUp st s d ≤ v then engUp st s d - 10 else v
def engFrozen (st : State) (s : SliceId) (d : Side) : Bool := st.img.content.twin || engCtl st s d Fld.pwrEngCtl_FRZ != 0

/-- Fewer engines stand in the pool or on their way into it than the slice must keep, and one more can be powered: MIN_ON of
them while the loop runs, 2 while it is frozen (01 R47, R629). -/
def engShort (st : State) (s : SliceId) (d : Side) : Bool :=
  let p := poolOf st s d
  sliceOn st s && decide (p.inPool + p.rising < (if engFrozen st s d then 2 else engMin st s d)) &&
    decide (enginesOn p + p.failed < 10)

/-- The end of a 10 µs window with its load (R628). An engine that is still draining is not powered up (01 R49). -/
def execEngineLoopWindow (s : SliceId) (d : Side) (load : BitVec 7) (st : State) : Out :=
  .next (if !sliceOn st s || st.glb.halted then st
    else
      let low := decide (load.toNat < engDown st s d)
      let st := modPool st s d (fun p => { p with
        load := load, lowSince := if low then p.lowSince.or (some (elNs st - 10000)) else none })
      let p := poolOf st s d
      let long := match p.lowSince with | some a => decide (a + 1000000 ≤ elNs st) | none => false
      if engShort st s d then modPool st s d (fun p => { p with rising := p.rising + 1 })
      else if engFrozen st s d then st
      else if engUp st s d < load.toNat ∧ enginesOn p < engMax st s d ∧ enginesOn p + p.failed < 10 then
        modPool st s d (fun p => { p with rising := p.rising + 1 })
      else if long = true ∧ engMin st s d < p.inPool then
        modPool st s d (fun p => { p with inPool := p.inPool - 1, draining := p.draining + 1 })
      else st)

/-- A removed engine has finished its frames and is gated (01 R44). -/
def execEngineDrainDone (s : SliceId) (d : Side) (st : State) : Out :=
  .next (if (poolOf st s d).draining = 0 then st else modPool st s d (fun p => { p with draining := p.draining - 1 }))

/-- An engine has failed its known-answer test: out of the pool until the slice's reset, and replaced where too few are left
(01 R46, R47; 20 R705). -/
def engFailed (st : State) (s : SliceId) (d : Side) : State :=
  let st := modPool st s d (fun p => { p with failed := p.failed + 1 })
  let st := if engShort st s d then modPool st s d (fun p => { p with rising := p.rising + 1 }) else st
  raise (modTwin st (fun t => { t with engFail := true })) { block := 23, index := 7, slice := s.val }

/-- A known-answer test ends: of an engine that is being powered up (01 R45), or, while none is, of one in service
(12 R482). -/
def execEngineKatDone (s : SliceId) (d : Side) (ok : Bool) (st : State) : Out :=
  .next (if (poolOf st s d).rising = 0 then
      (if ok || (poolOf st s d).inPool == 0 then st
       else engFailed (modPool st s d (fun p => { p with inPool := p.inPool - 1 })) s d)
    else
      let st := modPool st s d (fun p => { p with rising := p.rising - 1 })
      if ok then modPool st s d (fun p => { p with inPool := p.inPool + 1 }) else engFailed st s d)

/-! Port reset (R638). -/

def rstDone (w : Word) (code : Nat) (st : State) : State :=
  cmdDone st Reg.pwrPortRst Fld.pwrPortRst_RESULT Fld.pwrPortRst_RESET w code

/-- The port's frames are dropped as at a down port, its counters cleared, its lanes back at step 1. -/
def portDown (st : State) (s : SliceId) (d : Side) (k : PortIx) : State :=
  let st := if d = .line then fiReset st s k else st
  let st := (portLanes st d s k).foldl (fun st i =>
    modLane (setStage .sigWait (laneLost st (.lane d s i) .signal) (.lane d s i)) (.lane d s i) (fun x =>
      { x with retries := 0, consec := 0 })) st
  let st := modPort st d s k (fun p => { p with
    enabled := false, guardTrip := false, downDrops := 0, macDrops := 0, fcDrops := 0, queue := []
    flow := { p.flow with resp := [], headroom := none, measuring := false } })
  let st := match d with
    | .client => modSl st s (fun x => { x with cpCtr := clearCtrs x.cpCtr k.val (k.val + 1) })
    | .line =>
      let st := wr st Reg.glbGuard (rd st Reg.glbGuard &&& ~~~ BitVec.ofNat 32 (2 ^ (8 * s.val + k.val)))
      modSl st s (fun x => { x with lpCtr := clearCtrs x.lpCtr (8 * k.val) (8 * k.val + 8) })
  let st := modPmu st (fun p => { p with bw := (p.bw.del (bwKey d s k false)).del (bwKey d s k true) })
  settle st s

/-- A write of PWR_PORT_RST with RESET 1. -/
def portRstCmd (w : Word) (st : State) : State :=
  let s : SliceId := Fin.ofNat 4 (getF w Fld.pwrPortRst_SLICE)
  let d : Side := if getF w Fld.pwrPortRst_SIDE = 0 then .client else .line
  let k : PortIx := Fin.ofNat 8 (getF w Fld.pwrPortRst_PORT)
  if getF w Fld.pwrPortRst_RESET = 0 then rstDone w (fld st Reg.pwrPortRst Fld.pwrPortRst_RESULT) st
  else if !sliceOn st s || !(portCfg st d s k).enabled then rstDone w 2 st
  else
    let st := modGlb (portDown st s d k) (fun g => { g with portReset := some (s, d, k) })
    cmdBusy st Reg.pwrPortRst Fld.pwrPortRst_RESET w

def execPortReset (s : SliceId) (d : Side) (k : PortIx) (st : State) : Out :=
  let w := word [(Fld.pwrPortRst_RESET, 1), (Fld.pwrPortRst_SLICE, s.val), (Fld.pwrPortRst_SIDE, sideNum d),
    (Fld.pwrPortRst_PORT, k.val)]
  .next (cmdPF Reg.pwrPortRst Fld.pwrPortRst_RESULT w (portRstCmd w) st)

def execPortResetDone (st : State) : Out :=
  .next (match st.glb.portReset with
    | none => st
    | some _ => rstDone (rd st Reg.pwrPortRst) 0 (modGlb st (fun g => { g with portReset := none })))

/-! PLLs (R633). -/

/-- A PLL has been out of lock for 1 µs: one of REFCLK_TWIN halts the device; one of REFCLK_NET, which clocks the lanes of one
side of a slice, takes them out of READY. -/
def execPllUnlock (pll : Nat) (lanes : Option (SliceId × Side)) (st : State) : Out :=
  .next (match lanes with
    | none => carmineHalt st 8 0 0 pll 39 (Config.detail 39 [8, pll])
    | some (s, d) =>
      let st := ports8.foldl (fun st i => laneLost st (.lane d s i) .cdr) st
      raise (count st (Reg.pwrCnt 2)) { block := 2, index := 2 })

/-! Hold-up (R639, R640; 09 R375, R376). -/

/-- PWRFAIL_N falls: the filter of 100 ns starts, but not during a hold-up. -/
def execPwrfailNFall (st : State) : Out :=
  .next (if st.glb.pwrfailLow || st.glb.holdup then st else modGlb st (fun g => { g with pwrfailLow := true, pwrfailAt := elNs st }))

/-- PWRFAIL_N is high again within 100 ns: ignored and counted. -/
def execPwrfailGlitch (st : State) : Out :=
  .next (if st.glb.pwrfailLow ∧ elNs st < st.glb.pwrfailAt + 100 then
    modGlb st (fun g => { g with
      pwrfailLow := false, glitches := if g.glitches = BitVec.allOnes 16 then g.glitches else g.glitches + 1 })
  else st)

/-- Step 2 of Table 9-6: requests not yet written are abandoned; an abandoned installation is refused (09 R376). -/
def jnlClose (st : State) : State :=
  let us := (st.jnl.reqs ++ (match st.jnl.writing with | some (r, _) => [r] | none => [])).map (fun r => r.use)
  let st := modJnl st (fun j => { j with reqs := [], writing := none, closed := true })
  us.foldl (fun st u => match u with
    | .load .. | .install .. => installRefused st u
    | .destroy | .tombDormant => pnjEnd st 6
    | _ => st) st

/-- Table 9-6: Umber, ownership released, the journal closed, the power-fail record; records of tamper alarms that wait go
first, and later ones follow 15 R583. -/
def execHoldUp (st : State) : Out :=
  .next (if st.glb.pwrfailLow ∧ !st.glb.holdup ∧ st.glb.pwrfailAt + 100 ≤ elNs st then
    let st := modGlb (enterUmber st) (fun g => { g with holdup := true, pwrfailLow := false })
    let st := modTwin st (fun t => { t with state := if t.state = .off then .off else .halted })
    logRec (jnlClose st) 32 (Config.detail 32 [])
  else st)

/-! Umber by register (20 R693, R694). -/

def umberReg (d : Side) : Nat := match d with | .client => Reg.glbUmberCl | .line => Reg.glbUmberLl
def execGlbUmberWrite (d : Side) (mask : Word) (st : State) : Out :=
  .next (viaPF (umberReg d) mask (fun st => wr st (umberReg d) mask) st)

end Sys2Proof.Machine
end

