-- ==== Sys2Proof/Machine/Resync.lean ====
section
/-!
DEFINITION. Indigo messages as they are received and sent (12 R470-R474), and the resynchronisation stream (12 R491, R492; 09
R358).
-/
namespace Sys2Proof.Machine

/-! Receiving (R471, R473, R474). -/

/-- The tags of the messages in which the partner says these items, the first of them with header `m` (R473). -/
def partnerTag (st : State) (type : Nat) (m : MsgHdr) (items : List Nat) : Bytes :=
  (msgParts type items).zipIdx.flatMap (fun p =>
    (sealMsg st.twin.sessKey (!st.primary) type m.flags (m.seq.toNat + p.2) m.epoch.toNat p.1).2)

/-- A message, with those that continue it, is taken when a session is keyed, its tag is good and its sequence has not been
received; a bad tag is counted (R474). Sequences passed over are missing until they come. -/
def takeMsg (type : Nat) (m : MsgHdr) (items : List Nat) (st : State) : Bool × State :=
  let n := m.seq.toNat
  let last := n + ((msgParts type items).length - 1)
  if st.glb.halted || !st.twin.keyed || !twinLinkUp st then (false, st)
  else if m.tag ≠ partnerTag st type m items then (false, count st (Reg.twnCnt 3))
  else if st.twin.rxSeq < n then
    (true, modTwin st (fun t => { t with
      rxSeq := last
      missing := t.missing ++ (List.range (n - t.rxSeq - 1)).map (fun i => (t.rxSeq + 1 + i, some (epochOf st m.epoch))) }))
  else if st.twin.missing.any (fun x => x.1 == n) then
    (true, modTwin st (fun t => { t with missing := t.missing.filter (fun x => decide (x.1 < n) || decide (last < x.1)) }))
  else (false, st)

/-- What a good message does. -/
def onMsg (type : Nat) (m : MsgHdr) (items : List Nat) (eff : State → State) (st : State) : Out :=
  .next (match takeMsg type m items st with
    | (true, st) => eff st
    | (false, st) => st)

/-! The stream at the owner (R491). -/

/-- A slot without its key and without what belongs to the journal of its own package (09 R377). -/
def blankSlot (x : Slot) : Slot := { x with key := [], h := [], jidx := noIdx, resPend := false }
/-- A key position likewise. -/
def blankPos (k : KeyPos) : KeyPos :=
  { k with key := [], h := [], txIdx := noIdx, rxIdx := noIdx, txPend := false, rxPend := false }
/-- A tributary without its keys and without the frames in its slip buffer (R493). -/
def blankTrib (x : TribSt) : TribSt := { x with pos := x.pos.map blankPos, slip := {}, installing := none }

/-- The highest reservation that has been requested and not applied, of the uses that `f` gives it for. -/
def wanted (st : State) (f : JUse → Option Nat) : Nat :=
  let us := st.jnl.reqs.map (fun r => r.use) ++ (match st.jnl.writing with | some (r, _) => [r.use] | none => []) ++ st.jnl.applies
  us.foldl (fun n u => max n ((f u).getD 0)) 0
def wantedSlot (st : State) (s : SliceId) (ch : ChIx) (an : An) : Nat :=
  wanted st (fun u => match u with
    | .reserveSlot s' c a r => if s' = s ∧ c = ch ∧ a = an then some r else none
    | _ => none)
def wantedPos (st : State) (s : SliceId) (t : Nat) (p : Fin 2) (tx : Bool) : Nat :=
  wanted st (fun u => match u with
    | .reserveTrib s' t' p' x r => if s' = s ∧ t' = t ∧ p' = p ∧ x = tx then some r else none
    | _ => none)

/-- Bits of the register at `a` that a write sets. -/
def rwBits (a : Nat) : Nat := match regRow? a with | some r => r.rw | none => 0
/-- Registers that the mirror forwards; a counter or status register cannot be written (05 R223). -/
def mirrored (p : Nat × Word) : Bool := !notForwarded p.1 && decide (rwBits p.1 ≠ 0)

/-- Configuration of one slice. -/
def streamSlice (st : State) (s : SliceId) : List CapItem :=
  let x := sl st s
  x.imap.map (fun p => .imap s p.1 p.2) ++ [.versions s x.current x.oldest x.commitPend] ++
  sides.flatMap (fun d => (ruleTbl st s d).map (fun p => .rule s d p.1 p.2)) ++
  x.chans.map (fun p => .channel s (Fin.ofNat 16384 p.1) { p.2 with slots := p.2.slots.map (fun _ => {}), pend := [] }) ++
  ports8.flatMap (fun k => [.page s true k x.ctf.tx[k], .page s false k x.ctf.rx[k],
    .inject s k false x.lPorts[k].fi, .inject s k true x.ctf.lanes[k].fi]) ++
  fin8.map (fun i => .timer s i x.timers[i]) ++
  [.tables s x.maint x.search, .slice s st.img.sl[s] st.img.powerOff[s], .counters s st.pmu.pc[s].run]

/-- The time base as the item leaves (R476; log entry 159). -/
def timeItem (st : State) : CapItem := .time st.tsu.now st.tsu.elapsed st.tsu.ticks

/-- The time base, which a package that joins adopts at once (R476), and steps 1 to 3: configuration, node records without keys, peer tables, archive, Saffron frames. -/
def streamHead (st : State) : List CapItem :=
  [timeItem st, .tamper st.tmp.resp st.tmp.locked, .update st.glb.update] ++
  (st.regs.filter mirrored).map (fun p => .config p.1 p.2) ++ (st.applied.filter mirrored).map (fun p => .applied p.1 p.2) ++
  slices4.flatMap (streamSlice st) ++ st.insts.map (fun p => .instOf (Fin.ofNat 256 p.1) p.2) ++
  st.ktr.nodes.map (fun p => .node p.1 { p.2 with key := [] }) ++
  slices4.flatMap (fun s => (sl st s).mac.map (fun p => .mac s p.1 p.2) ++ (sl st s).lpm.map (fun p => .lpm s p.1 p.2)) ++
  st.mee.arc.map (fun p => .archive p.1 p.2) ++ st.saf.map .saffron

/-- Slots of a channel, each key wrapped under the session key, and their high-water marks. -/
def streamSlots (st : State) (s : SliceId) (p : Nat × ChRec) : List CapItem :=
  ans.flatMap (fun an =>
    let x := p.2.slots[an]
    let ch : ChIx := Fin.ofNat 16384 p.1
    if x.state = .empty then []
    else .slot s ch an (blankSlot x) (keyWrap st.twin.sessKey (padTo 32 x.key)) ::
      (if slotUses x then [.highWater s (.slot ch an) x.res (wantedSlot st s ch an)] else []))

/-- A tributary, its keys wrapped, and the high-water marks of its key positions. -/
def streamTrib (st : State) (s : SliceId) (p : Nat × TribSt) : List CapItem :=
  .trib s p.1 (blankTrib p.2) (p.2.pos.toList.map (fun k => keyWrap st.twin.sessKey (padTo 32 k.key))) ::
  positions.flatMap (fun q =>
    let k := p.2.pos[q]
    if k.state = .empty then []
    else [.highWater s (.pos p.1 q true) k.txRes (wantedPos st s p.1 q true),
      .highWater s (.pos p.1 q false) k.rxRes (wantedPos st s p.1 q false)]) ++
  [.slipRead s p.1 p.2.slip.started]

/-- Step 4: the dynamic state as of the cut epoch. -/
def streamTail (st : State) : List CapItem :=
  slices4.flatMap (fun s =>
    let x := sl st s
    x.chans.flatMap (streamSlots st s) ++
    x.ctf.trib.flatMap (streamTrib st s) ++
    ports8.filterMap (fun k => (respMax x.cPorts[k].flow).map (fun h => .headroom s k h)) ++
    ports8.flatMap (fun k =>
      let l := x.ctf.lanes[k]
      [.ctfFc s k l.fc, .ctfLane s k l.txPhase l.rxPhase l.swapFc l.jump]) ++
    [.ctfTiming s x.ctf.swapPend x.ctf.alignArmed x.ctf.corr x.ctf.phase x.ctf.lastOff, .ages s x.tick x.ms x.tickMs x.tickLen]) ++
  [timeItem st]

/-- The stream begins. -/
def startStream (st : State) : State :=
  modTwin st (fun t => { t with streaming := true, stream := streamHead st, cutEpoch := none, matchCount := 0 })

/-- At the start of the cut epoch the dynamic state is captured and follows. -/
def streamCut (st : State) : State :=
  if st.twin.streaming && st.twin.cutEpoch == some st.twin.epoch
  then modTwin st (fun t => { t with stream := t.stream ++ streamTail st }) else st

def optNat (x : Option Nat) : Nat := match x with | some n => n + 1 | none => 0

/-- What a CAPSULE message says of an item: its kind, and then the record of the instance capsule where that has one for it (R491,
13 Table 13-6), and whatever of the item that does not show. -/
def capNats : CapItem → List Nat
  | .config a v => [1, a, v.toNat]
  | .applied a v => [2, a, v.toNat]
  | .imap s k i => [3, s.val, k, i]
  | .versions s c o n => [4, s.val, c.toNat, o.toNat, n]
  | .instOf i x => [5, i.val, instStateNum x.state, x.calendar] ++
      x.shares.toList.flatMap (fun q => [q.cells, q.weight, q.assocs, q.channels, q.rules])
  | .page s tx k m => [6, s.val, b2n tx, k.val] ++ (m.active ++ m.standby).flatMap (fun p => [p.1, p.2])
  | .rule s d ix r => [7, beVal (ruleRec s d ix r), r.addVer.toNat, r.delVer.toNat, b2n r.retired]
  | .channel s ch r => [8, beVal (recOf 48 s 0 ch.val (chImage r))]
  | .node n r => [9, beVal (nodeRec (n, r)), r.owner.val]
  | .mac s ix e => [10, beVal (recOf 32 s 0 0 ((macImage e).take 5)), ix, e.mstamp.toNat]
  | .lpm s ix e => [11, beVal (recOf 32 s 0 0 ((lpmImage e).take 6)), ix]
  | .archive n e => [12, n, e.inst.val, b2n e.dirRx, e.suite.val, beVal e.key, e.salt.toNat, e.ssci.toNat, e.pn]
  | .saffron f => [13, f.inst.val, f.s.val, f.k.val, f.launch.toNat, b2n f.sendLate, f.order, beVal f.bytes, f.bytes.length]
  | .cut e => [14, e]
  | .slot s ch an r w => [15, beVal (slotBytes s ch an r 0 w), r.res, b2n r.orphan, b2n r.exhausted, b2n r.rekeyReq, b2n r.leaf,
      r.resWant, optNat r.due]
  | .trib s t x ws => [16, s.val, t, x.cport.val, x.inst.val, x.txLabel.toNat, x.expLabel.toNat, x.tribId.toNat, x.salt.toNat,
      x.node] ++ ws.map beVal
  | .highWater s (.slot ch an) r w => [17, s.val, 0, ch.val, an.val, 0, r, w]
  | .highWater s (.pos t p tx) r w => [17, s.val, 1, t, p.val, b2n tx, r, w]
  | .headroom s k h => [18, s.val, k.val, h]
  | .ages s t ms n l => [19, s.val, t.toNat, ms, n, l]
  | .slipRead s t b => [20, s.val, t, b2n b]
  | .ctfFc s k fc => [21, s.val, k.val, fc.toNat]
  | .time now el n => [22, now.toNat, el.toNat, n]
  | .tamper resp locked => 25 :: b2n locked :: resp.toList.map (fun r => r.val)
  | .timer s i t => [26, s.val, i.val, t.time.toNat, t.lead.toNat, b2n t.armed, b2n t.rxFired]
  | .tables s m q => 27 :: s.val :: m.toList.map b2n ++ q.toList.flatMap (fun x => match x with
      | some (d, k, i) => (i + 1) :: d.length :: (d ++ k).map (fun w => w.toNat)
      | none => [0])
  | .inject s k c f => [28, s.val, k.val, b2n c, b2n f.armed, b2n f.recorded, f.cfg.toNat, f.sel.toNat, f.seen, f.acted.toNat]
  | .ctfLane s k a b f j => [29, s.val, k.val, b2n a, b2n b, optNat f] ++ (match j with
      | some x => x.target :: x.need :: x.waits.flatMap (fun w => [w.1, w.2.val])
      | none => [])
  | .ctfTiming s a b c p o => [30, s.val, b2n a, b2n b, b2n (decide (c < 0)), c.natAbs, b2n (decide (p < 0)), p.natAbs, o.toNat]
  | .slice s q o => [31, s.val, sliceStateNum q, b2n o]
  | .counters s r => [32, s.val, b2n r]
  | .update u => 33 :: (match u with
      | some (m, ws) => m.toNat :: ws.flatMap (fun p => [p.1, p.2.toNat])
      | none => [])
  | .restoreBytes bs => [23, beVal bs, bs.length]
  | .image part img => [24, b2n part, beVal img.bytes, img.bytes.length]

/-- What the stream carries is staged in DRAM on its way (14 Table 14-3; where in the range is open, log entry 140). -/
def streamStage (st : State) (items : List Nat) : State := capStage st (msgParts 9 items).flatten

/-- An item as it leaves: the time base is that of the instant. -/
def freshItem (st : State) (x : CapItem) : CapItem := match x with | .time .. => timeItem st | _ => x

/-- The next `n` items leave; when steps 1 to 3 are through, the cut epoch is the next one (R491 step 4). -/
def execCapsuleStreamSend (n : Nat) (st : State) : Out :=
  let xs := st.twin.stream.take n
  .next (if !st.twin.keyed || st.glb.halted then st
    else
      let items := xs.flatMap (fun x => capNats (freshItem st x))
      let st := if xs.isEmpty then st
        else sendMsg (streamStage (modTwin st (fun t => { t with stream := t.stream.drop n })) items) 9 items
      if st.twin.streaming && st.twin.stream.isEmpty && st.twin.cutEpoch.isNone then
        modTwin st (fun t => { t with cutEpoch := some (t.epoch + 1), stream := [.cut (t.epoch + 1)] })
      else st)

/-! The stream at the package that joins. -/

/-- A mismatch of a node ends the JOIN with reason 3 (R491). -/
def streamMismatch (st : State) : State := modTwin (toStart st) (fun t => { t with mismatch := 3 })

/-- A node: a root must be held already; any other is derived again from the package's own roots. -/
def streamNode (st : State) (n : Nat) (r : Node) : State :=
  let key? := if r.root then (node? st n).map (fun x => x.key) else (node? st r.parent).map (fun p => kdf p.key r.mordant r.depth.val)
  match key? with
  | none => streamMismatch st
  | some key => if kcvOf key = r.kcv then putNode st n { r with key := key } else streamMismatch st

/-- A slot takes the PN and RES of the owner without the start rule (09 R358). -/
def streamSlot (st : State) (s : SliceId) (ch : ChIx) (an : An) (r : Slot) (wrapped : Bytes) : State :=
  match keyUnwrap st.twin.sessKey wrapped with
  | none => st
  | some k =>
    let c := chOf st s ch
    let key := suiteKey c.suite k
    modSlot st s ch an (fun _ => { blankSlot r with key := key, h := hashKey (aesKeyOf c.suite key) })

/-- A tributary, likewise. -/
def streamSetTrib (st : State) (s : SliceId) (t : Nat) (x : TribSt) (ws : List Bytes) : State :=
  let keys := ws.map (fun w => (keyUnwrap st.twin.sessKey w).getD [])
  let x := blankTrib x
  let pos := x.pos.mapFinIdx (fun i k _ =>
    let key := if k.state = .empty then [] else keys.getD i []
    { k with key := key, h := if key.isEmpty then [] else hashKey key })
  modCtf st s (fun c => { c with trib := c.trib.put t { x with pos := pos } })

/-- The own journal commits the larger of its held value for the fingerprint and the owner's RES (09 R358). A fingerprint that
it does not hold takes a place as an installation's does (R361); with none to be had the package cannot get in step (DESIGN
CHOICE, log entry 154). -/
def adoptRec (st : State) (r : JReq) : State :=
  if (heldRecord st r.fp).isSome || decide (st.jnl.index.length + jnlNew st < heldMax) then jnlRequest st r
  else
    match oldestTomb st with
    | some p => jnlRequest (evict st p) r
    | none => toStart st

/-- A high-water mark: the record of the key, and the reservation that the owner has requested for it, so that both packages
raise RES in the same step (R357). -/
def streamMark (st : State) (s : SliceId) (m : MarkOf) (res want : Nat) : State :=
  let own (fp : Bytes) : Nat := match heldRecord st fp with | some (q, _) => q | none => noIdx
  match m with
  | .slot ch an =>
    let (kind, fp) := slotJrec st s ch an
    let st := modSlot st s ch an (fun x => { x with jidx := own fp })
    let st := adoptRec st { cls := 0, kind := kind, tomb := false, fp := fp, value := res, use := .adopt s ch an }
    if res < want then reserveSlot st s ch an want else st
  | .pos t p tx =>
    match trib? st s t with
    | none => st
    | some x =>
      let (kind, fp) := posRec st s t tx x x.pos[p]
      let st := modPos st s t p (fun k => if tx then { k with txIdx := own fp } else { k with rxIdx := own fp })
      let st := adoptRec st { cls := 0, kind := kind, tomb := false, fp := fp, value := res, use := .adoptTrib s t p tx }
      if res < want then reserveTrib st s t p tx want else st

/-- The package that joins adopts the owner's time base: NOW, ELAPSED, ticks, and with ELAPSED the epoch (R476). What it does at
every so much ELAPSED starts anew (DESIGN CHOICE, log entry 159). -/
def adoptTime (now : BitVec 64) (el : BitVec 96) (n : Nat) (st : State) : State :=
  let st := restartMs (modTsu st (fun t => { t with now := now, elapsed := el, ticks := n }))
  let e := elNs st
  let st := modTwin st (fun t => { t with
    epoch := e / 8192, lastHb := e, lastHello := e, lastHbSent := e, lastTime := e, lastAck := e })
  let st := bwRestart (modPmu st (fun p => { p with nextAt := (e / sampleNs st + 1) * sampleNs st }))
  slices4.foldl (fun st s => modCtf st s (fun c => { c with secStart := e })) st

/-- One item of the stream. -/
def applyItem (st : State) : CapItem → State
  | .config a v => storePlain a v st
  | .applied a v => wrA st a v
  | .imap s k i => modSl st s (fun x => { x with imap := x.imap.put k i })
  | .versions s c o n => modSl st s (fun x => { x with current := c, oldest := o, commitPend := n })
  | .instOf i x => modInst st i (fun y => { x with rings := y.rings })
  | .page s tx k m => modCtf st s (fun c => if tx then { c with tx := c.tx.set k m } else { c with rx := c.rx.set k m })
  | .rule s d ix r => modRules st s d (fun m => m.put ix r)
  | .channel s ch r =>
    let st := modCh st s ch (fun _ => r)
    if r.dirRx && (sciFind st s r.sci).isNone then
      match sciFree st s r.sci with
      | some ix => modHash st s (fun m => m.put ix { sci := r.sci, ch := ch })
      | none => st
    else st
  | .node n r => streamNode st n r
  | .mac s ix e => modMac st s (fun m => m.put ix e)
  | .lpm s ix e => modLpm st s (fun m => m.put ix e)
  | .archive n e => arcPut st n e
  | .saffron f => { st with saf := st.saf ++ [f], safOrder := max st.safOrder (f.order + 1) }
  | .cut e => modTwin st (fun t => { t with cutEpoch := some e })
  | .slot s ch an r w => streamSlot st s ch an r w
  | .trib s t x ws => streamSetTrib st s t x ws
  | .highWater s m r w => streamMark st s m r w
  | .headroom s k h => modPort st .client s k (fun p => { p with flow := { p.flow with resp := [h] } })
  | .ages s t ms n l => modSl st s (fun x => { x with tick := t, ms := ms, tickMs := n, tickLen := l })
  | .slipRead s t b => modTrib st s t (fun x => { x with slip := { x.slip with started := b } })
  | .ctfFc s k fc => modCtfLane st s k (fun x => { x with fc := fc })
  | .time now el n => adoptTime now el n st
  | .tamper resp locked => modTmp st (fun t => { t with resp := resp, locked := locked })
  | .timer s i t => modTimer st s i (fun _ => t)
  | .tables s m q => modSl st s (fun x => { x with maint := m, search := q })
  | .inject s k ctf f =>
    if ctf then modCtfLane st s k (fun x => { x with fi := f }) else modPort st .line s k (fun p => { p with fi := f })
  | .ctfLane s k a b f j => modCtfLane st s k (fun x => { x with txPhase := a, rxPhase := b, swapFc := f, jump := j })
  | .ctfTiming s a b c p o => modCtf st s (fun x => { x with swapPend := a, alignArmed := b, corr := c, phase := p, lastOff := o })
  | .slice s q o => modImg st (fun i => { i with sl := i.sl.set s q, powerOff := i.powerOff.set s o })
  | .counters s r => modPmu st (fun p => { p with pc := upd p.pc s (fun c => { c with run := r }) })
  | .update u => modGlb st (fun g => { g with update := u })
  | .restoreBytes bs => { st with capBytes := bs }
  | .image part img => putImage part img st

/-- Items that follow the pair in step too: a forwarded command's host bytes (13 R529, 16 R614). -/
def itemInStep : CapItem → Bool
  | .restoreBytes _ | .image _ _ => true
  | _ => false

/-- A change that has not come by the start of its epoch takes the standby out of step (R474). -/
def lateFor (e : Nat) (st : State) : State :=
  if st.twin.state = .standby ∧ e ≤ st.twin.epoch then toSyncing st else st

/-- The items of a CAPSULE message of epoch `e`; the bytes of a forwarded command must have come by the start of epoch e + 2. -/
def capsule (e : Nat) (xs : List CapItem) (st : State) : State :=
  let st := streamStage (if xs.any itemInStep then lateFor (e + 2) st else st) (xs.flatMap capNats)
  xs.foldl (fun st x =>
    if st.twin.state = .syncing ∨ (st.twin.state = .standby ∧ itemInStep x) then applyItem st x else st) st

/-- A CAPSULE message of the stream. -/
def execCapsule (m : MsgHdr) (xs : List CapItem) (st : State) : Out :=
  onMsg 9 m (xs.flatMap capNats) (fun st => capsule (epochOf st m.epoch) xs st) st

/-! HELLO, HEARTBEAT, STEP, DIGEST, HEALTH, LEARN, TIME, ACK. -/

/-- A HELLO: an owner whose partner has begun SYNCING keys the session too and starts the stream; a JOIN that waits goes on. A
HELLO of START while a session is keyed asks for a new one (log entry 163). -/
def execHello (h : Hello) (st : State) : Out :=
  .next (if !twinLinkUp st || st.glb.halted || st.twin.state == .off then st
    else
      let st := modTwin st (fun t => { t with partner := some h, partnerState := h.twinState })
      if st.twin.joinUntil.isSome && st.twin.state == .start then join (rd st Reg.twnCmd) st
      else if st.twin.state == .alone && h.twinState == .syncing then
        match linkNode st with
        | some n => startStream (modTwin (keySession st n h) (fun t => { t with rand := [] }))
        | none => st
      else if st.twin.state == .alone && h.twinState == .start && st.twin.keyed then
        modTwin (endSession st) (fun t => { t with partner := some h, streaming := false, stream := [], cutEpoch := none })
      else st)

/-- A HEARTBEAT that left in epoch `e`: state of the partner; what follows when it has left step (Table 12-3). One that left before
the partner entered STANDBY, in the step in which this package became ACTIVE, says nothing of that. -/
def heartbeat (e : Nat) (q : TwinState) (st : State) : State :=
  let was := st.twin.partnerState
  let st := modTwin st (fun t => { t with lastHb := elNs st, hbLost := false, partnerState := q })
  match st.twin.state with
  | .active => if q = .standby ∨ (q = .syncing ∧ e < st.twin.activeFrom) then st else toAlone st
  | .syncing => if q = .alone ∨ q = .active then st else toStart st
  | .alone =>
    if q = .syncing ∧ was ≠ .syncing ∧ ¬ st.twin.streaming then startStream st
    else if q ≠ .syncing ∧ q ≠ .standby then modTwin st (fun t => { t with streaming := false, stream := [], cutEpoch := none })
    else st
  | .off | .start | .standby | .halted => st
def execHeartbeat (m : MsgHdr) (q : TwinState) (seen : Bool) (st : State) : Out :=
  onMsg 2 m [twinStateNum q, b2n seen] (fun st => heartbeat (epochOf st m.epoch) q st) st

/-- A STEP: the partner's tick count at the boundary; a package in SYNCING adopts it (R476). -/
def stepTicks (n ticks : Nat) (st : State) : State :=
  if st.twin.state = .syncing then
    let own := st.twin.ownTicks.getD n st.tsu.ticks
    modTwin (modTsu st (fun t => { t with ticks := t.ticks + ticks - own })) (fun t =>
      { t with ownTicks := t.ownTicks.put n ticks, partnerTicks := t.partnerTicks.put n ticks })
  else modTwin st (fun t => { t with partnerTicks := t.partnerTicks.put n ticks })
def execIndigoStep (m : MsgHdr) (ticks : Nat) (st : State) : Out :=
  onMsg 3 m [m.epoch.toNat, ticks] (fun st => stepTicks (epochOf st m.epoch) ticks st) st

def digestNats (x : DigestSet) : List Nat := (x.cl.toList ++ x.ll.toList ++ x.host.toList).map (fun v => v.toNat)
/-- A DIGEST of the epoch that its header names. -/
def execDigest (m : MsgHdr) (x : DigestSet) (st : State) : Out :=
  onMsg 4 m (digestNats x) (fun st => modTwin st (fun t => { t with partnerDig := t.partnerDig.put (epochOf st m.epoch) x })) st

/-- A HEALTH report, and the READY bits of the partner's input lanes. -/
def execHealth (m : MsgHdr) (w : Word) (ready : BitVec 64) (st : State) : Out :=
  onMsg 5 m [w.toNat, ready.toNat] (fun st => modTwin st (fun t => { t with healthPartner := w, partnerReady := ready })) st

/-- Learned changes take effect at the start of epoch n + 2 (05 R219). -/
def learned (e : Nat) (s : SliceId) (cs : List MacChange) (st : State) : State :=
  if !twinStandby st then st
  else lateFor (e + 2) (modTwin st (fun t => { t with learnQ := t.learnQ ++ cs.map (fun c => (e + 2, s, c)) }))
def execLearnMessage (m : MsgHdr) (s : SliceId) (cs : List MacChange) (st : State) : Out :=
  onMsg 7 m (s.val :: cs.flatMap macNats) (fun st => learned (epochOf st m.epoch) s cs st) st

/-- A forwarded write or descriptor; it applies at the start of its epoch (R479). -/
def mirror (ws : List MirWrite) (st : State) : State :=
  if !twinStandby st then st
  else ws.foldl (fun st w => lateFor w.epoch st) (modTwin st (fun t => { t with mirrorQ := t.mirrorQ ++ ws }))
def execMirror (m : MsgHdr) (ws : List MirWrite) (st : State) : Out := onMsg 6 m (ws.flatMap mirNats) (mirror ws) st

/-- The standby's TSU follows the sample; an offset of more than 10 ns that has stood for 1 ms shows in the health report (11
R456). -/
def followTime (now : BitVec 64) (st : State) : State :=
  if !twinStandby st then st
  else
    let off := decide (10 * 2 ^ 32 < (now - st.tsu.now).toInt.natAbs)
    let since := if off then st.twin.offSince.or (some (elNs st)) else none
    let long := match since with | some a => decide (a + 1000000 ≤ elNs st) | none => false
    modTwin (modTsu st (fun t => { t with now := now })) (fun t => { t with offSince := since, tsuOffset := long })
def execTimeMessage (m : MsgHdr) (ns frac : Word) (st : State) : Out :=
  let now : BitVec 64 := ns ++ frac
  onMsg 8 m [now.toNat] (followTime now) st

/-- The last message sent with sequence `n`. -/
def sentMsg (st : State) (n : Nat) : Option Output :=
  st.out.reverse.find? (fun o => match o with | .indigo t q _ _ _ => t != 1 && q == n | _ => false)
/-- An ACK asks for what is missing; it is sent again and counted (R474). -/
def resend (missing : List Nat) (st : State) : State :=
  missing.foldl (fun st n => match sentMsg st n with | some o => count (emit st o) (Reg.twnCnt 4) | none => st) st
def execAckMessage (m : MsgHdr) (high : BitVec 64) (missing : List Nat) (st : State) : Out :=
  onMsg 10 m (high.toNat :: missing) (resend missing) st

/-! Sending (Table 12-4). -/

def execHelloSend (st : State) : Out :=
  .next (if st.twin.state == .off || st.glb.halted || st.twin.keyed || !twinLinkUp st ||
      decide (elNs st < st.twin.lastHello + 1000000) then st
    else sendHello (if st.twin.rand.isEmpty then freshRand st else st))

/-- A message of every microsecond of ELAPSED. -/
def everyUs (last : TwinSt → Nat) (set : TwinSt → Nat → TwinSt) (type : Nat) (items : List Nat) (st : State) : Out :=
  .next (if st.glb.halted || !st.twin.keyed || decide (elNs st < last st.twin + 1000) then st
    else sendMsg (modTwin st (fun t => set t (elNs st))) type items)

def execHeartbeatSend (st : State) : Out :=
  everyUs (fun t => t.lastHbSent) (fun t n => { t with lastHbSent := n }) 2 [twinStateNum st.twin.state, b2n st.twin.own] st
def execTimeSend (st : State) : Out :=
  everyUs (fun t => t.lastTime) (fun t n => { t with lastTime := n }) 8 [st.tsu.now.toNat] st
def execAckSend (st : State) : Out :=
  everyUs (fun t => t.lastAck) (fun t n => { t with lastAck := n }) 10 (st.twin.rxSeq :: st.twin.missing.map Prod.fst) st

end Sys2Proof.Machine
end

