-- ==== Sys2Proof/Machine/Time.lean ====
section
/-!
DEFINITION. The time base (11): NOW and ELAPSED, step and slew, PPS_IN and PPS_OUT, and one tick of the TSU clock, which is
what the block does while no command waits.
-/
namespace Sys2Proof.Machine

/-- TSU_INC as applied (R426). -/
def tsuInc (st : State) : BitVec 64 :=
  BitVec.ofNat 64 (fldA st Reg.tsuIncNs Fld.tsuIncNs_INC_NS * 2 ^ 32 + (rdA st Reg.tsuIncFrac).toNat)
/-- The nominal increment, 1.25 ns (R427). -/
def nominalInc : BitVec 64 := 0x140000000

/-- The increment that NOW takes while no slew runs: a standby ignores TSU_INC (R456; log entry 14). -/
def nowInc (st : State) : BitVec 64 := if twinStandby st then nominalInc else tsuInc st

/-- A running slew ends (R433). -/
def slewEnd (st : State) : State := raise (modTsu st (fun t => { t with slewLeft := 0, abort := false })) { block := 12, index := 2 }
/-- NS has wrapped (R429). -/
def wrapped (st : State) : State := raise (count st (Reg.safCnt 10)) { block := 12, index := 0 }

/-- NOW advances by `inc`; a wrap is reported (R426, R429). -/
def advanceNow (st : State) (inc : BitVec 64) : State :=
  let carry := decide (2 ^ 64 ≤ st.tsu.now.toNat + inc.toNat)
  let st := modTsu st (fun t => { t with now := t.now + inc })
  if carry then wrapped st else st

/-- ELAPSED advances by TSU_INC (R435). -/
def advanceElapsed (st : State) : State :=
  modTsu st (fun t => { t with elapsed := t.elapsed + (tsuInc st).setWidth 96, ticks := t.ticks + 1 })

/-- A running slew adds its increment no more: ABORT has been written, or the package has become a standby, which ignores slews
(R433, R456; log entry 72). -/
def slewStops (st : State) : Bool := st.tsu.abort || twinStandby st

/-- NOW at the next tick: a pending STEP, a slew, or the plain increment (R426, R432, R433). -/
def tickNow (st : State) : State :=
  match st.tsu.stepPend with
  | some (mode, v) =>
    let st := if st.tsu.slewLeft ≠ 0 then slewEnd st else st
    let st := modTsu st (fun t => { t with stepPend := none })
    if mode then
      let st := advanceNow st (nowInc st)
      modTsu st (fun t => { t with now := t.now + v })
    else modTsu st (fun t => { t with now := v })
  | none =>
    if st.tsu.slewLeft = 0 then advanceNow st (nowInc st)
    else if slewStops st then advanceNow (slewEnd st) (nowInc st)
    else
      let st := advanceNow st st.tsu.slewInc
      if st.tsu.slewLeft = 1 then slewEnd st else modTsu st (fun t => { t with slewLeft := t.slewLeft - 1 })

/-- The first tick after an accepted edge of PPS_IN: NOW is latched, the edge counted and reported (R438). -/
def ppsLatch (st : State) : State :=
  if !st.tsu.ppsPend then st
  else raise (modTsu st (fun t => { t with
    ppsPend := false, ppsCapNs := nowNs st, ppsCapFrac := t.now.setWidth 32, ppsEdges := t.ppsEdges + 1 })) { block := 12, index := 3 }

/-- One tick of the 800 MHz TSU clock: two packet clocks (log entry 15). -/
def tick (st : State) : State := slices4.foldl pcClocks (ppsLatch (tickNow (advanceElapsed st)))

/-- The tick at which NS wraps to 0 (R429). -/
def execWrap (st : State) : Out :=
  let inc := if st.tsu.slewLeft = 0 ∨ slewStops st = true then nowInc st else st.tsu.slewInc
  .next (if st.tsu.stepPend.isNone && decide (2 ^ 64 ≤ st.tsu.now.toNat + inc.toNat) then tick st else st)

/-- The last tick of a slew, or the one at which it is cut short (R433). -/
def execSlewDone (st : State) : Out :=
  .next (if (st.tsu.slewLeft = 1 ∨ (st.tsu.slewLeft ≠ 0 ∧ slewStops st = true)) ∧ st.tsu.stepPend = none then tick st else st)

/-- A read of TSU_NOW_NS returns NS and latches the fraction (R430). -/
def execTsuNowRead (st : State) : Out :=
  .next { modTsu st (fun t => { t with fracLatch := t.now.setWidth 32 }) with lastRead := nowNs st }

/-! Step and slew commands (R432-R434, R460). -/

/-- Timers armed, of any slice. -/
def anyArmed (st : State) : Bool := slices4.any (fun s => (sl st s).timers.toList.any (fun t => t.armed))

/-- A STEP with FORCE discards held Saffron frames and disarms switch timers (R434). -/
def clearSchedule (st : State) : State :=
  let st := { countN st (Reg.safCnt 7) st.saf.length with saf := [] }
  slices4.foldl (fun st (s : SliceId) => fin8.foldl (fun st (t : Fin 8) =>
    if (sl st s).timers[t].armed then
      raise (modTimer st s t (fun x => { x with armed := false })) { block := 12, index := 5, ps := [s.val, t.val] }
    else st) st) st

/-- Value of TSU_ADJ. -/
def tsuAdj (st : State) : BitVec 64 :=
  (rd st Reg.tsuAdjNs).setWidth 64 <<< 32 ||| (rd st Reg.tsuAdjFrac).setWidth 64
/-- The slew increment as written. -/
def slewWord (st : State) : Nat := fld st Reg.tsuSlewNs Fld.tsuSlewNs_SLEW_NS * 2 ^ 32 + (rd st Reg.tsuSlewFrac).toNat

/-- A STEP that is judged (R432, R434). -/
def doStep (mode force : Bool) (st : State) : Nat × State :=
  if (!st.saf.isEmpty || anyArmed st) && !force then (3, st)
  else
    let st := if force then clearSchedule st else st
    (0, modTsu st (fun t => { t with stepPend := some (mode, tsuAdj st) }))

/-- A SLEW that is judged: BUSY before its parameters (R433); a standby ignores slews (R456). -/
def doSlew (st : State) : Nat × State :=
  let inc := slewWord st
  let n := (rd st Reg.tsuSlewTicks).toNat
  if st.tsu.slewLeft ≠ 0 then (1, st)
  else if inc < 2 ^ 32 ∨ 3 * 2 ^ 31 < inc ∨ n = 0 then (2, st)
  else if twinStandby st then (0, st)
  else (0, modTsu st (fun t => { t with slewLeft := n, slewInc := BitVec.ofNat 64 inc }))

/-- ABORT ends a running slew at the next tick (R433). -/
def doAbort (st : State) : Nat × State := (0, if st.tsu.slewLeft = 0 then st else modTsu st (fun t => { t with abort := true }))

/-- Strobes that word `w` sets in TSU_CMD. -/
def tsuStrobes (w : Word) : Nat := b2n (bitW w 31) + b2n (bitW w 30) + b2n (bitW w 29)

/-- A write of TSU_CMD (R432-R434, R460): MODE and FORCE stay, RESULT is that of the strobe. A standby
ignores a slew that the mirror brings (R456). -/
def tsuCmd (w : Word) (st : State) : State :=
  let mode := bitW w 28
  let force := bitW w 27
  let keep (code : Nat) (st : State) : State :=
    wr st Reg.tsuCmd (word [(Fld.tsuCmd_MODE, b2n mode), (Fld.tsuCmd_FORCE, b2n force), (Fld.tsuCmd_RESULT, code)])
  if tsuStrobes w = 0 then keep (fld st Reg.tsuCmd Fld.tsuCmd_RESULT) st
  else if 1 < tsuStrobes w then keep 2 st
  else
    let r := if bitW w 31 then doStep mode force st else if bitW w 30 then (if twinStandby st then (0, st) else doSlew st) else doAbort st
    keep r.1 r.2

/-- A write of TSU_CMD through the PF: strobes at a standby read STANDBY (R460), before step 4 BUSY (16 R608). -/
def tsuCmdPF (w : Word) (st : State) : State :=
  if twinStandby st && decide (tsuStrobes w ≠ 0) && !st.glb.halted then setF st Reg.tsuCmd Fld.tsuCmd_RESULT 4
  else if !booted st && decide (tsuStrobes w ≠ 0) && !st.glb.halted then setF st Reg.tsuCmd Fld.tsuCmd_RESULT 1
  else viaPF Reg.tsuCmd w (tsuCmd w) st

def execStep (mode force other : Bool) (st : State) : Out :=
  .next (tsuCmdPF (word [(Fld.tsuCmd_STEP, 1), (Fld.tsuCmd_SLEW, b2n other), (Fld.tsuCmd_MODE, b2n mode),
    (Fld.tsuCmd_FORCE, b2n force)]) st)
def execSlew (other : Bool) (st : State) : Out :=
  .next (tsuCmdPF (word [(Fld.tsuCmd_SLEW, 1), (Fld.tsuCmd_ABORT, b2n other)]) st)
def execAbort (other : Bool) (st : State) : Out :=
  .next (tsuCmdPF (word [(Fld.tsuCmd_ABORT, 1), (Fld.tsuCmd_STEP, b2n other)]) st)

/-! PPS (R438-R440, R457). -/

/-- A rising edge of PPS_IN: accepted, it waits for the next tick (R438), and a performance second starts (10 R418). -/
def execPpsIn (st : State) : Out :=
  .next (if !flagA st Reg.tsuCfg Fld.tsuCfg_PPS_IN_EN then st
    else if (match st.tsu.ppsLast with | some a => decide (elNs st < a + 500000000) | none => false) then
      modTsu st (fun t => { t with ppsIgnored := if t.ppsIgnored = BitVec.allOnes 16 then t.ppsIgnored else t.ppsIgnored + 1 })
    else modTsu (perfSecond st) (fun t => { t with ppsPend := true, ppsLast := some (elNs st) }))

/-- PPS_OUT rises when NS has reached TSU_PPSO_TIME, which moves on by 1 s (R439). -/
def execPpsOutRise (st : State) : Out :=
  .next (if ppsOn st && !st.tsu.ppsOutHigh && nsLe (rd st Reg.tsuPpsoTime) (nowNs st) then
    let w := max 1 (min 1000 (fldA st Reg.tsuCfg Fld.tsuCfg_WIDTH_US))
    modTsu (wr st Reg.tsuPpsoTime (rd st Reg.tsuPpsoTime + 1000000000))
      (fun t => { t with ppsOutHigh := true, ppsFallAt := elNs st + 1000 * w })
  else st)

/-- PPS_OUT falls after WIDTH_US, or as soon as it is not driven (R439, R440). -/
def execPpsOutFall (st : State) : Out :=
  .next (if st.tsu.ppsOutHigh && (decide (st.tsu.ppsFallAt ≤ elNs st) || !ppsOn st)
    then modTsu st (fun t => { t with ppsOutHigh := false }) else st)

end Sys2Proof.Machine
end

