-- ==== Sys2Proof/Machine/RegFile.lean ====
section
/-!
DEFINITION. The register file as software writes it (18 R644-R652): what a write to each address does, whether it comes
through the PF, through a VF or from the mirror, and the update of shadowed fields.
-/
namespace Sys2Proof.Machine

/-! Updates of shadowed fields (R648-R652). -/

/-- Groups that a mask names and the device has: a slice group only where the slice is on (R651). -/
def groupTaken (st : State) (mask : Word) (a : Nat) : Bool :=
  match regRow? a with
  | none => false
  | some r =>
    match groupOf a r with
    | none => false
    | some g => bitW mask g && !sliceGone st a

/-- Recirculation profiles of the named groups that hold what the image gives them: they are judged as written ones are (04
R187). -/
def rcpDefaults (st : State) (mask : Word) : NMap Word :=
  (slices4.flatMap (fun (s : SliceId) => (List.range 16).map (fun p => Reg.clsRcp s p))).filterMap (fun a =>
    if groupTaken st mask a && !st.regs.has a && regDefault st a != 0 then some (a, regDefault st a) else none)

/-- GLB_UPDATE takes the written values of the named groups (R649-R651). -/
def glbUpdateTake (mask : Word) (st : State) : State :=
  if st.glb.update.isSome || !booted st then setF st Reg.glbUpdateStat Fld.glbUpdateStat_RESULT 1
  else
    let taken := st.regs.filter (fun p => groupTaken st mask p.1) ++ rcpDefaults st mask
    modGlb (setF st Reg.glbUpdateStat Fld.glbUpdateStat_RESULT 0) (fun g => { g with update := some (mask, taken) })

def execGlbUpdate (mask : Word) (st : State) : Out := .next (viaPF Reg.glbUpdate mask (glbUpdateTake mask) st)

/-- A register as the update took it. -/
def takenVal (st : State) (taken : NMap Word) (a : Nat) : Word := (taken.get? a).getD (regDefault st a)

/-- The increment lies within 1.24-1.26 ns, judged as a pair (11 R427). -/
def incPairOk (st : State) (taken : NMap Word) : Bool :=
  let inc := getF (takenVal st taken Reg.tsuIncNs) Fld.tsuIncNs_INC_NS * 2 ^ 32 + (takenVal st taken Reg.tsuIncFrac).toNat
  decide (124 * 2 ^ 32 ≤ 100 * inc) && decide (100 * inc ≤ 126 * 2 ^ 32)

/-- WIN_US is a multiple of SUB_US, both clamped (19 R681). -/
def pairOk (st : State) (taken : NMap Word) : Bool :=
  let win := clampN 1 1000000 (getF (takenVal st taken Reg.pmuBwCfg) Fld.pmuBwCfg_WIN_US)
  let sub := clampN 1 1000000 (getF (takenVal st taken Reg.pmuBwSub) Fld.pmuBwSub_SUB_US)
  win % sub == 0

/-- Slice and profile of a CLS_RCP register. -/
def rcpOf (a : Nat) : Option (SliceId × Nat) :=
  slices4.findSome? (fun (s : SliceId) => ((List.range 16).find? (fun p => a == Reg.clsRcp s p)).map (fun p => (s, p)))
/-- Slice and counter of a PMU_PC_EVT register. -/
def pcEvtOf (a : Nat) : Option (SliceId × Fin 8) :=
  slices4.findSome? (fun (s : SliceId) => (fin8.find? (fun (i : Fin 8) => a == Reg.pmuPcEvt s i)).map (fun i => (s, i)))

/-- A recirculation profile applies; with an LPORT that is no enabled L2 line port its EN becomes 0 (04 R187). -/
def rcpApply (st : State) (s : SliceId) (p a : Nat) (v : Word) : State :=
  if getF v Fld.clsRcp_EN = 1 ∧ ¬ isL2 st .line s (Fin.ofNat 8 (getF v Fld.clsRcp_LPORT)) then
    raise (wrA st a (putF v Fld.clsRcp_EN 0)) { block := 21, index := 0, slice := s.val, ps := [p] }
  else wrA st a v

/-- One register of the update: its value, or what its own rule keeps (R652). -/
def applyReg (st : State) (taken : NMap Word) (a : Nat) (v : Word) : State :=
  if a = Reg.tsuIncNs ∨ a = Reg.tsuIncFrac then (if incPairOk st taken then wrA st a v else st)
  else if a = Reg.pmuBwSub then (if pairOk st taken then wrA st a v else st)
  else if a = Reg.pmuBwCfg then
    wrA st a (if pairOk st taken then v else putF v Fld.pmuBwCfg_WIN_US (fldA st a Fld.pmuBwCfg_WIN_US))
  else
    match rcpOf a, pcEvtOf a with
    | some (s, p), _ => rcpApply st s p a v
    | _, some (s, i) =>
      if rdA st a = v then st else modPc (wrA st a v) s (fun c => { c with cnt := c.cnt.set i 0 })
    | _, _ => wrA st a v

/-- Settings whose change starts something anew: bandwidth windows, the sample period, frozen loops of every lane. -/
def bwSettings (st : State) : Bool × Nat × Nat := (flagA st Reg.pmuBwCfg Fld.pmuBwCfg_BW_EN, bwWinNs st, bwSubNs st)
def allLanes : List LaneId := allPorts.map (fun p => .lane p.1 p.2.1 p.2.2)

/-- What follows an update: windows start anew (19 R681), samples fall on the new grid, loops freeze or adapt again (02 R87),
PPS_OUT falls with its enable (11 R440), XOFF is judged against the new thresholds (02 R104). -/
def afterUpdate (old : State) (mask : Word) (st : State) : State :=
  let st := if bwSettings st = bwSettings old then st else bwRestart st
  let st := if sampleNs st = sampleNs old then st
    else modPmu st (fun p => { p with nextAt := (elNs st / sampleNs st + 1) * sampleNs st })
  let st := ppsSettle (allLanes.foldl freezeLoops st)
  slices4.foldl (fun st s => if bitW mask (4 + s.val) then settle st s else st) st

/-- The tick of the update (R649): every named group copies its written values. -/
def updateApply (st : State) : State :=
  match st.glb.update with
  | none => st
  | some (mask, taken) =>
    let st := modGlb st (fun g => { g with update := none })
    let st := slices4.foldl (fun st s => if bitW mask (4 + s.val) then ports8.foldl (fun st k => keepHeadroom st s k) st else st) st
    let st' := taken.foldl (fun st p => applyReg st taken p.1 p.2) st
    let st' := if bitW mask 3 && !incPairOk st taken then raise st' { block := 12, index := 1 } else st'
    afterUpdate st mask st'

def execUpdateApply (st : State) : Out := .next (if st.glb.halted then st else updateApply st)

/-- GLB_UPDATE_DIRTY: groups with a register whose written and applied values differ (R652). -/
def dirtyWord (st : State) : Word :=
  (st.regs.map Prod.fst ++ st.applied.map Prod.fst).foldl (fun w a =>
    match regRow? a with
    | some r =>
      (match groupOf a r with
       | some g => if rd st a = rdA st a then w else w ||| BitVec.ofNat 32 (2 ^ g)
       | none => w)
    | none => w) 0

/-! What a write to each register does. -/

/-- RING_BASE and RING_CFG ignore writes while RUN is 1 (R663). -/
def ringRegWrite (i : InstId) (r : Fin 16) (a : Nat) (v : Word) (st : State) : State :=
  if (ringOf st i r).run then st else storePlain a v st

/-- Kinds of registers: a command register with OP, BUSY and RESULT; one whose write acts at once; one with its own path
through the PF; one that only stores. -/
inductive WrKind where
  | cmd (op res : Field) (core : Word → State → State)
  | direct (core : Word → State → State)
  | own (op : Option Field) (pf core : Word → State → State)
  | plain

/-- The index of `o` in an array of `n` registers from `base` on. -/
def idx? (base stride n o : Nat) : Option (Fin n) :=
  if h : base ≤ o ∧ (o - base) % stride = 0 ∧ (o - base) / stride < n then some ⟨(o - base) / stride, h.2.2⟩ else none

def sideOfNat (n : Nat) : Side := if n = 0 then .client else .line

/-- Single registers of slice `s`, by their address in slice 0. -/
def sliceCmds (s : SliceId) : List (Nat × WrKind) :=
  [(Reg.prsImapCmd 0, .cmd Fld.prsImapCmd_OP Fld.prsImapCmd_RESULT (imapCmd s)),
   (Reg.clsRuleCmd 0 0, .cmd Fld.clsRuleCmd_OP Fld.clsRuleCmd_RESULT (ruleCmd s .client)),
   (Reg.clsRuleCmd 0 1, .cmd Fld.clsRuleCmd_OP Fld.clsRuleCmd_RESULT (ruleCmd s .line)),
   (Reg.clsCommit 0, .own none (commitPF s) (commitStrobe s)),
   (Reg.fwdTblCmd 0, .own none (fun w => cmdPF (Reg.fwdTblCmd s) Fld.fwdTblCmd_RESULT w (tblCmd s w)) (tblCmd s)),
   (Reg.fwdTblMode 0, .direct (tblModeWrite s)),
   (Reg.saeCmd 0, .own (some Fld.saeCmd_OP) (saePF s) (saeCmd s)),
   (Reg.ctfFsyncStat 0, .direct (alignStrobe s)),
   (Reg.tsiTribCmd 0, .cmd Fld.tsiTribCmd_OP Fld.tsiTribCmd_RESULT (tribCmd s)),
   (Reg.tsiPageCmd 0, .cmd Fld.tsiPageCmd_OP Fld.tsiPageCmd_RESULT (pageCmd s))]

/-- The kind of the register at offset `o` of slice `s`, as an address of slice 0. -/
def sliceKind (s : SliceId) (o : Nat) : WrKind :=
  match (sliceCmds s).find? (fun p => p.1 == o) with
  | some p => p.2
  | none =>
    ((sides.findSome? (fun d => (idx? (Reg.clsKprof 0 (sideNum d) 0) 4 14 o).map (fun e => WrKind.direct (kprofWrite s d e)))).or
      (((idx? (Reg.saeSwtCtl 0 0) 8 8 o).map (fun t => WrKind.direct (timerStrobe s t))).or
      (((idx? (Reg.pcsFiCmd 0 0) 0x1000 8 o).map (fun k => WrKind.direct (fiCmd s k))).or
      (((idx? (Reg.ctfFiCmd 0 0) 0x1000 8 o).map (fun k => WrKind.direct (ctfFiStrobe s k))).or
      (ports8.findSome? (fun (k : PortIx) => (idx? (Reg.ctfTraceExp 0 k 0) 4 4 o).map (fun w => WrKind.direct (traceExpWrite s k w)))))))).getD
      .plain

/-- Single registers of the device. -/
def deviceCmds : List (Nat × WrKind) :=
  [(Reg.glbUpdate, .direct glbUpdateTake),
   (Reg.glbReset, .own none (fun w st => if w.setWidth 8 = (0xD1 : Byte) then softReset 3 true st else st)
     (fun w st => if w.setWidth 8 = (0xD1 : Byte) then softReset 3 true st else st)),
   (Reg.imgCmd, .own (some Fld.imgCmd_OP) imgPF imgCmd),
   (Reg.imgSliceCmd, .cmd Fld.imgSliceCmd_OP Fld.imgSliceCmd_RESULT sliceCmd),
   (Reg.pwrPortRst, .cmd Fld.pwrPortRst_RESET Fld.pwrPortRst_RESULT portRstCmd),
   (Reg.vimCmd, .cmd Fld.vimCmd_OP Fld.vimCmd_RESULT vimCmd),
   (Reg.vimMbxCmd, .cmd Fld.vimMbxCmd_OP Fld.vimMbxCmd_RESULT mbxCmd),
   (Reg.twnCmd, .cmd Fld.twnCmd_OP Fld.twnCmd_RESULT twnCmd),
   (Reg.tmpResp0, .direct (tmpRespSet false)),
   (Reg.tmpResp1, .direct (tmpRespSet true)),
   (Reg.tmpCmd, .direct tmpCmd),
   (Reg.evlCmd, .own (some Fld.evlCmd_OP) evlPF evlCmd),
   (Reg.ktrCmd, .own (some Fld.ktrCmd_OP) ktrPF ktrCmd),
   (Reg.pnjCmd, .cmd Fld.pnjCmd_OP Fld.pnjCmd_RESULT pnjCmd),
   (Reg.meeArcCmd, .cmd Fld.meeArcCmd_OP Fld.meeArcCmd_RESULT arcCmd),
   (Reg.tsuCmd, .own none tsuCmdPF tsuCmd),
   (Reg.pmuSnapCmd, .direct (fun w st => if bitW w 31 then snapStrobe st else st)),
   (Reg.pmuScCmd, .cmd Fld.pmuScCmd_OP Fld.pmuScCmd_RESULT pmuScCmd)]

/-- Event rings, the rings of instance 0, performance counters. -/
def deviceArrays (a : Nat) : Option WrKind :=
  ((idx? (Reg.hifEvtCfg 0) 0x20 4 a).map (fun j => WrKind.direct (evtCfgWrite j))).or
  (((idx? (Reg.hifEvtHead 0) 0x20 4 a).map (fun j => WrKind.direct (evtHeadWrite j))).or
  (((idx? (Reg.ringCtl 0) 0x40 16 a).map (fun r => WrKind.direct (ringCtlWrite 0 r))).or
  ((([Reg.ringBaseLo 0, Reg.ringBaseHi 0, Reg.ringCfg 0].findSome? (fun b =>
      (idx? b 0x40 16 a).map (fun r => WrKind.direct (ringRegWrite 0 r a))))).or
  ((idx? (Reg.pmuPcCtl 0) 0x100 4 a).map (fun s => WrKind.direct (pcStrobe s))))))

/-- The PF's MSI-X table (R660). -/
def inMsix (a : Nat) : Bool := decide (0x2000000 ≤ a) && decide (a < 0x2000080)

/-- The kind of the register at `a`. -/
def wrKind (a : Nat) : WrKind :=
  match sliceOfAddr a with
  | some s => sliceKind s (a - 0x400000 * s.val)
  | none =>
    match deviceCmds.find? (fun p => p.1 == a) with
    | some p => p.2
    | none => if inMsix a then .direct (fun v st => wr st a v) else (deviceArrays a).getD .plain

/-- A correction of frame timing that the mirror carries under an address of its own (10 R422). -/
def mirrorFsync (a : Nat) : Option SliceId := idx? (fsyncAddr 0) 1 4 a

/-- A register of the programmable counters on a part that has none: writes are ignored (19 R682, 00 R3). -/
def noCounters (st : State) (a : Nat) : Bool :=
  !st.fuses.is4832 && decide (Reg.pmuPcCtl 0 ≤ a) && decide (a < Reg.pmuPcCtl 4)

/-- What a write that applies now does, whether it came through the PF or the mirror. -/
def applyWrite (a : Nat) (v : Word) (st : State) : State :=
  match mirrorFsync a with
  | some s => fsyncApply s v.toInt st
  | none =>
    if noCounters st a then st else
    match wrKind a with
    | .cmd _ _ core => core v st
    | .direct core => core v st
    | .own _ _ core => core v st
    | .plain => storePlain a v st

/-- A write of OP 0 to a command register: no command, only operands; ignored while BUSY is 1. -/
def opNone (a : Nat) (v : Word) (core : State → State) (st : State) : State :=
  if fld st a busyF ≠ 0 then st else viaPF a v core st

/-- A write through the PF. -/
def pfWrite (a : Nat) (v : Word) (st : State) : State :=
  if noCounters st a then st else
  match wrKind a with
  | .cmd op res core => if getF v op = 0 then opNone a v (core v) st else cmdPF a res v (core v) st
  | .direct core => viaPF a v (core v) st
  | .own (some op) pf core => if getF v op = 0 then opNone a v (core v) st else pf v st
  | .own none pf _ => pf v st
  | .plain => viaPF a v (storePlain a v) st

/-- A write through the VF of instance `i`, at offset `o` of its BAR (Table 18-5). -/
def vfWrite (i : InstId) (o : Nat) (v : Word) (st : State) : State :=
  let a := 0x100010000 + 0x10000 * vfIx i + o
  if !hasVf st i || st.glb.halted || decide (0x10000 ≤ o) then st
  else if a = Reg.vfMbxCtl (vfIx i) then (if bitW v 31 then doorbell i st else st)
  else if a = Reg.vfScCmd (vfIx i) then vfScCmd i v st
  else if 0xE000 ≤ o ∧ o < 0xE080 then wr st a v
  else
    match idx? (Reg.vfRingCtl (vfIx i) 0) 0x40 16 a with
    | some r => ringCtlWrite i r v st
    | none =>
      match [Reg.vfRingBaseLo (vfIx i) 0, Reg.vfRingBaseHi (vfIx i) 0, Reg.vfRingCfg (vfIx i) 0].findSome?
          (fun b => idx? b 0x40 16 a) with
      | some r => ringRegWrite i r a v st
      | none => storePlain a v st

/-- A write through function `fn`: one without all four byte enables is ignored and counted (R645). An address is 4-byte
aligned. -/
def execRegisterWrite (fn : InstId) (a : Nat) (be : BitVec 4) (v : Word) (st : State) : Out :=
  .next (if be ≠ 0xF then (if st.glb.halted then st else count st (Reg.hifCnt 0))
    else if a % 4 ≠ 0 then st
    else if fn = 0 then (if a < 0x4000000 then pfWrite a v st else st)
    else vfWrite fn a v st)

end Sys2Proof.Machine
end

