-- ==== Sys2Proof/Machine/Twin.lean ====
section
/-!
DEFINITION. The start of a step epoch (12 R476): reservations, mirrored writes and learned changes apply, MEE results are
released, digests are compared (R481-R485, R493), a SWITCH takes effect (R487), and the messages of the epoch leave.
-/
namespace Sys2Proof.Machine

/-- A forwarded write or descriptor applies. -/
def applyMir (st : State) (w : MirWrite) : State :=
  match w.op with
  | .write a v => if st.glb.halted || sliceGone st a then st else applyWrite a v st
  | .inject i r x f ns => injJudge i r x f ns true (setHand st i r none)

/-- What is due by the epoch that has begun. -/
def applyDue (st : State) : State :=
  let e := st.twin.epoch
  let ws := st.twin.mirrorQ.filter (fun w => decide (w.epoch ≤ e))
  let cs := st.twin.learnQ.filter (fun c => decide (c.1 ≤ e))
  let st := modTwin st (fun t => { t with
    mirrorQ := t.mirrorQ.filter (fun w => !decide (w.epoch ≤ e)), learnQ := t.learnQ.filter (fun c => !decide (c.1 ≤ e)) })
  cs.foldl (fun st c => macApply st c.2.1 c.2.2) (ws.foldl applyMir st)

/-- Committed reservations are raised (09 R351). -/
def applyReservations (st : State) : State :=
  st.jnl.applies.foldl applyRes (modJnl st (fun j => { j with applies := [] }))

/-- MEE results held back until this epoch reach their requester (14 R552). -/
def releaseHeld (st : State) : State :=
  let e := st.twin.epoch
  let due := st.mee.held.filter (fun h => decide (h.1 ≤ e))
  modMee st (fun m => { m with held := m.held.filter (fun h => !decide (h.1 ≤ e))
                               lastRead := match due.getLast? with | some h => h.2.2 | none => m.lastRead })

/-- The epoch that has begun is the one at whose start a SWITCH takes effect. -/
def switchDue (st : State) : Bool := match st.twin.switchAt with | some e => decide (e ≤ st.twin.epoch) | none => false

/-- A SWITCH takes effect: ownership goes, the package is in STANDBY, still in step (R487). -/
def switchNow (st : State) : State :=
  if switchDue st then twnEnd 0 (beginSwitch (modTwin (releaseOwn st) (fun t => { t with state := .standby, switchAt := none })))
  else st

/-! Divergence (R484, R485). -/

/-- The first unit whose digests differ: slice, unit (0-7 client, 8-15 line port), host. -/
def firstDiff (a b : DigestSet) : Option (Nat × Nat × Bool) :=
  let ix := List.range 32
  match ix.find? (fun i => a.cl.toList.getD i 0 != b.cl.toList.getD i 0) with
  | some i => some (i / 8, i % 8, false)
  | none =>
    match ix.find? (fun i => a.ll.toList.getD i 0 != b.ll.toList.getD i 0) with
    | some i => some (i / 8, 8 + i % 8, false)
    | none => ((List.range 4).find? (fun s => a.host.toList.getD s 0 != b.host.toList.getD s 0)).map (fun s => (s, 0, true))

def divWord (n outcome : Nat) (d : Nat × Nat × Bool) : Word :=
  word [(Fld.twnDivLast_EPOCH, n), (Fld.twnDivLast_OUTCOME, outcome), (Fld.twnDivLast_SLICE, d.1), (Fld.twnDivLast_UNIT, d.2.1),
    (Fld.twnDivLast_HOST, b2n d.2.2)]
def setOutcome (st : State) (v : Nat) : State := modTwin st (fun t => { t with divLast := putF t.divLast Fld.twnDivLast_OUTCOME v })

/-- A divergence of epoch `n` at the active: counted; while a test or a switchover runs it has no other effect. -/
def diverged (n : Nat) (d : Nat × Nat × Bool) (st : State) : State :=
  let st := modTwin st (fun t => { t with matchCount := 0 })
  let st := count st (Reg.twnCnt 1)
  let busy := st.twin.testing || switching st || switchDue st
  if busy then modTwin st (fun t => { t with divLast := divWord n 3 d })
  else
    raise (modTwin st (fun t => { t with testing := true, testEpoch := n, divLast := divWord n 0 d }))
      { block := 5, index := 2, ps := [n % 2 ^ 32, 32 * d.1 + 16 * b2n d.2.2 + d.2.1] }

/-- An epoch has matched; with 1,000 in a row SYNCING ends, and the owner is ACTIVE (R493). -/
def matched (st : State) : State :=
  let st := modTwin st (fun t => { t with matchCount := min 65535 (t.matchCount + 1) })
  if st.twin.matchCount < 1000 then st
  else
    match st.twin.state with
    | .syncing => modTwin st (fun t => { t with state := .standby })
    | .alone => modTwin st (fun t => { t with state := .active, activeFrom := t.epoch, streaming := false, stream := [], cutEpoch := none })
    | _ => st

/-- Both packages' sets of epoch `n` are known: they are compared, and dropped. -/
def compareEpoch (st : State) (n : Nat) : State :=
  match st.twin.ownDig.get? n, st.twin.partnerDig.get? n with
  | some a, some b =>
    let ticks := match st.twin.ownTicks.get? n, st.twin.partnerTicks.get? n with
      | some x, some y => x == y
      | _, _ => true
    let diff := if a = b ∧ ticks = true then none else some ((firstDiff a b).getD (0, 0, false))
    let st := modTwin st (fun t => { t with ownDig := t.ownDig.del n, partnerDig := t.partnerDig.del n })
    let counting := match st.twin.cutEpoch with | some e => decide (e + 2 ≤ n) | none => false
    match st.twin.state, diff with
    | .active, some d => diverged n d st
    | .standby, some _ =>
      let st := modTwin st (fun t => { t with matchCount := 0 })
      if switching st then st else modTwin st (fun t => { t with testing := true, testEpoch := n })
    | .active, none => matched st
    | .standby, none => matched st
    | .syncing, none => if counting then matched st else st
    | .alone, none => if counting then matched st else st
    | .syncing, some _ => modTwin st (fun t => { t with matchCount := 0 })
    | .alone, some _ => modTwin st (fun t => { t with matchCount := 0 })
    | _, _ => st
  | _, _ => st

/-- 250,000 epochs after the cut without 1,000 matches: START and SYNC_FAIL (R493). -/
def syncFail (st : State) : State :=
  match st.twin.state, st.twin.cutEpoch with
  | .syncing, some e =>
    if e + 250000 ≤ st.twin.epoch then raise (count (toStart st) (Reg.twnCnt 6)) { block := 5, index := 6 } else st
  | _, _ => st

/-- The epoch that has ended leaves its digests and tick count; a new one begins. -/
def nextEpoch (st : State) : State :=
  modTwin st (fun t => { t with
    epoch := t.epoch + 1
    ownDig := if st.img.content.twin then t.ownDig.put t.epoch t.dig else t.ownDig
    ownTicks := if st.img.content.twin then t.ownTicks.put (t.epoch + 1) st.tsu.ticks else t.ownTicks
    dig := {} })

/-- STEP, DIGEST and HEALTH of the boundary (Table 12-4). -/
def epochMsgs (st : State) : State :=
  let dig := (st.twin.ownDig.getD (st.twin.epoch - 1) {})
  let st := sendMsg st 3 [st.twin.epoch % 2 ^ 32, st.tsu.ticks]
  let st := sendMsg st 4 (digestNats dig)
  sendMsg st 5 [(healthLocal st).toNat, readyBits st]

/-- Sets older than the two epochs in flight are kept until their partner's come; at most 1,024 of them. -/
def trimSets (st : State) : State :=
  let lo := st.twin.epoch - 1024
  modTwin st (fun t => { t with
    ownDig := t.ownDig.filter (fun p => decide (lo ≤ p.1)), partnerDig := t.partnerDig.filter (fun p => decide (lo ≤ p.1))
    ownTicks := t.ownTicks.filter (fun p => decide (lo ≤ p.1))
    partnerTicks := t.partnerTicks.filter (fun p => decide (lo ≤ p.1)) })

/-- A message that is still missing at the start of the epoch in which what it carries would have had to take effect: whether it
is one of MIRROR, LEARN or CAPSULE its sender alone knows (drawn, log entry 1); if it is, the standby leaves step (R474). -/
def overdue (st : State) : State :=
  let late (m : Nat × Option Nat) : Bool := match m.2 with | some e => decide (e + 2 ≤ st.twin.epoch) | none => false
  if st.twin.state ≠ .standby ∨ st.twin.missing.all (fun m => !late m) = true then st
  else
    let st := modTwin st (fun t => { t with missing := t.missing.map (fun m => if late m then (m.1, none) else m) })
    let (v, st) := drawFree st
    if v % 2 = 1 then toSyncing st else st

/-- The start of an epoch. -/
def epochStart (st : State) : State :=
  let st := releaseHeld (applyDue (applyReservations (nextEpoch st)))
  if st.twin.state = .off ∨ st.twin.state = .halted then st
  else
    let st := switchNow ((st.twin.ownDig.map Prod.fst).foldl compareEpoch (overdue st))
    let st := epochMsgs (streamCut (joinExpire (claimExpire st)))
    trimSets (syncFail (healthCheck st))

/-- Epoch n starts at the first tick at which ELAPSED ≥ 8,192 n ns (R476). -/
def execStepEpochBoundary (st : State) : Out :=
  .next (if 8192 * (st.twin.epoch + 1) ≤ elNs st then epochStart st else st)

/-- The divergence test ends, with what each package has found (R484). -/
def execDivergenceTestDone (own partner : Bool) (st : State) : Out :=
  .next (if !st.twin.testing || st.glb.halted then st
    else
      let st := modTwin st (fun t => { t with testing := false, finding := own, partnerFinding := partner })
      match st.twin.state with
      | .active =>
        if own then setOutcome (handOver st) 1
        else
          let st := toAlone (setOutcome st 2)
          if partner then st
          else
            let from_ := elNs st - 3600000000000
            let xs := (st.twin.unexplained ++ [elNs st]).filter (fun t => decide (from_ ≤ t))
            let st := modTwin st (fun t => { t with unexplained := xs })
            if 3 ≤ xs.length then raise st { block := 5, index := 3 } else st
      | .standby => if partner then st else toSyncing st
      | _ => st)

end Sys2Proof.Machine
end

