-- ==== Sys2Proof/Machine/RegRead.lean ====
section
/-!
DEFINITION. What a read of each register returns (18 R644, R648; 23 R752-R758): the word last written, with the fields that
the device computes laid over it. Command results and 32-bit counters stand in the stored words.
-/
namespace Sys2Proof.Machine

/-- A stored word with computed fields. -/
def laidOver (st : State) (a : Nat) (fs : List (Field × Nat)) : Word := fs.foldl (fun w fv => putF w fv.1 fv.2) (rd st a)

/-- Bits `i` for which `p` holds, of `n`. -/
def bitsNat (n : Nat) (p : Nat → Bool) : Nat := sumOf (fun i => if p i then 2 ^ i else 0) (List.range n)

def laneStageNum : LaneStage → Nat
  | .off => 0 | .sigWait => 1 | .cdr => 2 | .eq => 3 | .fecLock => 4 | .pcsLock => 5 | .ready => 6
def imgStateNum : ImgState → Nat
  | .loading => 0 | .noImage => 1 | .verified => 2 | .running => 3

/-! Slice registers: `o` is the offset within the sub-block. -/

/-- SDS (02). The values of adaptive loops are open (log entry 1). -/
def sdsRead (st : State) (a : Nat) (d : Side) (s : SliceId) (k : PortIx) (o : Nat) : Option Word :=
  let c := laneCfg st d s k
  let x := laneOf st (.lane d s k)
  let v (i : Option (Fin 4)) (n : Nat) : Nat := if x.stage = .off then 0 else loopValue st d s k i n
  let thr (n : Nat) : Nat := if isPam4 c then v (some 3) n else 0
  match o with
  | 0x000 => some (word [(Fld.sdsLaneCfg_ENABLED, b2n (laneRuns c)), (Fld.sdsLaneCfg_RATE, c.rate.val),
      (Fld.sdsLaneCfg_MODE_CTF, b2n c.ctf), (Fld.sdsLaneCfg_PRECODE_TX, b2n c.precTx),
      (Fld.sdsLaneCfg_PRECODE_RX, b2n c.precRx), (Fld.sdsLaneCfg_POL_TX, b2n c.polTx), (Fld.sdsLaneCfg_POL_RX, b2n c.polRx)])
  | 0x004 => some (word [(Fld.sdsLaneStat_STATE, laneStageNum x.stage), (Fld.sdsLaneStat_PRECODE_DET, b2n x.precodeDet),
      (Fld.sdsLaneStat_PRECODE_MISMATCH, b2n x.mismatch), (Fld.sdsLaneStat_EQ_AT_LIMIT, b2n x.eqAtLimit),
      (Fld.sdsLaneStat_SIG_DET, b2n x.sigDet), (Fld.sdsLaneStat_RETRIES, x.retries.toNat)])
  | 0x00C => some (word [(Fld.sdsRxRb_CTLE, v (some 0) 0), (Fld.sdsRxRb_DFE, v (some 2) 1), (Fld.sdsRxRb_SNR, v none 2)])
  | 0x010 => some (word [(Fld.sdsRxRb_THR_HI, thr 3), (Fld.sdsRxRb_THR_MID, thr 4), (Fld.sdsRxRb_THR_LO, thr 5)])
  | 0x014 => some (laidOver st a [(Fld.sdsFfeRb_TAP, v (some 1) (8 + fld st a Fld.sdsFfeRb_TAP_IDX))])
  | 0x018 => some c.ffe
  | _ => none

/-- PCS (02). -/
def pcsRead (st : State) (a : Nat) (d : Side) (s : SliceId) (k : PortIx) (o : Nat) : Option Word :=
  let c := portCfg st d s k
  let p := port st d s k
  let cl := d == .client
  match o with
  | 0x000 => some (word [(Fld.pcsPortCfg_ENABLED, b2n c.enabled), (Fld.pcsPortCfg_WIDTH, c.width.val),
      (Fld.pcsPortCfg_SPEED, c.speed.val), (Fld.pcsPortCfg_FEC, c.fec.val), (Fld.pcsPortCfg_L1, b2n c.l1),
      (Fld.pcsPortCfg_PAIR, if c.paired then c.pair.val else 0), (Fld.pcsPortCfg_FAULT_PROP, b2n c.faultProp),
      (Fld.pcsPortCfg_PAIRED, b2n c.paired)])
  | 0x004 => some (word [(Fld.pcsPortStat_UP, b2n (portUp st d s k)), (Fld.pcsPortStat_LOCAL_FAULT, b2n (localFault st d s k)),
      (Fld.pcsPortStat_REMOTE_FAULT, b2n p.remoteFault), (Fld.pcsPortStat_HI_BER, b2n p.hiBer),
      (Fld.pcsPortStat_DESKEW_FAIL, b2n p.deskewFail), (Fld.pcsPortStat_XOFF, b2n (cl && p.flow.xoff)),
      (Fld.pcsPortStat_PFC_XOFF, if cl then p.flow.pfcXoff.toNat else 0)])
  | 0x02C =>
    if isL2 st .client s k && cl then
      some (word [(Fld.pcsFcRb_HEADROOM, headroom st s k), (Fld.pcsFcRb_RESP, min 0xFFFF ((respMax p.flow).getD 0))])
    else some 0
  | 0x04C => if cl then none else some (laidOver st a [(Fld.pcsFiStat_ARMED, b2n p.fi.armed), (Fld.pcsFiStat_COUNT, p.fi.acted.toNat)])
  | _ => none

/-- CTF (10). -/
def ctfRead (st : State) (a : Nat) (s : SliceId) (k : PortIx) (o : Nat) : Option Word :=
  let x := ctfLane st s k
  match o with
  | 0x000 => some (laidOver st a [(Fld.ctfLaneCfg_TILORA, b2n (isTilora st s k))])
  | 0x004 => some (word [(Fld.ctfLaneStat_FRAME_LOCK, b2n x.lock), (Fld.ctfLaneStat_LOF, b2n x.lof),
      (Fld.ctfLaneStat_TIM, b2n (tim st s k)), (Fld.ctfLaneStat_RDI_RX, b2n x.rdiRx),
      (Fld.ctfLaneStat_MAP_MISMATCH, b2n (x.mapMis != 0)), (Fld.ctfLaneStat_TRACE_ACC, b2n x.traceAcc.isSome),
      (Fld.ctfLaneStat_TX_PAGE, b2n x.txPhase), (Fld.ctfLaneStat_RX_PAGE, b2n x.rxPhase),
      (Fld.ctfLaneStat_JUMP_PEND, b2n x.jump.isSome)])
  | 0x010 => some ((txFcNow x).setWidth 32)
  | 0x014 => some x.fcLatch
  | 0x018 => some (x.rxFc.setWidth 32)
  | 0x01C => some x.rxLatch
  | 0x14C => some (laidOver st a [(Fld.ctfFiStat_ARMED, b2n x.fi.armed), (Fld.ctfFiStat_COUNT, x.fi.acted.toNat)])
  | _ =>
    if 0x0C0 ≤ o ∧ o < 0x100 then some (BitVec.ofNat 32 (leVal (sub (x.traceAcc.getD []) (o - 0x0C0) 4))) else none

/-- CLS (04). -/
def clsRead (st : State) (s : SliceId) (o : Nat) : Option Word :=
  let x := sl st s
  let stat (d : Fin 2) : Word :=
    word [(Fld.clsStat_KPROF_LOCKED, b2n (!(x.rules[d]).isEmpty)), (Fld.clsStat_USED, (x.rules[d]).length)]
  match o with
  | 0x0048 => some (stat 0)
  | 0x1048 => some (stat 1)
  | 0x2004 => some (word [(Fld.clsVer_CURRENT, x.current.toNat), (Fld.clsVer_OLDEST, x.oldest.toNat)])
  | 0x2008 => some (word [(Fld.clsFragStat_USED, x.frags.length)])
  | _ => none

/-- FWD (05). -/
def fwdRead (st : State) (a : Nat) (s : SliceId) (o : Nat) : Option Word :=
  let x := sl st s
  match o with
  | 0x050 => some (laidOver st a [(Fld.fwdTblMode_MAC_IN_MAINT, b2n x.maint[0]), (Fld.fwdTblMode_LPM_IN_MAINT, b2n x.maint[1])])
  | 0x068 => some (word [(Fld.fwdLrnStat_TICK, x.tick.toNat), (Fld.fwdLrnStat_LEARNED, countP (fun e => !e.2.static_) x.mac)])
  | 0x06C => some (word [(Fld.fwdMacStat_USED, x.mac.length)])
  | 0x070 => some (word [(Fld.fwdMacStat_USED, x.lpm.length)])
  | _ => none

/-- SAE (06, 08). -/
def saeRead (st : State) (a : Nat) (s : SliceId) (o : Nat) : Option Word :=
  let x := sl st s
  match (idx? 0x344 8 8 o : Option (Fin 8)) with
  | some t =>
    some (laidOver st a [(Fld.saeSwtCtl_ARMED, b2n (x.timers[t]).armed), (Fld.saeSwtCtl_RX_FIRED, b2n (x.timers[t]).rxFired)])
  | none =>
    if o = 0x120 then
      some (word [(Fld.saeStat_SCI_USED, x.sciHash.length), (Fld.saeStat_CH_USED, countP (fun c => c.2.valid) x.chans)])
    else if 0x080 ≤ o ∧ o < 0x0A0 then some 0
    else none

/-- A register of slice `s`; `x` is its offset within the slice's range (Tables 2-8 and 23-5). -/
def sliceRead (st : State) (a : Nat) (s : SliceId) (x : Nat) : Option Word :=
  let o := x % 0x80000
  let d := sideOfNat (o / 0x8000)
  let k : PortIx := Fin.ofNat 8 (o / 0x1000)
  match x / 0x80000 with
  | 0 => sdsRead st a d s k (o % 0x1000)
  | 1 => pcsRead st a d s k (o % 0x1000)
  | 2 =>
    if o = 0x8004 then
      let c := (sl st s).ctf
      some (word [(Fld.ctfFsyncStat_ALIGN_ARMED, b2n c.alignArmed), (Fld.ctfFsyncStat_LAST_OFF, c.lastOff.toNat),
        (Fld.ctfFsyncStat_IGNORED, c.ignored.toNat)])
    else if o < 0x8000 then ctfRead st a s k (o % 0x1000) else none
  | 3 => if o = 0x100 then some (laidOver st a [(Fld.tsiPageCmd_SWAP_PEND, b2n (sl st s).ctf.swapPend)]) else none
  | 5 => clsRead st s o
  | 6 => fwdRead st a s o
  | 7 => saeRead st a s o
  | _ => none

/-! Device registers: `o` is the offset within the block. -/

/-- GLB (18, 20, 21). -/
def glbRead (st : State) (a o : Nat) : Option Word :=
  match o with
  | 0x000 => some (devid st)
  | 0x010 => some 0
  | 0x014 => some (laidOver st a [(⟨27, 27⟩, b2n st.glb.update.isSome)])
  | 0x018 => some (dirtyWord st)
  | 0x100 => some 0
  | 0x200 => some (word [(Fld.glbHalt_HALTED, b2n st.glb.halted), (Fld.glbHalt_HOLDUP, b2n st.glb.holdup),
      (Fld.glbHalt_ZEROISED, b2n st.glb.zeroised), (Fld.glbHalt_CAUSE, st.glb.cause.val)])
  | 0x204 => some st.glb.detail
  | 0x408 => some (st.glb.gpioIn.setWidth 32)
  | _ => none

/-- IMG (16). -/
def imgRead (st : State) (o : Nat) : Option Word :=
  let i := st.img
  match o with
  | 0x000 => some (word [(Fld.imgStat_STATE, imgStateNum i.state), (Fld.imgStat_SOURCE, i.source.val),
      (Fld.imgStat_PREF, (prefSlot st).val), (Fld.imgStat_RES_PREF, i.res[0].val), (Fld.imgStat_RES_OTHER, i.res[1].val),
      (Fld.imgStat_RES_QSPI, i.res[2].val), (Fld.imgStat_RES_DL, i.res[3].val)])
  | 0x004 => some (word [(Fld.imgVer_FUSED_SVN, st.fuses.svn), (Fld.imgVer_IMAGE_SVN, i.svn),
      (Fld.imgVer_PROGRAMMED, bitsNat 4 (fun n => (st.fuses.keys[Fin.ofNat 4 n]).programmed)),
      (Fld.imgVer_REVOKED, bitsNat 4 (fun n => (st.fuses.keys[Fin.ofNat 4 n]).revoked)), (Fld.imgVer_KEY_INDEX, i.keyIndex.val)])
  | 0x008 => some i.buildId
  | 0x054 => some (word ((Fld.imgSliceStat_DRAIN_DISCARD, i.drainDiscard.toNat) ::
      slices4.map (fun s => (⟨3 * s.val + 2, 3 * s.val⟩, sliceStateNum i.sl[s]))))
  | _ => if 0x010 ≤ o ∧ o < 0x040 then some (BitVec.ofNat 32 (leVal (sub i.runHash (o - 0x010) 4))) else none

/-- The domains of Table 17-2 that are on. -/
def domainOn (st : State) (n : Nat) : Bool :=
  let s : SliceId := Fin.ofNat 4 (n / 4)
  if n < 16 then
    sliceOn st s && (match n % 4 with
      | 0 => ports8.any (fun k => (laneCfg st .client s k).enabled)
      | 1 => ports8.any (fun k => (laneCfg st .line s k).enabled)
      | _ => true)
  else n != 16 || st.img.content.twin

/-- PWR (17). -/
def pwrRead (st : State) (o : Nat) : Option Word :=
  if o = 0x000 then some (word [(Fld.pwrDomStat_ON, bitsNat 24 (domainOn st))])
  else if o = 0x004 then
    some (word [(Fld.pwrRstStat_CAUSE, st.glb.resetCause.val), (Fld.pwrRstStat_PWRFAIL_GLITCH, st.glb.glitches.toNat)])
  else
    match (idx? 0x020 4 4 o : Option (Fin 4)), (idx? 0x060 4 8 o : Option (Fin 8)) with
    | some s, _ =>
      let v := st.avs[s]
      some (word [(Fld.pwrAvsRb_AVS_EMERG, b2n v.emergUntil.isSome), (Fld.pwrAvsRb_AVS_FAIL, b2n v.failUntil.isSome),
        (Fld.pwrAvsRb_REQUESTED, v.requested.toNat), (Fld.pwrAvsRb_REPORTED, v.reported.toNat), (Fld.pwrAvsRb_SLACK, v.slack.toNat)])
    | none, some n =>
      let p := poolOf st (Fin.ofNat 4 (n.val / 2)) (sideOfNat (n.val % 2))
      some (word [(Fld.pwrEngStat_FRZ_TWIN, b2n st.img.content.twin), (Fld.pwrEngStat_POWERED, enginesOn p),
        (Fld.pwrEngStat_IN_POOL, p.inPool), (Fld.pwrEngStat_DRAINING, p.draining), (Fld.pwrEngStat_FAILED, p.failed),
        (Fld.pwrEngStat_LOAD, p.load.toNat)])
    | none, none => none

/-- HEAD and CTL of a ring, at 0x10 and 0x14 of its registers (18). -/
def ringRegRead (st : State) (i : InstId) (o : Nat) : Option Word :=
  let x := ringOf st i (Fin.ofNat 16 (o / 0x40))
  if 0x400 ≤ o then none
  else
    match o % 0x40 with
    | 0x10 => some (x.head.setWidth 32)
    | 0x14 => some (ringCtlValue x)
    | _ => none

/-- HIF (18). -/
def hifRead (st : State) (a o : Nat) : Option Word :=
  if o = 0 then
    some (word [(Fld.hifPcieStat_LINK_UP, b2n st.pcie.linkUp), (Fld.hifPcieStat_SPEED, st.pcie.speed.val),
      (Fld.hifPcieStat_WIDTH, st.pcie.width.val), (Fld.hifPcieStat_NUM_VFS, st.pcie.numVfs)])
  else if 0x1000 ≤ o then ringRegRead st 0 (o - 0x1000)
  else if o < 0x100 ∨ 0x180 ≤ o then none
  else
    let r := st.rings[(Fin.ofNat 4 ((o - 0x100) / 0x20) : Fin 4)]
    match o % 0x20 with
    | 0x08 => some (laidOver st a [(Fld.hifEvtCfg_EN, b2n r.en), (Fld.hifEvtCfg_RUN, b2n r.run), (Fld.hifEvtCfg_OVERFLOW, b2n r.overflow)])
    | 0x0C => some (r.head.setWidth 32)
    | 0x10 => some (r.tail.setWidth 32)
    | 0x14 => some r.lost
    | _ => none

/-- TWN (12). The partner's report reads 0 while there is no link. -/
def twnRead (st : State) (o : Nat) : Option Word :=
  let t := st.twin
  match o with
  | 0x000 => some (word [(Fld.twnCfg_TWIN_EN, b2n st.img.content.twin), (Fld.twnCfg_PRIMARY, b2n st.primary)])
  | 0x00C => some (word [(Fld.twnStat_STATE, twinStateNum t.state), (Fld.twnStat_OWN, b2n t.own),
      (Fld.twnStat_PARTNER_OWN, b2n t.partnerOwn), (Fld.twnStat_LINK_UP, b2n (twinLinkUp st)), (Fld.twnStat_KEYED, b2n t.keyed),
      (Fld.twnStat_TESTING, b2n t.testing), (Fld.twnStat_MISMATCH, t.mismatch.val), (Fld.twnStat_MATCH, min 0xFFFF t.matchCount)])
  | 0x010 => some (healthLocal st)
  | 0x014 => some (if twinLinkUp st then t.healthPartner else 0)
  | 0x018 => some (BitVec.ofNat 32 t.epoch)
  | 0x01C => some t.divLast
  | _ => none

/-- TMP (15). The rail voltage and die temperature are measured: open values (log entry 1). -/
def tmpRead (st : State) (a o : Nat) : Option Word :=
  let x := st.img.content
  let t := st.tmp
  match o with
  | 0x000 => some (word [(Fld.tmpWire_CASE_EN, x.caseEn.toNat), (Fld.tmpWire_LOOP_EN, x.loopEn.toNat)])
  | 0x004 => some (word [(Fld.tmpLoopMode_PRBS, x.loopPrbs.toNat)])
  | 0x018 => some (laidOver st a [(Fld.tmpCmd_LOCKED, b2n t.locked)])
  | 0x01C => some (word [(Fld.tmpStat_CHECKED, b2n t.checked), (Fld.tmpStat_SQUELCHED, b2n t.squelched),
      (Fld.tmpStat_IN_FORCE, t.inForce.val)])
  | 0x020 => some (BitVec.ofNat 32 (bitsNat 30 (fun n => (t.src[(Fin.ofNat 30 n : Fin 30)]).present)))
  | 0x024 =>
    let v := (Config.free st.freeCount).toNat
    some (word [(Fld.tmpEnv_VCORE, v), (Fld.tmpEnv_TEMP, v / 4096)])
  | _ =>
    (idx? 0x040 4 16 o : Option (Fin 16)).map (fun n =>
      word [(Fld.tmpLoop_I_MIN, (x.iMin[n]).toNat), (Fld.tmpLoop_I_MAX, (x.iMax[n]).toNat), (Fld.tmpLoop_DELAY, (t.delays[n]).toNat)])

/-- EVL, KTR, PNJ (15, 07, 09). -/
def evlRegRead (st : State) (o : Nat) : Option Word :=
  match o with
  | 0x004 => some (word [(Fld.evlStat_READY, b2n st.evl.ready), (Fld.evlStat_LOG_FULL, b2n (logFull st)),
      (Fld.evlStat_NEAR_FULL, b2n (st.evl.ready && decide (61440 ≤ st.evl.head))), (Fld.evlStat_HEAD, st.evl.head)])
  | 0x090 => some (BitVec.ofNat 32 (bootCount st))
  | 0x094 => some (BitVec.ofNat 32 (leVal (memRead st.mram mramLostAddr 4)))
  | _ => none
def ktrRegRead (st : State) (o : Nat) : Option Word :=
  if o = 0x008 then
    some (word [(Fld.ktrStat_READY, b2n (ktrReady st)), (Fld.ktrStat_DEBUG, b2n st.debug),
      (Fld.ktrStat_DEBUG_NEVER, b2n st.fuses.debugNever), (Fld.ktrStat_USED, st.ktr.nodes.length)])
  else if 0x040 ≤ o ∧ o < 0x060 then some 0
  else none
def pnjRegRead (st : State) (o : Nat) : Option Word :=
  match o with
  | 0x004 => some (word [(Fld.pnjStat_READY, b2n st.jnl.ready), (Fld.pnjStat_DAMAGED, b2n (st.jnl.damaged && !st.jnl.acked)),
      (Fld.pnjStat_FULL, b2n (decide (heldMax ≤ st.jnl.index.length) && (tombs st).isEmpty)),
      (Fld.pnjStat_FAILING, b2n st.jnl.failingSince.isSome), (Fld.pnjStat_HELD, st.jnl.index.length)])
  | 0x008 => some (word [(Fld.pnjTomb_COUNT, (tombs st).length)])
  | 0x00C => some (word [(Fld.pnjTomb_COUNT, st.jnl.head)])
  | _ => none

/-- MEE and DRC (14). The size of the write-back cache is not given, and the model's never fills (log entry 19). -/
def meeRegRead (st : State) (a o : Nat) : Option Word :=
  let cap := st.img.content.cap.toNat
  match o with
  | 0x000 => some (word [(Fld.meeCfg_CAP, cap), (Fld.meeCfg_LEVELS, meeLevels st),
      (Fld.meeCfg_ROOTS, match cap with | 0 => 3072 | 1 => 6144 | _ => 1536)])
  | 0x004 => some (word [(Fld.meeStat_READY, b2n st.mee.ready), (Fld.meeStat_CC_USED, min 0xFFFF st.mee.cache.length)])
  | 0x008 => some st.mee.failWord
  | 0x00C => some st.mee.failLine
  | 0x018 => some (laidOver st a [(Fld.meeArcStat_USED, st.mee.arc.length)])
  | _ => none
def drcRead (st : State) (o : Nat) : Option Word :=
  let x := st.img.content
  match o with
  | 0x000 => some (word [(Fld.drcCfg_CAP, x.cap.toNat), (Fld.drcCfg_RATE, x.dramRate.toNat), (Fld.drcCfg_RANKS, b2n x.dramRanks)])
  | 0x004 => some (word [(Fld.drcStat_TRAINED, b2n st.mee.trained), (Fld.drcStat_TRAIN_FAIL, st.mee.trainFail.toNat),
      (Fld.drcStat_HOT, bitsNat 4 (fun c => st.mee.hot.getLsbD (2 * c) || st.mee.hot.getLsbD (2 * c + 1)))])
  | _ => none

/-- TSU (11). -/
def tsuRead (st : State) (a o : Nat) : Option Word :=
  let t := st.tsu
  match o with
  | 0x010 => some (nowNs st)
  | 0x014 => some t.fracLatch
  | 0x034 => some (laidOver st a [(Fld.tsuCmd_SLEWING, b2n (t.slewLeft != 0))])
  | 0x040 => some t.ppsCapNs
  | 0x044 => some t.ppsCapFrac
  | 0x048 => some (word [(Fld.tsuPpsStat_EDGES, t.ppsEdges.toNat), (Fld.tsuPpsStat_PPS_IGNORED, t.ppsIgnored.toNat)])
  | 0x200 => some (word [(Fld.safStat_HELD, st.saf.length)])
  | _ => none

/-- The 16 words of a port's latched bandwidth counts (19). -/
def bwWords (st : State) : List Word :=
  let w := rd st 0xD0100
  let s : SliceId := Fin.ofNat 4 (getF w Fld.pmuBwSel_SLICE)
  let k : PortIx := Fin.ofNat 8 (getF w Fld.pmuBwSel_PORT)
  let vals (tx : Bool) : List Nat :=
    let c := st.pmu.bwLatched.getD (bwKey (sideOfNat (getF w Fld.pmuBwSel_SIDE)) s k tx) {}
    [c.oct, c.fr, c.pkOct, c.pkFr]
  (vals false ++ vals true).flatMap (fun v => [BitVec.ofNat 32 v, BitVec.ofNat 32 (v / 2 ^ 32)])

/-- PMU (19). The ZLN-4816 has no slice performance counters. -/
def pmuRead (st : State) (a o : Nat) : Option Word :=
  if 0x8000 ≤ o then
    let v := st.pmu.visible.getD ((o - 0x8000) / 8) 0
    some (if o % 8 = 0 then v.setWidth 32 else (v >>> 32).setWidth 32)
  else if 0x1000 ≤ o ∧ o < 0x1400 then
    let c := st.pmu.pc[(Fin.ofNat 4 (o / 0x100) : Fin 4)]
    let x := o % 0x100
    if !st.fuses.is4832 then some 0
    else if x = 0 then some (word [(Fld.pmuPcCtl_RUN, b2n c.run), (Fld.pmuPcCtl_OVF, c.ovf.toNat)])
    else if x = 0x40 then some (c.cyc.setWidth 32)
    else if x = 0x44 then some c.cycLatch
    else if 0x50 ≤ x ∧ x < 0x90 then
      let i : Fin 8 := Fin.ofNat 8 ((x - 0x50) / 8)
      some (if x % 8 = 0 then (c.cnt[i]).setWidth 32 else c.pcLatch[i])
    else none
  else if o = 0x010 then some (laidOver st a [(Fld.pmuSnapCmd_BUSY, b2n st.pmu.taking.isSome)])
  else if 0x110 ≤ o ∧ o < 0x150 then some ((bwWords st).getD ((o - 0x110) / 4) 0)
  else none

/-- A register of device block `a / 0x10000` (Table 23-2). -/
def deviceRead (st : State) (a : Nat) : Option Word :=
  let o := a % 0x10000
  match a / 0x10000 with
  | 0 => glbRead st a o
  | 1 => imgRead st o
  | 2 => pwrRead st o
  | 3 => hifRead st a o
  | 4 => if o = 0 then some (word [(Fld.vimCfg_MAX_INST, st.img.content.ni)]) else none
  | 5 => twnRead st o
  | 6 => tmpRead st a o
  | 7 => evlRegRead st o
  | 8 => ktrRegRead st o
  | 9 => pnjRegRead st o
  | 10 => meeRegRead st a o
  | 11 => drcRead st o
  | 12 => tsuRead st a o
  | 13 => pmuRead st a o
  | _ => none

/-- A register at offset `o` of the page of instance `i`'s VF (Table 23-6). -/
def vfRead (st : State) (i : InstId) (o : Nat) : Option Word :=
  if !hasVf st i then some 0
  else if o = 0x080 then some (mbxCtl (inst st i))
  else if 0x1000 ≤ o ∧ o < 0x1400 then ringRegRead st i (o - 0x1000)
  else if 0x2100 ≤ o ∧ o < 0x2140 then
    let n : Fin 8 := Fin.ofNat 8 ((o - 0x2100) / 8)
    some (if o % 8 = 0 then ((inst st i).vfCnt[n]).setWidth 32 else (inst st i).vfLatch[n])
  else none

/-- What a read of the register at `a` returns, apart from the latches and clears that the reading commands carry out; a slice
that is absent or off reads 0 (23 R755, 00 R5), and so does a place with no register (18 R644). -/
def regRead (st : State) (a : Nat) : Word :=
  if sliceGone st a then 0
  else
    let v := match sliceOfAddr a with
      | some s => sliceRead st a s (a - 0x1000000 - 0x400000 * s.val)
      | none =>
        if 0x100000000 ≤ a then vfRead st (Fin.ofNat 256 ((a - 0x100000000) / 0x10000)) (a % 0x10000)
        else deviceRead st a
    v.getD (rd st a)

end Sys2Proof.Machine
end

