-- ==== Sys2Proof/Machine/Pins.lean ====
section
/-!
DEFINITION. The management pins (21): SMBus, the JTAG port, the GPIO levels.
-/
namespace Sys2Proof.Machine

/-! SMBus (R724, R725). -/

/-- The register that a command code names (Table 21-7). -/
def smbReg : Nat → Option Nat
  | 0x00 => some Reg.glbDevid
  | 0x01 => some Reg.imgStat
  | 0x02 => some Reg.glbHalt
  | 0x03 => some Reg.tmpEnv
  | 0x04 => some Reg.twnStat
  | _ => none

/-- A Block Read: a count of 4 and the register, least significant byte first; another code is not acknowledged. Each read of
TMP_ENV measures anew. -/
def execSmbusBlockRead (cmd : Byte) (st : State) : Out :=
  .next (match smbReg cmd.toNat with
    | none => st
    | some a =>
      let st' := emit st (.smbus ([4] ++ leBytes 4 (regRead st a).toNat))
      if a = Reg.tmpEnv then { st' with freeCount := st'.freeCount + 1 } else st')

/-- SMB_ALERT_N is driven low: device-wide Umber is in force (R725; 20 Table 20-1). -/
def smbAlert (st : State) : Bool := st.glb.halted || st.glb.holdup || st.tmp.squelched

/-- The 7-bit address, by the level of TWN_PRIMARY at power-on (R724). -/
def smbAddress (st : State) : Byte := if st.primary then 0x5D else 0x5C

def execAlertResponse (st : State) : Out := .next (if smbAlert st then emit st (.smbus [smbAddress st]) else st)

/-! JTAG (R727, R728; IEEE Std 1149.1, log entry 20). -/

/-- The IDCODE register. -/
def idcode (st : State) : Nat := 2 ^ 28 + getF (devid st) Fld.glbDevid_PART * 2 ^ 12 + 0x35E * 2 + 1

/-- Instructions that drive the pins. -/
def drivesPins : TapInstr → Bool
  | .extest => true
  | .clamp => true
  | .extestPulse => true
  | .extestTrain => true
  | _ => false

/-- The instruction that takes effect: one that drives pins only while RESET_N is held low, a debug one only while debug is
enabled. -/
def tapTaken (st : State) (i : TapInstr) (rstLow : Bool) : TapInstr :=
  if drivesPins i && !rstLow then .bypass
  else if i = .debug ∧ st.debug = false then .bypass
  else i

/-- What TDO returns while `data` is shifted in: through BYPASS one bit late, IDCODE, or what the boundary register captured. -/
def tapOut (st : State) (i : TapInstr) (data : Bytes) : Bytes :=
  match i with
  | .bypass | .clamp | .debug => leBytes data.length (2 * leVal data)
  | .idcode => leBytes 4 (idcode st)
  | .sample | .preload | .extest | .extestPulse | .extestTrain => Config.boundaryScan st.freeCount

/-- Whether the boundary register lies between TDI and TDO. -/
def scansPins : TapInstr → Bool
  | .sample | .preload | .extest | .extestPulse | .extestTrain => true
  | _ => false

/-- A TAP instruction is loaded and `data` shifted through the register it selects; `rstLow` is the level of RESET_N. The
ownership line and the selector are never driven by it. -/
def execJtagInstruction (i : TapInstr) (rstLow : Bool) (data : Bytes) (st : State) : Out :=
  let j := tapTaken st i rstLow
  if j = .debug then .fault .debugUnit
  else
    let st' := emit { st with tap := { ir := j, cells := if scansPins j then data else st.tap.cells, driving := drivesPins j } }
      (.jtag (tapOut st j data))
    .next (if scansPins j then { st' with freeCount := st'.freeCount + 1 } else st')

/-! GPIO (R729, R736). -/

/-- The level that the device drives on GPIO[n]; none while the pin is an input. -/
def gpioOut (st : State) (n : Fin 16) : Option Bool :=
  match (rd st Reg.glbGpioFunc).toNat / 4 ^ n.val % 4 with
  | 0 => if bitW (rd st Reg.glbGpioDir) n then some (bitW (rd st Reg.glbGpioOut) n) else none
  | 1 => some st.glb.halted
  | 2 => some st.twin.own
  | _ => some (smbAlert st)

end Sys2Proof.Machine
end

