-- ==== Sys2Proof/Machine/Dispatch.lean ====
section
/-!
DEFINITION. One arm per command; each is one direct call of the command's meaning.
-/
namespace Sys2Proof.Machine

def exec (i : Instr) (s : State) : Host.Outcome State Fault Refusal :=
  match i with
  | .clientFrameRx a0 b0 c0 => Sys2Proof.Machine.execClientFrameRx a0 b0 c0 s
  | .protectFrameEnd a0 b0 c0 => Sys2Proof.Machine.execProtectFrameEnd a0 b0 c0 s
  | .frameEgressGrant a0 b0 c0 d0 => Sys2Proof.Machine.execFrameEgressGrant a0 b0 c0 d0 s
  | .lineFrameRx a0 b0 c0 => Sys2Proof.Machine.execLineFrameRx a0 b0 c0 s
  | .finalReplayCommit a0 b0 => Sys2Proof.Machine.execFinalReplayCommit a0 b0 s
  | .recircEntry a0 => Sys2Proof.Machine.execRecircEntry a0 s
  | .learn a0 => Sys2Proof.Machine.execLearn a0 s
  | .rxPauseFrame a0 b0 c0 d0 => Sys2Proof.Machine.execRxPauseFrame a0 b0 c0 d0 s
  | .pauseHoldEnd a0 b0 c0 d0 => Sys2Proof.Machine.execPauseHoldEnd a0 b0 c0 d0 s
  | .pauseRepeat a0 b0 => Sys2Proof.Machine.execPauseRepeat a0 b0 s
  | .headroomMeasure a0 b0 c0 => Sys2Proof.Machine.execHeadroomMeasure a0 b0 c0 s
  | .fragAged a0 b0 => Sys2Proof.Machine.execFragAged a0 b0 s
  | .fiHoldRelease a0 b0 => Sys2Proof.Machine.execFiHoldRelease a0 b0 s
  | .fiArm a0 b0 c0 => Sys2Proof.Machine.execFiArm a0 b0 c0 s
  | .fiDisarm a0 b0 c0 => Sys2Proof.Machine.execFiDisarm a0 b0 c0 s
  | .laneSignalDetect a0 => Sys2Proof.Machine.execLaneSignalDetect a0 s
  | .laneStepDone a0 b0 => Sys2Proof.Machine.execLaneStepDone a0 b0 s
  | .precoderTryTimeout a0 => Sys2Proof.Machine.execPrecoderTryTimeout a0 s
  | .laneTimeout a0 => Sys2Proof.Machine.execLaneTimeout a0 s
  | .lossOfLock a0 b0 => Sys2Proof.Machine.execLossOfLock a0 b0 s
  | .eqAtLimit a0 b0 => Sys2Proof.Machine.execEqAtLimit a0 b0 s
  | .prsImapRead a0 b0 c0 d0 => Sys2Proof.Machine.execPrsImapRead a0 b0 c0 d0 s
  | .prsImapWrite a0 b0 c0 d0 e0 => Sys2Proof.Machine.execPrsImapWrite a0 b0 c0 d0 e0 s
  | .clsKprofWrite a0 b0 c0 d0 => Sys2Proof.Machine.execClsKprofWrite a0 b0 c0 d0 s
  | .ruleRead a0 b0 c0 => Sys2Proof.Machine.execRuleRead a0 b0 c0 s
  | .ruleWrite a0 b0 c0 => Sys2Proof.Machine.execRuleWrite a0 b0 c0 s
  | .ruleRetire a0 b0 c0 => Sys2Proof.Machine.execRuleRetire a0 b0 c0 s
  | .ruleCancel a0 b0 c0 => Sys2Proof.Machine.execRuleCancel a0 b0 c0 s
  | .commit a0 => Sys2Proof.Machine.execCommit a0 s
  | .commitApply a0 => Sys2Proof.Machine.execCommitApply a0 s
  | .tblRead a0 b0 c0 => Sys2Proof.Machine.execTblRead a0 b0 c0 s
  | .tblWrite a0 b0 => Sys2Proof.Machine.execTblWrite a0 b0 s
  | .tblInsert a0 b0 => Sys2Proof.Machine.execTblInsert a0 b0 s
  | .tblDelete a0 b0 => Sys2Proof.Machine.execTblDelete a0 b0 s
  | .tblLookup a0 b0 => Sys2Proof.Machine.execTblLookup a0 b0 s
  | .search a0 b0 c0 => Sys2Proof.Machine.execSearch a0 b0 c0 s
  | .next a0 b0 => Sys2Proof.Machine.execNext a0 b0 s
  | .flushPort a0 b0 c0 => Sys2Proof.Machine.execFlushPort a0 b0 c0 s
  | .flushInstance a0 b0 c0 => Sys2Proof.Machine.execFlushInstance a0 b0 c0 s
  | .fwdTblModeWrite a0 b0 c0 => Sys2Proof.Machine.execFwdTblModeWrite a0 b0 c0 s
  | .maintEnter a0 b0 => Sys2Proof.Machine.execMaintEnter a0 b0 s
  | .msCounterAdvance a0 => Sys2Proof.Machine.execMsCounterAdvance a0 s
  | .ageTick a0 => Sys2Proof.Machine.execAgeTick a0 s
  | .sweepVisit a0 b0 => Sys2Proof.Machine.execSweepVisit a0 b0 s
  | .lpmScrub a0 b0 c0 => Sys2Proof.Machine.execLpmScrub a0 b0 c0 s
  | .chRead a0 b0 => Sys2Proof.Machine.execChRead a0 b0 s
  | .chWrite a0 b0 => Sys2Proof.Machine.execChWrite a0 b0 s
  | .chDelete a0 b0 => Sys2Proof.Machine.execChDelete a0 b0 s
  | .saRead a0 b0 c0 => Sys2Proof.Machine.execSaRead a0 b0 c0 s
  | .saLoad a0 b0 c0 => Sys2Proof.Machine.execSaLoad a0 b0 c0 s
  | .saActivate a0 b0 c0 => Sys2Proof.Machine.execSaActivate a0 b0 c0 s
  | .saRetire a0 b0 c0 => Sys2Proof.Machine.execSaRetire a0 b0 c0 s
  | .saClear a0 b0 c0 => Sys2Proof.Machine.execSaClear a0 b0 c0 s
  | .sciFind a0 => Sys2Proof.Machine.execSciFind a0 s
  | .slotChangeApply a0 b0 => Sys2Proof.Machine.execSlotChangeApply a0 b0 s
  | .rootWrite a0 => Sys2Proof.Machine.execRootWrite a0 s
  | .derive a0 => Sys2Proof.Machine.execDerive a0 s
  | .nodeRead a0 => Sys2Proof.Machine.execNodeRead a0 s
  | .invalidate a0 b0 => Sys2Proof.Machine.execInvalidate a0 b0 s
  | .timerArm a0 b0 c0 d0 => Sys2Proof.Machine.execTimerArm a0 b0 c0 d0 s
  | .timerDisarm a0 b0 c0 d0 => Sys2Proof.Machine.execTimerDisarm a0 b0 c0 d0 s
  | .rxFire a0 b0 => Sys2Proof.Machine.execRxFire a0 b0 s
  | .timerFired a0 b0 => Sys2Proof.Machine.execTimerFired a0 b0 s
  | .lifecycleSweep a0 b0 => Sys2Proof.Machine.execLifecycleSweep a0 b0 s
  | .preInstall a0 b0 => Sys2Proof.Machine.execPreInstall a0 b0 s
  | .journalCommit a0 => Sys2Proof.Machine.execJournalCommit a0 s
  | .journalHaltTimeout => Sys2Proof.Machine.execJournalHaltTimeout s
  | .journalScanDone a0 => Sys2Proof.Machine.execJournalScanDone a0 s
  | .pnjRead a0 => Sys2Proof.Machine.execPnjRead a0 s
  | .find => Sys2Proof.Machine.execFind s
  | .destroy => Sys2Proof.Machine.execDestroy s
  | .tombDormant => Sys2Proof.Machine.execTombDormant s
  | .ackDamage => Sys2Proof.Machine.execAckDamage s
  | .ctfFrameBoundary a0 b0 => Sys2Proof.Machine.execCtfFrameBoundary a0 b0 s
  | .ctfFrameRx a0 b0 c0 => Sys2Proof.Machine.execCtfFrameRx a0 b0 c0 s
  | .fsyncEdge a0 b0 => Sys2Proof.Machine.execFsyncEdge a0 b0 s
  | .align a0 => Sys2Proof.Machine.execAlign a0 s
  | .perfSecond => Sys2Proof.Machine.execPerfSecond s
  | .perfSecondClassify => Sys2Proof.Machine.execPerfSecondClassify s
  | .traceExpWrite a0 b0 c0 d0 => Sys2Proof.Machine.execTraceExpWrite a0 b0 c0 d0 s
  | .ctfFiArm a0 b0 c0 => Sys2Proof.Machine.execCtfFiArm a0 b0 c0 s
  | .ctfFiDisarm a0 b0 c0 => Sys2Proof.Machine.execCtfFiDisarm a0 b0 c0 s
  | .tribRead a0 b0 c0 => Sys2Proof.Machine.execTribRead a0 b0 c0 s
  | .tribWrite a0 b0 c0 => Sys2Proof.Machine.execTribWrite a0 b0 c0 s
  | .install a0 b0 c0 d0 => Sys2Proof.Machine.execInstall a0 b0 c0 d0 s
  | .tribSwitch a0 b0 c0 => Sys2Proof.Machine.execTribSwitch a0 b0 c0 s
  | .tribClear a0 b0 c0 d0 => Sys2Proof.Machine.execTribClear a0 b0 c0 d0 s
  | .tribDelete a0 b0 c0 => Sys2Proof.Machine.execTribDelete a0 b0 c0 s
  | .pmRead a0 b0 c0 => Sys2Proof.Machine.execPmRead a0 b0 c0 s
  | .pageRead a0 b0 c0 d0 e0 => Sys2Proof.Machine.execPageRead a0 b0 c0 d0 e0 s
  | .pageWrite a0 b0 c0 d0 e0 => Sys2Proof.Machine.execPageWrite a0 b0 c0 d0 e0 s
  | .copy a0 b0 => Sys2Proof.Machine.execCopy a0 b0 s
  | .swap a0 => Sys2Proof.Machine.execSwap a0 s
  | .wrap => Sys2Proof.Machine.execWrap s
  | .tsuNowRead => Sys2Proof.Machine.execTsuNowRead s
  | .step a0 b0 c0 => Sys2Proof.Machine.execStep a0 b0 c0 s
  | .slew a0 => Sys2Proof.Machine.execSlew a0 s
  | .abort a0 => Sys2Proof.Machine.execAbort a0 s
  | .slewDone => Sys2Proof.Machine.execSlewDone s
  | .ppsIn => Sys2Proof.Machine.execPpsIn s
  | .ppsOutRise => Sys2Proof.Machine.execPpsOutRise s
  | .ppsOutFall => Sys2Proof.Machine.execPpsOutFall s
  | .saffronStage a0 => Sys2Proof.Machine.execSaffronStage a0 s
  | .saffronParserEntry a0 => Sys2Proof.Machine.execSaffronParserEntry a0 s
  | .saffronSlotAccess a0 => Sys2Proof.Machine.execSaffronSlotAccess a0 s
  | .saffronLaunch a0 b0 => Sys2Proof.Machine.execSaffronLaunch a0 b0 s
  | .late a0 => Sys2Proof.Machine.execLate a0 s
  | .claim => Sys2Proof.Machine.execClaim s
  | .join => Sys2Proof.Machine.execJoin s
  | .twinSwitch => Sys2Proof.Machine.execTwinSwitch s
  | .leave => Sys2Proof.Machine.execLeave s
  | .ownLineChange a0 => Sys2Proof.Machine.execOwnLineChange a0 s
  | .ownAssert => Sys2Proof.Machine.execOwnAssert s
  | .ownTxEnable => Sys2Proof.Machine.execOwnTxEnable s
  | .stepEpochBoundary => Sys2Proof.Machine.execStepEpochBoundary s
  | .divergenceTestDone a0 b0 => Sys2Proof.Machine.execDivergenceTestDone a0 b0 s
  | .hello a0 => Sys2Proof.Machine.execHello a0 s
  | .heartbeat a0 b0 c0 => Sys2Proof.Machine.execHeartbeat a0 b0 c0 s
  | .indigoStep a0 b0 => Sys2Proof.Machine.execIndigoStep a0 b0 s
  | .digest a0 b0 => Sys2Proof.Machine.execDigest a0 b0 s
  | .health a0 b0 c0 => Sys2Proof.Machine.execHealth a0 b0 c0 s
  | .mirror a0 b0 => Sys2Proof.Machine.execMirror a0 b0 s
  | .learnMessage a0 b0 c0 => Sys2Proof.Machine.execLearnMessage a0 b0 c0 s
  | .timeMessage a0 b0 c0 => Sys2Proof.Machine.execTimeMessage a0 b0 c0 s
  | .capsule a0 b0 => Sys2Proof.Machine.execCapsule a0 b0 s
  | .ackMessage a0 b0 c0 => Sys2Proof.Machine.execAckMessage a0 b0 c0 s
  | .helloSend => Sys2Proof.Machine.execHelloSend s
  | .heartbeatSend => Sys2Proof.Machine.execHeartbeatSend s
  | .timeSend => Sys2Proof.Machine.execTimeSend s
  | .ackSend => Sys2Proof.Machine.execAckSend s
  | .capsuleStreamSend a0 => Sys2Proof.Machine.execCapsuleStreamSend a0 s
  | .hbLost => Sys2Proof.Machine.execHbLost s
  | .candidacyEnd => Sys2Proof.Machine.execCandidacyEnd s
  | .doorbell a0 => Sys2Proof.Machine.execDoorbell a0 s
  | .mbxRead a0 => Sys2Proof.Machine.execMbxRead a0 s
  | .respond a0 => Sys2Proof.Machine.execRespond a0 s
  | .vfMbxCtlRead a0 => Sys2Proof.Machine.execVfMbxCtlRead a0 s
  | .enable a0 => Sys2Proof.Machine.execEnable a0 s
  | .quiesce a0 => Sys2Proof.Machine.execQuiesce a0 s
  | .quiesceDone a0 => Sys2Proof.Machine.execQuiesceDone a0 s
  | .quiesceTimeout a0 => Sys2Proof.Machine.execQuiesceTimeout a0 s
  | .freeze a0 => Sys2Proof.Machine.execFreeze a0 s
  | .thaw a0 => Sys2Proof.Machine.execThaw a0 s
  | .instanceReset a0 => Sys2Proof.Machine.execInstanceReset a0 s
  | .remove a0 => Sys2Proof.Machine.execRemove a0 s
  | .save a0 => Sys2Proof.Machine.execSave a0 s
  | .restore a0 b0 => Sys2Proof.Machine.execRestore a0 b0 s
  | .shareWrite a0 b0 => Sys2Proof.Machine.execShareWrite a0 b0 s
  | .shareRead a0 b0 => Sys2Proof.Machine.execShareRead a0 b0 s
  | .stateRead a0 => Sys2Proof.Machine.execStateRead a0 s
  | .vfFlr a0 => Sys2Proof.Machine.execVfFlr a0 s
  | .heldDescriptorResume a0 b0 => Sys2Proof.Machine.execHeldDescriptorResume a0 b0 s
  | .park a0 b0 c0 d0 => Sys2Proof.Machine.execPark a0 b0 c0 d0 s
  | .arcLoad a0 b0 c0 d0 => Sys2Proof.Machine.execArcLoad a0 b0 c0 d0 s
  | .arcRead a0 => Sys2Proof.Machine.execArcRead a0 s
  | .arcDelete a0 => Sys2Proof.Machine.execArcDelete a0 s
  | .dramTrained a0 => Sys2Proof.Machine.execDramTrained a0 s
  | .dqsRetrain => Sys2Proof.Machine.execDqsRetrain s
  | .meeReadDone a0 b0 c0 => Sys2Proof.Machine.execMeeReadDone a0 b0 c0 s
  | .patrolScrub a0 b0 c0 => Sys2Proof.Machine.execPatrolScrub a0 b0 c0 s
  | .tamperTrip a0 => Sys2Proof.Machine.execTamperTrip a0 s
  | .tamperRecordCommit a0 => Sys2Proof.Machine.execTamperRecordCommit a0 s
  | .zeroiseDone => Sys2Proof.Machine.execZeroiseDone s
  | .monitor a0 b0 => Sys2Proof.Machine.execMonitor a0 b0 s
  | .causeCleared a0 => Sys2Proof.Machine.execCauseCleared a0 s
  | .lock a0 => Sys2Proof.Machine.execLock a0 s
  | .tamperAck a0 => Sys2Proof.Machine.execTamperAck a0 s
  | .tmpRespWrite a0 b0 => Sys2Proof.Machine.execTmpRespWrite a0 b0 s
  | .startupCheckDone a0 b0 => Sys2Proof.Machine.execStartupCheckDone a0 b0 s
  | .logRead a0 => Sys2Proof.Machine.execLogRead a0 s
  | .append => Sys2Proof.Machine.execAppend s
  | .verify a0 => Sys2Proof.Machine.execVerify a0 s
  | .evlRecordCommit a0 => Sys2Proof.Machine.execEvlRecordCommit a0 s
  | .evlScanDone => Sys2Proof.Machine.execEvlScanDone s
  | .powerOnReset a0 b0 c0 => Sys2Proof.Machine.execPowerOnReset a0 b0 c0 s
  | .supplyMonitorReset a0 => Sys2Proof.Machine.execSupplyMonitorReset a0 s
  | .deviceReset a0 => Sys2Proof.Machine.execDeviceReset a0 s
  | .glbReset a0 b0 => Sys2Proof.Machine.execGlbReset a0 b0 s
  | .imageSourceTry => Sys2Proof.Machine.execImageSourceTry s
  | .bootDone => Sys2Proof.Machine.execBootDone s
  | .download a0 => Sys2Proof.Machine.execDownload a0 s
  | .stage a0 b0 => Sys2Proof.Machine.execStage a0 b0 s
  | .setPref a0 => Sys2Proof.Machine.execSetPref a0 s
  | .advanceSvn => Sys2Proof.Machine.execAdvanceSvn s
  | .addKeys => Sys2Proof.Machine.execAddKeys s
  | .revokeKey a0 => Sys2Proof.Machine.execRevokeKey a0 s
  | .drain a0 b0 => Sys2Proof.Machine.execDrain a0 b0 s
  | .drainDone a0 => Sys2Proof.Machine.execDrainDone a0 s
  | .drainTimeout a0 => Sys2Proof.Machine.execDrainTimeout a0 s
  | .sliceLoad a0 b0 => Sys2Proof.Machine.execSliceLoad a0 b0 s
  | .sliceLoadChecked => Sys2Proof.Machine.execSliceLoadChecked s
  | .sliceRunning a0 => Sys2Proof.Machine.execSliceRunning a0 s
  | .resume a0 => Sys2Proof.Machine.execResume a0 s
  | .avsInterval a0 b0 c0 d0 e0 => Sys2Proof.Machine.execAvsInterval a0 b0 c0 d0 e0 s
  | .avsEmergEnd a0 => Sys2Proof.Machine.execAvsEmergEnd a0 s
  | .avsHoldEnd a0 => Sys2Proof.Machine.execAvsHoldEnd a0 s
  | .engineLoopWindow a0 b0 c0 => Sys2Proof.Machine.execEngineLoopWindow a0 b0 c0 s
  | .engineDrainDone a0 b0 => Sys2Proof.Machine.execEngineDrainDone a0 b0 s
  | .engineKatDone a0 b0 c0 => Sys2Proof.Machine.execEngineKatDone a0 b0 c0 s
  | .portReset a0 b0 c0 => Sys2Proof.Machine.execPortReset a0 b0 c0 s
  | .portResetDone => Sys2Proof.Machine.execPortResetDone s
  | .pllUnlock a0 b0 => Sys2Proof.Machine.execPllUnlock a0 b0 s
  | .pwrfailNFall => Sys2Proof.Machine.execPwrfailNFall s
  | .pwrfailGlitch => Sys2Proof.Machine.execPwrfailGlitch s
  | .holdUp => Sys2Proof.Machine.execHoldUp s
  | .registerWrite a0 b0 c0 d0 => Sys2Proof.Machine.execRegisterWrite a0 b0 c0 d0 s
  | .glbUpdate a0 => Sys2Proof.Machine.execGlbUpdate a0 s
  | .updateApply => Sys2Proof.Machine.execUpdateApply s
  | .evtRingEnable a0 b0 => Sys2Proof.Machine.execEvtRingEnable a0 b0 s
  | .evtHeadWrite a0 b0 => Sys2Proof.Machine.execEvtHeadWrite a0 b0 s
  | .msixModerationEnd a0 b0 c0 => Sys2Proof.Machine.execMsixModerationEnd a0 b0 c0 s
  | .ringEnable a0 b0 => Sys2Proof.Machine.execRingEnable a0 b0 s
  | .ringDisable a0 b0 => Sys2Proof.Machine.execRingDisable a0 b0 s
  | .ringStopped a0 b0 => Sys2Proof.Machine.execRingStopped a0 b0 s
  | .ringCtlRead a0 b0 => Sys2Proof.Machine.execRingCtlRead a0 b0 s
  | .vfRingErrRead a0 => Sys2Proof.Machine.execVfRingErrRead a0 s
  | .injectDescriptorRead a0 b0 c0 d0 => Sys2Proof.Machine.execInjectDescriptorRead a0 b0 c0 d0 s
  | .injectFrameCopied a0 b0 c0 => Sys2Proof.Machine.execInjectFrameCopied a0 b0 c0 s
  | .dmaErr a0 b0 => Sys2Proof.Machine.execDmaErr a0 b0 s
  | .pfFlr => Sys2Proof.Machine.execPfFlr s
  | .pciePerst => Sys2Proof.Machine.execPciePerst s
  | .ctfFcRead a0 b0 c0 => Sys2Proof.Machine.execCtfFcRead a0 b0 c0 s
  | .snapshot => Sys2Proof.Machine.execSnapshot s
  | .snap => Sys2Proof.Machine.execSnap s
  | .snapshotVisible => Sys2Proof.Machine.execSnapshotVisible s
  | .counterFlush a0 b0 c0 => Sys2Proof.Machine.execCounterFlush a0 b0 c0 s
  | .scRead a0 b0 c0 d0 => Sys2Proof.Machine.execScRead a0 b0 c0 d0 s
  | .vfScRead a0 b0 c0 d0 e0 => Sys2Proof.Machine.execVfScRead a0 b0 c0 d0 e0 s
  | .vfStatRead a0 b0 => Sys2Proof.Machine.execVfStatRead a0 b0 s
  | .bwWindowEnd => Sys2Proof.Machine.execBwWindowEnd s
  | .pcStart a0 b0 => Sys2Proof.Machine.execPcStart a0 b0 s
  | .pcStop a0 b0 => Sys2Proof.Machine.execPcStop a0 b0 s
  | .pcClear a0 b0 => Sys2Proof.Machine.execPcClear a0 b0 s
  | .pcWrap a0 b0 => Sys2Proof.Machine.execPcWrap a0 b0 s
  | .pmuCounterRead a0 b0 => Sys2Proof.Machine.execPmuCounterRead a0 b0 s
  | .glbUmberWrite a0 b0 => Sys2Proof.Machine.execGlbUmberWrite a0 b0 s
  | .sramScrub a0 b0 c0 d0 => Sys2Proof.Machine.execSramScrub a0 b0 c0 d0 s
  | .smbusBlockRead a0 => Sys2Proof.Machine.execSmbusBlockRead a0 s
  | .alertResponse => Sys2Proof.Machine.execAlertResponse s
  | .jtagInstruction a0 b0 c0 => Sys2Proof.Machine.execJtagInstruction a0 b0 c0 s
  | .meeWriteBack a0 => Sys2Proof.Machine.execMeeWriteBack a0 s
  | .mr4TemperatureReport a0 b0 c0 => Sys2Proof.Machine.execMr4TemperatureReport a0 b0 c0 s
  | .vfEnableClear => Sys2Proof.Machine.execVfEnableClear s
  | .pcieLinkTraining a0 b0 c0 => Sys2Proof.Machine.execPcieLinkTraining a0 b0 c0 s
  | .linkFaultSignallingRx a0 b0 c0 d0 e0 => Sys2Proof.Machine.execLinkFaultSignallingRx a0 b0 c0 d0 e0 s

end Sys2Proof.Machine
end

