-- ==== Sys2Proof/Safety.lean ====
section
/-!
DEFINITION. The terms in which claims about the block are made: when a register command is taken at once, what a command may
touch, and which states are in order.
-/
namespace Sys2Proof.Machine

/-- A write to register `a` through the PF takes effect at once: no halt, its slice on, and the register not forwarded or
discarded by the mirror (20 R698, 23 R755, 12 R479, R480). -/
def atOnce (st : State) (a : Nat) : Bool :=
  !st.glb.halted && !sliceGone st a && (notForwarded a || (!twinStandby st && !twinOwner st))

/-- A command register at `a` takes a command: as above, after step 4 of the start-up (16 R608), and BUSY is 0. -/
def cmdOpen (st : State) (a : Nat) : Bool := atOnce st a && booted st && decide (fld st a busyF = 0)

/-- Every register but those in `as` reads as before. -/
def regsKept (as : List Nat) (st t : State) : Prop := ∀ a, a ∉ as → rd t a = rd st a

/-- `t` is `st` but for the registers in `as`. -/
def onlyRegs (as : List Nat) (st t : State) : Prop := t = { st with regs := t.regs } ∧ regsKept as st t

/-- `t` is `st` but for the registers in `as` and slice `s`. -/
def onlySlice (s : SliceId) (as : List Nat) (st t : State) : Prop :=
  t = { st with regs := t.regs, slices := t.slices } ∧ regsKept as st t ∧ ∀ r : SliceId, r ≠ s → t.slices[r] = st.slices[r]

end Sys2Proof.Machine
end

