-- ==== Sys2Proof/Certificates/Slice0/Obligations.lean ====
section
/-!
DEFINITION. The statements for the provers. Each docstring says what is stated and names the rules of the spec that it follows.
-/
open Sys2Proof Sys2Proof.Machine

/-- For every command and state, the step of the state with that command at the front of its queue is what the command
does to the state with the queue's rest. On an empty queue a step is one tick of the TSU clock, which is the model's
choice (log entry 15). (01_architecture.md, R426) -/
def Obligations.StepRunsTheCommandAtTheFront : Prop :=
  (∀ (c : Instr) (rest : List Instr) (st : State),
    step { st with pending := c :: rest } = exec c { st with pending := rest }) ∧
  ∀ st : State, st.pending = [] → step st = .next (tick st)

/-- If a step answers a next state, the commands that wait in it are those that waited behind the one taken: no command,
not even a reset of the device, adds, drops or reorders a command, and a tick leaves the empty queue empty. The queue
is the model's own (log entry 15). (01_architecture.md) -/
def Obligations.EveryStepTakesOneCommandAndAddsNone : Prop :=
  ∀ s t : State, step s = .next t → t.pending = s.pending.tail

/-- If the MRAM die of a state lists its nonzero bytes once each, addresses strictly rising, and a step answers a next
state, then the MRAM die of that state does so too: journal records, log records, counts and preferences are written
by whatever command without disturbing the form, so that equal contents are equal data. What an unlisted byte reads as
is the model's choice (log entry 3). (R363, R586, R606, 09_ochre_journal.md, 15_tamper_evidence.md) -/
def Obligations.MramKeepsItsCanonicalForm : Prop :=
  ∀ s t : State, Memory.wf s.mram = true → step s = .next t → Memory.wf t.mram = true

/-- In the reset state the queue is empty, the MRAM die is in its canonical form, the image is LOADING with no source
tried, no halt, hold-up or squelch is in force, every lane stands before its first step and no port is enabled, no
frame is held, the key tree is empty, the journal and the log are not READY, ownership is released, time is 0, no
event ring runs, and a register reads its reset value. Instance 0 is ENABLED and every other DISABLED. Values that the
spec does not give are the model's choice (log entries 2 and 3). (R602, R636, R648, R506, R465, 16_image_boot.md,
17_power_clock_reset.md) -/
def Obligations.ResetStateIsAsTheSpecSays : Prop :=
  let st := State.reset
  st.pending = [] ∧ Memory.wf st.mram = true ∧ st.img.state = .loading ∧ st.img.res = Vector.replicate 4 0 ∧
  st.glb.halted = false ∧ st.glb.holdup = false ∧ st.tmp.squelched = false ∧
  (∀ (s : SliceId) (k : PortIx) (d : Side), (laneOf st (.lane d s k)).stage = .off ∧ (port st d s k).enabled = false) ∧
  framesAll st = 0 ∧ st.ktr.nodes = [] ∧ st.jnl.ready = false ∧ st.evl.ready = false ∧ st.twin.own = false ∧
  st.tsu.now = 0 ∧ st.tsu.elapsed = 0 ∧ (∀ j : Fin 4, (st.rings[j]).run = false) ∧
  (∀ a, rd st a = regReset a ∧ rdA st a = regReset a) ∧
  (inst st 0).state = .enabled ∧ ∀ i : InstId, i ≠ 0 → (inst st i).state = .disabled

/-- In a halt, a command to any of the command registers named, of whatever kind, leaves the state as it was. Without a
halt, on a powered slice and in a package that is not a standby, a command while BUSY is 1 sets RESULT to BUSY and
changes nothing else, and one before step 4 of the start-up is refused with NOT_READY where its result table has that
code and with BUSY elsewhere (the model's choice between the two that R608 allows, log entry 26), its operands stored
and nothing else changed. Rules, tables, tributaries, instances, the journal, the archive and the twin unit are named.
(R698, R608, R615, 20_fault_model.md, 16_image_boot.md) -/
def Obligations.HaltedDeviceIgnoresCommandsAndBusyOnesAreRefused : Prop :=
  ∀ (st : State) (s : SliceId) (i : InstId),
    (st.glb.halted = true →
      (∀ d ix, exec (.ruleWrite s d ix) st = .next st ∧ exec (.ruleRetire s d ix) st = .next st) ∧
      exec (.enable i) st = .next st ∧ exec (.quiesce i) st = .next st ∧ exec (.save i) st = .next st ∧
      exec (.mbxRead i) st = .next st ∧ exec .claim st = .next st ∧ exec .join st = .next st ∧
      (∀ e, exec (.arcRead e) st = .next st ∧ exec (.arcDelete e) st = .next st) ∧
      (∀ d k kind ch an, exec (.portReset s d k) st = .next st ∧ exec (.scRead kind s ch an) st = .next st) ∧
      (∀ mask, exec (.glbUpdate mask) st = .next st) ∧ exec (.commit s) st = .next st ∧ exec .snap st = .next st) ∧
    (st.glb.halted = false → twinStandby st = false →
      (booted st = true → fld st Reg.vimCmd busyF ≠ 0 →
        exec (.enable i) st = .next (setF st Reg.vimCmd Fld.vimCmd_RESULT 1) ∧
        exec (.quiesce i) st = .next (setF st Reg.vimCmd Fld.vimCmd_RESULT 1) ∧
        exec (.shareWrite i s) st = .next (setF st Reg.vimCmd Fld.vimCmd_RESULT 1)) ∧
      (booted st = true → fld st Reg.meeArcCmd busyF ≠ 0 →
        ∀ e, exec (.arcRead e) st = .next (setF st Reg.meeArcCmd Fld.meeArcCmd_RESULT 1)) ∧
      (sliceOn st s = true → booted st = true → ∀ d, fld st (Reg.clsRuleCmd s (sideNum d)) busyF ≠ 0 →
        ∀ ix, exec (.ruleWrite s d ix) st =
          .next (setF st (Reg.clsRuleCmd s (sideNum d)) Fld.clsRuleCmd_RESULT 1)) ∧
      (booted st = false →
        let early (a : Nat) (res : Field) (w : Word) (code : Nat) : State := wr st a (putF (cmdWord st a w) res code)
        exec (.enable i) st = .next (early Reg.vimCmd Fld.vimCmd_RESULT (vimWord 1 i 0) 1) ∧
        exec (.quiesce i) st = .next (early Reg.vimCmd Fld.vimCmd_RESULT (vimWord 2 i 0) 1) ∧
        exec .claim st = .next (early Reg.twnCmd Fld.twnCmd_RESULT (word [(Fld.twnCmd_OP, 1)]) 4) ∧
        exec .twinSwitch st = .next (early Reg.twnCmd Fld.twnCmd_RESULT (word [(Fld.twnCmd_OP, 3)]) 1) ∧
        exec .tombDormant st = .next (early Reg.pnjCmd Fld.pnjCmd_RESULT (pnjWord 4 0) 8) ∧
        (∀ e, exec (.arcRead e) st = .next (early Reg.meeArcCmd Fld.meeArcCmd_RESULT
          (word [(Fld.meeArcCmd_OP, 3), (Fld.meeArcCmd_ENTRY, e.toNat)]) 7)) ∧
        (∀ kind ch an, exec (.scRead kind s ch an) st = .next (early Reg.pmuScCmd Fld.pmuScCmd_RESULT (scWord kind s ch an) 4)) ∧
        (twinOwner st = false → exec .snap st = .next (setF st Reg.pmuSnapCmd Fld.pmuSnapCmd_RESULT 1))))

/-- A port that takes no frames changes nothing. A client frame with a bad MAC check is counted; one beyond the port's
limit, without free cells, of an instance that is not ENABLED or beyond its share is dropped and counted as each rule
says; another is parsed and classified. A line frame passes an unarmed injector to the verify path. A frame that
waited for its end goes on as decided. The engine's next frame of a channel is dropped at a bad ICV or by the commit,
else parsed again. The head of the recirculation queue enters the protect path once no earlier frame of its line port
is before its commit. The first frame of a priority, when no earlier frame of its port pair is still on its way, is
sent at a port that is live, not held and not busy with a launch, and dropped at one that is not live. An aged
fragment entry is removed and counted. (R28, R29, R34, R101, R138, R176, R251, R256, R504, R509, 01_architecture.md,
06_frame_protection.md) -/
def Obligations.FramesEnterCrossAndLeaveASlice : Prop :=
  ∀ (st : State) (s : SliceId) (k : PortIx),
    (rxOn st .client s k = false → ∀ f, exec (.clientFrameRx s k f) st = .next st) ∧
    (rxOn st .line s k = false → ∀ f, exec (.lineFrameRx s k f) st = .next st) ∧
    (∀ f, rxOn st .client s k = true → f.ended = true → pauseKind f.bytes = 0 →
      let st1 := bwFrame st .client s k false (f.bytes.length + 4)
      let p := parse { prsCfg st1 s with more := false } f.bytes
      let sta := (arrive st1 s).2
      let c : Pkt := { clientPkt sta s k f p with order := (arrive st1 s).1 }
      (macBad .client f = true → exec (.clientFrameRx s k f) st = .next (macDrop .client s k st1)) ∧
      (macBad .client f = false → admits st1 s = true →
        (portFull sta s k (prioOf p) = true → exec (.clientFrameRx s k f) st = .next (settle (fcDrop sta s k) s)) ∧
        (portFull sta s k (prioOf p) = false → cellsFree sta s f.bytes = false →
          exec (.clientFrameRx s k f) st = .next (settle sta s)) ∧
        (portFull sta s k (prioOf p) = false → cellsFree sta s f.bytes = true →
          let st2 := parserEntry sta c
          ((inst st2 c.inst).state ≠ .enabled → exec (.clientFrameRx s k f) st = .next (settle (instDrop st2 c.inst) s)) ∧
          ((inst st2 c.inst).state = .enabled →
            ((inst st2 c.inst).shares[s].cells ≤ instCells (sl st2 s) c.inst →
              exec (.clientFrameRx s k f) st = .next (settle (shareDrop st2 c.inst) s)) ∧
            (instCells (sl st2 s) c.inst < (inst st2 c.inst).shares[s].cells →
              exec (.clientFrameRx s k f) st =
                .next (settle (protectParsed (pcEvent st2 s 0x030 (cellsOf f.bytes)) c p) s)))))) ∧
    (∀ f, rxOn st .line s k = true → pauseKind f.bytes = 0 →
      let st1 := bwFrame st .line s k false (f.bytes.length + 4)
      (macBad .line f = true → exec (.lineFrameRx s k f) st = .next (macDrop .line s k st1)) ∧
      (macBad .line f = false → admits st1 s = false → exec (.lineFrameRx s k f) st = .next st1) ∧
      (macBad .line f = false → admits st1 s = true → (port st1 .line s k).fi.armed = false → (port st1 .line s k).fiHeld = [] →
        exec (.lineFrameRx s k f) st = .next (settle (lineIn st1 s k f.bytes) s))) ∧
    (∀ f,
      let st1 := if rxOn st .client s k then bwFrame st .client s k false (f.bytes.length + 4) else st
      (∀ w, (sl st1 s).waiting = [(k, w)] → exec (.protectFrameEnd s k f) st =
        .next (settle (endWaiting (modSl st1 s (fun x => { x with waiting := [] })) s k w f) s)) ∧
      ((∀ w ∈ (sl st1 s).waiting, w.1 ≠ k) → pairOf st1 .client s k = none →
        exec (.protectFrameEnd s k f) st = .next st1)) ∧
    (∀ ch v rest, (sl st s).engine = v :: rest → v.ch = ch → v.cellErr = false →
      let st1 := modSl st s (fun x => { x with engine := rest })
      (openFrame v = none → exec (.finalReplayCommit s ch) st = .next (settle (icvFailed st1 s v) s)) ∧
      (∀ bs, openFrame v = some bs →
        (∀ t, rxCommit st1 s v = (false, t) → exec (.finalReplayCommit s ch) st = .next (settle t s)) ∧
        (∀ t, rxCommit st1 s v = (true, t) → exec (.finalReplayCommit s ch) st = .next (settle (secondPass t s v bs) s)))) ∧
    ((sl st s).recirc = [] → exec (.recircEntry s) st = .next st) ∧
    (∀ f rest, (sl st s).recirc = f :: rest → recWaits (sl st s) f = true → rest = [] →
      exec (.recircEntry s) st = .next st) ∧
    (∀ f rest, (sl st s).recirc = f :: rest → recWaits (sl st s) f = false →
      let st1 := modSl st s (fun x => { x with recirc := rest })
      ∃ c : Pkt, c.bytes = f.bytes ∧ c.d = .client ∧ c.inst = f.inst ∧ c.ver = f.ver ∧ c.verified = true ∧
        c.rcp = some f.rcp ∧ c.src = .recirc f.lport ∧
        exec (.recircEntry s) st =
          .next (settle (protectParsed (parserEntry st1 c) c (parse (prsCfg st1 s) f.bytes)) s)) ∧
    (∀ d (q : Fin 8) f rest, isL2 st d s k = true → (port st d s k).queue = f :: rest → f.prio = q →
      (∀ g ∈ f :: rest, g.started = false) → earlierOnWay (sl st s) f = false →
      let st1 := dequeue st d s k 0
      (txLive st d s k = false → exec (.frameEgressGrant d s k q) st = .next (settle (downDrop st1 d s k) s)) ∧
      (txLive st d s k = true →
        (outputHeld st d s k q = true → exec (.frameEgressGrant d s k q) st = .next (settle st s)) ∧
        (outputHeld st d s k q = false → (d = .line → launchNear st s k = false ∧ wireBusy st s k = false) → f.cellErr = false → f.tc = none →
          f.ended = true → exec (.frameEgressGrant d s k q) st = .next (settle (finish st1 d s k f true) s)))) ∧
    (∀ ix e, (sl st s).frags[ix]? = some e →
      (e.expires ≤ elNs st → exec (.fragAged s ix) st =
        .next (count (modFrags st s (fun l => l.eraseIdx ix)) (Reg.clsCnt s (sideNum e.key.dir) 13))) ∧
      (elNs st < e.expires → exec (.fragAged s ix) st = .next st))

/-- When a grant of a line port puts a frame with a good FCS on the pins, the frame carries a SecTAG behind its addresses,
or it is a frame of the port's queue, or one that the fault injector held there, that a rule or Saffron released to
leave in the clear. (R695, 20_fault_model.md) -/
def Obligations.NoClearFrameLeavesALinePortUnreleased : Prop :=
  ∀ (st t : State) (s r : SliceId) (k j : PortIx) (q : Fin 8) (bs : Bytes),
    exec (.frameEgressGrant .line s k q) st = .next t → Output.frame .line r j bs true ∈ t.out →
    Output.frame .line r j bs true ∈ st.out ∨ beVal (sub bs 12 2) = 0x88E5 ∨
    (∃ f ∈ (port st .line s k).queue, f.released = true) ∨
    ∃ f m u, (HeldFrame.tx f, m, u) ∈ (port st .line s k).fiHeld ∧ f.released = true

/-- Signal detect takes a lane from SIG_WAIT to CDR; a completed CDR or EQ step moves it on; FEC lock of a PAM4 lane keeps
the precoder setting that was right, the image's or, with both tried, the one with fewer corrected symbols; a PAM4
receiver without FEC lock for 5 ms tries the opposite setting; a CDR step of 10 ms returns the lane to SIG_WAIT and
counts it, and one not yet so long goes on; loss of CDR lock takes a READY lane of a client port back to CDR; a loop
limit and received fault ordered sets show in their fields. Nothing else of the state changes, but for the fault bits
of the port whose lane is lost. (R71, R67, R73, R77, R79, R89, 02_lanes_ports.md) -/
def Obligations.LaneReceiverMovesThroughItsSteps : Prop :=
  ∀ (st : State) (l : LaneId),
    ((laneOf st l).stage = .sigWait →
      exec (.laneSignalDetect l) st = .next (setStage .cdr (modLane st l (fun x => { x with sigDet := true })) l)) ∧
    (∀ r, (laneOf st l).stage = .cdr → exec (.laneStepDone l r) st = .next (setStage .eq st l)) ∧
    (∀ r, (laneOf st l).stage = .eq → laneFec st l = true →
      exec (.laneStepDone l r) st = .next (setStage .fecLock st l)) ∧
    (∀ a other, (laneOf st l).stage = .fecLock → isPam4 (laneCfgOf st l) = true → (laneOf st l).opposite = false →
      exec (.laneStepDone l ⟨some a, other⟩) st =
        .next (setStage .pcsLock (modLane st l (fun x => { x with precodeDet := (laneCfgOf st l).precRx, mismatch := false })) l)) ∧
    (∀ a b, (laneOf st l).stage = .fecLock → isPam4 (laneCfgOf st l) = true → (laneOf st l).opposite = true → b < a →
      bitW (rxCtl st l) 31 = true →
      exec (.laneStepDone l ⟨some a, some b⟩) st =
        .next (setStage .pcsLock (modLane st l (fun x => { x with precodeDet := !(laneCfgOf st l).precRx, mismatch := false })) l)) ∧
    ((laneOf st l).stage = .fecLock → isPam4 (laneCfgOf st l) = true → (laneOf st l).since + 5000000 ≤ elNs st →
      exec (.precoderTryTimeout l) st = .next (modLane st l (fun x => { x with opposite := true }))) ∧
    ((laneOf st l).stage = .cdr → (laneOf st l).beenReady = false → ((laneOf st l).consec + 1) % 16 ≠ 0 →
      (laneOf st l).retries ≠ BitVec.allOnes 16 → (laneOf st l).since + 10000000 ≤ elNs st →
      exec (.laneTimeout l) st = .next (modLane (setStage .sigWait st l) l (fun x =>
        { x with consec := x.consec + 1, retries := x.retries + 1 }))) ∧
    ((laneOf st l).stage = .cdr → elNs st < (laneOf st l).since + 10000000 → exec (.laneTimeout l) st = .next st) ∧
    (∀ on, (laneOf st l).stage ≠ .off → exec (.eqAtLimit l on) st = .next (modLane st l (fun x => { x with eqAtLimit := on }))) ∧
    (∀ s i k, l = .lane .client s i → (laneOf st l).stage = .ready → portOfLane st .client s i = some k →
      exec (.lossOfLock l .cdr) st = .next (modPort (setStage .cdr st l) .client s k
        (fun p => { p with localFault := false, remoteFault := false }))) ∧
    (∀ d s k lf rf, portUp st d s k = true →
      exec (.linkFaultSignallingRx d s k lf rf) st = .next (modPort st d s k (fun p => { p with localFault := lf, remoteFault := rf })))

/-- A good PAUSE frame on a port that honours PAUSE holds every priority for its quanta of 512 bit times, and a pause time
of 0 ends the hold; a hold that has run out is cleared for its priority alone; a port in XOFF sends its PAUSE frame
again and moves the next repeat by QUANTA / 2 quanta; a measured response time, unless frozen, becomes the newest of
the last 16. (R100, R102, R105, 02_lanes_ports.md) -/
def Obligations.FlowControlFollowsPauseFrames : Prop :=
  ∀ (st : State) (s : SliceId) (k : PortIx),
    (∀ d f, rxOn st d s k = true → pauseKind f.bytes = 1 → macBad d f = false →
      flagA st (Reg.pcsFcCtl s (sideNum d) k) Fld.pcsFcCtl_RX_HONOUR = true →
      ∃ t, exec (.rxPauseFrame d s k f) st = .next t ∧ t.pending = st.pending ∧ t.mram = st.mram ∧ t.out = st.out ∧
        (∀ r : SliceId, r ≠ s → t.slices[r] = st.slices[r]) ∧
        ∀ q : Fin 8, (port t d s k).hold.until_[q] =
          if beVal (sub f.bytes 16 2) = 0 then none
          else some (elNs st + beVal (sub f.bytes 16 2) * 512 / speedOf (portCfg st d s k))) ∧
    (∀ d q u, (port st d s k).hold.until_[(q : Fin 8)] = some u → u ≤ elNs st →
      exec (.pauseHoldEnd d s k q) st =
        .next (modPort st d s k (fun p => { p with hold := { until_ := p.hold.until_.set q none } }))) ∧
    ((port st .client s k).flow.xoff = true → (port st .client s k).flow.pfcXoff = 0 →
      (port st .client s k).flow.nextRep ≤ elNs st →
      exec (.pauseRepeat s k) st =
        .next (sendControl (modPort st .client s k (fun p => { p with flow := { p.flow with
            nextRep := (port st .client s k).flow.nextRep + repeatNs st s k } })) s k
          (beBytes 2 1 ++ beBytes 2 (fldA st (Reg.pcsFcCtl s 0 k) Fld.pcsFcCtl_QUANTA)))) ∧
    (∀ ns, (port st .client s k).flow.measuring = true → flagA st (Reg.pcsFcCtl s 0 k) Fld.pcsFcCtl_FRZ_HR = false →
      exec (.headroomMeasure s k ns) st =
        .next (fcUpdate (keepHeadroom (modPort st .client s k (fun p => { p with flow := { p.flow with
          measuring := false, resp := (ns :: p.flow.resp).take 16 } })) s k) s k))

/-- On an enabled L2 line port with room in the log, ARM of an injector that is not armed takes PCS_FI_CFG and PCS_FI_SEL
as applied, starts its counts at 0, answers OK and queues an arm record; DISARM of an armed injector with nothing held
clears ARMED, answers OK and queues a disarm record; a frame held for 1 ms goes on. After each, flow control, versions
and shares settle. (R110, R111, R112, 02_lanes_ports.md) -/
def Obligations.LineFaultInjectorArmsAndDisarms : Prop :=
  ∀ (st : State) (s : SliceId) (k : PortIx), isL2 st .line s k = true →
    (atOnce st (Reg.pcsFiCmd s k) = true → logFull st = false →
      let cfg := rdA st (Reg.pcsFiCfg s k)
      let sel := rdA st (Reg.pcsFiSel s k)
      ((port st .line s k).fi.armed = false → getF cfg Fld.pcsFiCfg_ACTION < 2 →
        exec (.fiArm s k false) st = .next (settle (fiRecord (setF (modFi st s k (fun _ => { armed := true, cfg := cfg, sel := sel }))
          (Reg.pcsFiStat s k) Fld.pcsFiStat_RESULT 0) 33 (b2n (bitW cfg 29)) s k cfg sel) s)) ∧
      ((port st .line s k).fi.armed = true → (port st .line s k).fiHeld = [] →
        exec (.fiDisarm s k false) st = .next (settle (fiRecord (setF
          (modPort st .line s k (fun p => { p with fi := { p.fi with armed := false }, fiHeld := [] }))
          (Reg.pcsFiStat s k) Fld.pcsFiStat_RESULT 0) 34 (b2n (bitW (port st .line s k).fi.cfg 29)) s k
          (port st .line s k).fi.cfg (port st .line s k).fi.sel) s))) ∧
    (∀ f m u, (port st .line s k).fiHeld = [(.tx f, m, u)] → u ≤ elNs st →
      exec (.fiHoldRelease s k) st =
        .next (settle (releaseTx s k (modPort st .line s k (fun p => { p with fiHeld := [] })) (.tx f)) s))

/-- With the command register open, IMAP READ returns the stored instance and IMAP WRITE on an enabled port stores one; a
key extractor is written while its table is empty; RULE_READ loads CLS_RDATA from the entry; RULE_WRITE that meets
none of the causes of R173 installs CLS_RDATA for the pending version; RETIRE ends a rule with the current version;
CANCEL of a pending write frees the entry. Each answers OK with BUSY 0; everything else is as before. A COMMIT strobe
while fewer than three versions lie between OLDEST and the pending ones and no rule command runs is accepted and
clears the RESULT; applied at the safe point, CURRENT advances by one on both tables, and versions that no frame
carries retire. (R148, R153, R168, R173, R185, R165, R169, R170, R171, 03_parser.md, 04_classification.md) -/
def Obligations.RuleCommandsAndCommitsActAsTheirOp : Prop :=
  (∀ (st : State) (s : SliceId) (d : Side),
    (cmdOpen st (Reg.prsImapCmd s) = true → ∀ (k : PortIx) (vid : BitVec 12),
      exec (.prsImapRead s d k vid) st =
        .next (imapDone s (putF (imapWord 1 d k vid 0) Fld.prsImapCmd_INST ((sl st s).imap.getD (imapKey d k vid.toNat) 0)) 0 st) ∧
      ∀ i : InstId, i ≠ 0 → i.val < st.img.content.ni → (portCfg st d s k).enabled = true →
        exec (.prsImapWrite s d k vid i) st = .next (imapDone s (imapWord 2 d k vid i) 0
          (modSl st s (fun x => { x with imap := x.imap.put (imapKey d k vid.toNat) i.val })))) ∧
    (∀ (e : Fin 14) v, atOnce st (Reg.clsKprof s (sideNum d) e) = true → rulesUsed st s d = 0 →
      exec (.clsKprofWrite s d e v) st = .next (wr st (Reg.clsKprof s (sideNum d) e) (v &&& 0xFF))) ∧
    (cmdOpen st (Reg.clsRuleCmd s (sideNum d)) = true → ∀ ix : BitVec 13,
      let w (op : Nat) : Word := word [(Fld.clsRuleCmd_OP, op), (Fld.clsRuleCmd_INDEX, ix.toNat)]
      (∀ r, (ruleTbl st s d).get? ix.toNat = some r → ∃ t, exec (.ruleRead s d ix) st = .next t ∧
        t = { st with regs := t.regs } ∧ (∀ i, i < 32 → rd t (Reg.clsRdata s (sideNum d) i) = (ruleBits r).getD i 0) ∧
        rd t (Reg.clsRdata s (sideNum d) 34) = r.act ∧ rd t (Reg.clsRdata s (sideNum d) 35) = BitVec.ofNat 32 r.chan.val ∧
        fld t (Reg.clsRuleCmd s (sideNum d)) Fld.clsRuleCmd_RESULT = 0 ∧ fld t (Reg.clsRuleCmd s (sideNum d)) busyF = 0) ∧
      (ruleWriteCode st s d ix.toNat (rdataRule st s d) = 0 →
        exec (.ruleWrite s d ix) st = .next (ruleDone s d (w 2) 0 (modRules st s d (fun m => m.put ix.toNat (rdataRule st s d))))) ∧
      (∀ r, (ruleTbl st s d).get? ix.toNat = some r → instRefusal st (instOfNat (ruleInst r)) = 0 →
        (pendWrite st s r = false → r.retired = false →
          exec (.ruleRetire s d ix) st = .next (ruleDone s d (w 3) 0
            (modRules st s d (fun m => m.put ix.toNat { r with retired := true, delVer := (sl st s).current })))) ∧
        (pendWrite st s r = true →
          exec (.ruleCancel s d ix) st = .next (ruleDone s d (w 4) 0 (modRules st s d (fun m => m.del ix.toNat))))))) ∧
  (∀ (st : State) (s : SliceId),
    (atOnce st (Reg.clsCommit s) = true → ((sl st s).current - (sl st s).oldest).toNat + (sl st s).commitPend < 3 →
      fld st (Reg.clsRuleCmd s 0) Fld.clsRuleCmd_BUSY = 0 → fld st (Reg.clsRuleCmd s 1) Fld.clsRuleCmd_BUSY = 0 →
      exec (.commit s) st = .next (wr (modSl st s (fun x => { x with commitPend := x.commitPend + 1 })) (Reg.clsCommit s) 0)) ∧
    ((sl st s).commitPend ≠ 0 →
      exec (.commitApply s) st = .next (versionRetire (modSl st s (fun x =>
        { x with commitPend := x.commitPend - 1, current := x.current + 1 })) s)))

/-- In a rule table whose entries stand in rising order of index, the winning rule of a key under a version is an intact
entry that applies under that version and matches the key; every other such entry has a smaller PRIO, or the same PRIO
and a higher index; and no rule wins only where no such entry exists. The result is the same for every order in which
rules were written, because the table's order is that of the indices. (R155) -/
def Obligations.WinningRuleHasLargestPriorityThenLowestIndex : Prop :=
  ∀ (m : NMap RuleEnt) (key : BitVec 512) (v : BitVec 16), m.wf = true →
    let takes (r : RuleEnt) : Bool := !r.bad && applies r v && keyMatches r key
    (∀ ix r, pickRule m key v = some (ix, r) →
      m.get? ix = some r ∧ takes r = true ∧
      ∀ jx q, m.get? jx = some q → takes q = true → jx ≠ ix → q.prio < r.prio ∨ (q.prio = r.prio ∧ ix < jx)) ∧
    (pickRule m key v = none ↔ ∀ jx q, m.get? jx = some q → takes q = false)

/-- With FWD_TBL_CMD open, READ loads the data words with the entry's image, or zeros for a free entry; with data that
meets none of the causes 4 to 6 of R217, WRITE replaces the entry of the key, INSERT adds one in the lowest free place
of the key (MAC) or so that the zones stay in order (LPM), DELETE removes it, LOOKUP loads image and INDEX of the
exact match (MAC) or of the longest prefix (LPM). Each answers OK with BUSY and OP 0, and nothing else changes. An
INSERT of a key that is there, or without a place, a DELETE, WRITE or LOOKUP of an absent key, and data that R217
refuses answer the code of that cause. A write to FWD_TBL_MODE keeps the two request bits and ends MAINT of a table
whose bit is 0; MAINT that is requested and not yet in force takes effect and forgets the last search. In MAINT,
SEARCH latches data and mask and gives the first entry from INDEX on whose image matches under the mask, NEXT goes on
from there, FLUSH_PORT and FLUSH_INSTANCE remove the learned entries of the port or instance (with STATIC_TOO the
static ones as well) and leave their number in data word 7. Outside MAINT all four answer the code for that and change
nothing else. (R213, R215, R216, R217, R206, R207, R190, R214, 05_peer_tables.md) -/
def Obligations.TableCommandsActAsTheirOp : Prop :=
  (∀ (st : State) (s : SliceId), cmdOpen st (Reg.fwdTblCmd s) = true →
    let e := macOfData st s
    let f := lpmOfData st s
    let code (rest : Option (PortIx × ChIx)) : Nat := entryCode st s e.key.inst true rest
    let codeL (rest : Option (PortIx × ChIx)) : Nat := entryCode st s f.inst (lpmFormOk f) rest
    (∀ ix : BitVec 18,
      (∀ g, (sl st s).mac.get? ix.toNat = some g → g.parOk = true →
        exec (.tblRead s .mac ix) st = .next (tblDone s (tblWord 1 .mac ix.toNat false) 0 (putData st s (macImage g)))) ∧
      (∀ g, (sl st s).lpm.get? ix.toNat = some g → ix.toNat < 16384 → g.keyOk = true → g.resOk = true →
        exec (.tblRead s .lpm ix) st = .next (tblDone s (tblWord 1 .lpm ix.toNat false) 0 (putData st s (lpmImage g)))) ∧
      ((sl st s).mac.get? ix.toNat = none →
        exec (.tblRead s .mac ix) st = .next (tblDone s (tblWord 1 .mac ix.toNat false) 0 (putData st s (List.replicate 7 0))))) ∧
    (code (some (e.lport, e.chan)) = 0 →
      (∀ ix g, macFind st (sl st s).mac e.key = some (ix, g) → g.parOk = true →
        exec (.tblWrite s .mac) st = .next (tblDone s (tblWord 2 .mac 0 false) 0 (modMac st s (fun m => m.put ix e))) ∧
        exec (.tblInsert s .mac) st = .next (tblDone s (tblWord 3 .mac 0 false) 3 st)) ∧
      (macFind st (sl st s).mac e.key = none →
        exec (.tblWrite s .mac) st = .next (tblDone s (tblWord 2 .mac 0 false) 2 st) ∧
        (∀ ix, macFree st (sl st s).mac e.key = some ix →
          exec (.tblInsert s .mac) st = .next (tblDone s (tblWord 3 .mac 0 false) 0 (modMac st s (fun m => m.put ix e)))) ∧
        (macFree st (sl st s).mac e.key = none →
          exec (.tblInsert s .mac) st = .next (tblDone s (tblWord 3 .mac 0 false) 4 st)))) ∧
    (code (some (e.lport, e.chan)) ≠ 0 →
      exec (.tblInsert s .mac) st = .next (tblRefuse s (tblWord 3 .mac 0 false) (code (some (e.lport, e.chan))) e.key.inst st)) ∧
    (code none = 0 →
      (∀ ix g, macFind st (sl st s).mac e.key = some (ix, g) → g.parOk = true →
        exec (.tblDelete s .mac) st = .next (tblDone s (tblWord 4 .mac 0 false) 0 (modMac st s (fun m => m.del ix)))) ∧
      (macFind st (sl st s).mac e.key = none →
        exec (.tblDelete s .mac) st = .next (tblDone s (tblWord 4 .mac 0 false) 2 st))) ∧
    (instExists st e.key.inst = true →
      (∀ ix g, macFind st (sl st s).mac e.key = some (ix, g) → g.parOk = true →
        exec (.tblLookup s .mac) st = .next (tblFound s (tblWord 5 .mac 0 false) ix (macImage g) st)) ∧
      (macFind st (sl st s).mac e.key = none →
        exec (.tblLookup s .mac) st = .next (tblDone s (tblWord 5 .mac 0 false) 2 st))) ∧
    (codeL (some (f.lport, f.chan)) = 0 →
      (∀ ix g, lpmFind (sl st s).lpm f = some (ix, g) → g.keyOk = true → g.resOk = true →
        exec (.tblWrite s .lpm) st = .next (tblDone s (tblWord 2 .lpm 0 false) 0 (modLpm st s (fun m => m.put ix f)))) ∧
      (∀ m, lpmFind (sl st s).lpm f = none → (sl st s).lpm.length < 16384 → lpmPlace (sl st s).lpm f (drawFree st).1 = some m →
        exec (.tblInsert s .lpm) st = .next (tblDone s (tblWord 3 .lpm 0 false) 0 (modLpm (drawFree st).2 s (fun _ => m))))) ∧
    (codeL none = 0 → ∀ ix g, lpmFind (sl st s).lpm f = some (ix, g) → g.keyOk = true → g.resOk = true →
      exec (.tblDelete s .lpm) st = .next (tblDone s (tblWord 4 .lpm 0 false) 0 (modLpm st s (fun m => m.del ix)))) ∧
    (instExists st f.inst = true → ∀ ix g, lpmBest (sl st s).lpm f.inst f.v4 f.addr = some (ix, g) → g.keyOk = true →
      g.resOk = true → exec (.tblLookup s .lpm) st = .next (tblFound s (tblWord 5 .lpm 0 false) ix (lpmImage g) st))) ∧
  (∀ (st : State) (s : SliceId),
    (atOnce st (Reg.fwdTblMode s) = true → ∀ m l,
      ∃ t, exec (.fwdTblModeWrite s m l) st = .next t ∧ t = { st with regs := t.regs, slices := t.slices } ∧
        regsKept [Reg.fwdTblMode s] st t ∧ (rd t (Reg.fwdTblMode s)).getLsbD 31 = m ∧ (rd t (Reg.fwdTblMode s)).getLsbD 30 = l ∧
        (sl t s).maint[0] = ((sl st s).maint[0] && m) ∧
        (sl t s).maint[1] = ((sl st s).maint[1] && l)) ∧
    (∀ t, bitW (rd st (Reg.fwdTblMode s)) (31 - tblNum t) = true → (sl st s).maint[tblFin t] = false →
      exec (.maintEnter s t) st = .next (modSl st s (fun x =>
        { x with maint := x.maint.set (tblFin t) true, search := x.search.set (tblFin t) none }))) ∧
    (cmdOpen st (Reg.fwdTblCmd s) = true → ∀ t,
      let data := (List.range 7).map (fun i => rd st (Reg.fwdTblData s i))
      let mask := (List.range 7).map (fun i => rd st (Reg.fwdTblMask s i))
      let latch (d m : List Word) (n : Nat) : State := modSl st s (fun x => { x with search := x.search.set (tblFin t) (some (d, m, n)) })
      let inOrder (d m : List Word) (from_ ix : Nat) (image : List Word) : Prop :=
        (∀ p ∈ imagesFrom st s t from_, p.2.2 = true) ∧
        (imagesFrom st s t from_).find? (fun p => imageMatches d m p.2.1) = some (ix, image, true)
      let k := match t with | .mac => (macOfData st s).lport | .lpm => (lpmOfData st s).lport
      let i := match t with | .mac => (macOfData st s).key.inst | .lpm => (lpmOfData st s).inst
      ((sl st s).maint[tblFin t] = false →
        (∀ ix, exec (.search s t ix) st = .next (tblDone s (tblWord 6 t ix.toNat false) 5 st)) ∧
        exec (.next s t) st = .next (tblDone s (tblWord 7 t 0 false) 5 st) ∧
        (∀ x, exec (.flushPort s t x) st = .next (tblDone s (tblWord 8 t 0 x) 5 st)) ∧
        (∀ x, exec (.flushInstance s t x) st = .next (tblDone s (tblWord 9 t 0 x) 5 st))) ∧
      ((sl st s).maint[tblFin t] = true →
        (∀ (from_ : BitVec 18) ix image, from_.toNat < tblSize t → inOrder data mask from_.toNat ix image →
          exec (.search s t from_) st = .next (tblFound s (tblWord 6 t from_.toNat false) ix image (latch data mask (ix + 1)))) ∧
        (∀ d m from_ ix image, (sl st s).search[tblFin t] = some (d, m, from_) → inOrder d m from_ ix image →
          exec (.next s t) st = .next (tblFound s (tblWord 7 t 0 false) ix image (latch d m (ix + 1)))) ∧
        (∀ x, isL2 st .line s k = true → exec (.flushPort s t x) st =
          .next (flushWhere s t x (fun e => e.lport == k) (fun e => e.lport == k) (tblWord 8 t 0 x) st)) ∧
        (∀ x, instExists st i = true → instRefusal st i = 0 → exec (.flushInstance s t x) st =
          .next (flushWhere s t x (fun e => e.key.inst == i) (fun e => e.inst == i) (tblWord 9 t 0 x) st)))))

/-- In single operation, with no place of the key taken and room under LEARN_MAX, a queued learn takes the lowest free
place of its key as a learned entry with the hold bit, the tick and the millisecond stamp of now, and counts; the
millisecond counter advances by one at each millisecond of ELAPSED, the tick at the end of the tick in progress, the
next lasting the AGE_TICK in force; the sweep removes a learned entry older than AGE_LIMIT and counts it, and ends a
hold that has lasted HOLD_MS; a bad key parity found by the scrubber invalidates the LPM entry, counts and is
reported. Nothing else changes. (R197, R199, R200, R201, R203, R204, R209, R210, 05_peer_tables.md) -/
def Obligations.LearnedEntriesAgeAndTheTableIsSwept : Prop :=
  ∀ (st : State) (s : SliceId),
    (∀ q qs ix, (sl st s).learns = q :: qs → st.twin.state = .off → st.twin.learnQ = [] → (sl st s).maint[0] = false →
      macFind st (sl st s).mac q.key = none → macFree st (sl st s).mac q.key = some ix →
      learnedCount (sl st s).mac < fldA st (Reg.fwdLrnLim s) Fld.fwdLrnLim_LEARN_MAX →
      exec (.learn s) st = .next (count (modSl st s (fun x => { x with
        learns := qs
        mac := x.mac.put ix { key := q.key, static_ := false, hold := true, lport := q.lport, chan := q.chan, age := x.tick
                              mstamp := msStamp st s } })) (Reg.fwdCnt s 0))) ∧
    (sliceExists st s = true → (sl st s).msAt < elNs st / 1000000 →
      exec (.msCounterAdvance s) st =
        .next (modSl st s (fun x => { x with ms := x.ms + 1, msAt := x.msAt + 1, tickMs := x.tickMs + 1 }))) ∧
    ((sl st s).tickLen ≤ (sl st s).tickMs →
      exec (.ageTick s) st = .next (modSl st s (fun x =>
        { x with tick := x.tick + 1, tickMs := x.tickMs - x.tickLen, tickLen := ageTickMs st s }))) ∧
    (∀ (ix : BitVec 18) e, (sl st s).mac.get? ix.toNat = some e → e.parOk = true → (sl st s).maint[0] = false →
      fldA st (Reg.fwdLrnCfg s) Fld.fwdLrnCfg_AGE_EN ≠ 0 → st.twin.state = .off → st.twin.learnQ = [] →
      (e.static_ = false → ageLimit st s < ((sl st s).tick - e.age).toNat →
        exec (.sweepVisit s ix) st = .next (count (modMac st s (fun m => m.del ix.toNat)) (Reg.fwdCnt s 7))) ∧
      (((sl st s).tick - e.age).toNat ≤ ageLimit st s → e.hold = true → holdMs st s ≤ (msStamp st s - e.mstamp).toNat →
        exec (.sweepVisit s ix) st = .next (modMac st s (fun m => m.put ix.toNat { e with hold := false })))) ∧
    (∀ (ix : BitVec 14) e, (sl st s).lpm.get? ix.toNat = some e →
      exec (.lpmScrub s ix true) st = .next (raise (count (modLpm st s (fun m => m.del ix.toNat)) (Reg.fwdCnt s 10))
        { block := 22, index := 2, slice := s.val, ps := [1, ix.toNat] }) ∧
      (e.keyOk = true → exec (.lpmScrub s ix false) st = .next st))

/-- With SAE_CMD open, no memory error in the record, and no slot change, missed switch or transition due on the channel:
CH_READ and SA_READ load the data registers with the record; CH_WRITE of a free channel with data that no cause
refuses makes it the channel that SAE_CH_DATA describes, its counters cleared, and enters the SCI of a receive channel
in a free place of its hash; CH_DELETE of a VALID channel whose slots are EMPTY removes it and its SCI; SCI_FIND gives
the channel of an SCI, or its own code when there is none. Each answers with BUSY and OP 0; nothing else changes.
(R226, R227, R228, R231, R265, R271, 06_frame_protection.md) -/
def Obligations.ChannelCommandsReadWriteDeleteAndFind : Prop :=
  ∀ (st : State) (s : SliceId) (ch : ChIx), cmdOpen st (Reg.saeCmd s) = true →
    (∀ an, (slotOf st s ch an).due = none ∧ (slotOf st s ch an).bad = false) → (chOf st s ch).pend = [] →
    (chOf st s ch).bad = false → (chOf st s ch).thrMissed = false →
    let c := chOf st s ch
    let n := chOfImage st ((List.range 8).map (chData st s)) c
    let sci : BitVec 64 := (chData st s 3).setWidth 64 <<< 32 ||| (chData st s 2).setWidth 64
    let clean (t : State) : State := modSl t s (fun x => { x with chCtr := clearCtrs x.chCtr (16 * ch.val) (16 * ch.val + 16) })
    exec (.chRead s ch) st = .next (saeDone s (saeWord 1 ch 0) 0
      ((chImage c).zipIdx.foldl (fun st p => wr st (Reg.saeChData0 s + 4 * p.2) p.1) st)) ∧
    (∀ an, c.valid = true → exec (.saRead s ch an) st = .next (saeDone s (saeWord 4 ch an) 0
      ((slotImage (slotOf st s ch an)).zipIdx.foldl (fun st p => wr st (Reg.saeSaData0 s + 4 * p.2) p.1) st))) ∧
    (∀ an, c.valid = false → exec (.saRead s ch an) st = .next (saeDone s (saeWord 4 ch an) 3 st)) ∧
    (c.valid = false → c.eccFail = false → chBadParam n (getF (chData st s 5) ⟨31, 30⟩) = false → instExists st n.inst = true →
      instRefusal st n.inst = 0 → instRefusal st c.inst = 0 → channelsOf st s n.inst < (inst st n.inst).shares[s].channels →
      (n.dirRx = false → (st.img.content.twin = false ∨ n.bind ≠ 15) →
        exec (.chWrite s ch) st = .next (saeDone s (saeWord 2 ch 0) 0 (modCh (clean (sciRemove st s ch)) s ch (fun _ => n)))) ∧
      (∀ ix, n.dirRx = true → sciFind st s n.sci = none → (sciFree st s n.sci).isSome = true →
        sciFree (sciRemove st s ch) s n.sci = some ix →
        exec (.chWrite s ch) st = .next (saeDone s (saeWord 2 ch 0) 0
          (modCh (clean (modHash (sciRemove st s ch) s (fun m => m.put ix { sci := n.sci, ch := ch }))) s ch (fun _ => n))))) ∧
    (c.valid = true → slotsEmpty c = true → instRefusal st c.inst = 0 →
      exec (.chDelete s ch) st = .next (saeDone s (saeWord 3 ch 0) 0
        (modSl (sciRemove st s ch) s (fun x => { x with chans := x.chans.del ch.val })))) ∧
    (∀ ix e, sciFind st s sci = some (ix, e) → e.bad = false →
      exec (.sciFind s) st = .next (saeDone s (putF (saeWord 9 0 0) Fld.saeCmd_CHANNEL e.ch.val) 0 st)) ∧
    (sciFind st s sci = none → exec (.sciFind s) st = .next (saeDone s (saeWord 9 0 0) 11 st))

/-- On a VALID channel without a memory error or missed switch, of an instance that is not held, with nothing due:
SA_ACTIVATE of a LOADED slot, SA_RETIRE of an ACTIVE or RETIRING one and SA_CLEAR of a LOADED, DROPPING or EXPORTED
one are accepted and queue one change; SA_LOAD with the key in SAE_KEY clears SAE_KEY, stays BUSY and queues the
record that reserves the block the start rule gives. At a frame boundary, or the sweep's visit, the queued change
takes effect, a GUARD whose time is over leaves the slot EMPTY and a RETIRING whose overlap is over goes to GUARD.
(R237, R238, R266, R267, R324, R325, R353, 06_frame_protection.md, 08_association_lifecycle.md) -/
def Obligations.SlotCommandsLoadAndChangeAtABoundary : Prop :=
  ∀ (st : State) (s : SliceId) (ch : ChIx) (an : An), (sl st s).chans.has ch.val = true →
    let c := chOf st s ch
    let x := slotOf st s ch an
    c.bad = false → c.thrMissed = false →
    (cmdOpen st (Reg.saeCmd s) = true → (∀ a, (slotOf st s ch a).due = none) → x.bad = false → c.pend = [] → c.valid = true →
      instRefusal st c.inst = 0 →
      (x.state = .loaded → c.eccFail = false → c.epochMode = false → exec (.saActivate s ch an) st =
        .next (saeDone s (saeWord 6 ch an) 0 (modCh st s ch (fun c => { c with pend := c.pend ++ [.activate an] })))) ∧
      (x.state = .active ∨ x.state = .retiring → exec (.saRetire s ch an) st =
        .next (saeDone s (saeWord 7 ch an) 0 (modCh st s ch (fun c => { c with pend := c.pend ++ [.retire an] })))) ∧
      (x.state = .loaded ∨ x.state = .dropping ∨ x.state = .exported → exec (.saClear s ch an) st =
        .next (saeDone s (saeWord 8 ch an) 0 (modCh st s ch (fun c => { c with pend := c.pend ++ [.clear an] })))) ∧
      (let req := saData st s 4 + saData st s 5 * 2 ^ 32
       let st1 := clearSaeKey st s
       let raw := ((List.range 8).map (fun i => leBytes 4 (rd st (Reg.saeKey s i)).toNat)).flatten
       let key := keyIn st1 (suiteKey c.suite raw)
       let salt : BitVec 96 := BitVec.ofNat 96 (saData st1 s 0 + saData st1 s 1 * 2 ^ 32 + saData st1 s 2 * 2 ^ 64)
       let ssci := BitVec.ofNat 32 (saData st1 s 3)
       let fp := fingerprint st1 (kindOf c.dirRx).val c.suite.val (suiteKey c.suite key)
         (assocBase c.suite c.sci (if isXpn c.suite then salt else 0) (if isXpn c.suite then ssci else 0))
       ∀ start res, c.eccFail = false → x.state = .empty → c.epochMode = false → (saData st s 10).testBit 31 = false →
         0 < req → req ≤ lastPn c.suite → assocsOf st s c.inst < (inst st c.inst).shares[s].assocs →
         startRule st1 (kindOf c.dirRx).val (lastPn c.suite) fp req = .ok (start, res, none) →
         exec (.saLoad s ch an) st = .next (cmdBusy (jnlRequest st1
           { cls := 1, kind := kindOf c.dirRx, tomb := false, fp := fp, value := res
             use := .load 0 s ch an (loadedSlot c.suite key (if isXpn c.suite then salt else 0)
               (if isXpn c.suite then ssci else 0) start res false false (saData st s 10 % 2 ^ 17)) })
           (Reg.saeCmd s) Fld.saeCmd_OP (saeWord 5 ch an)))) ∧
    ((∀ a, (slotOf st s ch a).due = none) → ∀ q, c.pend = [q] →
      exec (.slotChangeApply s ch) st = .next (applyChange s ch false (modCh st s ch (fun c => { c with pend := [] })) q)) ∧
    ((∀ a, a ≠ an → (slotOf st s ch a).due = none) → c.pend = [] → (inst st c.inst).state ≠ .frozen →
      ∀ d, x.due = some d → d ≤ elNs st →
        (x.state = .guard → exec (.lifecycleSweep s ch) st = .next (slotEmpty st s ch an)) ∧
        (x.state = .retiring → exec (.lifecycleSweep s ch) st = .next (enterGuard st s ch an)))

/-- ARM of a timer that is not armed, with TIME in range, takes TIME and RX_LEAD and answers OK; both strobes, an armed
timer and a time out of range answer codes 4, 1 and 3 and change nothing else; DISARM ends an armed timer and answers
code 2 for another. At TIME less RX_LEAD the receive channels of the timer switch; at TIME the transmit channels
switch, the timer is disarmed and the event raised. In epoch mode the EMPTY slot of EPOCH is loaded with the direct
leaves of PARENT, which count, or the pre-install fails with the reason. (R327, R328, R333, R334, R342,
08_association_lifecycle.md) -/
def Obligations.SwitchTimersArmFireAndEpochsPreinstall : Prop :=
  ∀ (st : State) (s : SliceId) (t : Fin 8),
    (atOnce st (Reg.saeSwtCtl s t) = true → ∀ lead : BitVec 16,
      let done (st : State) (code : Nat) : Host.Outcome State Fault Refusal :=
        .next (wr st (Reg.saeSwtCtl s t) (word [(Fld.saeSwtCtl_RESULT, code), (Fld.saeSwtCtl_RX_LEAD, lead.toNat)]))
      let time := rd st (Reg.saeSwtTime s t)
      exec (.timerArm s t true lead) st = done st 4 ∧
      exec (.timerDisarm s t true lead) st = done st 4 ∧
      ((sl st s).timers[t].armed = true → exec (.timerArm s t false lead) st = done st 1 ∧
        exec (.timerDisarm s t false lead) st = done (modTimer st s t (fun x => { x with armed := false })) 0) ∧
      ((sl st s).timers[t].armed = false → exec (.timerDisarm s t false lead) st = done st 2 ∧
        exec (.timerArm s t false lead) st =
          (if armInRange st time lead.toNat
           then done (modTimer st s t (fun _ => { time := time, lead := lead, armed := true, rxFired := false })) 0
           else done st 3))) ∧
    (exec (.rxFire s t) st = .next (if rxDue st (sl st s).timers[t]
      then fireAll (modTimer st s t (fun x => { x with rxFired := true })) s t true else st)) ∧
    ((sl st s).timers[t].armed = true → (sl st s).timers[t].rxFired = true → nsLe (sl st s).timers[t].time (nowNs st) = true →
      exec (.timerFired s t) st = .next (raise (fireAll (modTimer st s t (fun x => { x with armed := false })) s t false)
        { block := 23, index := 6, slice := s.val, ps := [t.val] })) ∧
    (∀ ch : ChIx,
      let c := chOf st s ch
      let an := epochAn c
      let n := c.parent.toNat
      c.valid = true → c.bad = false → c.eccFail = false → c.epochMode = true → c.preErr = false → (slotOf st s ch an).state = .empty →
      (inst st c.inst).state ≠ .frozen → preInstalling st s ch = false → st.glb.halted = false → st.glb.holdup = false →
      (∀ r, node? st n = some r → r.bad = false) →
      (leafReason c (node? st n) ≠ 0 →
        exec (.preInstall s ch) st = .next (preFail s ch an (leafReason c (node? st n)) st)) ∧
      (∀ r, node? st n = some r → leafReason c (some r) = 0 → assocsOf st s c.inst < (inst st c.inst).shares[s].assocs →
        exec (.preInstall s ch) st = .next (startInstall (countN st (Reg.ktrCnt 0) (if isXpn c.suite then 2 else 1)) 1 2 s ch an
          (kdf r.key (epochMordant c.epoch 0) (r.depth.val + 1))
          (BitVec.ofNat 96 (beVal ((kdf r.key (epochMordant c.epoch 1) (r.depth.val + 1)).take 12)))
          (c.sci.setWidth 16 |>.setWidth 32) 1 true true n id (preFail s ch an 4))))

/-- ROOT_WRITE that meets no cause of R311 stores a root of the key in KTR_KEY, and KTR_KEY is cleared in every case;
DERIVE that meets none stores the child of PARENT whose key is the derivation of the parent's key with KTR_MORD one
level down, and counts; READ loads the mordant and the last words of the record, never the key; INVALIDATE that meets
no cause frees the node and its whole subtree, and with FORCE revokes their users. A refusal answers its code, counts,
and stores nothing. (R278, R279, R280, R283, R284, R287, R296, R310, R311, 07_madder_keys.md) -/
def Obligations.KeyTreeCommandsWriteDeriveReadAndInvalidate : Prop :=
  ∀ (st : State) (n : BitVec 17),
    (st.glb.halted = false → fld st Reg.ktrCmd busyF = 0 →
      let key := keyIn st (regBytes st (Reg.ktrKey 0))
      (rootCode st n.toNat = 0 → exec (.rootWrite n) st = .next (clearKtrKey (ktrDone (ktrWord 1 n false) 0
        (putNode st n.toNat { key := key, mordant := List.replicate 32 0, root := true, cinnabar := st.debug, type := 0, depth := 0
                              leafType := cfgLeaf st, parent := n.toNat, owner := cfgOwner st, kcv := kcvOf key })))) ∧
      (rootCode st n.toNat ≠ 0 →
        exec (.rootWrite n) st = .next (clearKtrKey (ktrDone (ktrWord 1 n false) (rootCode st n.toNat) st)))) ∧
    (cmdOpen st Reg.ktrCmd = true → st.twin.state ≠ .standby → st.twin.state ≠ .syncing →
      (∀ p, node? st (cfgParent st) = some p → p.bad = false → deriveCode st n.toNat = 0 →
        let m := regBytes st (Reg.ktrMord 0)
        let key := kdf p.key m (p.depth.val + 1)
        exec (.derive n) st = .next (ktrDone (ktrWord 2 n false) 0 (count (putNode st n.toNat
          { key := key, mordant := m, root := false, cinnabar := st.debug, type := cfgType st, depth := p.depth + 1
            leafType := cfgLeaf st, parent := cfgParent st, owner := cfgOwner st, kcv := kcvOf key }) (Reg.ktrCnt 0)))) ∧
      (n.toNat < nodeCount st → (∀ r, node? st n.toNat = some r → r.bad = false) →
        exec (.nodeRead n) st = .next (ktrDone (ktrWord 3 n false) 0
          ((nodeImage st n.toNat).zipIdx.foldl (fun st (p : Word × Nat) => wr st (Reg.ktrRb p.2) p.1)
            ((List.range 8).foldl (fun st' i => wr st' (Reg.ktrMord i)
              (BitVec.ofNat 32 (leVal (sub (((node? st n.toNat).map (fun r => r.mordant)).getD []) (4 * i) 4)))) st)))) ∧
      (∀ force, (∀ r, node? st n.toNat = some r → r.bad = false) → invalidateCode st n.toNat force = 0 →
        exec (.invalidate n force) st = .next (ktrDone (ktrWord 4 n force) 0
          (let st1 := { st with ktr := { st.ktr with nodes := st.ktr.nodes.filter (fun p => !(subtree st n.toNat).contains p.1) } }
           orphanUsers (if force then revokeUsers st1 (subtree st n.toNat) else st1) (subtree st n.toNat)))))

/-- When a transmit channel takes a PN, it is the NEXT_PN of its encoding slot as read, the slot is not exhausted, and the
PN is at most RES. The slot then stands at the next PN under the same key, or, after the last PN of its suite, is
exhausted, so that the channel's next take gives none. Whatever the next take of the channel gives before a change of
slot is the next PN of the same slot. (R245, 06_frame_protection.md, 08_association_lifecycle.md) -/
def Obligations.PacketNumbersAreTakenOnceAndInsideTheReservation : Prop :=
  ∀ (st t : State) (s : SliceId) (ch : ChIx) (an : An) (x : Slot), takePn st s ch = (some (an, x), t) →
    (chOf st s ch).encAn = some an ∧ x = slotOf st s ch an ∧ x.exhausted = false ∧ x.pn ≤ x.res ∧
    (slotOf t s ch an).key = x.key ∧
    (x.pn ≠ lastPn (chOf st s ch).suite → (slotOf t s ch an).pn = x.pn + 1) ∧
    (x.pn = lastPn (chOf st s ch).suite → (slotOf t s ch an).exhausted = true ∧ (takePn t s ch).1 = none) ∧
    ∀ an' x', (takePn t s ch).1 = some (an', x') → an' = an ∧ x'.pn = x.pn + 1

/-- With PNJ_CMD open, READ returns the 32 bytes of a ring position, from the index for a held record, and whether it is
held and live; FIND gives the position of the held record of PNJ_FP, or code 3; DESTROY of a dormant record stays BUSY
and asks for its tombstone, and any other is refused with the code of its cause; TOMB_DORMANT with dormant records
stays BUSY and asks for the tombstone of each; ACK_DAMAGE takes back the refusals that DAMAGED causes, or answers code
7. FIND, DESTROY, TOMB_DORMANT and ACK_DAMAGE answer code 8 before the journal is READY. (R360, R368, R369, R378,
09_ochre_journal.md) -/
def Obligations.JournalCommandsReadFindAndDestroy : Prop :=
  ∀ st : State, cmdOpen st Reg.pnjCmd = true →
    (∀ ix : BitVec 18,
      let b := match st.jnl.index.get? ix.toNat with | some r => recBytes r | none => ringRead st ix.toNat
      exec (.pnjRead ix) st = .next (pnjDone (pnjWord 1 ix.toNat) 0
        (wr ((List.range 8).foldl (fun st i => wr st (Reg.pnjRdata i) (BitVec.ofNat 32 (leVal (sub b (4 * i) 4)))) st) Reg.pnjRstat
          (word [(Fld.pnjRstat_HELD, b2n (st.jnl.index.get? ix.toNat).isSome),
            (Fld.pnjRstat_LIVE, b2n ((st.jnl.index.get? ix.toNat).isSome && jnlLive st ix.toNat))])))) ∧
    (pnjNotReady st = true →
      exec .find st = .next (pnjDone (pnjWord 2 0) 8 st) ∧ exec .destroy st = .next (pnjDone (pnjWord 3 0) 8 st) ∧
      exec .tombDormant st = .next (pnjDone (pnjWord 4 0) 8 st) ∧ exec .ackDamage st = .next (pnjDone (pnjWord 5 0) 8 st)) ∧
    (pnjNotReady st = false →
      let busy (op : Nat) : State := cmdBusy st Reg.pnjCmd Fld.pnjCmd_OP (pnjWord op 0)
      let tomb (r : JRec) (fp : Bytes) (u : JUse) : JReq :=
        { cls := 1, kind := r.kind, tomb := true, fp := fp, value := r.value, use := u }
      (∀ p r, heldRecord st (pnjFp st) = some (p, r) →
        exec .find st = .next (pnjDone (putF (pnjWord 2 0) Fld.pnjCmd_INDEX p) 0 st) ∧
        (tombCode st (pnjFp st) = 0 → exec .destroy st = .next (jnlRequest (busy 3) (tomb r (pnjFp st) .destroy))) ∧
        (tombCode st (pnjFp st) ≠ 0 → exec .destroy st = .next (pnjDone (pnjWord 3 0) (tombCode st (pnjFp st)) st))) ∧
      (heldRecord st (pnjFp st) = none →
        exec .find st = .next (pnjDone (pnjWord 2 0) 3 st) ∧ exec .destroy st = .next (pnjDone (pnjWord 3 0) 3 st)) ∧
      (∀ q qs, st.jnl.index.filter (fun p => tombCode st p.2.fp == 0) = q :: qs →
        exec .tombDormant st = .next (modJnl (busy 4) (fun j => { j with
          tombFail := false, reqs := j.reqs ++ (q :: qs).map (fun p => tomb p.2 p.2.fp .tombDormant) }))) ∧
      (st.jnl.damaged = true → st.jnl.acked = false →
        exec .ackDamage st = .next (pnjDone (pnjWord 5 0) 0 (modJnl st (fun j => { j with acked := true })))) ∧
      (st.jnl.damaged = false ∨ st.jnl.acked = true → exec .ackDamage st = .next (pnjDone (pnjWord 5 0) 7 st)))

/-- In service, a record whose read-back matches is written at the next position, replaces the held record of its
fingerprint in the index, and what it was asked for takes effect; one that fails, where it is to be tried again, moves
the head on, counts and reports, and the same request stays in writing with one more try. 1 ms after the first failure
with no record committed the device halts with cause 4. A scan of an empty ring makes the journal ready with nothing
held, and before that, when halted, or while a tamper record that one journal write has passed waits for the MRAM,
nothing is written. (R365, R366, R370, R371, R372, R579, 09_ochre_journal.md) -/
def Obligations.JournalWritesCommitOrAreTriedAgain : Prop :=
  ∀ st : State,
    (∀ r seq, jnlWrites st = true → (tamperWaits st && st.jnl.passed) = false → st.jnl.writing = some (r, seq) →
      let p := nextPos st st.jnl.head
      let x : JRec := { seq := seq, tomb := r.tomb, kind := r.kind, fp := r.fp, value := valueOf st r }
      exec (.journalCommit true) st = .next (committed (count (modJnl (ringWrite st p (recBytes x)) (fun j => { j with
        index := (match heldRecord st r.fp with | some (q, _) => j.index.del q | none => j.index).put p x
        head := (p + 1) % ringSize, writing := none, failingSince := none, passed := tamperWaits st })) (Reg.pnjCnt 0)) r.use p) ∧
      (forever r.use = true → ∃ t, exec (.journalCommit false) st = .next t ∧
        t.jnl.writing = some ({ r with tries := r.tries + 1 }, seq) ∧ t.jnl.head = (p + 1) % ringSize ∧
        t.jnl.index = st.jnl.index ∧ t.jnl.failingSince = st.jnl.failingSince.or (some (elNs st)) ∧
        t.slices = st.slices ∧ t.evl = st.evl ∧
        ∀ a, (a < ringBase + 32 * p ∨ ringBase + 32 * p + 32 ≤ a) → memByte t.mram a = memByte st.mram a)) ∧
    (jnlWrites st = false ∨ (tamperWaits st = true ∧ st.jnl.passed = true) → ∀ ok, exec (.journalCommit ok) st = .next st) ∧
    (∀ a, st.jnl.failingSince = some a → a + 1000000 ≤ elNs st → st.glb.halted = false →
      exec .journalHaltTimeout st = .next (carmineHalt st 4 0 0 0 35 [])) ∧
    (st.jnl.ready = false → ringUsed st.mram = [] → ∀ bad,
      exec (.journalScanDone bad) st = .next (enablePorts (modJnl st (fun j => { j with
        ready := true, index := [], head := 0, nextSeq := 1 }))))

/-- Whenever the start rule accepts an installation of a fingerprint with a requested start of at least 1 and at most the
last position, the start is at least the requested one, lies above the VALUE of the held record of that fingerprint if
there is one, and the reservation is not below the start, not above the last position, and spans at most one block of
the kind. It accepts nothing while the journal is not ready, is closed, or has unacknowledged damage, and nothing for
a fingerprint that a live key uses. (R348, R353, R359, 09_ochre_journal.md) -/
def Obligations.StartRuleNeverReusesAPosition : Prop :=
  ∀ (st : State) (kind last : Nat) (fp : Bytes) (req start res : Nat) (ev : Option (Nat × JRec)),
    req ≤ last → startRule st kind last fp req = .ok (start, res, ev) →
      req ≤ start ∧ start ≤ res ∧ res ≤ last ∧ res < start + blockOf st kind ∧
      (∀ p r, heldRecord st fp = some (p, r) → r.value < start ∧ jnlLive st p = false ∧ ev = none) ∧
      jnlInstalling st fp = false ∧ pnjNotReady st = false ∧ (st.jnl.damaged = true → st.jnl.acked = true)

/-- From the valid records of the ring in rising order of position, the index that the scan builds stands in rising order,
holds only records that it found at their positions, at most one of each fingerprint, and for every record found it
holds one of the same fingerprint whose SEQ is not lower, and whose VALUE is not lower where the SEQ is equal. (R366,
R371, 09_ochre_journal.md) -/
def Obligations.ScanKeepsTheNewestRecordOfEachFingerprint : Prop :=
  ∀ good : List (Nat × JRec), good.Pairwise (fun p q => p.1 < q.1) →
    let m := good.foldl indexAdd []
    m.wf = true ∧ (∀ p ∈ m, p ∈ good) ∧ (∀ p ∈ m, ∀ q ∈ m, p.2.fp = q.2.fp → p = q) ∧
    (∀ p ∈ good, ∃ q ∈ m, q.2.fp = p.2.fp ∧
      (p.2.seq < q.2.seq ∨ (p.2.seq = q.2.seq ∧ p.2.value ≤ q.2.value)))

/-- On a powered slice with no halt, a frame boundary takes the client blocks that have arrived, moves the boundary toward
its correction by at most 256 ps, sends a frame of each CTF lane, drops the blocks that no tributary carries, delivers
every tributary from its slip buffer and marks defects; otherwise it does nothing. On a lane in frame lock a frame
with a good FAW, whose alignment marker if due is there, becomes the received frame: its BIP, FC and far defect bit
are kept, its pages swap or its phase error counts, its trace byte, slot owner and label are taken, and then every
tributary of the lane is opened, however many it has; where it has none, FC, far defect, BIP and good count read as
said. A fifth frame in a row without the FAW takes the lane back to step 5; a lane that seeks frame lock takes the
frame for that alone; any other lane takes none. A performance second ends 1.0001 s after it began, in every slice,
and not before; classing finished seconds changes counters and the performance state of lanes and tributaries alone,
each by its class. (R380, R386, R388, R400, R410, R418, R420, 10_ctf_tributaries.md) -/
def Obligations.CtfFramesAreSentAndTakenAtTheirBoundaries : Prop :=
  ∀ (st : State) (s : SliceId),
    (∀ blocks, sliceOn st s = true → st.glb.halted = false →
      let sent := dropBlocks (ports8.foldl (sendCtf s) (modCtf (addBlocks st s blocks) s fsyncMove)) s
      exec (.ctfFrameBoundary s blocks) st = .next (markDefects ((sl sent s).ctf.trib.foldl (slipRead s) sent) s)) ∧
    (∀ blocks, sliceOn st s = false ∨ st.glb.halted = true → exec (.ctfFrameBoundary s blocks) st = .next st) ∧
    (∀ k m f, isCtf st s k = true → (laneOf st (.lane .line s k)).stage = .ready → (ctfLane st s k).lock = true →
      st.glb.halted = false → f.take 6 = faw → m ≠ some false →
      let til := isTilora st s k
      let b := ctfScramble (padTo (ctfLen til) f)
      let fc := beVal (sub b 6 7)
      let st1 := modCtfLane (markerRx (revokeLane st s k) s k m) s k (fun x => { x with badFaw := 0 })
      let st2 := modCtfLane (bipRx st1 s k b) s k (fun x =>
        { x with rxFc := BitVec.ofNat 56 fc, rdiRx := (byteAt b 13).getLsbD 6 })
      let st3 := if (byteAt b 13).getLsbD 7 = (ctfLane st s k).rxPhase then st2
        else if fc % 256 = 0 then rxSwap st2 s k else count st2 (Reg.ctfCnt s k 5)
      let st4 := ownerRx (traceByte st3 s k (byteAt b 14)) s k (fc % 256) (byteAt b 15)
      let st5 := if til = true ∨ 240 ≤ fc % 256 then st4
        else labelRx st4 s (tribNo k (fc % 256)) fc (byteAt b 20) (byteAt b 21)
      exec (.ctfFrameRx s k ⟨m, f⟩) st = .next (markDefects (reserveLane (openLane st5 s k fc b) s k) s)) ∧
    (∀ k f, isCtf st s k = true → (laneOf st (.lane .line s k)).stage = .ready → (ctfLane st s k).lock = true →
      st.glb.halted = false → isTilora st s k = false → f.take 6 = faw → (sl st s).ctf.trib = [] →
      let b := ctfScramble (padTo 250000 f)
      let fc := beVal (sub b 6 7)
      (byteAt b 13).getLsbD 7 = (ctfLane st s k).rxPhase →
      ∃ t, exec (.ctfFrameRx s k ⟨none, f⟩) st = .next t ∧ (ctfLane t s k).rxFc = BitVec.ofNat 56 fc ∧
        (ctfLane t s k).rdiRx = (byteAt b 13).getLsbD 6 ∧ (ctfLane t s k).bipRx = bip32 b ∧ (ctfLane t s k).badFaw = 0 ∧
        (ctfLane t s k).good = (ctfLane st s k).good + 1 ∧ t = { st with regs := t.regs, slices := t.slices } ∧
        (∀ r : SliceId, r ≠ s → t.slices[r] = st.slices[r])) ∧
    (∀ k f, isCtf st s k = true → (laneOf st (.lane .line s k)).stage = .ready → (ctfLane st s k).lock = true →
      st.glb.halted = false → f.take 6 ≠ faw → (ctfLane st s k).badFaw = 4 →
      exec (.ctfFrameRx s k ⟨none, f⟩) st = .next (markDefects
        (laneBack (modCtfLane (revokeLane st s k) s k (fun x => { x with badFaw := 5 })) (.lane .line s k) .pcsLock) s)) ∧
    (∀ k m f, isCtf st s k = true → (laneOf st (.lane .line s k)).stage = .pcsLock → st.glb.halted = false →
      exec (.ctfFrameRx s k ⟨m, f⟩) st = .next (seekRx st s k f)) ∧
    (∀ k m f, isCtf st s k = false ∨ st.glb.halted = true → exec (.ctfFrameRx s k ⟨m, f⟩) st = .next st) ∧
    ((∀ r : SliceId, (sl st r).ctf.secStart + 1000100000 ≤ elNs st) → exec .perfSecond st = .next (perfSecond st)) ∧
    (∀ r : SliceId, elNs st < (sl st r).ctf.secStart + 1000100000 → exec .perfSecond st = .next st) ∧
    (∃ t, exec .perfSecondClassify st = .next t ∧ t = { st with regs := t.regs, slices := t.slices } ∧
      (∀ (r : SliceId) (k : PortIx), (ctfLane t r k).perf = (perfClass (elNs st) (ctfLane st r k).perf).1) ∧
      ∀ (r : SliceId) (n : Nat) (x : TribSt), trib? st r n = some x →
        ∃ y, trib? t r n = some y ∧ y.perf.hist = (perfClass (elNs st) x.perf).1.hist ∧
          y.perf.es = x.perf.es + BitVec.ofNat 32 (perfClass (elNs st) x.perf).2.1)

/-- In single operation with FSYNC_EN, an edge within 1,000 ns of a frame start, or within 5,000 ns after ALIGN, replaces
the pending correction; one further off is counted as ignored; ALIGN arms the wider range. A write of an
expected-trace register restarts acceptance. A read of CTF_FC gives the low word of the counter and latches the rest.
ARM of an injector of a CTF lane that is not armed takes its settings and starts at 0, DISARM ends it; both write a
log record, and with both strobes, or a full log, the code of that cause alone changes. (R409, R410, R415, R421, R422,
R423, 10_ctf_tributaries.md) -/
def Obligations.FrameSyncTraceAndInjectorsOfCtfLanes : Prop :=
  ∀ (st : State) (s : SliceId),
    (sliceOn st s = true → st.glb.halted = false → st.twin.state = .off →
      flagA st (Reg.ctfFsyncCfg s) Fld.ctfFsyncCfg_FSYNC_EN = true → ∀ off : Int,
        ((-1000 ≤ off ∧ off ≤ 1000) ∨ ((sl st s).ctf.alignArmed = true ∧ -5000 < off ∧ off ≤ 5000) →
          exec (.fsyncEdge s off) st = .next (modCtf st s (fun c =>
            { c with corr := 1000 * off, alignArmed := false, lastOff := BitVec.ofInt 14 off }))) ∧
        ((sl st s).ctf.alignArmed = false → ((-5000 < off ∧ off < -1000) ∨ (1000 < off ∧ off ≤ 5000)) →
          (sl st s).ctf.ignored ≠ BitVec.allOnes 16 →
          exec (.fsyncEdge s off) st = .next (modCtf st s (fun c => { c with ignored := c.ignored + 1 })))) ∧
    (atOnce st (Reg.ctfFsyncStat s) = true →
      exec (.align s) st = .next (modCtf st s (fun c => { c with alignArmed := true }))) ∧
    (∀ (k : PortIx) (w : Fin 4) v, atOnce st (Reg.ctfTraceExp s k w) = true →
      exec (.traceExpWrite s k w v) st = .next (modCtfLane (wr st (Reg.ctfTraceExp s k w) v) s k (fun x =>
        { x with traceAcc := none, traceCand := [], traceCount := 0 }))) ∧
    (∀ k, sliceOn st s = true →
      exec (.ctfFcRead s k true) st = .next { modCtfLane st s k (fun x =>
        { x with rxLatch := ((ctfLane st s k).rxFc >>> 32).setWidth 32 }) with lastRead := (ctfLane st s k).rxFc.setWidth 32 } ∧
      exec (.ctfFcRead s k false) st = .next { modCtfLane st s k (fun x =>
        { x with fcLatch := (txFcNow (ctfLane st s k) >>> 32).setWidth 32 }) with
          lastRead := (txFcNow (ctfLane st s k)).setWidth 32 }) ∧
    (∀ k : PortIx, atOnce st (Reg.ctfFiCmd s k) = true → isCtf st s k = true →
      let cfg := rdA st (Reg.ctfFiCfg s k)
      let sel := rdA st (Reg.ctfFiSel s k)
      let res (st : State) (code : Nat) : State := setF st (Reg.ctfFiStat s k) Fld.ctfFiStat_RESULT code
      (logFull st = false → (ctfLane st s k).fi.armed = false →
        (getF cfg Fld.ctfFiCfg_ACTION = 1 ∨ (getF cfg Fld.ctfFiCfg_ACTION = 0 ∧ getF sel Fld.ctfFiSel_OFFSET < 4)) →
        exec (.ctfFiArm s k false) st = .next (fiRecord (res (modCtfLane st s k (fun x =>
          { x with fi := { armed := true, cfg := cfg, sel := sel } })) 0) 33 2 s k cfg sel)) ∧
      (logFull st = false → (ctfLane st s k).fi.armed = true →
        exec (.ctfFiDisarm s k false) st = .next (fiRecord (res (modCtfLane st s k (fun x =>
          { x with fi := { x.fi with armed := false } })) 0) 34 2 s k (ctfLane st s k).fi.cfg (ctfLane st s k).fi.sel)) ∧
      (logFull st = false → exec (.ctfFiArm s k true) st = .next (res st 4)) ∧
      (logFull st = true → (ctfLane st s k).fi.armed = true → exec (.ctfFiDisarm s k false) st = .next (res st 3)))

/-- With TSI_TRIB_CMD open and an existing lane and tributary number, READ and PM_READ load their data registers; WRITE of
a free tributary, or of one that is not moved or holds no key, makes it what TSI_TRIB_DATA describes; INSTALL on an
EMPTY position with a tributary leaf stays BUSY and asks the journal for both records; SWITCH with a LOADED position
is scheduled two frames ahead; CLEAR releases a LOADED or REVOKED position; DELETE removes a tributary that holds no
key and that no page names. Each with no instance held back; nothing else changes. With TSI_PAGE_CMD open, READ gives
the tributary of a slot of the active or standby page, 0xFF for a free one; WRITE changes the standby page of a slot
that exists; COPY copies active to standby on every lane; a SWAP whose standby pages are in order is scheduled two
frames ahead on each CTF lane. WRITE and COPY of the transmit direction and SWAP answer code 3 while a swap is
pending, and a slot that does not exist answers 2; these change nothing else. (R396, R399, R402, R424, R403, R404,
R425, 10_ctf_tributaries.md) -/
def Obligations.TributaryAndConnectionCommandsDoTheirOp : Prop :=
  (∀ (st : State) (s : SliceId) (k : PortIx) (i : Byte), cmdOpen st (Reg.tsiTribCmd s) = true → isCtf st s k = true → i.toNat < 240 →
    let t := tribNo k i.toNat
    exec (.tribRead s k i) st = .next (tribDone s (tribWord 1 k i 0) 0
      ((tribImage st s t).zipIdx.foldl (fun st p => wr st (Reg.tsiTribData0 s + 4 * p.2) p.1) st)) ∧
    (let w0 := tribData st s 0
     let cp : PortIx := Fin.ofNat 8 (getF w0 Fld.tsiTribData_CPORT)
     let ins : InstId := Fin.ofNat 256 (getF w0 Fld.tsiTribData_INSTANCE)
     (portCfg st .client s cp).enabled = true → (portCfg st .client s cp).l1 = true → instExists st ins = true →
     instRefusal st ins = 0 → (∀ x, trib? st s t = some x → instRefusal st x.inst = 0 ∧ posEmpty x = true) →
       exec (.tribWrite s k i) st = .next (tribDone s (tribWord 2 k i 0) 0 (modCtf st s (fun c => { c with
         trib := c.trib.put t { (trib? st s t).getD {} with
           cport := cp, inst := ins, tribId := BitVec.ofNat 16 (getF (tribData st s 1) Fld.tsiTribData_TRIB_ID)
           salt := BitVec.ofNat 96 ((tribData st s 2).toNat + (tribData st s 3).toNat * 2 ^ 32 + (tribData st s 4).toNat * 2 ^ 64)
           txLabel := BitVec.ofNat 8 (getF w0 Fld.tsiTribData_TX_LABEL), expLabel := BitVec.ofNat 8 (getF w0 Fld.tsiTribData_EXP_LABEL)
           node := getF (tribData st s 5) Fld.tsiTribData_NODE } })))) ∧
    (∀ an x p r u, trib? st s t = some x → instRefusal st x.inst = 0 →
      positions.find? (fun p => x.pos[p].state == .empty) = some p →
      (∀ q : Fin 2, x.pos[q].state ≠ .empty → x.pos[q].an ≠ an) → (isTilora st s k = false ∨ i = 0) →
      node? st (getF (tribData st s 5) Fld.tsiTribData_NODE) = some r → r.bad = false → r.type = 3 → r.owner = x.inst →
      installRules st s t p an x (getF (tribData st s 5) Fld.tsiTribData_NODE) r = .ok u →
      exec (.install s k i an) st =
        .next (cmdBusy u (Reg.tsiTribCmd s) Fld.tsiTribCmd_OP (tribWord 3 k i an))) ∧
    (∀ x, trib? st s t = some x → instRefusal st x.inst = 0 → x.pos.toList.any (fun p => p.state == .loaded) = true →
      exec (.tribSwitch s k i) st = .next (tribDone s (tribWord 4 k i 0) 0 (modTrib st s t (fun x =>
        { x with switchFc := x.switchFc.or (some ((ctfLane st s k).fc.toNat + 2)) })))) ∧
    (∀ an x p, trib? st s t = some x → instRefusal st x.inst = 0 →
      positions.find? (fun p => (x.pos[p].state == .loaded || x.pos[p].state == .revoked) && x.pos[p].an == an) = some p →
      exec (.tribClear s k i an) st = .next (tribDone s (tribWord 5 k i an) 0 (releasePos st s t p))) ∧
    (∀ x, trib? st s t = some x → instRefusal st x.inst = 0 → posEmpty x = true → inPages st s k i.toNat = false →
      exec (.tribDelete s k i) st = .next (tribDone s (tribWord 6 k i 0) 0 (modCtf st s (fun c => { c with trib := c.trib.del t })))) ∧
    (∀ x, trib? st s t = some x → exec (.pmRead s k i) st = .next (tribDone s (tribWord 7 k i 0) 0
      ([x.perf.eb, x.perf.es, x.perf.ses, x.perf.uas, x.nSlip, x.nTagFail, x.nNoKey, x.nReplay, x.nUnres].zipIdx.foldl
        (fun st p => wr st (Reg.tsiTribPm s p.2) p.1) st)))) ∧
  (∀ (st : State) (s : SliceId), cmdOpen st (Reg.tsiPageCmd s) = true →
    (∀ d act k slot, slotBad st s k (slot : Byte).toNat = false →
      exec (.pageRead s d act k slot) st = .next (pageDone s (putF (pageWord 1 d act k slot.toNat 0) Fld.tsiPageCmd_TRIB
        ((if act then (tsiMem (sl st s).ctf d k).active else (tsiMem (sl st s).ctf d k).standby).getD slot.toNat 0xFF)) 0 st)) ∧
    (∀ d act k slot, slotBad st s k (slot : Byte).toNat = true →
      exec (.pageRead s d act k slot) st = .next (pageDone s (pageWord 1 d act k slot.toNat 0) 2 st)) ∧
    (∀ d k slot i, slotBad st s k (slot : Byte).toNat = false → (i.toNat < 240 ∨ i = (0xFF : Byte)) →
      (d = .line ∨ (sl st s).ctf.swapPend = false) →
      exec (.pageWrite s d k slot i) st = .next (pageDone s (pageWord 2 d false k slot.toNat i.toNat) 0 (modTsi st s d k (fun m =>
        { m with standby := if i.toNat = 0xFF then m.standby.del slot.toNat else m.standby.put slot.toNat i.toNat })))) ∧
    (∀ d, d = .line ∨ (sl st s).ctf.swapPend = false →
      exec (.copy s d) st = .next (pageDone s (pageWord 3 d false 0 0 0) 0
        (ports8.foldl (fun st k => modTsi st s d k (fun m => { m with standby := m.active })) st))) ∧
    ((sl st s).ctf.swapPend = true →
      exec (.copy s .client) st = .next (pageDone s (pageWord 3 .client false 0 0 0) 3 st) ∧
      (badMap st s = false → exec (.swap s) st = .next (pageDone s (pageWord 4 .client false 0 0 0) 3 st))) ∧
    ((sl st s).ctf.swapPend = false → badMap st s = false →
      let st1 := ports8.foldl (fun st k =>
        if isCtf st s k then modCtfLane st s k (fun x => { x with swapFc := some (x.fc.toNat + 2) }) else st) st
      exec (.swap s) st = .next (pageDone s (pageWord 4 .client false 0 0 0) 0
        (modCtf st1 s (fun c => { c with swapPend := c.lanes.toList.any (fun x => x.swapFc.isSome) })))))

/-- Whenever a tributary frame gives plaintext, no defect of its lane stands, a live key position of the frame's AN opens
it with a good tag, its frame count lies at or above the next one expected and not above the receive reservation, and
afterwards the position expects the next count, so that the same frame never opens again. Whenever a frame is sealed,
the slice is RUNNING and the frame count lies between the start and the transmit reservation of the position that
seals it. (R392, R398, R400, 10_ctf_tributaries.md) -/
def Obligations.TributaryFramesOpenOnceAndInsideTheirReservation : Prop :=
  ∀ (st : State) (s : SliceId) (k : PortIx) (i fc : Nat),
    (∀ an page ct tag pt t, openTrib st s k i fc an page ct tag = (some pt, t) →
      ∃ x p, trib? st s (tribNo k i) = some x ∧ laneDefect st s k = false ∧ posLive x.pos[(p : Fin 2)] = true ∧
        x.pos[p].an = an ∧ x.pos[p].rxNext ≤ fc ∧ fc ≤ x.pos[p].rxRes ∧
        ∃ y, trib? t s (tribNo k i) = some y ∧ y.pos[p].rxNext = fc + 1 ∧ y.rxPos = some p) ∧
    (∀ pt ct tag t, sealTrib st s k i fc pt = (some (ct, tag), t) →
      st.img.sl[s] = .running ∧ ∃ x p, trib? st s (tribNo k i) = some x ∧ x.txPos = some p ∧
        x.pos[(p : Fin 2)].txStart ≤ fc ∧ fc ≤ x.pos[p].txRes)

/-- A read of TSU_NOW_NS gives NS and latches the fraction. In a package that is no part of a pair: STEP with nothing
scheduled waits for the next tick with TSU_ADJ and its mode and answers OK; with a held Saffron frame or an armed
timer and no FORCE it answers code 3, and with FORCE it clears the schedule first; SLEW while a slew runs answers 1,
with an increment out of range or no ticks 2, else it runs for its ticks; ABORT asks for the end of a slew that runs,
at the next tick; two strobes answer 2. MODE and FORCE stay in the register, and nothing else changes. With no step
pending, a tick of the TSU clock adds the increment in force, or that of a running slew that nothing stops, to NOW,
adds TSU_INC to ELAPSED and counts, and latches the NOW it reaches for an edge of PPS_IN that waits; the tick at which
NS wraps and the last tick of a slew are such ticks, and no others are. An accepted edge of PPS_IN ends the
performance second and waits for the next tick; one within 0.5 s of the last accepted edge counts as ignored; none is
taken with PPS_IN_EN 0. PPS_OUT rises when NS has reached TSU_PPSO_TIME, which moves on by 1 s, and falls after its
width, or as soon as it is not driven. (R430, R432, R433, R434, R460, R426, R429, R435, R438, R439, R440,
11_time_launch.md) -/
def Obligations.TimeCommandsTicksAndPps : Prop :=
  (∀ st : State,
    exec .tsuNowRead st = .next { modTsu st (fun t => { t with fracLatch := t.now.setWidth 32 }) with lastRead := nowNs st } ∧
    (atOnce st Reg.tsuCmd = true → booted st = true →
      let keep (m f : Bool) (st : State) (code : Nat) : Host.Outcome State Fault Refusal :=
        .next (wr st Reg.tsuCmd (word [(Fld.tsuCmd_MODE, b2n m), (Fld.tsuCmd_FORCE, b2n f), (Fld.tsuCmd_RESULT, code)]))
      (∀ m f, (st.saf = [] ∧ anyArmed st = false → exec (.step m false false) st =
          keep m false (modTsu st (fun t => { t with stepPend := some (m, tsuAdj st) })) 0) ∧
        (st.saf ≠ [] ∨ anyArmed st = true → exec (.step m false false) st = keep m false st 3) ∧
        exec (.step m true false) st = keep m true (modTsu (clearSchedule st) (fun t =>
          { t with stepPend := some (m, tsuAdj (clearSchedule st)) })) 0 ∧
        exec (.step m f true) st = keep m f st 2) ∧
      (st.tsu.slewLeft ≠ 0 → exec (.slew false) st = keep false false st 1 ∧
        exec (.abort false) st = keep false false (modTsu st (fun t => { t with abort := true })) 0) ∧
      (st.tsu.slewLeft = 0 → exec (.abort false) st = keep false false st 0 ∧
        exec (.slew false) st =
          (if slewWord st < 2 ^ 32 ∨ 3 * 2 ^ 31 < slewWord st ∨ (rd st Reg.tsuSlewTicks).toNat = 0 then keep false false st 2
           else keep false false (modTsu st (fun t =>
             { t with slewLeft := (rd st Reg.tsuSlewTicks).toNat, slewInc := BitVec.ofNat 64 (slewWord st) })) 0)) ∧
      exec (.slew true) st = keep false false st 2 ∧ exec (.abort true) st = keep false false st 2)) ∧
  (∀ st : State,
    (st.tsu.stepPend = none →
      (tick st).tsu.elapsed = st.tsu.elapsed + (tsuInc st).setWidth 96 ∧ (tick st).tsu.ticks = st.tsu.ticks + 1 ∧
      (tick st).tsu.now = st.tsu.now + (if st.tsu.slewLeft = 0 ∨ slewStops st = true then nowInc st else st.tsu.slewInc) ∧
      (tick st).tsu.slewLeft = (if slewStops st then 0 else st.tsu.slewLeft - 1) ∧
      (st.tsu.ppsPend = true → (tick st).tsu.ppsPend = false ∧ (tick st).tsu.ppsCapNs = nowNs (tick st) ∧
        (tick st).tsu.ppsCapFrac = (tick st).tsu.now.setWidth 32 ∧ (tick st).tsu.ppsEdges = st.tsu.ppsEdges + 1)) ∧
    (exec .wrap st = .next (if st.tsu.stepPend = none ∧
      2 ^ 64 ≤ st.tsu.now.toNat + (if st.tsu.slewLeft = 0 ∨ slewStops st = true then nowInc st else st.tsu.slewInc).toNat then tick st else st)) ∧
    (st.tsu.stepPend = none → (st.tsu.slewLeft = 1 ∨ (st.tsu.slewLeft ≠ 0 ∧ slewStops st = true)) →
      exec .slewDone st = .next (tick st)) ∧
    (st.tsu.stepPend ≠ none ∨ st.tsu.slewLeft = 0 ∨ (1 < st.tsu.slewLeft ∧ slewStops st = false) →
      exec .slewDone st = .next st) ∧
    (flagA st Reg.tsuCfg Fld.tsuCfg_PPS_IN_EN = false → exec .ppsIn st = .next st) ∧
    (flagA st Reg.tsuCfg Fld.tsuCfg_PPS_IN_EN = true →
      (∀ a, st.tsu.ppsLast = some a → elNs st < a + 500000000 → st.tsu.ppsIgnored ≠ BitVec.allOnes 16 →
        exec .ppsIn st = .next (modTsu st (fun t => { t with ppsIgnored := t.ppsIgnored + 1 }))) ∧
      ((∀ a, st.tsu.ppsLast = some a → a + 500000000 ≤ elNs st) →
        exec .ppsIn st = .next (modTsu (perfSecond st) (fun t => { t with ppsPend := true, ppsLast := some (elNs st) })))) ∧
    (ppsOn st = true → st.tsu.ppsOutHigh = false → nsLe (rd st Reg.tsuPpsoTime) (nowNs st) = true →
      exec .ppsOutRise st = .next (modTsu (wr st Reg.tsuPpsoTime (rd st Reg.tsuPpsoTime + 1000000000)) (fun t => { t with
        ppsOutHigh := true
        ppsFallAt := elNs st + 1000 * max 1 (min 1000 (fldA st Reg.tsuCfg Fld.tsuCfg_WIDTH_US)) }))) ∧
    (exec .ppsOutFall st = .next (if st.tsu.ppsOutHigh = true ∧ (st.tsu.ppsFallAt ≤ elNs st ∨ ppsOn st = false)
      then modTsu st (fun t => { t with ppsOutHigh := false }) else st)))

/-- Of the frames of a slice in the stage concerned, the first in order of launch time: is staged from 100 us before its
launch with room in the stage; enters the parser in its window and is classified, or leaves when its instance does not
admit it; has its slot access in its window, or leaves when the channel gives none; is sent when its launch time has
come and the port is neither held nor sending, a launched frame included. A frame that has passed its last instant for
staging or slot access is late: without SENDLATE it is dropped, counted and reported; with a channel it is protected
as an ordinary frame. Outside the windows nothing changes. (R449, R450, R451, R453, 11_time_launch.md) -/
def Obligations.SaffronFramesMoveThroughTheCalendar : Prop :=
  ∀ (st : State) (s : SliceId),
    (∀ f n, safFirst st s (fun f => f.stage == .dram) = some (f, n) →
      (within st 100 f.launch = true → past st 10 f.launch = false →
        countP (fun f => f.s == s && f.stage != .dram) st.saf < 4096 →
        exec (.saffronStage s) st = .next (safSet st n { f with stage := .staged })) ∧
      (within st 100 f.launch = false → exec (.saffronStage s) st = .next st)) ∧
    (∀ f n, safFirst st s (fun f => f.stage == .staged) = some (f, n) → within st 8 f.launch = true →
      past st 5 f.launch = false → admits st s = true →
      let p := parse (prsCfg st s) f.bytes
      let c := safPkt st f p
      (∀ t, admitInst (parserEntry st c) s c.inst f.bytes = (true, t) →
        exec (.saffronParserEntry s) st = .next (settle (safClassified t n f c p) s)) ∧
      (∀ t, admitInst (parserEntry st c) s c.inst f.bytes = (false, t) →
        exec (.saffronParserEntry s) st = .next (settle (safRemove t n) s))) ∧
    (∀ f n ch tc, safFirst st s (fun f => f.stage == .parsed) = some (f, n) → f.chan = some (ch, tc) →
      within st 5 f.launch = true → past st 2 f.launch = false → admits st s = true →
      let p := parse (prsCfg st s) f.bytes
      let c := safPkt st f p
      (∀ pr t k, protAccess st s ch (bindNo c) f.bytes = (some pr, t) → c.outPort = some k →
        exec (.saffronSlotAccess s) st = .next (safSet (protCount t s pr f.bytes.length) n { f with
          stage := .accessed
          out := some (k, { egrOf { c with inst := f.inst } p (some pr) false tc with inst := f.inst }) })) ∧
      (∀ t, protAccess st s ch (bindNo c) f.bytes = (none, t) → exec (.saffronSlotAccess s) st = .next (safRemove t n))) ∧
    (∀ (k : PortIx) f n e,
      safFirst st s (fun f => match f.out with | some (j, _) => j == k && f.stage == .accessed | none => false) = some (f, n) →
      f.out = some (k, e) →
      reached st 0 (launchAt st s k f.launch) = true → outputHeld st .line s k e.prio = false → wireBusy st s k = false →
      (port st .line s k).queue.any (fun g => g.started) = false →
      exec (.saffronLaunch s k) st = .next (settle (launchNow st n f k e) s)) ∧
    (∀ n f, st.saf[n]? = some f →
      (isLate st f = false → exec (.late n) st = .next st) ∧
      (isLate st f = true → f.sendLate = false →
        exec (.late n) st = .next (raise (bumpVf (count (safRemove st n) (Reg.safCnt 4)) f.inst 7)
          { block := 12, index := 4, ps := [f.inst.val, f.launch.toNat] })) ∧
      (∀ ch tc, isLate st f = true → f.sendLate = true → f.chan = some (ch, tc) →
        let st1 := count (safRemove st n) (Reg.safCnt 5)
        let p := parse (prsCfg st1 f.s) f.bytes
        exec (.late n) st = .next (settle (protectPkt (arrive st1 f.s).2 { safPkt st1 f p with inst := f.inst } p ch tc) f.s)))

/-- With TWN_CMD open: CLAIM in START with every port ready stays BUSY and waits for ownership for at most 1 ms; JOIN in
START with ports and link up, a LINK node and no debug stays BUSY until a HELLO of the partner is there, for at most
50 ms from its write, a session that is keyed still ending first; with the HELLO of a partner that is ALONE and agrees
it keys the session, moves to SYNCING, sends a HELLO with fresh random bytes and answers OK; SWITCH in ACTIVE with no
divergence test stays BUSY until the epoch after next; LEAVE in STANDBY or SYNCING returns to START and answers OK.
CLAIM with every port ready, SWITCH with no test and LEAVE answer code 3 in every other state of a package of a pair,
and change nothing else. (R472, R473, R487, R494, 12_twin.md) -/
def Obligations.TwinCommandsAreJudgedByState : Prop :=
  ∀ st : State, cmdOpen st Reg.twnCmd = true →
    let w (op : Nat) : Word := word [(Fld.twnCmd_OP, op)]
    (st.twin.state = .start → devicePortsReady st = true →
      exec .claim st = .next (twnBusy (w 1) (modTwin st (fun t => { t with claimUntil := some (elNs st + 1000000) }))) ∧
      (∀ n, linkNode st = some n → n.bad = false → twinLinkUp st = true → st.debug = false →
        (st.twin.partner = none → exec .join st = .next (twnBusy (w 2) (modTwin (if st.twin.keyed then endSession st else st)
          (fun t => { t with joinUntil := st.twin.joinUntil.or (some (elNs st + 50000000)) })))) ∧
        (∀ h, st.twin.partner = some h → h.twinState = .alone → h.debug = false → helloMismatch st h = 0 →
          exec .join st = .next (modTwin (twnDone (w 2) 0 (sendHello (toSyncing (keySession
            (freshRand (modTwin st (fun t => { t with joinUntil := none }))) n h)))) (fun t => { t with rand := [] }))))) ∧
    (st.twin.state = .active → st.twin.testing = false →
      exec .twinSwitch st = .next (twnBusy (w 3) (modTwin st (fun t => { t with switchAt := some (t.epoch + 2) })))) ∧
    (st.twin.state = .standby ∨ st.twin.state = .syncing → exec .leave st = .next (twnDone (w 4) 0 (toStart st))) ∧
    (st.twin.state ≠ .off →
      (st.twin.state ≠ .start → devicePortsReady st = true → exec .claim st = .next (twnDone (w 1) 3 st)) ∧
      (st.twin.state ≠ .active → st.twin.testing = false → exec .twinSwitch st = .next (twnDone (w 3) 3 st)) ∧
      (st.twin.state ≠ .standby → st.twin.state ≠ .syncing → exec .leave st = .next (twnDone (w 4) 3 st)))

/-- A change of the partner's line is kept with the instant of its release; a release seen in STANDBY begins a switchover,
and during one is counted alone; when both lines are asserted the strapped package releases, reports and returns to
START. A package in START with a CLAIM in hand, or in ALONE, ACTIVE or a takeover in STANDBY, that may assert does so
now; 2 us later, and not before, its transmitters and selector are on. Sixteen heartbeat periods without a HEARTBEAT,
and not fewer, take an ACTIVE package to ALONE and a SYNCING one to START, and make a STANDBY a candidate for 1 ms,
which begins a switchover at once when the partner's line is released already; a standby that is still one at the end
of its candidacy returns to START, and not before; during the steps of a switchover the loss is counted alone. (R465,
R466, R475, R486, R490, 12_twin.md) -/
def Obligations.OwnershipIsAssertedWhenThePartnerHasReleased : Prop :=
  ∀ st : State,
    (∀ on, let t1 := modTwin st (fun t => { t with
        partnerOwn := on, partnerSince := if t.partnerOwn && !on then elNs st else t.partnerSince })
      (on = true ∨ st.twin.partnerOwn = false ∨ st.twin.state ≠ .standby → ¬ (st.twin.own = true ∧ on = true ∧ st.primary = true) →
        exec (.ownLineChange on) st = .next t1) ∧
      (on = false → st.twin.partnerOwn = true → st.twin.state = .standby →
        (switching st = false → exec (.ownLineChange on) st =
          .next (beginSwitch (modTwin t1 (fun t => { t with takingOver := true })))) ∧
        (switching st = true → exec (.ownLineChange on) st = .next (count t1 (Reg.twnCnt 0)))) ∧
      (st.twin.own = true → on = true → st.primary = true →
        let t2 := raise (toStart (releaseOwn t1)) { block := 5, index := 0 }
        exec (.ownLineChange on) st = .next (if st.twin.claimUntil.isSome then twnEnd 6 t2 else t2))) ∧
    (mayAssert st = true →
      let own (t : State) : State := modTwin t (fun x => { x with own := true, assertedAt := some (elNs t) })
      (st.twin.state = .start → exec .ownAssert st =
        .next (own (twnEnd 0 (modTwin (restampAges st) (fun t => { t with state := .alone }))))) ∧
      (st.twin.state = .standby → exec .ownAssert st = .next (own (takeOver st))) ∧
      (st.twin.state = .alone ∨ st.twin.state = .active → exec .ownAssert st = .next (own st))) ∧
    (mayAssert st = false → exec .ownAssert st = .next (claimExpire st)) ∧
    (∀ a, st.twin.assertedAt = some a → a + 2000 ≤ elNs st → st.twin.own = true → st.glb.halted = false →
      exec .ownTxEnable st = .next (modTwin st (fun t =>
        { t with txEn := true, sel := true, assertedAt := none, claimUntil := none }))) ∧
    (∀ a, st.twin.assertedAt = some a → elNs st < a + 2000 → exec .ownTxEnable st = .next st) ∧
    (st.twin.hbLost = false → st.twin.lastHb + 16000 ≤ elNs st →
      let lost := count (modTwin st (fun t => { t with hbLost := true })) (Reg.twnCnt 2)
      (st.twin.state = .active → exec .hbLost st = .next (linkLost (toAlone lost))) ∧
      (st.twin.state = .syncing → exec .hbLost st = .next (linkLost (toStart lost))) ∧
      (st.twin.state = .standby → switching st = true →
        exec .hbLost st = .next (count (modTwin st (fun t => { t with lastHb := elNs st })) (Reg.twnCnt 2))) ∧
      (st.twin.state = .standby → switching st = false →
        let cand := linkLost (count (modTwin st (fun t => { t with
          hbLost := true, candidateUntil := some (elNs st + 1000000) })) (Reg.twnCnt 2))
        exec .hbLost st = .next (if st.twin.partnerOwn || st.twin.takingOver then cand
          else beginSwitch (modTwin cand (fun t => { t with takingOver := true }))))) ∧
    (elNs st < st.twin.lastHb + 16000 → exec .hbLost st = .next st) ∧
    (∀ u, st.twin.candidateUntil = some u →
      (u ≤ elNs st → st.twin.state = .standby → exec .candidacyEnd st = .next (toStart st)) ∧
      (elNs st < u ∨ st.twin.state ≠ .standby → exec .candidacyEnd st = .next st))

/-- At the start of an epoch, and not before, reservations are raised, forwarded writes and learned changes apply and MEE
results that were held are released, in that order; in a package outside a pair, or HALTED, nothing else happens. In
any other, digests are then compared, a SWITCH takes effect, a CLAIM or JOIN whose time is over ends, the stream's cut
is taken, the messages of the epoch leave, and the verdicts of health and the end of SYNCING are judged. When a
divergence test ends in an ACTIVE package: a finding of its own hands over; without one it goes on ALONE, and unless
the partner found something the divergence is listed, and with three in the list within 3,600 s the alert is raised. A
STANDBY whose partner found nothing is resynchronised. Any other package keeps the findings alone, and without a test
under way, or halted, nothing changes. (R476, R481, R484, R485, 12_twin.md) -/
def Obligations.EpochsBeginAndDivergenceIsSettled : Prop :=
  ∀ st : State,
    (elNs st < 8192 * (st.twin.epoch + 1) → exec .stepEpochBoundary st = .next st) ∧
    (8192 * (st.twin.epoch + 1) ≤ elNs st →
      let st1 := releaseHeld (applyDue (applyReservations (nextEpoch st)))
      (st1.twin.state = .off ∨ st1.twin.state = .halted → exec .stepEpochBoundary st = .next st1) ∧
      (st1.twin.state ≠ .off → st1.twin.state ≠ .halted →
        let st2 := switchNow ((st1.twin.ownDig.map Prod.fst).foldl compareEpoch (overdue st1))
        exec .stepEpochBoundary st =
          .next (trimSets (syncFail (healthCheck (epochMsgs (streamCut (joinExpire (claimExpire st2)))))))) ∧
      (st.twin.state = .off → st.twin.mirrorQ = [] → st.twin.learnQ = [] → st.jnl.applies = [] →
        exec .stepEpochBoundary st = .next (releaseHeld (nextEpoch st)))) ∧
    (∀ own partner, st.twin.testing = false ∨ st.glb.halted = true →
      exec (.divergenceTestDone own partner) st = .next st) ∧
    (∀ own partner, st.twin.testing = true → st.glb.halted = false →
      let st1 := modTwin st (fun t => { t with testing := false, finding := own, partnerFinding := partner })
      (st.twin.state = .active → own = true →
        exec (.divergenceTestDone own partner) st = .next (setOutcome (handOver st1) 1)) ∧
      (st.twin.state = .active → own = false → partner = true →
        exec (.divergenceTestDone own partner) st = .next (toAlone (setOutcome st1 2))) ∧
      (st.twin.state = .active → own = false → partner = false →
        let xs := (st.twin.unexplained ++ [elNs st]).filter (fun t => decide (elNs st - 3600000000000 ≤ t))
        let st2 := modTwin (toAlone (setOutcome st1 2)) (fun t => { t with unexplained := xs })
        exec (.divergenceTestDone own partner) st = .next (if 3 ≤ xs.length then raise st2 { block := 5, index := 3 } else st2)) ∧
      (st.twin.state = .standby → exec (.divergenceTestDone own partner) st = .next (if partner then st1 else toSyncing st1)) ∧
      (st.twin.state ≠ .active → st.twin.state ≠ .standby → exec (.divergenceTestDone own partner) st = .next st1))

/-- A message that is taken (its tag good, its sequence new, a session keyed) acts so: a HEARTBEAT is judged by the states
of both; a STEP keeps the partner's ticks; a DIGEST and a HEALTH report are kept; the writes of a MIRROR message that
is in time and the changes of a LEARN message that is wait for their epochs in a standby; a TIME message sets NOW of a
standby, and an offset of more than 10 ns that has stood for 1 ms shows in its health; the items of a CAPSULE are
staged and applied in SYNCING; an ACK has the missing messages sent again. In a package that is no standby MIRROR,
LEARN and TIME change nothing more. A tag that is wrong is counted, and a message that is not taken does nothing else.
A HELLO is kept as the partner's, with its state; it goes on with a JOIN that waits in START, begins the stream of an
owner whose partner has begun SYNCING, and ends the session of an owner whose partner is back in START. (R456, R471,
R472, R474, R476, R479, R481, R483, R491, 12_twin.md) -/
def Obligations.IndigoMessagesAreTakenAndActOnTheirPart : Prop :=
  ∀ (st st1 : State) (m : MsgHdr),
    (∀ type items, st.glb.halted = false → st.twin.keyed = true → twinLinkUp st = true →
      m.tag ≠ partnerTag st type m items → takeMsg type m items st = (false, count st (Reg.twnCnt 3))) ∧
    (∀ q seen, (takeMsg 2 m [twinStateNum q, b2n seen] st = (true, st1) →
        exec (.heartbeat m q seen) st = .next (heartbeat (epochOf st1 m.epoch) q st1)) ∧
      (takeMsg 2 m [twinStateNum q, b2n seen] st = (false, st1) → exec (.heartbeat m q seen) st = .next st1)) ∧
    (∀ ticks, (takeMsg 3 m [m.epoch.toNat, ticks] st = (true, st1) →
        exec (.indigoStep m ticks) st = .next (stepTicks (epochOf st1 m.epoch) ticks st1)) ∧
      (takeMsg 3 m [m.epoch.toNat, ticks] st = (false, st1) → exec (.indigoStep m ticks) st = .next st1)) ∧
    (∀ x, (takeMsg 4 m (digestNats x) st = (true, st1) → exec (.digest m x) st =
        .next (modTwin st1 (fun t => { t with partnerDig := t.partnerDig.put (epochOf st1 m.epoch) x }))) ∧
      (takeMsg 4 m (digestNats x) st = (false, st1) → exec (.digest m x) st = .next st1)) ∧
    (∀ w ready, (takeMsg 5 m [w.toNat, ready.toNat] st = (true, st1) →
        exec (.health m w ready) st = .next (modTwin st1 (fun t => { t with healthPartner := w, partnerReady := ready }))) ∧
      (takeMsg 5 m [w.toNat, ready.toNat] st = (false, st1) → exec (.health m w ready) st = .next st1)) ∧
    (∀ ws, (takeMsg 6 m (ws.flatMap mirNats) st = (true, st1) →
        (twinStandby st1 = true → (∀ w ∈ ws, st1.twin.epoch < w.epoch) →
          exec (.mirror m ws) st = .next (modTwin st1 (fun t => { t with mirrorQ := t.mirrorQ ++ ws }))) ∧
        (twinStandby st1 = false → exec (.mirror m ws) st = .next st1)) ∧
      (takeMsg 6 m (ws.flatMap mirNats) st = (false, st1) → exec (.mirror m ws) st = .next st1)) ∧
    (∀ s cs, let e := epochOf st1 m.epoch + 2
      (takeMsg 7 m (s.val :: cs.flatMap macNats) st = (true, st1) →
        (twinStandby st1 = true → st1.twin.epoch < e → exec (.learnMessage m s cs) st =
          .next (modTwin st1 (fun t => { t with learnQ := t.learnQ ++ cs.map (fun c => (e, s, c)) }))) ∧
        (twinStandby st1 = false → exec (.learnMessage m s cs) st = .next st1)) ∧
      (takeMsg 7 m (s.val :: cs.flatMap macNats) st = (false, st1) → exec (.learnMessage m s cs) st = .next st1)) ∧
    (∀ ns frac, let now : BitVec 64 := ns ++ frac
      (takeMsg 8 m [now.toNat] st = (true, st1) →
        (twinStandby st1 = true →
          let since := if 10 * 2 ^ 32 < (now - st1.tsu.now).toInt.natAbs then st1.twin.offSince.or (some (elNs st1)) else none
          exec (.timeMessage m ns frac) st = .next (modTwin (modTsu st1 (fun t => { t with now := now })) (fun t => { t with
            offSince := since, tsuOffset := match since with | some a => decide (a + 1000000 ≤ elNs st1) | none => false }))) ∧
        (twinStandby st1 = false → exec (.timeMessage m ns frac) st = .next st1)) ∧
      (takeMsg 8 m [now.toNat] st = (false, st1) → exec (.timeMessage m ns frac) st = .next st1)) ∧
    (∀ xs, (takeMsg 9 m (xs.flatMap capNats) st = (true, st1) →
        exec (.capsule m xs) st = .next (capsule (epochOf st1 m.epoch) xs st1) ∧
        (∀ x, xs = [x] → st1.twin.state = .syncing →
          exec (.capsule m xs) st = .next (applyItem (streamStage st1 (capNats x)) x))) ∧
      (takeMsg 9 m (xs.flatMap capNats) st = (false, st1) → exec (.capsule m xs) st = .next st1)) ∧
    (∀ high missing, (takeMsg 10 m (high.toNat :: missing) st = (true, st1) →
        exec (.ackMessage m high missing) st = .next (resend missing st1)) ∧
      (takeMsg 10 m (high.toNat :: missing) st = (false, st1) → exec (.ackMessage m high missing) st = .next st1)) ∧
    (∀ h, twinLinkUp st = true → st.glb.halted = false → st.twin.state ≠ .off →
      let st2 := modTwin st (fun t => { t with partner := some h, partnerState := h.twinState })
      (st.twin.state = .start → exec (.hello h) st =
        .next (if st.twin.joinUntil.isSome then join (rd st Reg.twnCmd) st2 else st2)) ∧
      (st.twin.state = .alone → h.twinState = .syncing →
        (∀ n, linkNode st = some n → exec (.hello h) st =
          .next (startStream (modTwin (keySession st2 n h) (fun t => { t with rand := [] })))) ∧
        (linkNode st = none → exec (.hello h) st = .next st2)) ∧
      (st.twin.state = .alone → h.twinState = .start → st.twin.keyed = true → exec (.hello h) st =
        .next (modTwin (endSession st2) (fun t =>
          { t with partner := some h, streaming := false, stream := [], cutEpoch := none }))) ∧
      (st.twin.state ≠ .start → (st.twin.state = .alone →
          h.twinState ≠ .syncing ∧ (h.twinState = .start → st.twin.keyed = false)) →
        exec (.hello h) st = .next st2))

/-- A package of a pair whose link is up and that has no session sends a HELLO 1 ms after the last one, with random bytes
drawn where it has none; in a session it sends a HEARTBEAT, a TIME and an ACK message 1,000 ns after the last one of
its kind, and CAPSULE messages of the items of the stream, in order, after the last of which, if no cut epoch is set,
the next epoch is named as the cut. None leaves earlier, during a halt, or without a session; a HELLO leaves in no
session. (R470, R472, R474, R491, 12_twin.md) -/
def Obligations.IndigoMessagesLeaveInTime : Prop :=
  ∀ st : State,
    (st.twin.state ≠ .off → st.glb.halted = false → st.twin.keyed = false → twinLinkUp st = true →
      st.twin.lastHello + 1000000 ≤ elNs st →
      exec .helloSend st = .next (sendHello (if st.twin.rand.isEmpty then freshRand st else st))) ∧
    (elNs st < st.twin.lastHello + 1000000 ∨ st.glb.halted = true ∨ st.twin.keyed = true ∨ twinLinkUp st = false →
      exec .helloSend st = .next st) ∧
    (st.glb.halted = false → st.twin.keyed = true →
      (st.twin.lastHbSent + 1000 ≤ elNs st → exec .heartbeatSend st =
        .next (sendMsg (modTwin st (fun t => { t with lastHbSent := elNs st })) 2
          [twinStateNum st.twin.state, b2n st.twin.own])) ∧
      (st.twin.lastTime + 1000 ≤ elNs st → exec .timeSend st =
        .next (sendMsg (modTwin st (fun t => { t with lastTime := elNs st })) 8 [st.tsu.now.toNat])) ∧
      (st.twin.lastAck + 1000 ≤ elNs st → exec .ackSend st =
        .next (sendMsg (modTwin st (fun t => { t with lastAck := elNs st })) 10
          (st.twin.rxSeq :: st.twin.missing.map Prod.fst))) ∧
      (∀ n, let items := (st.twin.stream.take n).flatMap (fun x => capNats (freshItem st x))
        let st1 := if (st.twin.stream.take n).isEmpty then st
          else sendMsg (streamStage (modTwin st (fun t => { t with stream := t.stream.drop n })) items) 9 items
        let cut := st.twin.streaming = true ∧ st.twin.stream.drop n = [] ∧ st.twin.cutEpoch = none
        (¬ cut → exec (.capsuleStreamSend n) st = .next st1) ∧
        (cut → exec (.capsuleStreamSend n) st = .next (modTwin st1 (fun t =>
          { t with cutEpoch := some (t.epoch + 1), stream := [.cut (t.epoch + 1)] }))))) ∧
    (elNs st < st.twin.lastHbSent + 1000 → exec .heartbeatSend st = .next st) ∧
    (elNs st < st.twin.lastTime + 1000 → exec .timeSend st = .next st) ∧
    (elNs st < st.twin.lastAck + 1000 → exec .ackSend st = .next st) ∧
    (st.twin.keyed = false ∨ st.glb.halted = true →
      exec .heartbeatSend st = .next st ∧ exec .timeSend st = .next st ∧ exec .ackSend st = .next st ∧
      ∀ n, exec (.capsuleStreamSend n) st = .next st)

/-- In a state whose missing sequences all lie at or below the highest sequence received, a message that is taken changes
the twin state alone, keeps that property, and is not taken a second time in the state it leaves, whatever its type
and content were; its sequence is then at or below the highest received and not among the missing. (R471, R474,
12_twin.md) -/
def Obligations.MessageIsTakenOnceOnly : Prop :=
  ∀ (st st1 : State) (type : Nat) (m : MsgHdr) (items : List Nat),
    (∀ x ∈ st.twin.missing, x.1 ≤ st.twin.rxSeq) → takeMsg type m items st = (true, st1) →
      st1 = { st with twin := st1.twin } ∧ (∀ x ∈ st1.twin.missing, x.1 ≤ st1.twin.rxSeq) ∧
      m.seq.toNat ≤ st1.twin.rxSeq ∧ m.seq.toNat ∉ st1.twin.missing.map Prod.fst ∧
      ∀ type' items', (takeMsg type' m items' st1).1 = false

/-- A doorbell of an existing tenant function that is not DISABLED copies its 16 request words, sets PENDING, counts and
raises the event; while PENDING it only sets OVERRUN; halted, of instance 0 or of a DISABLED instance it does nothing.
A read of VF_MBX_CTL gives the flags and state, and clears RESP_READY and OVERRUN. With VIM_MBX_CMD open, READ loads
the manager's data words with the request; RESPOND of a pending request copies them to the response registers, ends
PENDING, sets RESP_READY and signals the tenant, in a pair where this package owns the outputs; without a request it
answers 2, for a function that does not exist 3. (R499, R500, R501, R502, 13_instances.md) -/
def Obligations.MailboxesCarryRequestsAndResponses : Prop :=
  ∀ (st : State) (i : InstId),
    (hasVf st i = true → st.glb.halted = false → (inst st i).state ≠ .disabled →
      ((inst st i).pending = true → exec (.doorbell i) st = .next (modInst st i (fun x => { x with overrun := true }))) ∧
      ((inst st i).pending = false → exec (.doorbell i) st =
        .next (raise (count (modInst st i (fun x => { x with mbox := vfRequest st i, pending := true })) (Reg.vimCnt 4))
          { block := 4, index := 0, ps := [i.val] }))) ∧
    (hasVf st i = false ∨ st.glb.halted = true ∨ (inst st i).state = .disabled → exec (.doorbell i) st = .next st) ∧
    (hasVf st i = true → exec (.vfMbxCtlRead i) st =
      .next { modInst st i (fun x => { x with respReady := false, overrun := false }) with lastRead := mbxCtl (inst st i) }) ∧
    (cmdOpen st Reg.vimMbxCmd = true →
      (hasVf st i = false → exec (.mbxRead i) st = .next (mbxDone (mbxWord 1 i) 3 st) ∧
        exec (.respond i) st = .next (mbxDone (mbxWord 2 i) 3 st)) ∧
      (hasVf st i = true →
        exec (.mbxRead i) st = .next (mbxDone (mbxWord 1 i) 0
          ((inst st i).mbox.zipIdx.foldl (fun st p => wr st (Reg.vimMbxData p.2) p.1) st)) ∧
        ((inst st i).pending = false → exec (.respond i) st = .next (mbxDone (mbxWord 2 i) 2 st)) ∧
        ((inst st i).pending = true → exec (.respond i) st = .next (mbxDone (mbxWord 2 i) 0 (hostOut (modInst
          ((List.range 16).foldl (fun st n => wr st (Reg.vfMbxResp (vfIx i) n) (rd st (Reg.vimMbxData n))) st) i
          (fun x => { x with pending := false, respReady := true })) (.msix i 0))))))

/-- With VIM_CMD open and an instance that exists and is not 0: ENABLE takes DISABLED or QUIESCED to ENABLED; QUIESCE
takes ENABLED to QUIESCING with 100 us to run, its scheduled frames flushed; FREEZE takes QUIESCED to FROZEN, THAW
back; RESET and REMOVE of a QUIESCED instance that no page of a TSI holds clear it, REMOVE its shares as well, and
with such a page answer 6; STATE_READ gives the state. From every other state each answers 3, but ENABLE, QUIESCE and
FREEZE while QUIESCING answer 4 and record it. QUIESCING ends as QUIESCED, with the event, when no frame is held, or
after 100 us, the frames left discarded and counted, and not before; the reset that a function-level reset asked for
follows unless a page holds a tributary. (R513, R514, R515, R516, R517, R518, R519, 13_instances.md) -/
def Obligations.InstanceStatesChangeAsCommanded : Prop :=
  ∀ (st : State) (i : InstId), instExists st i = true → i ≠ 0 →
    let q := (inst st i).state
    let w (op : Nat) : Word := vimWord op i 0
    (cmdOpen st Reg.vimCmd = true →
      (q = .disabled ∨ q = .quiesced → exec (.enable i) st = .next (vimDone (w 1) 0 (setInst st i .enabled))) ∧
      (q = .enabled ∨ q = .frozen → exec (.enable i) st = .next (vimDone (w 1) 3 st)) ∧
      (q = .enabled → exec (.quiesce i) st = .next (vimDone (w 2) 0 (startQuiesce st i))) ∧
      (q = .disabled ∨ q = .quiesced ∨ q = .frozen → exec (.quiesce i) st = .next (vimDone (w 2) 3 st)) ∧
      (q = .quiesced → exec (.freeze i) st = .next (vimDone (w 3) 0 (setInst st i .frozen))) ∧
      (q = .disabled ∨ q = .enabled ∨ q = .frozen → exec (.freeze i) st = .next (vimDone (w 3) 3 st)) ∧
      (q = .quiescing → exec (.enable i) st = .next (vimDone (w 1) 4 (lastRef st 1 5 0 i)) ∧
        exec (.quiesce i) st = .next (vimDone (w 2) 4 (lastRef st 1 5 0 i)) ∧
        exec (.freeze i) st = .next (vimDone (w 3) 4 (lastRef st 1 5 0 i))) ∧
      (q = .frozen → exec (.thaw i) st = .next (vimDone (w 4) 0 (setInst (thawSlots st i) i .quiesced))) ∧
      (q ≠ .frozen → exec (.thaw i) st = .next (vimDone (w 4) 3 st)) ∧
      (q = .quiesced → tribInPage st i = false →
        exec (.instanceReset i) st = .next (vimDone (w 5) 0 (instClear st i false)) ∧
        exec (.remove i) st = .next (vimDone (w 6) 0 (instClear st i true))) ∧
      (q = .quiesced → tribInPage st i = true →
        exec (.instanceReset i) st = .next (vimDone (w 5) 6 st) ∧ exec (.remove i) st = .next (vimDone (w 6) 6 st)) ∧
      (q ≠ .quiesced → exec (.instanceReset i) st = .next (vimDone (w 5) 3 st) ∧
        exec (.remove i) st = .next (vimDone (w 6) 3 st)) ∧
      exec (.stateRead i) st = .next (vimDone (w 11) 0 (setF st Reg.vimCmd Fld.vimCmd_STATE (instStateNum q)))) ∧
    (let done (st : State) : State :=
      raise (modInst st i (fun x => { x with state := .quiesced, flrPend := false })) { block := 4, index := 2, ps := [i.val] }
     let left := countN (instDiscard st i) (Reg.vimCnt 3) (instFrames st i)
     (q = .quiescing →
      ((inst st i).flrPend = false → instFrames st i = 0 → exec (.quiesceDone i) st = .next (done st)) ∧
      ((inst st i).flrPend = true → instFrames st i = 0 → tribInPage (done st) i = false →
        exec (.quiesceDone i) st = .next (instClear (done st) i false)) ∧
      (instFrames st i ≠ 0 → exec (.quiesceDone i) st = .next st) ∧
      ((inst left i).flrPend = false → (inst st i).quiesceUntil ≤ elNs st →
        exec (.quiesceTimeout i) st = .next (done left)) ∧
      (elNs st < (inst st i).quiesceUntil → exec (.quiesceTimeout i) st = .next st))) ∧
    (q ≠ .quiescing → exec (.quiesceDone i) st = .next st ∧ exec (.quiesceTimeout i) st = .next st)

/-- With VIM_CMD open: SHARE_WRITE on an enabled slice of an instance that is not held back, with shares that fit, takes
them, and SHRINKING when more cells are held; SHARE_READ changes registers alone and shows the shares and the calendar
entries in use. SAVE of a FROZEN instance with its WRAP node, no tributary and room stages the capsule in DRAM, writes
it to host memory, leaves the carried slots EXPORTED, frees its archive entries and counts; a RESTORE whose capsule
fails a check answers the code and section of it and counts; one that passes and carries no slots builds the instance;
one whose slots the start rule admits requests their records and stays BUSY. A function-level reset disables the
rings, and is all there is to a DISABLED or FROZEN instance; an ENABLED instance begins to quiesce, to be reset after,
a QUIESCING one is to be reset after, and a QUIESCED one is reset unless a page of a TSI holds a tributary of it;
clearing VF Enable resets every function. (R505, R506, R510, R519, R521, R524, R525, 13_instances.md) -/
def Obligations.SharesCapsulesAndFunctionResets : Prop :=
  ∀ (st : State) (i : InstId) (s : SliceId),
    (cmdOpen st Reg.vimCmd = true → instExists st i = true →
      let x := inst st i
      (x.state ≠ .quiescing → x.state ≠ .frozen → sliceEnabled st s = true → (shareAsked st).weight ≠ 0 →
        sharesFit st s i (shareAsked st) (calendarAsked st) = true →
        exec (.shareWrite i s) st = .next (vimDone (vimWord 9 i s) 0 (shareUpdate (modInst st i (fun x => { x with
          shares := x.shares.set s (shareAsked st), calendar := calendarAsked st
          shrinking := x.shrinking.set s (x.shrinking[s] || decide ((shareAsked st).cells < instCells (sl st s) i)) })) s))) ∧
      (sliceEnabled st s = true → ∃ t, exec (.shareRead i s) st = .next t ∧ t = { st with regs := t.regs } ∧
        rd t Reg.vimShare0 = word [(Fld.vimShare_WEIGHT, x.shares[s].weight), (Fld.vimShare_CELLS, x.shares[s].cells)] ∧
        rd t Reg.vimShare1 = word [(Fld.vimShare_ASSOCS, x.shares[s].assocs), (Fld.vimShare_CHANNELS, x.shares[s].channels)] ∧
        rd t Reg.vimShare2 = word [(Fld.vimShare_RULES, x.shares[s].rules)] ∧
        rd t Reg.vimShare3 = word [(Fld.vimShare_CALENDAR, x.calendar)] ∧
        rd t (Reg.vimUse 3) = word [(Fld.vimShare_CALENDAR, countP (fun f => f.inst == i) st.saf)]) ∧
      (∀ n, i ≠ 0 → x.state = .frozen → wrapNode st i = some n → n.bad = false →
        (∀ r : SliceId, instTribs st r i = []) → capLen (capSections (capRecs st i [])) ≤ (rd st Reg.vimCapLen).toNat →
        let len := capLen (capSections (capRecs st i []))
        let d := draw st
        let cap := capsuleBytes d.2 i (capNodeIx st) n d.1
        exec (.save i) st = .next (vimDone (vimWord 7 i 0) 0 (count (setF
          (arcDrop (exportSlots (dma (capStage d.2 cap) (capAddr (capStage d.2 cap)) cap) i) i)
          Reg.vimCapStat Fld.vimCapStat_LENGTH (capUnits len)) (Reg.vimCnt 5)))) ∧
      (∀ cap, i ≠ 0 → x.state = .disabled → (∀ n, node? st (capNodeIx st) = some n → n.bad = false) →
        let st1 : State := { st with capBytes := [] }
        (∀ e, restoreCheck st1 i cap = .error e → exec (.restore i cap) st = .next (vimDone (vimWord 8 i 0) e.1
          (setF (count st1 (Reg.vimCnt 7)) Reg.vimCapStat Fld.vimCapStat_SECTION e.2))) ∧
        (∀ ck recs, restoreCheck st1 i cap = .ok (ck, recs) →
          let slots := (recs.filter (fun p => p.2.1 == 4)).map (fun p => (p.1, p.2.2))
          let r (t : State) : RestoreSt := { inst := i, node := capNodeIx t, recs := recs, left := slots.length }
          (slots = [] → exec (.restore i cap) st = .next (vimDone (vimWord 8 i 0) 0 (count (restoreBuild (capStage st1 cap) (r (capStage st1 cap)))
            (Reg.vimCnt 6)))) ∧
          (∀ st2, slots ≠ [] → restoreSlots i ck recs slots (capStage st1 cap) = .ok st2 → exec (.restore i cap) st =
            .next (cmdBusy { st2 with restore := some (r st2)
                                      ktr := { st2.ktr with capNode := some (capNodeIx st2) } }
              Reg.vimCmd Fld.vimCmd_OP (vimWord 8 i 0)))))) ∧
    (hasVf st i = true → st.glb.halted = false →
      ((inst st i).state = .disabled ∨ (inst st i).state = .frozen → exec (.vfFlr i) st = .next (flrRings st i)) ∧
      ((inst st i).state = .enabled → exec (.vfFlr i) st =
        .next (modInst (startQuiesce (flrRings st i) i) i (fun x => { x with flrPend := true }))) ∧
      ((inst st i).state = .quiescing → exec (.vfFlr i) st =
        .next (modInst (flrRings st i) i (fun x => { x with flrPend := true }))) ∧
      ((inst st i).state = .quiesced → tribInPage (flrRings st i) i = false →
        exec (.vfFlr i) st = .next (instClear (flrRings st i) i false)) ∧
      ((inst st i).state = .quiesced → tribInPage (flrRings st i) i = true → exec (.vfFlr i) st = .next (flrRings st i))) ∧
    exec .vfEnableClear st = .next (allInsts.foldl vfFlr { st with pcie := { st.pcie with numVfs := 0 } })

/-- A training without failure makes the memory ready under fresh keys; a failure is tried again three times, and a
further one halts the device with cause 6; oscillators are retrained each 100 ms and counted; a report of a rank that
is there sets or clears its hot bit. A read of a line never written gives zeros under what waits in the write-back
cache; of a written line, the corrected, verified and decrypted bytes; a counter that cannot be had, an uncorrectable
burst or a line that fails its check ends as its access says, an integrity failure unless it only waits. A waiting
line that may be written leaves as its write says, and without one nothing is written; the patrol scrub counts and
corrects a written line. In either rank, where there are two. (R533, R534, R546, R549, R551, R553, R554, R556,
14_memory_protection.md) -/
def Obligations.ExternalMemoryIsTrainedReadAndWritten : Prop :=
  ∀ st : State,
    (st.mee.trained = false → st.glb.halted = false → booted st = true →
      exec (.dramTrained 0) st = .next (enablePorts (modMee (draw st).2 (fun m => { m with
        trained := true, ready := true, km := (draw st).1, hm := aesEnc (draw st).1 (List.replicate 16 0xFF)
        retrainAt := elNs (draw st).2 + 100000000 }))) ∧
      (∀ f : BitVec 4, f ≠ 0 →
        let st1 := modMee st (fun m => { m with tries := m.tries.mapFinIdx (fun i n _ => if f.getLsbD i then n + 1 else n) })
        let gone := (List.range 4).filter (fun i => decide (3 < st1.mee.tries.toList.getD i 0))
        (gone = [] → exec (.dramTrained f) st = .next st1) ∧
        (gone ≠ [] → exec (.dramTrained f) st = .next (carmineHalt
          (modMee st1 (fun m => { m with trainFail := BitVec.ofNat 4 (sumOf (fun i => 2 ^ i) gone) }))
          6 0 0 0 38 (Config.detail 38 gone))))) ∧
    (st.mee.trained = true → (∀ f, exec (.dramTrained f) st = .next st) ∧
      (st.mee.retrainAt ≤ elNs st → exec .dqsRetrain st =
        .next (count (modMee st (fun m => { m with retrainAt := m.retrainAt + 100000000 })) (Reg.drcCnt 5))) ∧
      (elNs st < st.mee.retrainAt → exec .dqsRetrain st = .next st) ∧
      ∀ (c : Fin 4) (rank hot : Bool),
        let bit : BitVec 8 := BitVec.ofNat 8 (2 ^ (2 * c.val + b2n rank))
        (rank = false ∨ st.img.content.dramRanks = true → exec (.mr4TemperatureReport c rank hot) st =
          .next (modMee st (fun m => { m with hot := if hot then m.hot ||| bit else m.hot &&& ~~~ bit }))) ∧
        (rank = true → st.img.content.dramRanks = false → exec (.mr4TemperatureReport c rank hot) st = .next st)) ∧
    (st.mee.ready = true → st.glb.halted = false → ∀ p rank i,
      rank = false ∨ st.img.content.dramRanks = true → lineKind st p = .data i →
      (∀ errs e, fetchCtr st 0 i = .error e → exec (.meeReadDone p rank errs) st = .next (meeEnd st (.error e))) ∧
      (∀ errs t, fetchCtr st 0 i = .ok t →
        (ctrOf t 0 i = 0 → exec (.meeReadDone p rank errs) st = .next (meeRelease t p (overWb t i (List.replicate 64 0)))) ∧
        (ctrOf t 0 i ≠ 0 →
          (∀ e, readBurst t p rank false errs = .error e → exec (.meeReadDone p rank errs) st = .next (meeEnd t (.error e))) ∧
          (∀ c u, readBurst t p rank false errs = .ok (c, u) →
            (∀ b, openData u i c = .ok b → exec (.meeReadDone p rank errs) st = .next (meeRelease u p (overWb u i b))) ∧
            (∀ e, openData u i c = .error e → exec (.meeReadDone p rank errs) st = .next (meeEnd u (.error e)))))) ∧
      (∀ w t, st.mee.wb.get? i = some w → mayWrite st p = true → mayWrite st (tagLine st i) = true → writeData st i w = .ok t →
        exec (.meeWriteBack p) st = .next t) ∧
      (st.mee.wb.get? i = none ∨ mayWrite st p = false → exec (.meeWriteBack p) st = .next st) ∧
      (∀ errs t b u, fetchCtr st 0 i = .ok t → flagA st Reg.drcCtl Fld.drcCtl_PATROL_EN = true → st.mee.dram.has p = true →
        readBurst (count t (Reg.drcCnt 4)) p rank true errs = .ok (b, u) →
          exec (.patrolScrub p rank errs) st = .next u))

/-- A beat without an error decodes as it is; a beat in which one of the ten symbols is wrong, in whatever bits, is
corrected, and the correction is the error of that symbol.  The first root of the generator is a free value of the
configuration, and the statement holds for every value of it. (R535, R536, 14_memory_protection.md) -/
def Obligations.OneSymbolOfABeatIsCorrected : Prop :=
  (decodeBeat (fun _ => 0) = some none) ∧
  ∀ (i : Nat) (e : BitVec 4), i < 10 → e ≠ 0 →
    decodeBeat (fun j => if j = i then e else 0) = some (some (i, e))

/-- With memory ready and MEE_ARC_CMD open: PARK of a LOADED slot whose key came from SAE_KEY into a free entry stores the
association, empties the slot and counts; LOAD of an entry that fits a free slot of its channel clears SAE_RESULT and
starts the installation of the entry's key and PN, which stays BUSY or, refused by the start rule, answers 6 with SAE
result 12; both act after a frame boundary of the channel. READ of an entry shows its status, DELETE frees and
zeroises it; for a free entry both answer 2. Nothing else changes. (R559, R560, R561, R562, 14_memory_protection.md) -/
def Obligations.ArchiveCommandsParkLoadReadAndDelete : Prop :=
  ∀ (st : State) (e : BitVec 20) (s : SliceId) (ch : ChIx) (an : An), st.mee.ready = true →
    let w (op : Nat) : Word := word [(Fld.meeArcCmd_OP, op), (Fld.meeArcCmd_ENTRY, e.toNat)]
    let st1 := slotCheck (boundary (wr st Reg.meeArcSel (word [(Fld.meeArcSel_SLICE, s.val), (Fld.meeArcSel_AN, an.val),
      (Fld.meeArcSel_CHANNEL, ch.val)])) s ch none) s ch an
    let c := chOf st1 s ch
    let x := slotOf st1 s ch an
    (cmdOpen st Reg.meeArcCmd = true → atOnce st Reg.meeArcSel = true → sliceEnabled st s = true →
      st1.mee.ready = true → sliceEnabled st1 s = true → instRefusal st1 c.inst = 0 →
      (x.state = .loaded → x.keySrc = false → st1.mee.arc.has e.toNat = false →
        exec (.park e s ch an) st = .next (arcDone (w 1) 0 (count (slotEmpty (arcPut st1 e.toNat
          { inst := c.inst, dirRx := c.dirRx, suite := c.suite, key := x.key, salt := x.salt, ssci := x.ssci, pn := x.pn })
          s ch an) (Reg.meeCnt 4)))) ∧
      (∀ y, st1.mee.arc.get? e.toNat = some y → c.valid = true → c.eccFail = false → x.state = .empty → c.epochMode = false →
        assocsOf st1 s c.inst < (inst st1 c.inst).shares[s].assocs → c.dirRx = y.dirRx → c.suite = y.suite → c.inst = y.inst →
        exec (.arcLoad e s ch an) st = .next (startInstall (setF st1 Reg.meeArcStat Fld.meeArcStat_SAE_RESULT 0) 2 1 s ch an
          y.key y.salt y.ssci y.pn false false 0
          (fun st => cmdBusy st Reg.meeArcCmd Fld.meeArcCmd_OP (w 2))
          (fun st => arcDone (w 2) 6 (setF st Reg.meeArcStat Fld.meeArcStat_SAE_RESULT 12))))) ∧
    (cmdOpen st Reg.meeArcCmd = true →
      (∀ y, st.mee.arc.get? e.toNat = some y →
        exec (.arcRead e) st = .next (arcDone (w 3) 0 (wr st Reg.meeArcStat (word [(Fld.meeArcStat_VALID, 1),
          (Fld.meeArcStat_DIR, b2n y.dirRx), (Fld.meeArcStat_SUITE, y.suite.val),
          (Fld.meeArcStat_SAE_RESULT, fld st Reg.meeArcStat Fld.meeArcStat_SAE_RESULT)]))) ∧
        exec (.arcDelete e) st = .next (arcDone (w 4) 0 (arcFree st e.toNat))) ∧
      (st.mee.arc.get? e.toNat = none →
        exec (.arcRead e) st = .next (arcDone (w 3) 2 st) ∧ exec (.arcDelete e) st = .next (arcDone (w 4) 2 st)))

/-- With no halt, and on a powered slice where the memory is a slice's: a correctable word counts in GLB, those of codes 1
to 4 in the counter of their block too, and nothing else changes; the peer tables of codes 5 and 6 have no correction.
An uncorrectable word of a slot, channel, SCI hash entry or node is handled as its block says; of a peer table it is a
parity error; an uncorrectable rule or fragment entry is freed, counted and reported; an uncorrectable cell drops its
frame; an uncorrectable on-chip part of a counter is set to 0, counted and reported; code 11 stops the device with
cause 5, code 13 with cause 9, and code 12 is a failure of the memory engine. During a halt, for code 0, and on a
slice without power the scrub does nothing. (R264, R307, R701, R702, R703, 20_fault_model.md) -/
def Obligations.ScrubOfOnChipMemoryActsByTheTable : Prop :=
  ∀ (st : State) (s : SliceId) (ix : Nat),
    (st.glb.halted = false → sliceOn st s = true →
      let u := sramUncorr st
      (∀ c : Fin 14, c ≠ 0 → c ≠ 5 → c ≠ 6 → exec (.sramScrub c s ix false) st =
        .next (let t := count st (Reg.glbFltCnt 0)
          if c.val ≤ 3 then count t (Reg.saeCnt s (c.val + 1)) else if c.val = 4 then count t (Reg.ktrCnt 3) else t)) ∧
      exec (.sramScrub 1 s ix true) st = .next (slotEcc st s (Fin.ofNat 16384 (ix / 4)) (Fin.ofNat 4 ix)) ∧
      exec (.sramScrub 2 s ix true) st = .next (chanEcc st s (Fin.ofNat 16384 ix)) ∧
      exec (.sramScrub 3 s ix true) st = .next (hashEcc st s ix) ∧
      exec (.sramScrub 4 s ix true) st = .next (nodeEcc st ix) ∧
      exec (.sramScrub 5 s ix true) st = .next (parityError u s .mac ix) ∧
      exec (.sramScrub 6 s ix true) st = .next (parityError u s .lpm ix) ∧
      exec (.sramScrub 7 s ix true) st = .next (sramUe
        (modRules st s (if ix < 8192 then .client else .line) (fun m => m.del (ix % 8192))) 7 s.val (ix % 8192)) ∧
      exec (.sramScrub 8 s ix true) st = .next (sramUe (modFrags st s (fun l => l.eraseIdx ix)) 8 s.val ix) ∧
      exec (.sramScrub 9 s ix true) st = .next (cellScrub st s ix) ∧
      exec (.sramScrub 10 s ix true) st =
        .next (sramUe (modSl st s (fun x => ctrUe (ix / 2 ^ 20) x (ix % 2 ^ 20))) 10 s.val (ix % 2 ^ 20)) ∧
      exec (.sramScrub 11 s ix true) st = .next (carmineHalt u 5 11 s.val ix 39 (Config.detail 39 [5])) ∧
      exec (.sramScrub 12 s ix true) st = .next (meeFail u 7 7 0 0) ∧
      exec (.sramScrub 13 s ix true) st = .next (carmineHalt u 9 13 s.val ix 39 (Config.detail 39 [9]))) ∧
    (st.glb.halted = true → ∀ code ue, exec (.sramScrub code s ix ue) st = .next st) ∧
    (∀ ue, exec (.sramScrub 0 s ix ue) st = .next st) ∧
    (sliceOn st s = false → ∀ code : Fin 14, codeOfSlice code = true → ∀ ue, exec (.sramScrub code s ix ue) st = .next st)

/-- The sources that trip in one tick are noted by detector and form one alarm group in source order. Outside the hold-up,
a single watched source whose cause is not present becomes present, counts and forms a group with its response; one
whose cause is present, or that is not watched, alarms nothing; a cause absent for 1 ms is no longer present. One
detector alone for 10 ms counts and trips source 29, and not before. LOCK, once, is recorded; ACK ends a SQUELCH
without a present cause and is recorded, else answers 1, or 2 without a SQUELCH; both bits together answer 4. A write
of the response registers sets each field, and after LOCK only raises it. The start-up check is made once, after step
4 of the start-up, keeps the delays of the loops with a PRBS, and alarms the causes it finds with the image's
responses. (R565, R569, R570, R573, R574, R576, R582, 15_tamper_evidence.md) -/
def Obligations.TamperSourcesTripAndAreCleared : Prop :=
  ∀ st : State,
    (∀ srcs, exec (.tamperTrip srcs) st =
      .next (let r := trips (srcs.foldl (fun st x => detReport st x.1 x.2) st) (srcs.map (fun x =>
          (x.1, (srcs.foldl (fun st x => detReport st x.1 x.2) st).tmp.resp[x.1], [x.2.val])))
        alarmGroup r.2 r.1 false)) ∧
    (∀ n : Fin 30, exec (.causeCleared n) st = .next (modSrc st n (fun x => { x with present := false, alone := none }))) ∧
    (st.glb.holdup = false → ∀ (n : Fin 30) (det : Fin 3),
      (tmpWatched st n = true → st.tmp.src[n].present = false →
        exec (.tamperTrip [(n, det)]) st = .next (alarmGroup
          (count (modSrc (detReport st n det) n (fun x => { x with present := true })) (Reg.tmpCnt 0))
          [{ n := n, resp := st.tmp.resp[n], items := [det.val] }] false)) ∧
      (tmpWatched st n = false ∨ st.tmp.src[n].present = true →
        exec (.tamperTrip [(n, det)]) st = .next (detReport st n det)) ∧
      (detsDisagree st n det = true → st.tmp.src[(29 : Fin 30)].present = false → n ≠ 29 →
        exec (.monitor n det) st = .next (alarmGroup
          (count (modSrc (count (modSrc st n (fun x => { x with alone := none })) (Reg.tmpCnt 1)) 29
            (fun x => { x with present := true })) (Reg.tmpCnt 0))
          [{ n := 29, resp := st.tmp.resp[(29 : Fin 30)], items := [n.val, det.val] }] false))) ∧
    (∀ n det, detsDisagree st n det = false → exec (.monitor n det) st = .next st) ∧
    (atOnce st Reg.tmpCmd = true →
      (st.tmp.locked = false → exec (.lock false) st =
        .next (tmpResult 0 (logRec (modTmp st (fun t => { t with locked := true })) 41 (Config.detail 41 [])))) ∧
      (st.tmp.locked = true → exec (.lock false) st = .next (tmpResult 3 st)) ∧
      exec (.lock true) st = .next (tmpResult 4 st) ∧ exec (.tamperAck true) st = .next (tmpResult 4 st) ∧
      (st.tmp.squelched = false → exec (.tamperAck false) st = .next (tmpResult 2 st)) ∧
      (st.tmp.squelched = true →
        ((∃ n : Fin 30, st.tmp.src[n].squelching = true ∧ st.tmp.src[n].present = true) →
          exec (.tamperAck false) st = .next (tmpResult 1 st)) ∧
        ((∀ n : Fin 30, st.tmp.src[n].squelching = true → st.tmp.src[n].present = false) →
          exec (.tamperAck false) st = .next (tmpResult 0 (logRec (modTmp st (fun t =>
            { t with squelched := false, src := t.src.map (fun x => { x with squelching := false }) })) 42 (Config.detail 42 [])))))) ∧
    (∀ hi v, atOnce st (respReg hi) = true → ∃ t, exec (.tmpRespWrite hi v) st = .next t ∧
      t = { st with tmp := { st.tmp with resp := t.tmp.resp } } ∧
      ∀ n : Fin 30, t.tmp.resp[n] = if hi = decide (16 ≤ n.val) then
        (let new : Fin 4 := Fin.ofNat 4 (v.toNat >>> (2 * (n.val % 16)))
         if st.tmp.locked = true ∧ new < st.tmp.resp[n] then st.tmp.resp[n] else new) else st.tmp.resp[n]) ∧
    (∀ causes delays, (booted st = false ∨ st.tmp.checked = true → exec (.startupCheckDone causes delays) st = .next st) ∧
      (booted st = true → st.tmp.checked = false →
        let st1 := modTmp st (fun t => { t with
          checked := true, delays := delays.mapFinIdx (fun i d _ => if prbsLoop st i then delayField d else 0) })
        let found := fins30.filter (causeAt st1 causes delays)
        (found = [] → exec (.startupCheckDone causes delays) st = .next st1) ∧
        exec (.startupCheckDone causes delays) st =
          .next (let r := trips st1 (found.map (fun n => (n, st.img.content.resp[n], [2])))
            alarmGroup r.2 r.1 true)))

/-- The first record that waits, where one may be written (the log READY with room, and in the hold-up as long as its
source may): a good read-back writes its 64 bytes at the head and moves on; a first bad one leaves it waiting for a
second try, with nothing but the 64 bytes at the head touched in any memory; after a second bad one it waits for the
next position; TAMPER_RECORD_COMMIT does the same for a tamper source's record. Where none may be written, or none
waits, nothing is; a scan of an empty region makes the log READY at position 0. With EVL_CMD open, or in the halt,
READ of a written position loads its bytes, VERIFY leaves everything but its registers, and a position at or above the
head answers 2; APPEND, with EVL_CMD open, queues a record of source 40 and stays BUSY, or answers 3 where the log is
full. (R586, R588, R590, R592, R698, 15_tamper_evidence.md) -/
def Obligations.LogRecordsAreWrittenReadAndVerified : Prop :=
  ∀ st : State,
    (∀ r rs, st.evl.queue = r :: rs →
      (logWrites st r = true →
        exec (.evlRecordCommit true) st = .next (logCommitted (logWrite st st.evl.head (logBytes st r)) r) ∧
        (r.source.val < 30 →
          exec (.tamperRecordCommit true) st = .next (logCommitted (logWrite st st.evl.head (logBytes st r)) r) ∧
          exec (.tamperRecordCommit false) st = exec (.evlRecordCommit false) st) ∧
        (st.evl.tries % 2 = 0 → ∃ t, exec (.evlRecordCommit false) st = .next t ∧
          t.evl = { st.evl with tries := st.evl.tries + 1 } ∧ t.regs = st.regs ∧ t.slices = st.slices ∧
          ∀ a, (a < logBase + 64 * st.evl.head ∨ logBase + 64 * st.evl.head + 64 ≤ a) →
            memByte t.mram a = memByte st.mram a) ∧
        (st.evl.tries % 2 = 1 → st.evl.head + 1 < 65536 → ∃ t, exec (.evlRecordCommit false) st = .next t ∧
          t.evl = { st.evl with tries := st.evl.tries + 1, head := st.evl.head + 1 } ∧ t.slices = st.slices)) ∧
      (logWrites st r = false → ∀ ok, exec (.evlRecordCommit ok) st = .next st ∧ exec (.tamperRecordCommit ok) st = .next st) ∧
      (30 ≤ r.source.val → ∀ ok, exec (.tamperRecordCommit ok) st = .next st)) ∧
    (st.evl.queue = [] → ∀ ok, exec (.evlRecordCommit ok) st = .next st ∧ exec (.tamperRecordCommit ok) st = .next st) ∧
    (st.evl.ready = false →
      ((∀ c ∈ st.mram, ¬ (logBase ≤ c.1 ∧ c.1 < logBase + 64 * logSize)) →
        exec .evlScanDone st = .next { st with evl := { st.evl with ready := true, head := 0, nextSeq := 0 } })) ∧
    (st.evl.ready = true → exec .evlScanDone st = .next st) ∧
    (cmdOpen st Reg.evlCmd = true ∨ (st.glb.halted = true ∧ fld st Reg.evlCmd busyF = 0) → st.evl.ready = true →
      ∀ ix : BitVec 16,
      (ix.toNat < st.evl.head →
        exec (.logRead ix) st = .next (evlDone (evlWord 1 ix) 0 ((List.range 16).foldl (fun t i =>
          wr t (Reg.evlRdata i) (BitVec.ofNat 32 (leVal (sub (logRead st ix.toNat) (4 * i) 4)))) st)) ∧
        ∃ t, exec (.verify ix) st = .next t ∧ t = { st with regs := t.regs } ∧
          rd t (Reg.evlVerify 3) = word [(Fld.evlVerify3_PASS,
            countP (fun k => verifyAt st (ix.toNat + k) == 0) (List.range (st.evl.head - ix.toNat)))]) ∧
      (st.evl.head ≤ ix.toNat → exec (.logRead ix) st = .next (evlDone (evlWord 1 ix) 2 st) ∧
        exec (.verify ix) st = .next (evlDone (evlWord 3 ix) 2 st))) ∧
    (cmdOpen st Reg.evlCmd = true → st.evl.ready = true →
      (logFull st = false →
        let q := logRec st 40 (((List.range 6).map (fun i => leBytes 4 (rd st (Reg.evlSw i)).toNat)).flatten) 128
        exec .append st = .next (cmdBusy { q with evl := { q.evl with appendPend := true } } Reg.evlCmd
          Fld.evlCmd_OP (evlWord 2 0))) ∧
      (logFull st = true → exec .append st = .next (evlDone (evlWord 2 0) 3 st)))

/-- Whatever the state and whatever else is in the group, a group of alarms whose strongest response is HALT or ZEROISE
leaves the device halted, and one whose strongest is ZEROISE leaves clearing due or done; with SQUELCH, in a device
that is neither halted nor in the hold-up, it leaves the device squelched. A device that was not in the halt or the
Umber state holds no frame afterwards and does not own. (R571, R575, R576, R692, R696, 15_tamper_evidence.md,
20_fault_model.md) -/
def Obligations.AlarmsThatHaltStopTheDevice : Prop :=
  ∀ (st : State) (g : List Alarm) (start : Bool), g ≠ [] →
    let t := alarmGroup st g start
    (2 ≤ strongest g → t.glb.halted = true ∧
      (st.glb.halted = false → framesAll t = 0 ∧ t.twin.own = false ∧ t.twin.txEn = false)) ∧
    (strongest g = 3 → t.glb.zeroised = true ∨ t.tmp.zeroisePend.isSome = true) ∧
    (strongest g = 1 → st.glb.halted = false → st.glb.holdup = false → t.tmp.squelched = true ∧ t.glb.halted = false ∧
      (st.tmp.squelched = false → framesAll t = 0 ∧ t.twin.own = false))

/-- When clearing is due or under way, ZEROISE_DONE leaves the device zeroised with no node, no session key, no capsule
key in use, no request that holds a key, and only zero bytes in the keys and hash keys of every slot, every tributary
position and every archive entry, and in K_M and H_M; memory is no longer ready. When it is not due, nothing changes.
(R571, R572, 15_tamper_evidence.md) -/
def Obligations.ZeroiseLeavesNoKey : Prop :=
  ∀ st : State,
    (st.tmp.zeroising = true → ∃ t, exec .zeroiseDone st = .next t ∧ t.glb.zeroised = true ∧ t.ktr.nodes = [] ∧
      t.ktr.capNode = none ∧ t.twin.sessKey = [] ∧ t.twin.keyed = false ∧ t.jnl.reqs = [] ∧ t.jnl.writing = none ∧
      t.restore = none ∧ t.mee.ready = false ∧ (∀ b ∈ t.mee.km ++ t.mee.hm, b = 0) ∧ t.mee.wb = [] ∧ t.mee.cache = [] ∧
      (∀ s ch an, ∀ b ∈ (slotOf t s ch an).key ++ (slotOf t s ch an).h, b = 0) ∧
      (∀ s n x, trib? t s n = some x → ∀ p : Fin 2, ∀ b ∈ x.pos[p].key ++ x.pos[p].h, b = 0) ∧
      (∀ n e, t.mee.arc.get? n = some e → ∀ b ∈ e.key, b = 0) ∧
      (∀ i, i < 8 → rd t (Reg.ktrKey i) = 0 ∧ rd t (Reg.ktrMord i) = 0) ∧
      t.evl = st.evl ∧ t.mram = st.mram) ∧
    (st.tmp.zeroising = false → (∀ a, st.tmp.zeroisePend = some a → elNs st < a + 11000) → exec .zeroiseDone st = .next st)

/-- Each of the four resets answers a state in which the image is LOADING under the reset cause, no halt is in force,
every block is as right after reset, and only the queue, the fuses, the image sources, the input levels, the MRAM die
and the model's own records are kept; the boot count in the MRAM goes up by one, saturating, and no other byte of it
changes; every detector's seed is nonzero. After a power-on reset the keys are the two of Table 7-4, the straps are as
sampled, and the port of the test logic is reset too; a device reset keeps those keys, the straps, the bad positions
of the journal and the scan chain's registers. A device reset while a reset runs, and a write of GLB_RESET with
another key, change nothing. Where the random source fails, the same state is left in the Carmine halt of cause 7,
with its record. (R634, R635, R636, R606, R607, R568, R301, R371, 16_image_boot.md, 17_power_clock_reset.md) -/
def Obligations.ResetsStartTheDeviceAfresh : Prop :=
  ∀ st : State, Memory.wf st.mram = true →
    let count32 (m : Memory) : Nat := leVal (memRead m mramBootAddr 4)
    let fresh (cause : Fin 4) (p d dbg : Bool) (keys : KtrSt) (bad : NMap Nat) (tap : TapSt) (t : State) : Prop :=
      t = { State.reset with
        pending := st.pending, fuses := st.fuses, sources := st.sources, mram := t.mram, out := t.out, lastRead := st.lastRead
        freeCount := t.freeCount, primary := p, debugPin := d, debug := dbg, ktr := keys
        glb := { resetCause := cause, gpioIn := st.glb.gpioIn, pwrfailLow := st.glb.pwrfailLow }
        twin := { partnerOwn := st.twin.partnerOwn }, jnl := { badPos := bad }
        img := { sl := Vector.ofFn (fun s => if sliceExists st s then .off else .absent) }
        tap := { tap with driving := false }, tmp := { seeds := t.tmp.seeds } } ∧
      t.img.state = .loading ∧ t.glb.halted = false ∧ (∀ i : Fin 16, t.tmp.seeds[i] ≠ 0) ∧
      count32 t.mram = min (2 ^ 32 - 1) (count32 st.mram + 1) ∧
      ∀ a, (a < mramBootAddr ∨ mramBootAddr + 4 ≤ a) → memByte t.mram a = memByte st.mram a
    let strapped (p d : Bool) : State := { st with primary := p, debugPin := d, debug := d && !st.fuses.debugNever }
    let kept : KtrSt := { fpKey := st.ktr.fpKey, macKey := st.ktr.macKey }
    let failed (t : State) : State := carmineHalt t 7 0 0 0 39 (Config.detail 39 [7])
    (∀ p d, ∃ t, exec (.powerOnReset p d true) st = .next t ∧ exec (.powerOnReset p d false) st = .next (failed t) ∧
      fresh 0 p d (d && !st.fuses.debugNever) (bootKeys (strapped p d)) [] {} t) ∧
    (∃ t, exec (.supplyMonitorReset true) st = .next t ∧ exec (.supplyMonitorReset false) st = .next (failed t) ∧
      fresh 1 st.primary st.debugPin (st.debugPin && !st.fuses.debugNever) (bootKeys (strapped st.primary st.debugPin)) [] {} t) ∧
    (resetting st = false →
      (∃ t, exec (.deviceReset true) st = .next t ∧ exec (.deviceReset false) st = .next (failed t) ∧
        fresh 2 st.primary st.debugPin st.debug kept st.jnl.badPos st.tap t) ∧
      (∃ t, exec (.glbReset 0xD1 true) st = .next t ∧ exec (.glbReset 0xD1 false) st = .next (failed t) ∧
        fresh 3 st.primary st.debugPin st.debug kept st.jnl.badPos st.tap t)) ∧
    (resetting st = true → ∀ trng, exec (.deviceReset trng) st = .next st ∧ exec (.glbReset 0xD1 trng) st = .next st) ∧
    (∀ key trng, key ≠ 0xD1 → exec (.glbReset key trng) st = .next st) ∧
    (∀ t : State, t.glb.halted = false → t.evl = {} → (failed t).glb.halted = true ∧ (failed t).glb.cause = 7 ∧
      ∃ r, (failed t).evl.queue = [r] ∧ r.source = 39)

/-- While LOADING and not halted, a try takes the preferred MRAM slot, then the other, then the flash, records the check's
result, and loads a valid image; after an invalid flash image the state is NO_IMAGE with its event. Otherwise, and
with every source tried, a try changes nothing. A VERIFIED device whose memory is trained and journal ready becomes
RUNNING, raises the event and enables the ports that are up; otherwise nothing changes. (R602, R603, R606, R53,
16_image_boot.md) -/
def Obligations.ImageSourcesAreTriedInOrder : Prop :=
  ∀ st : State,
    (st.img.state = .loading → st.glb.halted = false →
      (∀ (p n : Fin 3), nextSource st = some (p, n) →
        let c := checkImage st st.sources[n] none
        let t := modImg st (fun i => { i with res := i.res.set p.val c })
        (c = 1 → exec .imageSourceTry st = .next (loadImage (n.castLE (by omega)) st.sources[n] t)) ∧
        (c ≠ 1 → p ≠ 2 → exec .imageSourceTry st = .next t) ∧
        (c ≠ 1 → p = 2 → exec .imageSourceTry st =
          .next (raise (modImg t (fun i => { i with state := .noImage })) { block := 1, index := 0 }))) ∧
      (nextSource st = none → exec .imageSourceTry st = .next st)) ∧
    (let r (p : Nat) : Fin 16 := st.img.res.toList.getD p 0
     (r 0 = 0 → nextSource st = some (0, (prefSlot st).castLE (by omega))) ∧
     (r 0 ≠ 0 → r 1 = 0 → nextSource st = some (1, (1 - prefSlot st).castLE (by omega))) ∧
     (r 0 ≠ 0 → r 1 ≠ 0 → r 2 = 0 → nextSource st = some (2, 2)) ∧
     (r 0 ≠ 0 → r 1 ≠ 0 → r 2 ≠ 0 → nextSource st = none)) ∧
    (st.img.state ≠ .loading ∨ st.glb.halted = true → exec .imageSourceTry st = .next st) ∧
    (st.img.state = .verified → st.mee.trained = true → st.jnl.ready = true → st.glb.halted = false →
      exec .bootDone st = .next (enablePorts (raise (modImg st (fun i => { i with state := .running })) { block := 1, index := 1 }))) ∧
    (st.img.state ≠ .verified ∨ st.mee.trained = false ∨ st.jnl.ready = false ∨ st.glb.halted = true →
      exec .bootDone st = .next st)

/-- Whenever a try of a source or a DOWNLOAD takes the device from LOADING or NO_IMAGE to VERIFIED, the image that it
loaded names a key slot that is programmed and not revoked, carries the public key whose hash is fused there, is
signed by that key over all its bytes before the signature, and has a security version not below the fused one. (R597,
R598, R602, R603, 16_image_boot.md) -/
def Obligations.OnlySignedImagesAreLoaded : Prop :=
  ∀ (st t : State) (img : ImageSrc), (st.img.state = .loading ∨ st.img.state = .noImage) → t.img.state = .verified →
    let signed (x : ImageSrc) : Prop := ∃ k : KeyFuse, st.fuses.keys.toList[imgKeyIx x.bytes]? = some k ∧
      k.programmed = true ∧ k.revoked = false ∧ k.hash = sha384 (sub x.bytes 68 96) ∧ st.fuses.svn ≤ imgSvn x.bytes ∧
      ecdsaVerify (sub x.bytes 68 96) (sha384 (x.bytes.take (imgLength x.bytes - 96))) (sub x.bytes (imgLength x.bytes - 96) 96) = true
    (exec .imageSourceTry st = .next t → ∃ n : Fin 3, signed st.sources[n]) ∧
    (exec (.download img) st = .next t → signed (hostImage (withImage false img st) false))

/-- In NO_IMAGE a DOWNLOAD of parameters in range checks the image, records the result and loads a valid one. Before step
4 the other commands answer 8. With IMG_CMD open, and parameters in range: DOWNLOAD answers 2; STAGE into the slot in
use answers 4, else stores an image that passes and answers 5 for one that fails, storing nothing; SET_PREF stores the
preferred slot (with the journal closed STAGE and SET_PREF write nothing and stay BUSY: the model's choice, log entry
156); ADVANCE_SVN raises the fused version to the running image's; ADD_KEYS fuses the image's hashes into slots not
programmed; REVOKE_KEY revokes a key, unless it is the running image's or the last one: 7. (R599, R600, R601, R603,
R604, R608, R615, 16_image_boot.md) -/
def Obligations.ImageCommandsLoadStageAndFuse : Prop :=
  ∀ (st : State) (img : ImageSrc),
    let u := withImage false img st
    let h := hostImage u false
    let w1 := word [(Fld.imgCmd_OP, 1)]
    let c := checkImage u h none
    (st.img.state = .noImage → st.glb.halted = false → fld st Reg.imgCmd busyF = 0 → imgBadParam u 0 = false →
      let t := modImg u (fun i => { i with res := i.res.set 3 c })
      (c = 1 → exec (.download img) st = .next (imgChecked w1 0 1 (loadImage 3 h t))) ∧
      (c ≠ 1 → exec (.download img) st = .next (imgChecked w1 5 c.val t))) ∧
    (booted st = false → st.glb.halted = false → fld st Reg.imgCmd busyF = 0 →
      let early (t : State) (fs : List (Field × Nat)) : State :=
        wr t Reg.imgCmd (putF (cmdWord t Reg.imgCmd (word fs)) Fld.imgCmd_RESULT 8)
      (∀ slot, exec (.stage slot img) st = .next (early u [(Fld.imgCmd_OP, 2), (Fld.imgCmd_SLOT, b2n slot)]) ∧
        exec (.setPref slot) st = .next (early st [(Fld.imgCmd_OP, 3), (Fld.imgCmd_SLOT, b2n slot)])) ∧
      exec .advanceSvn st = .next (early st [(Fld.imgCmd_OP, 4)]) ∧
      exec .addKeys st = .next (early st [(Fld.imgCmd_OP, 5)]) ∧
      ∀ k, exec (.revokeKey k) st = .next (early st [(Fld.imgCmd_OP, 6), (Fld.imgCmd_KEY, k.val)])) ∧
    (cmdOpen st Reg.imgCmd = true →
      (imgBadParam u 0 = false → exec (.download img) st = .next (imgDone w1 2 u)) ∧
      (∀ slot, let w := word [(Fld.imgCmd_OP, 2), (Fld.imgCmd_SLOT, b2n slot)]
        imgBadParam u 0 = false →
        (st.img.source.val = b2n slot → exec (.stage slot img) st = .next (imgDone w 4 u)) ∧
        (st.img.source.val ≠ b2n slot → c = 1 → exec (.stage slot img) st =
          .next (if st.jnl.closed then cmdBusy u Reg.imgCmd Fld.imgCmd_OP w
            else imgChecked w 0 1 { u with sources := u.sources.set (Fin.ofNat 2 (b2n slot)).val h })) ∧
        (st.img.source.val ≠ b2n slot → c ≠ 1 → exec (.stage slot img) st = .next (imgChecked w 5 c.val u))) ∧
      (∀ slot, let w := word [(Fld.imgCmd_OP, 3), (Fld.imgCmd_SLOT, b2n slot)]
        exec (.setPref slot) st = .next (if st.jnl.closed then cmdBusy st Reg.imgCmd Fld.imgCmd_OP w
          else imgDone w 0 (setPrefSlot st slot))) ∧
      exec .advanceSvn st = .next (imgDone (word [(Fld.imgCmd_OP, 4)]) 0
        { st with fuses := { st.fuses with svn := max st.fuses.svn st.img.svn } }) ∧
      exec .addKeys st = .next (imgDone (word [(Fld.imgCmd_OP, 5)]) 0
        { st with fuses := { st.fuses with keys := st.img.content.keys.foldl (fun ks p =>
          upd ks p.1 (fun k => if k.programmed then k else { k with hash := p.2, programmed := true })) st.fuses.keys } }) ∧
      ∀ k : Fin 4, let w := word [(Fld.imgCmd_OP, 6), (Fld.imgCmd_KEY, k.val)]
        let keys := upd st.fuses.keys k (fun x => { x with revoked := true })
        let last := decide (k = st.img.keyIndex) || !keys.toList.any (fun x => x.programmed && !x.revoked)
        (last = true → exec (.revokeKey k) st = .next (imgDone w 7 st)) ∧
        (last = false → exec (.revokeKey k) st = .next (imgDone w 0 { st with fuses := { st.fuses with keys := keys } })))

/-- With IMG_SLICE_CMD open, DRAIN of a RUNNING slice flushes its Saffron frames and makes it DRAINING for at most 100 us;
of another slice it answers 2. DRAINING ends when the slice holds no frame, or at 100 us with the rest discarded and
counted. LOAD of a DRAINED or OFF slice, with parameters in range, holds the image and stays BUSY, out of range it
answers 3; a check that fails answers 5, one that passes resets the slice, applies the structure and the defaults,
extends the running hash and starts the slice. A LOADING slice is RUNNING when its enabled ports are up or its 150 ms
are over, and not before. RESUME returns a DRAINED slice to RUNNING, its state unchanged; of a DRAINING slice LOAD,
with parameters in range, and RESUME answer 6, of any other 2. (R609, R610, R611, R612, R613, R637, 16_image_boot.md) -/
def Obligations.SlicesDrainLoadAndResume : Prop :=
  ∀ (st : State) (s : SliceId),
    (cmdOpen st Reg.imgSliceCmd = true → ∀ off : Bool,
      (st.img.sl[s] = .running → exec (.drain s off) st = .next (sliceDone (sliceWord 1 s off) 0
        (modImg (modImgSl (flushSlice st s) s .draining) (fun i => { i with
          drainUntil := i.drainUntil.set s (elNs st + 100000), powerOff := i.powerOff.set s off })))) ∧
      (st.img.sl[s] ≠ .running → exec (.drain s off) st = .next (sliceDone (sliceWord 1 s off) 2 st))) ∧
    (st.img.sl[s] = .draining →
      (framesIn (sl st s) = 0 → (∀ f ∈ st.saf, f.s ≠ s) → exec (.drainDone s) st = .next (sliceDrained st s)) ∧
      (st.img.drainUntil[s] ≤ elNs st → ∃ t, exec (.drainTimeout s) st = .next (sliceDrained (settle t s) s) ∧
        t = { modSl st s dropFrames with
          saf := st.saf.filter (fun f => f.s != s)
          img := { st.img with drainDiscard := BitVec.ofNat 16 (min 65535 (st.img.drainDiscard.toNat +
            (framesIn (sl st s) + countP (fun f => f.s == s) st.saf))) } })) ∧
    (st.img.sl[s] ≠ .draining → exec (.drainDone s) st = .next st ∧ exec (.drainTimeout s) st = .next st) ∧
    (∀ img, cmdOpen st Reg.imgSliceCmd = true →
      let u := withImage true img st
      let w := sliceWord 2 s false
      (imgBadParam u 1 = false → (st.img.sl[s] = .drained ∨ st.img.sl[s] = .off) → exec (.sliceLoad s img) st =
        .next (cmdBusy (modImg u (fun i => { i with
          checking := some (s, hostImage u true), loadUntil := i.loadUntil.set s (elNs st + 150000000) })) Reg.imgSliceCmd Fld.imgSliceCmd_OP w)) ∧
      (imgBadParam u 1 = false → st.img.sl[s] = .draining → exec (.sliceLoad s img) st = .next (sliceDone w 6 u)) ∧
      (imgBadParam u 1 = true → (st.img.sl[s] = .drained ∨ st.img.sl[s] = .off) →
        exec (.sliceLoad s img) st = .next (sliceDone w 3 u)) ∧
      (imgBadParam u 1 = false → st.img.sl[s] ≠ .draining → st.img.sl[s] ≠ .drained → st.img.sl[s] ≠ .off →
        exec (.sliceLoad s img) st = .next (sliceDone w 2 u))) ∧
    (st.img.checking = none → exec .sliceLoadChecked st = .next st) ∧
    (∀ img, st.img.checking = some (s, img) →
      let c := checkImage st img (some s)
      let t := setF (modImg st (fun i => { i with checking := none })) Reg.imgCmd Fld.imgCmd_CHECK c.val
      let w := rd st Reg.imgSliceCmd
      (c ≠ 1 → exec .sliceLoadChecked st = .next (sliceDone w 5 t)) ∧
      (c = 1 →
        let r := sliceReset t s
        exec .sliceLoadChecked st = .next (sliceDone w 0 (startSlice (modImgSl
          (modImg { r with defaults := img.content.defaults.foldl (fun m p => m.put p.1 p.2) r.defaults } (fun i => { i with
            content := { i.content with slices := i.content.slices.set s img.content.slices[s] }
            runHash := sha384 (i.runHash ++ sha384 (imgBytes img.bytes)) })) s .loading) s)))) ∧
    (let up : Prop := ∀ d k, (portCfg st d s k).enabled = true → portUp st d s k = true
     (st.img.sl[s] = .loading → up ∨ st.img.loadUntil[s] ≤ elNs st →
        exec (.sliceRunning s) st = .next (enablePorts (modImgSl st s .running))) ∧
     (st.img.sl[s] ≠ .loading ∨ (¬ up ∧ elNs st < st.img.loadUntil[s]) → exec (.sliceRunning s) st = .next st)) ∧
    (cmdOpen st Reg.imgSliceCmd = true →
      let w := sliceWord 3 s false
      (st.img.sl[s] = .drained → exec (.resume s) st = .next (sliceDone w 0 (enablePorts (modImgSl st s .running)))) ∧
      (st.img.sl[s] = .draining → exec (.resume s) st = .next (sliceDone w 6 st)) ∧
      (st.img.sl[s] ≠ .drained → st.img.sl[s] ≠ .draining → exec (.resume s) st = .next (sliceDone w 2 st)))

/-- On a RUNNING slice, an interval without emergency and with the loop free asks for 5 mV more below SLACK_LO, 5 mV less
above SLACK_HI, both within VMIN and VMAX, and nothing where that is no change; an emergency is counted, raised, holds
the loop for 1 ms, and asks for VMAX unless the loop is frozen or a transaction has failed; a request that is not
acknowledged holds it for 100 ms. A window powers an engine where fewer are left than the slice must keep, or when the
load is above UP_THR and the pool may grow, and removes one from the pool after 1 ms below DOWN_THR; a frozen pool
does only the first. A removed engine is gated when it is drained; one that passes its test joins the pool, one that
fails, as it is powered up or in service, is out of use and reported. Otherwise nothing changes. (R623, R624, R626,
R628, R44, R45, R46, R47, R482, 17_power_clock_reset.md, 01_architecture.md) -/
def Obligations.PowerLoopsFollowTheirTables : Prop :=
  ∀ (st : State) (s : SliceId) (d : Side),
    (st.img.sl[s] = .running → st.glb.halted = false → ∀ (slack : BitVec 5) (ack : Bool) (mv : BitVec 10),
      let t := modAvs st s (fun a => { a with slack := slack, reported := if ack then mv else a.reported })
      let v := avsNext st s slack.toNat
      let e := raise (count (modAvs t s (fun a => { a with emergUntil := some (elNs st + 1000000) })) (Reg.pwrCnt 1))
        { block := 2, index := 0 }
      (avsHeld st s = false →
        (v = (st.avs[s]).requested.toNat → exec (.avsInterval s slack false ack mv) st = .next t) ∧
        (v ≠ (st.avs[s]).requested.toNat → exec (.avsInterval s slack false ack mv) st = .next (avsRequest t s v ack))) ∧
      (avsHeld st s = true → exec (.avsInterval s slack false ack mv) st = .next t) ∧
      (avsCfg st s Fld.pwrAvsCfg_FRZ = 0 → (st.avs[s]).failUntil = none →
        exec (.avsInterval s slack true ack mv) st = .next (avsRequest e s (avsMax st s) ack)) ∧
      (avsCfg st s Fld.pwrAvsCfg_FRZ ≠ 0 ∨ (st.avs[s]).failUntil ≠ none →
        exec (.avsInterval s slack true ack mv) st = .next e)) ∧
    (st.img.sl[s] ≠ .running ∨ st.glb.halted = true →
      ∀ slack em ack mv, exec (.avsInterval s slack em ack mv) st = .next st) ∧
    (∀ a, (st.avs[s]).emergUntil = some a →
      (a ≤ elNs st → exec (.avsEmergEnd s) st = .next (modAvs st s (fun x => { x with emergUntil := none }))) ∧
      (elNs st < a → exec (.avsEmergEnd s) st = .next st)) ∧
    (∀ a, (st.avs[s]).failUntil = some a →
      (a ≤ elNs st → exec (.avsHoldEnd s) st = .next (modAvs st s (fun x => { x with failUntil := none }))) ∧
      (elNs st < a → exec (.avsHoldEnd s) st = .next st)) ∧
    (sliceOn st s = true → st.glb.halted = false → ∀ load : BitVec 7,
      let p := poolOf st s d
      let low := decide (load.toNat < engDown st s d)
      let since := if low then p.lowSince.or (some (elNs st - 10000)) else none
      let t := modPool st s d (fun p => { p with load := load, lowSince := since })
      let more := modPool t s d (fun p => { p with rising := p.rising + 1 })
      let grow := engUp st s d < load.toNat ∧ enginesOn p < engMax st s d ∧ enginesOn p + p.failed < 10
      (engShort t s d = true → exec (.engineLoopWindow s d load) st = .next more) ∧
      (engShort t s d = false →
        (engFrozen st s d = true → exec (.engineLoopWindow s d load) st = .next t) ∧
        (engFrozen st s d = false →
          (grow → exec (.engineLoopWindow s d load) st = .next more) ∧
          (¬ grow → ∀ a, since = some a → a + 1000000 ≤ elNs st → engMin st s d < p.inPool →
            exec (.engineLoopWindow s d load) st =
              .next (modPool t s d (fun p => { p with inPool := p.inPool - 1, draining := p.draining + 1 }))) ∧
          (¬ grow → (∀ a, since = some a → elNs st < a + 1000000) → exec (.engineLoopWindow s d load) st = .next t)))) ∧
    ((poolOf st s d).draining ≠ 0 →
      exec (.engineDrainDone s d) st = .next (modPool st s d (fun p => { p with draining := p.draining - 1 }))) ∧
    ((poolOf st s d).draining = 0 → exec (.engineDrainDone s d) st = .next st) ∧
    ((poolOf st s d).rising ≠ 0 →
      exec (.engineKatDone s d true) st =
        .next (modPool (modPool st s d (fun p => { p with rising := p.rising - 1 })) s d
          (fun p => { p with inPool := p.inPool + 1 })) ∧
      exec (.engineKatDone s d false) st = .next (engFailed (modPool st s d (fun p => { p with rising := p.rising - 1 })) s d)) ∧
    ((poolOf st s d).rising = 0 →
      exec (.engineKatDone s d true) st = .next st ∧
      ((poolOf st s d).inPool ≠ 0 → exec (.engineKatDone s d false) st =
        .next (engFailed (modPool st s d (fun p => { p with inPool := p.inPool - 1 })) s d)) ∧
      ((poolOf st s d).inPool = 0 → exec (.engineKatDone s d false) st = .next st))

/-- With PWR_PORT_RST open, a reset of an enabled port of a powered slice takes the port down, stays BUSY and completes
with OK; of another port it answers 2. A lost PLL of REFCLK_TWIN halts the device with cause 8; one of REFCLK_NET
takes the lanes of its side of a slice out of READY, is counted and reported. A falling PWRFAIL_N is noted with its
instant, but not in a hold-up; high again within 100 ns it is ignored and counted, to 65,535; low for 100 ns it brings
the device-wide Umber state, releases ownership, closes the journal and, in a log with room, queues the record of the
power failure. A write of an Umber mask stores it. (R633, R638, R639, R640, R375, R376, R693, 17_power_clock_reset.md) -/
def Obligations.PortResetPllAndHoldUp : Prop :=
  ∀ (st : State) (s : SliceId) (d : Side) (k : PortIx),
    let w := word [(Fld.pwrPortRst_RESET, 1), (Fld.pwrPortRst_SLICE, s.val), (Fld.pwrPortRst_SIDE, sideNum d),
      (Fld.pwrPortRst_PORT, k.val)]
    (cmdOpen st Reg.pwrPortRst = true →
      (sliceOn st s = true → (portCfg st d s k).enabled = true → exec (.portReset s d k) st =
        .next (cmdBusy (modGlb (portDown st s d k) (fun g => { g with portReset := some (s, d, k) })) Reg.pwrPortRst
          Fld.pwrPortRst_RESET w)) ∧
      (sliceOn st s = false ∨ (portCfg st d s k).enabled = false → exec (.portReset s d k) st = .next (rstDone w 2 st))) ∧
    (st.glb.portReset = none → exec .portResetDone st = .next st) ∧
    (st.glb.portReset = some (s, d, k) → exec .portResetDone st =
      .next (rstDone (rd st Reg.pwrPortRst) 0 (modGlb st (fun g => { g with portReset := none })))) ∧
    (∀ pll, st.glb.halted = false → ∃ t, exec (.pllUnlock pll none) st = .next t ∧ t.glb.halted = true ∧ t.glb.cause = 8 ∧
      framesAll t = 0) ∧
    (∀ pll, ∃ t, exec (.pllUnlock pll (some (s, d))) st =
        .next (raise (count t (Reg.pwrCnt 2)) { block := 2, index := 2 }) ∧
      t = ports8.foldl (fun st i => laneLost st (.lane d s i) .cdr) st) ∧
    (st.glb.holdup = true → exec .pwrfailNFall st = .next st) ∧
    (st.glb.pwrfailLow = false → st.glb.holdup = false → exec .pwrfailNFall st =
      .next (modGlb st (fun g => { g with pwrfailLow := true, pwrfailAt := elNs st }))) ∧
    (st.glb.pwrfailLow = true → exec .pwrfailNFall st = .next st ∧
      (elNs st < st.glb.pwrfailAt + 100 → exec .holdUp st = .next st ∧
        (st.glb.glitches ≠ BitVec.allOnes 16 → exec .pwrfailGlitch st =
          .next (modGlb st (fun g => { g with pwrfailLow := false, glitches := g.glitches + 1 }))) ∧
        (st.glb.glitches = BitVec.allOnes 16 → exec .pwrfailGlitch st =
          .next (modGlb st (fun g => { g with pwrfailLow := false })))) ∧
      (st.glb.pwrfailAt + 100 ≤ elNs st → exec .pwrfailGlitch st = .next st ∧
        (st.glb.holdup = false → ∃ t, exec .holdUp st = .next t ∧ t.glb.holdup = true ∧
          t.glb.pwrfailLow = false ∧ t.twin.own = false ∧
          t.jnl.closed = true ∧ inUmber t d s k = true ∧ t.saf = [] ∧
          (logFull st = false → ∃ r ∈ t.evl.queue, r.source = 32)))) ∧
    (st.glb.pwrfailLow = false → exec .pwrfailGlitch st = .next st ∧ exec .holdUp st = .next st) ∧
    (∀ mask, atOnce st (umberReg d) = true → exec (.glbUmberWrite d mask) st = .next (wr st (umberReg d) mask))

/-- A write through the PF to a plain register, taken at once, changes its writable bits and nothing else; a write without
all four byte enables is ignored and, outside the halt, counted; an unaligned address, for the PF one beyond its BAR,
for a VF one beyond its page or without the function, and a register of programmable counters on a part without them
change nothing. GLB_UPDATE takes the written values of the named groups, with the recirculation profiles of the image,
or answers 1 while one is in progress or before step 4 of the start-up; at its tick every value it took is applied in
turn by the rule of its register; one of a register without a rule of its own becomes the applied value, and no other
applied value changes by it; then what depends on the settings follows. Without an update, or halted, the tick does
nothing. (R644, R645, R648, R649, R650, R652, R682, 18_registers_host.md) -/
def Obligations.RegistersAreWrittenAndUpdatedTogether : Prop :=
  ∀ st : State,
    (∀ a v r, wrKind a = .plain → regRow? a = some r → atOnce st a = true → a % 4 = 0 → a < 0x4000000 →
      noCounters st a = false → exec (.registerWrite 0 a 0xF v) st =
        .next (wr st a ((rd st a &&& ~~~ BitVec.ofNat 32 r.rw) ||| (v &&& BitVec.ofNat 32 r.rw)))) ∧
    (∀ a v, noCounters st a = true → exec (.registerWrite 0 a 0xF v) st = .next st) ∧
    (∀ fn a be v, be ≠ 0xF → (st.glb.halted = false → exec (.registerWrite fn a be v) st = .next (count st (Reg.hifCnt 0))) ∧
      (st.glb.halted = true → exec (.registerWrite fn a be v) st = .next st)) ∧
    (∀ fn a v, a % 4 ≠ 0 → exec (.registerWrite fn a 0xF v) st = .next st) ∧
    (∀ a v, 0x4000000 ≤ a → exec (.registerWrite 0 a 0xF v) st = .next st) ∧
    (∀ fn a v, fn ≠ 0 → hasVf st fn = false ∨ 0x10000 ≤ a ∨ st.glb.halted = true →
      exec (.registerWrite fn a 0xF v) st = .next st) ∧
    (∀ mask, atOnce st Reg.glbUpdate = true →
      (booted st = true → st.glb.update = none → exec (.glbUpdate mask) st =
        .next (modGlb (setF st Reg.glbUpdateStat Fld.glbUpdateStat_RESULT 0) (fun g => { g with
          update := some (mask, st.regs.filter (fun p => groupTaken st mask p.1) ++ rcpDefaults st mask) }))) ∧
      (booted st = false ∨ st.glb.update ≠ none →
        exec (.glbUpdate mask) st = .next (setF st Reg.glbUpdateStat Fld.glbUpdateStat_RESULT 1))) ∧
    (st.glb.update = none ∨ st.glb.halted = true → exec .updateApply st = .next st) ∧
    (∀ mask taken, st.glb.update = some (mask, taken) → st.glb.halted = false →
      let st1 := slices4.foldl (fun st s => if bitW mask (4 + s.val) then ports8.foldl (fun st k => keepHeadroom st s k) st else st)
        (modGlb st (fun g => { g with update := none }))
      let st2 := taken.foldl (fun st p => applyReg st taken p.1 p.2) st1
      exec .updateApply st = .next (afterUpdate st1 mask
        (if bitW mask 3 && !incPairOk st1 taken then raise st2 { block := 12, index := 1 } else st2))) ∧
    (∀ taken a v, a ≠ Reg.tsuIncNs → a ≠ Reg.tsuIncFrac → a ≠ Reg.pmuBwSub → a ≠ Reg.pmuBwCfg → rcpOf a = none →
      rdA (applyReg st taken a v) a = v ∧ ∀ b, b ≠ a → rdA (applyReg st taken a v) b = rdA st b)

/-- EN written 1 to a stopped event ring of a size in 6-16 starts it empty at entry 0, and after lost events writes
EVENTS_LOST there; written 0 it stops the ring; with a size out of range EN reads 0 and the ring stays; a ring that
runs takes the other fields. A HEAD write stores HEAD, and alone on a ring that has not overflowed; on one that has,
the lost events are reported once two entries are free. Spacing that ends fires a held interrupt of an event ring, or
of a punt or inject ring, and before that nothing. A reset of the PF disables every event ring and every ring of
instance 0; PCIE_PERST_N takes the link down and resets every function, and in the halt the link alone; training sets
the link's state. (R655, R656, R657, R658, R661, R722, 18_registers_host.md) -/
def Obligations.EventRingsDeliverAndRecover : Prop :=
  ∀ (st : State) (j : Fin 4),
    (∀ v, atOnce st (Reg.hifEvtCfg j) = true →
      let size := getF v Fld.hifEvtCfg_SIZE_LOG2
      let keep := word [(Fld.hifEvtCfg_SIZE_LOG2, size), (Fld.hifEvtCfg_MOD_US, getF v Fld.hifEvtCfg_MOD_US)]
      (getF v Fld.hifEvtCfg_EN = 0 → exec (.evtRingEnable j v) st =
        .next (modEvt (wr st (Reg.hifEvtCfg j) keep) j (fun r => { r with en := false, run := false }))) ∧
      (getF v Fld.hifEvtCfg_EN ≠ 0 → (st.rings[j]).en = true →
        exec (.evtRingEnable j v) st = .next (wr st (Reg.hifEvtCfg j) (putF keep Fld.hifEvtCfg_EN 1))) ∧
      (getF v Fld.hifEvtCfg_EN ≠ 0 → (st.rings[j]).en = false → (st.rings[j]).run = true →
        exec (.evtRingEnable j v) st = .next (wr st (Reg.hifEvtCfg j) keep)) ∧
      (getF v Fld.hifEvtCfg_EN ≠ 0 → (st.rings[j]).en = false → (st.rings[j]).run = false →
        (6 ≤ size → size ≤ 16 →
          let u := modEvt (wr st (Reg.hifEvtCfg j) (putF keep Fld.hifEvtCfg_EN 1)) j (fun r =>
            { r with en := true, run := true, head := 0, tail := 0, phase := true, held := false })
          ((st.rings[j]).overflow = false → exec (.evtRingEnable j v) st = .next u) ∧
          ((st.rings[j]).overflow = true → ∃ t, exec (.evtRingEnable j v) st = .next t ∧
            t = { evtPut u j { block := 3, index := 0, ps := [(st.rings[j]).lostSince] } with rings := t.rings } ∧
            (t.rings[j]).overflow = false ∧ (t.rings[j]).lostSince = 0 ∧ (t.rings[j]).tail = 1)) ∧
        (size < 6 ∨ 16 < size → exec (.evtRingEnable j v) st = .next (wr st (Reg.hifEvtCfg j) keep)))) ∧
    (∀ h, atOnce st (Reg.hifEvtHead j) = true →
      let t := modEvt st j (fun r => { r with head := h })
      ((st.rings[j]).overflow = false → exec (.evtHeadWrite j h) st = .next t) ∧
      ((st.rings[j]).overflow = true → (st.rings[j]).en = true → 2 ≤ evtFree t j → exec (.evtHeadWrite j h) st =
        .next (modEvt (evtPut t j { block := 3, index := 0, ps := [(st.rings[j]).lostSince] }) j
          (fun r => { r with overflow := false, lostSince := 0 }))) ∧
      (evtFree t j < 2 → exec (.evtHeadWrite j h) st = .next t)) ∧
    (∀ i, let go := (st.rings[j]).held = true ∧ (st.rings[j]).nextFire ≤ elNs st
      (go → exec (.msixModerationEnd true i (j.castLE (by omega))) st = .next (fireEvt st j)) ∧
      (¬ go → exec (.msixModerationEnd true i (j.castLE (by omega))) st = .next st)) ∧
    (∀ i r, let go := (ringOf st i r).held = true ∧ (ringOf st i r).nextFire ≤ elNs st
      (go → exec (.msixModerationEnd false i r) st = .next (fireRing st i r)) ∧
      (¬ go → exec (.msixModerationEnd false i r) st = .next st)) ∧
    (let down : State := { st with pcie := { st.pcie with linkUp := false, speed := 0, width := 0 } }
     (st.glb.halted = false →
      (∃ t, exec .pfFlr st = .next t ∧ t.saf = st.saf ∧ t.slices = st.slices ∧ t.mram = st.mram ∧ t.pcie = st.pcie ∧
        (∀ r ∈ t.rings.toList, r.en = false ∧ r.run = false) ∧
        (∀ r ∈ (inst t 0).rings.toList, r.en = false ∧ r.run = false ∧ r.hand = none) ∧
        ∀ i : InstId, i ≠ 0 → inst t i = inst st i) ∧
      exec .pciePerst st = .next (allInsts.foldl vfFlr { pfFlr down with pcie := {} })) ∧
     (st.glb.halted = true → exec .pfFlr st = .next st ∧ exec .pciePerst st = .next down)) ∧
    (∀ speed width,
      exec (.pcieLinkTraining true speed width) st =
        .next { st with pcie := { st.pcie with linkUp := true, speed := speed, width := width } } ∧
      exec (.pcieLinkTraining false speed width) st =
        .next { st with pcie := { st.pcie with linkUp := false, speed := 0, width := 0 } })

/-- EN written to a stopped ring of a size in range starts it at entry 0, with a size out of range answers 2, and while
the ring has not stopped answers 1; on a ring that is enabled it does nothing. Cleared with nothing in hand, or with a
descriptor that is held, it stops the ring; else RUN stays until nothing is in hand. RING_CTL reads EN, RUN, RESULT
and ERR, and on a VF clears ERR; VF_RING_ERR clears as it is read. A readable descriptor, its ring being noted as
served, is refused at once with the first cause that applies; else it is held while its slice does not take it, or
accepted as a launch, or its frame is copied; an owner in twin mode forwards it with its frame and the time. A copied
frame completes OK and enters the parser. A held descriptor proceeds when its slice takes it, as a launch or by a
copy. A DMA error stops a ring that runs, sets ERR, counts and raises; a frame that is being copied is refused with 7,
another descriptor in hand is given back. A function without rings has none of this. (R509, R654, R662, R663, R664,
R665, R666, R667, R447, R448, R458, 18_registers_host.md) -/
def Obligations.HostRingsRunInjectAndStop : Prop :=
  ∀ (st : State) (i : InstId) (r : Fin 16),
    let fnOpen := st.glb.halted = false ∧ (i = 0 → atOnce st (Reg.ringCtl r) = true)
    let x := ringOf st i r
    (hasRings st i = true → fnOpen →
      (x.en = true → exec (.ringEnable i r) st = .next st) ∧
      (x.en = false → x.run = true → exec (.ringEnable i r) st = .next (modRing st i r (fun x => { x with result := 1 }))) ∧
      (x.en = false → x.run = false →
        (6 ≤ ringSizeLog st i r → ringSizeLog st i r ≤ 16 → exec (.ringEnable i r) st =
          .next (modRing st i r (fun x => { x with en := true, run := true, result := 0, head := 0, held := false }))) ∧
        (ringSizeLog st i r < 6 ∨ 16 < ringSizeLog st i r → exec (.ringEnable i r) st =
          .next (modRing st i r (fun x => { x with result := 2 })))) ∧
      (x.hand = none ∨ (∃ h, x.hand = some h ∧ h.phase = .held) → exec (.ringDisable i r) st =
        .next (modRing st i r (fun x => { x with en := false, result := 0, err := x.err && i != 0, run := false, hand := none }))) ∧
      (∀ h, x.hand = some h → h.phase ≠ .held → exec (.ringDisable i r) st =
        .next (modRing st i r (fun x => { x with en := false, result := 0, err := x.err && i != 0 })))) ∧
    (hasRings st i = false → exec (.ringEnable i r) st = .next st ∧ exec (.ringDisable i r) st = .next st ∧
      exec (.ringCtlRead i r) st = .next st ∧ exec (.dmaErr i r) st = .next st) ∧
    (x.en = false → x.hand = none → exec (.ringStopped i r) st = .next (modRing st i r (fun x => { x with run := false }))) ∧
    (x.en = true ∨ x.hand ≠ none → exec (.ringStopped i r) st = .next st) ∧
    (hasRings st i = true →
      (i = 0 → exec (.ringCtlRead i r) st = .next { st with lastRead := ringCtlValue x }) ∧
      (i ≠ 0 → exec (.ringCtlRead i r) st =
        .next (modRing { st with lastRead := ringCtlValue x } i r (fun x => { x with err := false })))) ∧
    (hasVf st i = true → exec (.vfRingErrRead i) st =
      .next (wr { st with lastRead := rd st (Reg.vfRingErr (vfIx i)) } (Reg.vfRingErr (vfIx i)) 0)) ∧
    (∀ (y : InjDesc) (f : Bytes), injReadable st i r = true →
      let s0 := modInst st i (fun x => { x with injLast := r })
      let g := f.take y.length.toNat
      let late := y.ltEn && launchOut (nowNs st) y.launchNs
      let full := y.ltEn && safCode s0 i g != 0
      let hand (p : HandPhase) : State := setHand s0 i r (some { desc := y, bytes := g, phase := p })
      (twinOwner st = true → exec (.injectDescriptorRead i r y f) st =
        .next (forwardOp (setHand s0 i r (some { desc := y, bytes := f, phase := .forwarded })) (.inject i r y f (nowNs st)))) ∧
      (twinOwner st = false →
        (injCode s0 i y g ≠ 0 → exec (.injectDescriptorRead i r y f) st = .next (injRefuse s0 i r y (injCode s0 i y g))) ∧
        (injCode s0 i y g = 0 →
          (late = true → exec (.injectDescriptorRead i r y f) st = .next (injRefuse s0 i r y 1)) ∧
          (late = false → full = true → exec (.injectDescriptorRead i r y f) st = .next (injRefuse s0 i r y (safCode s0 i g))) ∧
          (late = false → full = false →
            (takesInject s0 i y.sliceNo = false → exec (.injectDescriptorRead i r y f) st = .next (hand .held)) ∧
            (takesInject s0 i y.sliceNo = true → y.ltEn = true →
              exec (.injectDescriptorRead i r y f) st = .next (safAccept s0 i r y g)) ∧
            (takesInject s0 i y.sliceNo = true → y.ltEn = false →
              exec (.injectDescriptorRead i r y f) st = .next (hand .copying)))))) ∧
    (injReadable st i r = false → ∀ y f, exec (.injectDescriptorRead i r y f) st = .next st) ∧
    (∀ h f, x.hand = some h →
      (h.phase = .copying → st.glb.halted = false → exec (.injectFrameCopied i r f) st =
        .next (injEnter (injComplete (setHand st i r none) i r h.desc 0) h.desc (f.take h.desc.length.toNat))) ∧
      (h.phase ≠ .copying ∨ st.glb.halted = true → exec (.injectFrameCopied i r f) st = .next st) ∧
      (h.phase = .held → takesInject st i h.desc.sliceNo = true →
        (h.desc.ltEn = true → exec (.heldDescriptorResume i r) st = .next (safAccept st i r h.desc h.bytes)) ∧
        (h.desc.ltEn = false → st.img.content.twin = false →
          exec (.heldDescriptorResume i r) st = .next (setHand st i r (some { h with phase := .copying }))) ∧
        (h.desc.ltEn = false → st.img.content.twin = true →
          exec (.heldDescriptorResume i r) st = .next (injCopied st i r h.desc h.bytes))) ∧
      (h.phase ≠ .held ∨ takesInject st i h.desc.sliceNo = false → exec (.heldDescriptorResume i r) st = .next st)) ∧
    (x.hand = none → (∀ f, exec (.injectFrameCopied i r f) st = .next st) ∧ exec (.heldDescriptorResume i r) st = .next st) ∧
    (hasRings st i = true → x.run = true → st.glb.halted = false →
      let stop (s : State) : State :=
        let t := modRing s i r (fun x => { x with run := false, err := true })
        let t := if i = 0 then t
          else wr t (Reg.vfRingErr (vfIx i)) (rd t (Reg.vfRingErr (vfIx i)) ||| BitVec.ofNat 32 (2 ^ r.val))
        raise (count t (Reg.hifCnt 1)) { block := 3, index := 1, ps := [i.val, r.val] }
      (x.hand = none → exec (.dmaErr i r) st = .next (stop st)) ∧
      (∀ h, x.hand = some h → h.phase = .copying → exec (.dmaErr i r) st = .next (stop (injRefuse st i r h.desc 7))) ∧
      (∀ h, x.hand = some h → h.phase ≠ .copying → exec (.dmaErr i r) st = .next (stop (setHand st i r none)))) ∧
    (x.run = false ∨ st.glb.halted = true → exec (.dmaErr i r) st = .next st)

/-- With sampling on and due, or by a strobe while none is taken, a snapshot takes every accumulated counter at one tick;
it becomes visible in one step with its sequence, NS and ELAPSED; a strobe while one is taken, or before step 4 of the
start-up, answers 1; a sample that is not due, or due while one is taken, changes nothing. A counter of any scope
whose on-chip part reached 2^31 moves it to the backing value, which is written to DRAM, its value and every other
counter's unchanged; below 2^31 nothing changes. SC_READ loads the 13 values of its scope, or answers 2, or 4 while
memory is not ready; VF_SC_READ the same for the instance's own channel, 3 for another's, 2 for a port or a channel
that is not VALID. A read of VF_STAT_LO latches the high word. A function that does not exist has none of this. (R670,
R671, R673, R674, R675, R676, R678, R685, R686, 19_counters.md) -/
def Obligations.StatisticsAreReadAsOneInstant : Prop :=
  ∀ st : State,
    (let due := flagA st Reg.pmuCfg Fld.pmuCfg_SAMPLE_EN = true ∧ st.pmu.nextAt ≤ elNs st ∧ st.pmu.taking = none
     (due → exec .snapshot st =
        .next (takeSnap (modPmu st (fun p => { p with nextAt := (elNs st / sampleNs st + 1) * sampleNs st })))) ∧
     (¬ due → exec .snapshot st = .next st)) ∧
    (atOnce st Reg.pmuSnapCmd = true →
      (booted st = true → st.pmu.taking = none →
        exec .snap st = .next (takeSnap (setF st Reg.pmuSnapCmd Fld.pmuSnapCmd_RESULT 0))) ∧
      (booted st = false ∨ st.pmu.taking ≠ none → exec .snap st = .next (setF st Reg.pmuSnapCmd Fld.pmuSnapCmd_RESULT 1))) ∧
    (st.pmu.taking = none → exec .snapshotVisible st = .next st) ∧
    (∀ x, st.pmu.taking = some x → ∃ t, exec .snapshotVisible st = .next t ∧
      t = { st with regs := t.regs, pmu := { st.pmu with visible := x.vals, taking := none } } ∧
      rd t Reg.pmuSnapSeq = rd st Reg.pmuSnapSeq + 1 ∧ rd t Reg.pmuSnapNs = x.ns ∧
      rd t Reg.pmuSnapElLo = x.el.setWidth 32 ∧ rd t Reg.pmuSnapElHi = (x.el >>> 32).setWidth 32) ∧
    (∀ (kind : Fin 4) (s : SliceId) key,
      let old := ctrsOfKind (sl st s) kind
      ((old.getD key {}).chip.toNat < 2 ^ 31 → exec (.counterFlush kind s key) st = .next st) ∧
      (2 ^ 31 ≤ (old.getD key {}).chip.toNat →
        let new := flushCtr old key
        exec (.counterFlush kind s key) st = .next (meeWrite 2 (modSl st s (fun x => setCtrs x kind new)) (statAddr kind s key)
          (leBytes 8 (new.getD key {}).back.toNat)) ∧
        ctrVal new key = ctrVal old key ∧ (new.getD key {}).chip = 0 ∧ ∀ k, k ≠ key → new.getD k {} = old.getD k {})) ∧
    (cmdOpen st Reg.pmuScCmd = true → ∀ kind s ch an,
      let done (t : State) (code : Nat) : State := cmdDone t Reg.pmuScCmd Fld.pmuScCmd_RESULT Fld.pmuScCmd_OP
        (scWord kind s ch an) code
      (scBad st kind s ch = false → st.mee.ready = true → exec (.scRead kind s ch an) st =
        .next (done (scWrite st (Reg.pmuScData 0) (scVals st kind s ch an)) 0)) ∧
      (scBad st kind s ch = true → st.mee.ready = true → exec (.scRead kind s ch an) st = .next (done st 2)) ∧
      (scBad st kind s ch = false → st.mee.ready = false → exec (.scRead kind s ch an) st = .next (done st 4))) ∧
    (∀ i, hasVf st i = true → st.glb.halted = false → booted st = true → st.mee.ready = true → ∀ (kind : Fin 4) s ch an,
      let done (t : State) (code : Nat) : State := cmdDone t (Reg.vfScCmd (vfIx i)) Fld.pmuScCmd_RESULT Fld.pmuScCmd_OP
        (scWord kind s ch an) code
      (2 ≤ kind.val → exec (.vfScRead i kind s ch an) st = .next (done st 2)) ∧
      (kind.val < 2 → (chOf st s ch).valid = false → exec (.vfScRead i kind s ch an) st = .next (done st 2)) ∧
      (kind.val < 2 → scBad st kind s ch = false → (chOf st s ch).inst = i → exec (.vfScRead i kind s ch an) st =
        .next (done (scWrite st (Reg.vfScData (vfIx i) 0) (scVals st kind s ch an)) 0)) ∧
      (kind.val < 2 → scBad st kind s ch = false → (chOf st s ch).inst ≠ i →
        exec (.vfScRead i kind s ch an) st = .next (done st 3))) ∧
    (∀ i (n : Fin 8),
      (hasVf st i = true → exec (.vfStatRead i n) st =
        .next { modInst st i (fun x => { x with vfLatch := x.vfLatch.set n (((inst st i).vfCnt[n] >>> 32).setWidth 32) }) with
          lastRead := (inst st i).vfCnt[n].setWidth 32 }) ∧
      (hasVf st i = false → exec (.vfStatRead i n) st = .next st ∧
        ∀ kind s ch an, exec (.vfScRead i kind s ch an) st = .next st))

/-- On a ZLN-4832, a strobe written alone starts, stops or clears the slice's counters; with a second strobe nothing
changes; on a ZLN-4816 nothing changes. A running counter at 2^48 - 1 wraps to 0 and sets its bit of OVF; one that
does not run, or stands elsewhere, stays. A read of a low word returns it and latches the high word; on a ZLN-4816 it
returns 0. The end of a bandwidth window latches what each port and direction counted in it, with the largest
sub-intervals, starts the next one and moves BW_SEQ; where more than one window has ended nothing was counted in the
last; the end of a sub-interval alone keeps the largest counts; with the windows off, or before the first, nothing
changes. (R679, R680, R682, R688, 19_counters.md) -/
def Obligations.PerformanceCountersObeyTheirStrobes : Prop :=
  ∀ (st : State) (s : SliceId),
    (st.fuses.is4832 = true → atOnce st (Reg.pmuPcCtl s) = true →
      exec (.pcStart s false) st = .next (modPc st s (fun c => { c with run := true })) ∧
      exec (.pcStop s false) st = .next (modPc st s (fun c => { c with run := false })) ∧
      exec (.pcClear s false) st =
        .next (modPc st s (fun c => { c with cyc := 0, cnt := Vector.replicate 8 0, ovf := 0 })) ∧
      exec (.pcStart s true) st = .next st ∧ exec (.pcStop s true) st = .next st ∧ exec (.pcClear s true) st = .next st) ∧
    (st.fuses.is4832 = false → atOnce st (Reg.pmuPcCtl s) = true → ∀ other,
      exec (.pcStart s other) st = .next st ∧ exec (.pcStop s other) st = .next st ∧ exec (.pcClear s other) st = .next st) ∧
    (∀ i : Fin 8, let full := (st.pmu.pc[s]).run = true ∧ (st.pmu.pc[s]).cnt[i] = BitVec.allOnes 48
      (st.fuses.is4832 = true → full → exec (.pcWrap s i) st = .next (modPc st s (fun c =>
        { c with cnt := c.cnt.set i 0, ovf := c.ovf ||| BitVec.ofNat 8 (2 ^ i.val) }))) ∧
      (st.fuses.is4832 = false ∨ ¬ full → exec (.pcWrap s i) st = .next st)) ∧
    (st.fuses.is4832 = true →
      exec (.pmuCounterRead s none) st =
        .next { modPc st s (fun c => { c with cycLatch := (c.cyc >>> 32).setWidth 32 }) with
          lastRead := (st.pmu.pc[s]).cyc.setWidth 32 } ∧
      ∀ i : Fin 8, exec (.pmuCounterRead s (some i)) st =
        .next { modPc st s (fun c => { c with pcLatch := c.pcLatch.set i ((c.cnt[i] >>> 32).setWidth 32) }) with
          lastRead := (st.pmu.pc[s]).cnt[i].setWidth 32 }) ∧
    (st.fuses.is4832 = false → ∀ i, exec (.pmuCounterRead s i) st = .next { st with lastRead := 0 }) ∧
    (let on := flagA st Reg.pmuBwCfg Fld.pmuBwCfg_BW_EN = true ∧ st.pmu.winStart ≤ elNs st
     let sub := elNs st / bwSubNs st * bwSubNs st
     let n := (elNs st - st.pmu.winStart) / bwWinNs st
     let st1 := if sub = st.pmu.subStart then st
       else modPmu st (fun p => { p with bw := p.bw.map (fun e => (e.1, bwPeak e.2)), subStart := sub })
     (¬ on → exec .bwWindowEnd st = .next st) ∧
     (on → n = 0 → exec .bwWindowEnd st = .next st1) ∧
     (on → n = 1 → exec .bwWindowEnd st = .next (modPmu (countN st1 Reg.pmuBwSeq 1) (fun p => { p with
        bwLatched := p.bw.map (fun e => (e.1, bwPeak e.2)), bw := [], winStart := st.pmu.winStart + bwWinNs st }))) ∧
     (on → 2 ≤ n → exec .bwWindowEnd st = .next (modPmu (countN st1 Reg.pmuBwSeq n) (fun p => { p with
        bwLatched := [], bw := [], winStart := st.pmu.winStart + n * bwWinNs st }))))

/-- A write through the PF to PMU_PC_CTL of a slice, taken at once, whose word sets two or all of START, STOP and CLEAR
changes nothing; nor does such a write when the mirror applies it. (R688) -/
def Obligations.TwoStrobesActOnNone : Prop :=
  ∀ (st : State) (s : SliceId) (w : Word),
    ((bitW w 31 = true ∧ bitW w 30 = true) ∨ (bitW w 31 = true ∧ bitW w 29 = true) ∨ (bitW w 30 = true ∧ bitW w 29 = true)) →
    applyWrite (Reg.pmuPcCtl s) w st = st ∧
    (atOnce st (Reg.pmuPcCtl s) = true → exec (.registerWrite 0 (Reg.pmuPcCtl s) 0xF w) st = .next st)

/-- A block read of a command code of Table 21-7 returns a count of 4 and the register, least significant byte first;
another code returns nothing. An alert response is given in device-wide Umber and not otherwise. A JTAG instruction
other than the debug one changes the TAP alone and what it returns (the boundary scan is drawn); an instruction that
drives pins takes effect only while RESET_N is low, and is BYPASS otherwise. The debug instruction is BYPASS while
debug is disabled; while it is enabled the spec gives it no effect, and the model stops by name. (R724, R725, R727,
R728, 21_package_pins.md) -/
def Obligations.ManagementPinsAnswer : Prop :=
  ∀ st : State,
    (∀ cmd a, smbReg cmd.toNat = some a → a ≠ Reg.tmpEnv →
      exec (.smbusBlockRead cmd) st = .next (emit st (.smbus ([4] ++ leBytes 4 (regRead st a).toNat)))) ∧
    (∃ t, exec (.smbusBlockRead 3) st = .next t ∧ t = { st with out := t.out, freeCount := st.freeCount + 1 } ∧
      t.out = st.out ++ [.smbus ([4] ++ leBytes 4 (regRead st Reg.tmpEnv).toNat)]) ∧
    (∀ cmd : Byte, 5 ≤ cmd.toNat → exec (.smbusBlockRead cmd) st = .next st) ∧
    (smbAlert st = true → exec .alertResponse st = .next (emit st (.smbus [smbAddress st]))) ∧
    (smbAlert st = false → exec .alertResponse st = .next st) ∧
    (∀ i low data, tapTaken st i low ≠ .debug → ∃ t, exec (.jtagInstruction i low data) st = .next t ∧
      t = { st with tap := t.tap, out := t.out, freeCount := t.freeCount } ∧
      t.tap = { ir := tapTaken st i low, cells := if scansPins (tapTaken st i low) then data else st.tap.cells
                driving := drivesPins (tapTaken st i low) } ∧
      t.out = st.out ++ [.jtag (tapOut st (tapTaken st i low) data)]) ∧
    (∀ i, drivesPins i = true → tapTaken st i false = .bypass ∧ tapTaken st i true = i) ∧
    (∀ low, st.debug = false → tapTaken st .debug low = .bypass) ∧
    (∀ low data, st.debug = true → exec (.jtagInstruction .debug low data) st = .fault .debugUnit)
end

