-- ==== Sys2Proof/Laws/Fields.lean ====
section
/-!
SUPPORT. What a field of a register reads after it, or another field, has been set.
-/
namespace Sys2Proof.Machine

/-- A field that lies inside a word of 32 bits. -/
def Field.ok (f : Field) : Bool := decide (f.lo ≤ f.hi) && decide (f.hi < 32)

/-- Two fields without a common bit. -/
def Field.apart (f g : Field) : Bool := decide (f.hi < g.lo) || decide (g.hi < f.lo)

theorem testBit_getF (w : Word) (f : Field) (i : Nat) :
    (getF w f).testBit i = (decide (i < f.hi - f.lo + 1) && w.getLsbD (f.lo + i)) := by
  simp [getF, Nat.testBit_mod_two_pow, Nat.testBit_shiftRight, BitVec.getLsbD]

theorem getLsbD_putF (w : Word) (f : Field) (v i : Nat) :
    (putF w f v).getLsbD i = (decide (i < 32) &&
      (if f.lo ≤ i ∧ i - f.lo < f.hi - f.lo + 1 then v.testBit (i - f.lo) else w.getLsbD i)) := by
  unfold putF maskF
  simp only [BitVec.getLsbD_or, BitVec.getLsbD_and, BitVec.getLsbD_not, BitVec.getLsbD_ofNat, Nat.testBit_shiftLeft,
    Nat.testBit_mod_two_pow, Nat.testBit_two_pow_sub_one]
  have hw : ¬ i < 32 → w.getLsbD i = false := fun h => BitVec.getLsbD_of_ge w i (by omega)
  by_cases hi : i < 32 <;> by_cases h1 : f.lo ≤ i <;> by_cases h2 : i - f.lo < f.hi - f.lo + 1 <;> simp [hi, h1, h2, hw]

theorem getF_putF_self (w : Word) (f : Field) (v : Nat) (h : f.ok = true) :
    getF (putF w f v) f = v % 2 ^ (f.hi - f.lo + 1) := by
  simp only [Field.ok, Bool.and_eq_true, decide_eq_true_eq] at h
  apply Nat.eq_of_testBit_eq
  intro i
  rw [testBit_getF, getLsbD_putF, Nat.testBit_mod_two_pow]
  by_cases hi : i < f.hi - f.lo + 1
  · have h2 : f.lo + i < 32 := by omega
    simp [hi, h2]
  · simp [hi]

theorem getF_putF_ne (w : Word) (f g : Field) (v : Nat) (hf : f.ok = true) (hg : g.ok = true)
    (h : f.apart g = true) :
    getF (putF w f v) g = getF w g := by
  simp only [Field.ok, Field.apart, Bool.and_eq_true, Bool.or_eq_true, decide_eq_true_eq] at h hf hg
  apply Nat.eq_of_testBit_eq
  intro i
  rw [testBit_getF, testBit_getF, getLsbD_putF]
  by_cases hi : i < g.hi - g.lo + 1
  · have h2 : g.lo + i < 32 := by omega
    have h3 : ¬ (f.lo ≤ g.lo + i ∧ g.lo + i - f.lo < f.hi - f.lo + 1) := by omega
    rw [if_neg h3]
    simp [hi, h2]
  · simp [hi]

@[simp] theorem getF_zero (f : Field) : getF 0 f = 0 := by simp [getF]

theorem getF_lt (w : Word) (f : Field) : getF w f < 2 ^ (f.hi - f.lo + 1) := Nat.mod_lt _ (Nat.two_pow_pos _)

theorem putF_putF_self (w : Word) (f : Field) (u v : Nat) : putF (putF w f u) f v = putF w f v := by
  apply BitVec.eq_of_getLsbD_eq
  intro i hi
  simp only [getLsbD_putF]
  split <;> simp [hi]

end Sys2Proof.Machine
end

