-- ==== Sys2Proof/Laws/Memory.lean ====
section
/-!
SUPPORT. Laws of the MRAM die's memory: a byte written is read back, every other byte stays, and every operation keeps the
canonical form.
-/
namespace Sys2Proof.Machine

/-- The canonical form of a list with a first entry. -/
theorem Memory.wf_cons (c : Host.Cell) (m : Memory) :
    Memory.wf (c :: m) = true ↔ c.2 ≠ 0 ∧ (∀ d ∈ m.head?, c.1 < d.1) ∧ Memory.wf m = true := by
  cases m with
  | nil => simp [Memory.wf]
  | cons d m => simp [Memory.wf, and_assoc]

theorem Memory.wf_nil : Memory.wf [] = true := rfl

/-- An address below the first entry reads as 0. -/
theorem memByte_below (m : Memory) (a : Nat) (h : m.wf = true) (ha : ∀ c ∈ m.head?, a < c.1) : memByte m a = 0 := by
  induction m with
  | nil => rfl
  | cons c m ih =>
    obtain ⟨-, hc, hm⟩ := (Memory.wf_cons c m).mp h
    have hac : a < c.1 := ha c (by simp)
    have hne : c.1 ≠ a := by omega
    simp only [memByte, hne, if_false]
    exact ih hm (fun d hd => Nat.lt_trans hac (hc d hd))

theorem memByte_memSet_self (m : Memory) (a : Nat) (b : Byte) (h : m.wf = true) : memByte (memSet m a b) a = b := by
  induction m with
  | nil => simp only [memSet]; split <;> simp_all [memByte]
  | cons c m ih =>
    obtain ⟨-, hc, hm⟩ := (Memory.wf_cons c m).mp h
    simp only [memSet]
    split
    · rename_i hlt
      split
      · rename_i hb; rw [hb]; exact memByte_below (c :: m) a h (by intro d hd; simp at hd; subst hd; exact hlt)
      · simp [memByte]
    · split
      · rename_i heq
        split
        · rename_i hb; rw [hb, heq]; exact memByte_below m c.1 hm hc
        · simp [memByte]
      · rename_i h2
        have hne : c.1 ≠ a := fun e => h2 e.symm
        simp only [memByte, hne, if_false]
        exact ih hm

theorem memByte_memSet_ne (m : Memory) (a x : Nat) (b : Byte) (h : x ≠ a) : memByte (memSet m a b) x = memByte m x := by
  have h' : a ≠ x := Ne.symm h
  induction m with
  | nil => simp only [memSet]; split <;> simp [memByte, h']
  | cons c m ih =>
    simp only [memSet]
    split
    · split <;> simp [memByte, h']
    · split
      · rename_i heq
        split <;> simp [memByte, ← heq, h']
      · simp only [memByte, ih]

/-- The first entry of a memory after a store is the old one or the new one. -/
theorem memSet_head (m : Memory) (a x : Nat) (b : Byte) (hx : x < a) (hm : ∀ c ∈ m.head?, x < c.1)
    (hw : m.wf = true) : ∀ c ∈ (memSet m a b).head?, x < c.1 := by
  cases m with
  | nil => simp only [memSet]; split <;> simp [hx]
  | cons c m =>
    obtain ⟨-, hc, -⟩ := (Memory.wf_cons c m).mp hw
    have hxc : x < c.1 := hm c (by simp)
    simp only [memSet]
    split
    · split <;> simp [hx, hxc]
    · split
      · split
        · exact fun d hd => Nat.lt_trans hxc (hc d hd)
        · simp [hx]
      · simp [hxc]

theorem memSet_wf (m : Memory) (a : Nat) (b : Byte) (h : m.wf = true) : (memSet m a b).wf = true := by
  induction m with
  | nil => simp only [memSet]; split <;> simp_all [Memory.wf]
  | cons c m ih =>
    obtain ⟨hz, hc, hm⟩ := (Memory.wf_cons c m).mp h
    simp only [memSet]
    split
    · rename_i hlt
      split
      · exact h
      · rename_i hb; exact (Memory.wf_cons _ _).mpr ⟨hb, by intro d hd; simp at hd; subst hd; exact hlt, h⟩
    · split
      · rename_i heq
        split
        · exact hm
        · rename_i hb; exact (Memory.wf_cons _ _).mpr ⟨hb, by rw [heq]; exact hc, hm⟩
      · rename_i h1 h2
        exact (Memory.wf_cons _ _).mpr ⟨hz, memSet_head m a c.1 b (by omega) hc hm, ih hm⟩

theorem memWrite_wf (m : Memory) (a : Nat) (bs : Bytes) (h : m.wf = true) : (memWrite m a bs).wf = true := by
  induction bs generalizing m a with
  | nil => exact h
  | cons b bs ih => exact ih _ _ (memSet_wf m a b h)

/-- A store leaves every byte outside it as it was. -/
theorem memByte_memWrite_outside (m : Memory) (a x : Nat) (bs : Bytes) (h : x < a ∨ a + bs.length ≤ x) :
    memByte (memWrite m a bs) x = memByte m x := by
  induction bs generalizing m a with
  | nil => rfl
  | cons b bs ih =>
    simp only [memWrite, List.length_cons] at *
    rw [ih _ _ (by omega), memByte_memSet_ne _ _ _ _ (by omega)]

/-- What was stored is read back. -/
theorem memRead_memWrite (m : Memory) (a : Nat) (bs : Bytes) (h : m.wf = true) :
    memRead (memWrite m a bs) a bs.length = bs := by
  induction bs generalizing m a with
  | nil => rfl
  | cons b bs ih =>
    simp only [memWrite, List.length_cons, memRead]
    rw [memByte_memWrite_outside _ _ _ _ (by omega), memByte_memSet_self _ _ _ h, ih _ _ (memSet_wf m a b h)]

end Sys2Proof.Machine
end

