-- ==== Sys2Proof/Laws/State.lean ====
section
/-!
SUPPORT. One lemma per field per update of the state, true by unfolding: what an update sets, and what it leaves as it was.
-/
namespace Sys2Proof.Machine

/-! modSl -/
@[simp] theorem modSl_pending (st : State) (s : SliceId) (f : SliceSt → SliceSt) : (modSl st s f).pending = st.pending := rfl
@[simp] theorem modSl_regs (st : State) (s : SliceId) (f : SliceSt → SliceSt) : (modSl st s f).regs = st.regs := rfl
@[simp] theorem modSl_applied (st : State) (s : SliceId) (f : SliceSt → SliceSt) : (modSl st s f).applied = st.applied := rfl
@[simp] theorem modSl_defaults (st : State) (s : SliceId) (f : SliceSt → SliceSt) : (modSl st s f).defaults = st.defaults := rfl
@[simp] theorem modSl_fuses (st : State) (s : SliceId) (f : SliceSt → SliceSt) : (modSl st s f).fuses = st.fuses := rfl
@[simp] theorem modSl_primary (st : State) (s : SliceId) (f : SliceSt → SliceSt) : (modSl st s f).primary = st.primary := rfl
@[simp] theorem modSl_debugPin (st : State) (s : SliceId) (f : SliceSt → SliceSt) : (modSl st s f).debugPin = st.debugPin := rfl
@[simp] theorem modSl_debug (st : State) (s : SliceId) (f : SliceSt → SliceSt) : (modSl st s f).debug = st.debug := rfl
@[simp] theorem modSl_sources (st : State) (s : SliceId) (f : SliceSt → SliceSt) : (modSl st s f).sources = st.sources := rfl
@[simp] theorem modSl_img (st : State) (s : SliceId) (f : SliceSt → SliceSt) : (modSl st s f).img = st.img := rfl
@[simp] theorem modSl_avs (st : State) (s : SliceId) (f : SliceSt → SliceSt) : (modSl st s f).avs = st.avs := rfl
@[simp] theorem modSl_slices (st : State) (s : SliceId) (f : SliceSt → SliceSt) : (modSl st s f).slices = upd st.slices s f := rfl
@[simp] theorem modSl_twinLanes (st : State) (s : SliceId) (f : SliceSt → SliceSt) : (modSl st s f).twinLanes = st.twinLanes := rfl
@[simp] theorem modSl_rings (st : State) (s : SliceId) (f : SliceSt → SliceSt) : (modSl st s f).rings = st.rings := rfl
@[simp] theorem modSl_insts (st : State) (s : SliceId) (f : SliceSt → SliceSt) : (modSl st s f).insts = st.insts := rfl
@[simp] theorem modSl_capBytes (st : State) (s : SliceId) (f : SliceSt → SliceSt) : (modSl st s f).capBytes = st.capBytes := rfl
@[simp] theorem modSl_restore (st : State) (s : SliceId) (f : SliceSt → SliceSt) : (modSl st s f).restore = st.restore := rfl
@[simp] theorem modSl_ktr (st : State) (s : SliceId) (f : SliceSt → SliceSt) : (modSl st s f).ktr = st.ktr := rfl
@[simp] theorem modSl_jnl (st : State) (s : SliceId) (f : SliceSt → SliceSt) : (modSl st s f).jnl = st.jnl := rfl
@[simp] theorem modSl_mram (st : State) (s : SliceId) (f : SliceSt → SliceSt) : (modSl st s f).mram = st.mram := rfl
@[simp] theorem modSl_tmp (st : State) (s : SliceId) (f : SliceSt → SliceSt) : (modSl st s f).tmp = st.tmp := rfl
@[simp] theorem modSl_evl (st : State) (s : SliceId) (f : SliceSt → SliceSt) : (modSl st s f).evl = st.evl := rfl
@[simp] theorem modSl_tsu (st : State) (s : SliceId) (f : SliceSt → SliceSt) : (modSl st s f).tsu = st.tsu := rfl
@[simp] theorem modSl_saf (st : State) (s : SliceId) (f : SliceSt → SliceSt) : (modSl st s f).saf = st.saf := rfl
@[simp] theorem modSl_safOrder (st : State) (s : SliceId) (f : SliceSt → SliceSt) : (modSl st s f).safOrder = st.safOrder := rfl
@[simp] theorem modSl_twin (st : State) (s : SliceId) (f : SliceSt → SliceSt) : (modSl st s f).twin = st.twin := rfl
@[simp] theorem modSl_mee (st : State) (s : SliceId) (f : SliceSt → SliceSt) : (modSl st s f).mee = st.mee := rfl
@[simp] theorem modSl_pmu (st : State) (s : SliceId) (f : SliceSt → SliceSt) : (modSl st s f).pmu = st.pmu := rfl
@[simp] theorem modSl_glb (st : State) (s : SliceId) (f : SliceSt → SliceSt) : (modSl st s f).glb = st.glb := rfl
@[simp] theorem modSl_pcie (st : State) (s : SliceId) (f : SliceSt → SliceSt) : (modSl st s f).pcie = st.pcie := rfl
@[simp] theorem modSl_tap (st : State) (s : SliceId) (f : SliceSt → SliceSt) : (modSl st s f).tap = st.tap := rfl
@[simp] theorem modSl_out (st : State) (s : SliceId) (f : SliceSt → SliceSt) : (modSl st s f).out = st.out := rfl
@[simp] theorem modSl_lastRead (st : State) (s : SliceId) (f : SliceSt → SliceSt) : (modSl st s f).lastRead = st.lastRead := rfl
@[simp] theorem modSl_freeCount (st : State) (s : SliceId) (f : SliceSt → SliceSt) : (modSl st s f).freeCount = st.freeCount := rfl

/-! modTwin -/
@[simp] theorem modTwin_pending (st : State) (f : TwinSt → TwinSt) : (modTwin st f).pending = st.pending := rfl
@[simp] theorem modTwin_regs (st : State) (f : TwinSt → TwinSt) : (modTwin st f).regs = st.regs := rfl
@[simp] theorem modTwin_applied (st : State) (f : TwinSt → TwinSt) : (modTwin st f).applied = st.applied := rfl
@[simp] theorem modTwin_defaults (st : State) (f : TwinSt → TwinSt) : (modTwin st f).defaults = st.defaults := rfl
@[simp] theorem modTwin_fuses (st : State) (f : TwinSt → TwinSt) : (modTwin st f).fuses = st.fuses := rfl
@[simp] theorem modTwin_primary (st : State) (f : TwinSt → TwinSt) : (modTwin st f).primary = st.primary := rfl
@[simp] theorem modTwin_debugPin (st : State) (f : TwinSt → TwinSt) : (modTwin st f).debugPin = st.debugPin := rfl
@[simp] theorem modTwin_debug (st : State) (f : TwinSt → TwinSt) : (modTwin st f).debug = st.debug := rfl
@[simp] theorem modTwin_sources (st : State) (f : TwinSt → TwinSt) : (modTwin st f).sources = st.sources := rfl
@[simp] theorem modTwin_img (st : State) (f : TwinSt → TwinSt) : (modTwin st f).img = st.img := rfl
@[simp] theorem modTwin_avs (st : State) (f : TwinSt → TwinSt) : (modTwin st f).avs = st.avs := rfl
@[simp] theorem modTwin_slices (st : State) (f : TwinSt → TwinSt) : (modTwin st f).slices = st.slices := rfl
@[simp] theorem modTwin_twinLanes (st : State) (f : TwinSt → TwinSt) : (modTwin st f).twinLanes = st.twinLanes := rfl
@[simp] theorem modTwin_rings (st : State) (f : TwinSt → TwinSt) : (modTwin st f).rings = st.rings := rfl
@[simp] theorem modTwin_insts (st : State) (f : TwinSt → TwinSt) : (modTwin st f).insts = st.insts := rfl
@[simp] theorem modTwin_capBytes (st : State) (f : TwinSt → TwinSt) : (modTwin st f).capBytes = st.capBytes := rfl
@[simp] theorem modTwin_restore (st : State) (f : TwinSt → TwinSt) : (modTwin st f).restore = st.restore := rfl
@[simp] theorem modTwin_ktr (st : State) (f : TwinSt → TwinSt) : (modTwin st f).ktr = st.ktr := rfl
@[simp] theorem modTwin_jnl (st : State) (f : TwinSt → TwinSt) : (modTwin st f).jnl = st.jnl := rfl
@[simp] theorem modTwin_mram (st : State) (f : TwinSt → TwinSt) : (modTwin st f).mram = st.mram := rfl
@[simp] theorem modTwin_tmp (st : State) (f : TwinSt → TwinSt) : (modTwin st f).tmp = st.tmp := rfl
@[simp] theorem modTwin_evl (st : State) (f : TwinSt → TwinSt) : (modTwin st f).evl = st.evl := rfl
@[simp] theorem modTwin_tsu (st : State) (f : TwinSt → TwinSt) : (modTwin st f).tsu = st.tsu := rfl
@[simp] theorem modTwin_saf (st : State) (f : TwinSt → TwinSt) : (modTwin st f).saf = st.saf := rfl
@[simp] theorem modTwin_safOrder (st : State) (f : TwinSt → TwinSt) : (modTwin st f).safOrder = st.safOrder := rfl
@[simp] theorem modTwin_twin (st : State) (f : TwinSt → TwinSt) : (modTwin st f).twin = f st.twin := rfl
@[simp] theorem modTwin_mee (st : State) (f : TwinSt → TwinSt) : (modTwin st f).mee = st.mee := rfl
@[simp] theorem modTwin_pmu (st : State) (f : TwinSt → TwinSt) : (modTwin st f).pmu = st.pmu := rfl
@[simp] theorem modTwin_glb (st : State) (f : TwinSt → TwinSt) : (modTwin st f).glb = st.glb := rfl
@[simp] theorem modTwin_pcie (st : State) (f : TwinSt → TwinSt) : (modTwin st f).pcie = st.pcie := rfl
@[simp] theorem modTwin_tap (st : State) (f : TwinSt → TwinSt) : (modTwin st f).tap = st.tap := rfl
@[simp] theorem modTwin_out (st : State) (f : TwinSt → TwinSt) : (modTwin st f).out = st.out := rfl
@[simp] theorem modTwin_lastRead (st : State) (f : TwinSt → TwinSt) : (modTwin st f).lastRead = st.lastRead := rfl
@[simp] theorem modTwin_freeCount (st : State) (f : TwinSt → TwinSt) : (modTwin st f).freeCount = st.freeCount := rfl

/-! modGlb -/
@[simp] theorem modGlb_pending (st : State) (f : GlbSt → GlbSt) : (modGlb st f).pending = st.pending := rfl
@[simp] theorem modGlb_regs (st : State) (f : GlbSt → GlbSt) : (modGlb st f).regs = st.regs := rfl
@[simp] theorem modGlb_applied (st : State) (f : GlbSt → GlbSt) : (modGlb st f).applied = st.applied := rfl
@[simp] theorem modGlb_defaults (st : State) (f : GlbSt → GlbSt) : (modGlb st f).defaults = st.defaults := rfl
@[simp] theorem modGlb_fuses (st : State) (f : GlbSt → GlbSt) : (modGlb st f).fuses = st.fuses := rfl
@[simp] theorem modGlb_primary (st : State) (f : GlbSt → GlbSt) : (modGlb st f).primary = st.primary := rfl
@[simp] theorem modGlb_debugPin (st : State) (f : GlbSt → GlbSt) : (modGlb st f).debugPin = st.debugPin := rfl
@[simp] theorem modGlb_debug (st : State) (f : GlbSt → GlbSt) : (modGlb st f).debug = st.debug := rfl
@[simp] theorem modGlb_sources (st : State) (f : GlbSt → GlbSt) : (modGlb st f).sources = st.sources := rfl
@[simp] theorem modGlb_img (st : State) (f : GlbSt → GlbSt) : (modGlb st f).img = st.img := rfl
@[simp] theorem modGlb_avs (st : State) (f : GlbSt → GlbSt) : (modGlb st f).avs = st.avs := rfl
@[simp] theorem modGlb_slices (st : State) (f : GlbSt → GlbSt) : (modGlb st f).slices = st.slices := rfl
@[simp] theorem modGlb_twinLanes (st : State) (f : GlbSt → GlbSt) : (modGlb st f).twinLanes = st.twinLanes := rfl
@[simp] theorem modGlb_rings (st : State) (f : GlbSt → GlbSt) : (modGlb st f).rings = st.rings := rfl
@[simp] theorem modGlb_insts (st : State) (f : GlbSt → GlbSt) : (modGlb st f).insts = st.insts := rfl
@[simp] theorem modGlb_capBytes (st : State) (f : GlbSt → GlbSt) : (modGlb st f).capBytes = st.capBytes := rfl
@[simp] theorem modGlb_restore (st : State) (f : GlbSt → GlbSt) : (modGlb st f).restore = st.restore := rfl
@[simp] theorem modGlb_ktr (st : State) (f : GlbSt → GlbSt) : (modGlb st f).ktr = st.ktr := rfl
@[simp] theorem modGlb_jnl (st : State) (f : GlbSt → GlbSt) : (modGlb st f).jnl = st.jnl := rfl
@[simp] theorem modGlb_mram (st : State) (f : GlbSt → GlbSt) : (modGlb st f).mram = st.mram := rfl
@[simp] theorem modGlb_tmp (st : State) (f : GlbSt → GlbSt) : (modGlb st f).tmp = st.tmp := rfl
@[simp] theorem modGlb_evl (st : State) (f : GlbSt → GlbSt) : (modGlb st f).evl = st.evl := rfl
@[simp] theorem modGlb_tsu (st : State) (f : GlbSt → GlbSt) : (modGlb st f).tsu = st.tsu := rfl
@[simp] theorem modGlb_saf (st : State) (f : GlbSt → GlbSt) : (modGlb st f).saf = st.saf := rfl
@[simp] theorem modGlb_safOrder (st : State) (f : GlbSt → GlbSt) : (modGlb st f).safOrder = st.safOrder := rfl
@[simp] theorem modGlb_twin (st : State) (f : GlbSt → GlbSt) : (modGlb st f).twin = st.twin := rfl
@[simp] theorem modGlb_mee (st : State) (f : GlbSt → GlbSt) : (modGlb st f).mee = st.mee := rfl
@[simp] theorem modGlb_pmu (st : State) (f : GlbSt → GlbSt) : (modGlb st f).pmu = st.pmu := rfl
@[simp] theorem modGlb_glb (st : State) (f : GlbSt → GlbSt) : (modGlb st f).glb = f st.glb := rfl
@[simp] theorem modGlb_pcie (st : State) (f : GlbSt → GlbSt) : (modGlb st f).pcie = st.pcie := rfl
@[simp] theorem modGlb_tap (st : State) (f : GlbSt → GlbSt) : (modGlb st f).tap = st.tap := rfl
@[simp] theorem modGlb_out (st : State) (f : GlbSt → GlbSt) : (modGlb st f).out = st.out := rfl
@[simp] theorem modGlb_lastRead (st : State) (f : GlbSt → GlbSt) : (modGlb st f).lastRead = st.lastRead := rfl
@[simp] theorem modGlb_freeCount (st : State) (f : GlbSt → GlbSt) : (modGlb st f).freeCount = st.freeCount := rfl

/-! modJnl -/
@[simp] theorem modJnl_pending (st : State) (f : JnlSt → JnlSt) : (modJnl st f).pending = st.pending := rfl
@[simp] theorem modJnl_regs (st : State) (f : JnlSt → JnlSt) : (modJnl st f).regs = st.regs := rfl
@[simp] theorem modJnl_applied (st : State) (f : JnlSt → JnlSt) : (modJnl st f).applied = st.applied := rfl
@[simp] theorem modJnl_defaults (st : State) (f : JnlSt → JnlSt) : (modJnl st f).defaults = st.defaults := rfl
@[simp] theorem modJnl_fuses (st : State) (f : JnlSt → JnlSt) : (modJnl st f).fuses = st.fuses := rfl
@[simp] theorem modJnl_primary (st : State) (f : JnlSt → JnlSt) : (modJnl st f).primary = st.primary := rfl
@[simp] theorem modJnl_debugPin (st : State) (f : JnlSt → JnlSt) : (modJnl st f).debugPin = st.debugPin := rfl
@[simp] theorem modJnl_debug (st : State) (f : JnlSt → JnlSt) : (modJnl st f).debug = st.debug := rfl
@[simp] theorem modJnl_sources (st : State) (f : JnlSt → JnlSt) : (modJnl st f).sources = st.sources := rfl
@[simp] theorem modJnl_img (st : State) (f : JnlSt → JnlSt) : (modJnl st f).img = st.img := rfl
@[simp] theorem modJnl_avs (st : State) (f : JnlSt → JnlSt) : (modJnl st f).avs = st.avs := rfl
@[simp] theorem modJnl_slices (st : State) (f : JnlSt → JnlSt) : (modJnl st f).slices = st.slices := rfl
@[simp] theorem modJnl_twinLanes (st : State) (f : JnlSt → JnlSt) : (modJnl st f).twinLanes = st.twinLanes := rfl
@[simp] theorem modJnl_rings (st : State) (f : JnlSt → JnlSt) : (modJnl st f).rings = st.rings := rfl
@[simp] theorem modJnl_insts (st : State) (f : JnlSt → JnlSt) : (modJnl st f).insts = st.insts := rfl
@[simp] theorem modJnl_capBytes (st : State) (f : JnlSt → JnlSt) : (modJnl st f).capBytes = st.capBytes := rfl
@[simp] theorem modJnl_restore (st : State) (f : JnlSt → JnlSt) : (modJnl st f).restore = st.restore := rfl
@[simp] theorem modJnl_ktr (st : State) (f : JnlSt → JnlSt) : (modJnl st f).ktr = st.ktr := rfl
@[simp] theorem modJnl_jnl (st : State) (f : JnlSt → JnlSt) : (modJnl st f).jnl = f st.jnl := rfl
@[simp] theorem modJnl_mram (st : State) (f : JnlSt → JnlSt) : (modJnl st f).mram = st.mram := rfl
@[simp] theorem modJnl_tmp (st : State) (f : JnlSt → JnlSt) : (modJnl st f).tmp = st.tmp := rfl
@[simp] theorem modJnl_evl (st : State) (f : JnlSt → JnlSt) : (modJnl st f).evl = st.evl := rfl
@[simp] theorem modJnl_tsu (st : State) (f : JnlSt → JnlSt) : (modJnl st f).tsu = st.tsu := rfl
@[simp] theorem modJnl_saf (st : State) (f : JnlSt → JnlSt) : (modJnl st f).saf = st.saf := rfl
@[simp] theorem modJnl_safOrder (st : State) (f : JnlSt → JnlSt) : (modJnl st f).safOrder = st.safOrder := rfl
@[simp] theorem modJnl_twin (st : State) (f : JnlSt → JnlSt) : (modJnl st f).twin = st.twin := rfl
@[simp] theorem modJnl_mee (st : State) (f : JnlSt → JnlSt) : (modJnl st f).mee = st.mee := rfl
@[simp] theorem modJnl_pmu (st : State) (f : JnlSt → JnlSt) : (modJnl st f).pmu = st.pmu := rfl
@[simp] theorem modJnl_glb (st : State) (f : JnlSt → JnlSt) : (modJnl st f).glb = st.glb := rfl
@[simp] theorem modJnl_pcie (st : State) (f : JnlSt → JnlSt) : (modJnl st f).pcie = st.pcie := rfl
@[simp] theorem modJnl_tap (st : State) (f : JnlSt → JnlSt) : (modJnl st f).tap = st.tap := rfl
@[simp] theorem modJnl_out (st : State) (f : JnlSt → JnlSt) : (modJnl st f).out = st.out := rfl
@[simp] theorem modJnl_lastRead (st : State) (f : JnlSt → JnlSt) : (modJnl st f).lastRead = st.lastRead := rfl
@[simp] theorem modJnl_freeCount (st : State) (f : JnlSt → JnlSt) : (modJnl st f).freeCount = st.freeCount := rfl

/-! modTmp -/
@[simp] theorem modTmp_pending (st : State) (f : TmpSt → TmpSt) : (modTmp st f).pending = st.pending := rfl
@[simp] theorem modTmp_regs (st : State) (f : TmpSt → TmpSt) : (modTmp st f).regs = st.regs := rfl
@[simp] theorem modTmp_applied (st : State) (f : TmpSt → TmpSt) : (modTmp st f).applied = st.applied := rfl
@[simp] theorem modTmp_defaults (st : State) (f : TmpSt → TmpSt) : (modTmp st f).defaults = st.defaults := rfl
@[simp] theorem modTmp_fuses (st : State) (f : TmpSt → TmpSt) : (modTmp st f).fuses = st.fuses := rfl
@[simp] theorem modTmp_primary (st : State) (f : TmpSt → TmpSt) : (modTmp st f).primary = st.primary := rfl
@[simp] theorem modTmp_debugPin (st : State) (f : TmpSt → TmpSt) : (modTmp st f).debugPin = st.debugPin := rfl
@[simp] theorem modTmp_debug (st : State) (f : TmpSt → TmpSt) : (modTmp st f).debug = st.debug := rfl
@[simp] theorem modTmp_sources (st : State) (f : TmpSt → TmpSt) : (modTmp st f).sources = st.sources := rfl
@[simp] theorem modTmp_img (st : State) (f : TmpSt → TmpSt) : (modTmp st f).img = st.img := rfl
@[simp] theorem modTmp_avs (st : State) (f : TmpSt → TmpSt) : (modTmp st f).avs = st.avs := rfl
@[simp] theorem modTmp_slices (st : State) (f : TmpSt → TmpSt) : (modTmp st f).slices = st.slices := rfl
@[simp] theorem modTmp_twinLanes (st : State) (f : TmpSt → TmpSt) : (modTmp st f).twinLanes = st.twinLanes := rfl
@[simp] theorem modTmp_rings (st : State) (f : TmpSt → TmpSt) : (modTmp st f).rings = st.rings := rfl
@[simp] theorem modTmp_insts (st : State) (f : TmpSt → TmpSt) : (modTmp st f).insts = st.insts := rfl
@[simp] theorem modTmp_capBytes (st : State) (f : TmpSt → TmpSt) : (modTmp st f).capBytes = st.capBytes := rfl
@[simp] theorem modTmp_restore (st : State) (f : TmpSt → TmpSt) : (modTmp st f).restore = st.restore := rfl
@[simp] theorem modTmp_ktr (st : State) (f : TmpSt → TmpSt) : (modTmp st f).ktr = st.ktr := rfl
@[simp] theorem modTmp_jnl (st : State) (f : TmpSt → TmpSt) : (modTmp st f).jnl = st.jnl := rfl
@[simp] theorem modTmp_mram (st : State) (f : TmpSt → TmpSt) : (modTmp st f).mram = st.mram := rfl
@[simp] theorem modTmp_tmp (st : State) (f : TmpSt → TmpSt) : (modTmp st f).tmp = f st.tmp := rfl
@[simp] theorem modTmp_evl (st : State) (f : TmpSt → TmpSt) : (modTmp st f).evl = st.evl := rfl
@[simp] theorem modTmp_tsu (st : State) (f : TmpSt → TmpSt) : (modTmp st f).tsu = st.tsu := rfl
@[simp] theorem modTmp_saf (st : State) (f : TmpSt → TmpSt) : (modTmp st f).saf = st.saf := rfl
@[simp] theorem modTmp_safOrder (st : State) (f : TmpSt → TmpSt) : (modTmp st f).safOrder = st.safOrder := rfl
@[simp] theorem modTmp_twin (st : State) (f : TmpSt → TmpSt) : (modTmp st f).twin = st.twin := rfl
@[simp] theorem modTmp_mee (st : State) (f : TmpSt → TmpSt) : (modTmp st f).mee = st.mee := rfl
@[simp] theorem modTmp_pmu (st : State) (f : TmpSt → TmpSt) : (modTmp st f).pmu = st.pmu := rfl
@[simp] theorem modTmp_glb (st : State) (f : TmpSt → TmpSt) : (modTmp st f).glb = st.glb := rfl
@[simp] theorem modTmp_pcie (st : State) (f : TmpSt → TmpSt) : (modTmp st f).pcie = st.pcie := rfl
@[simp] theorem modTmp_tap (st : State) (f : TmpSt → TmpSt) : (modTmp st f).tap = st.tap := rfl
@[simp] theorem modTmp_out (st : State) (f : TmpSt → TmpSt) : (modTmp st f).out = st.out := rfl
@[simp] theorem modTmp_lastRead (st : State) (f : TmpSt → TmpSt) : (modTmp st f).lastRead = st.lastRead := rfl
@[simp] theorem modTmp_freeCount (st : State) (f : TmpSt → TmpSt) : (modTmp st f).freeCount = st.freeCount := rfl

/-! modMee -/
@[simp] theorem modMee_pending (st : State) (f : MeeSt → MeeSt) : (modMee st f).pending = st.pending := rfl
@[simp] theorem modMee_regs (st : State) (f : MeeSt → MeeSt) : (modMee st f).regs = st.regs := rfl
@[simp] theorem modMee_applied (st : State) (f : MeeSt → MeeSt) : (modMee st f).applied = st.applied := rfl
@[simp] theorem modMee_defaults (st : State) (f : MeeSt → MeeSt) : (modMee st f).defaults = st.defaults := rfl
@[simp] theorem modMee_fuses (st : State) (f : MeeSt → MeeSt) : (modMee st f).fuses = st.fuses := rfl
@[simp] theorem modMee_primary (st : State) (f : MeeSt → MeeSt) : (modMee st f).primary = st.primary := rfl
@[simp] theorem modMee_debugPin (st : State) (f : MeeSt → MeeSt) : (modMee st f).debugPin = st.debugPin := rfl
@[simp] theorem modMee_debug (st : State) (f : MeeSt → MeeSt) : (modMee st f).debug = st.debug := rfl
@[simp] theorem modMee_sources (st : State) (f : MeeSt → MeeSt) : (modMee st f).sources = st.sources := rfl
@[simp] theorem modMee_img (st : State) (f : MeeSt → MeeSt) : (modMee st f).img = st.img := rfl
@[simp] theorem modMee_avs (st : State) (f : MeeSt → MeeSt) : (modMee st f).avs = st.avs := rfl
@[simp] theorem modMee_slices (st : State) (f : MeeSt → MeeSt) : (modMee st f).slices = st.slices := rfl
@[simp] theorem modMee_twinLanes (st : State) (f : MeeSt → MeeSt) : (modMee st f).twinLanes = st.twinLanes := rfl
@[simp] theorem modMee_rings (st : State) (f : MeeSt → MeeSt) : (modMee st f).rings = st.rings := rfl
@[simp] theorem modMee_insts (st : State) (f : MeeSt → MeeSt) : (modMee st f).insts = st.insts := rfl
@[simp] theorem modMee_capBytes (st : State) (f : MeeSt → MeeSt) : (modMee st f).capBytes = st.capBytes := rfl
@[simp] theorem modMee_restore (st : State) (f : MeeSt → MeeSt) : (modMee st f).restore = st.restore := rfl
@[simp] theorem modMee_ktr (st : State) (f : MeeSt → MeeSt) : (modMee st f).ktr = st.ktr := rfl
@[simp] theorem modMee_jnl (st : State) (f : MeeSt → MeeSt) : (modMee st f).jnl = st.jnl := rfl
@[simp] theorem modMee_mram (st : State) (f : MeeSt → MeeSt) : (modMee st f).mram = st.mram := rfl
@[simp] theorem modMee_tmp (st : State) (f : MeeSt → MeeSt) : (modMee st f).tmp = st.tmp := rfl
@[simp] theorem modMee_evl (st : State) (f : MeeSt → MeeSt) : (modMee st f).evl = st.evl := rfl
@[simp] theorem modMee_tsu (st : State) (f : MeeSt → MeeSt) : (modMee st f).tsu = st.tsu := rfl
@[simp] theorem modMee_saf (st : State) (f : MeeSt → MeeSt) : (modMee st f).saf = st.saf := rfl
@[simp] theorem modMee_safOrder (st : State) (f : MeeSt → MeeSt) : (modMee st f).safOrder = st.safOrder := rfl
@[simp] theorem modMee_twin (st : State) (f : MeeSt → MeeSt) : (modMee st f).twin = st.twin := rfl
@[simp] theorem modMee_mee (st : State) (f : MeeSt → MeeSt) : (modMee st f).mee = f st.mee := rfl
@[simp] theorem modMee_pmu (st : State) (f : MeeSt → MeeSt) : (modMee st f).pmu = st.pmu := rfl
@[simp] theorem modMee_glb (st : State) (f : MeeSt → MeeSt) : (modMee st f).glb = st.glb := rfl
@[simp] theorem modMee_pcie (st : State) (f : MeeSt → MeeSt) : (modMee st f).pcie = st.pcie := rfl
@[simp] theorem modMee_tap (st : State) (f : MeeSt → MeeSt) : (modMee st f).tap = st.tap := rfl
@[simp] theorem modMee_out (st : State) (f : MeeSt → MeeSt) : (modMee st f).out = st.out := rfl
@[simp] theorem modMee_lastRead (st : State) (f : MeeSt → MeeSt) : (modMee st f).lastRead = st.lastRead := rfl
@[simp] theorem modMee_freeCount (st : State) (f : MeeSt → MeeSt) : (modMee st f).freeCount = st.freeCount := rfl

/-! modPmu -/
@[simp] theorem modPmu_pending (st : State) (f : PmuSt → PmuSt) : (modPmu st f).pending = st.pending := rfl
@[simp] theorem modPmu_regs (st : State) (f : PmuSt → PmuSt) : (modPmu st f).regs = st.regs := rfl
@[simp] theorem modPmu_applied (st : State) (f : PmuSt → PmuSt) : (modPmu st f).applied = st.applied := rfl
@[simp] theorem modPmu_defaults (st : State) (f : PmuSt → PmuSt) : (modPmu st f).defaults = st.defaults := rfl
@[simp] theorem modPmu_fuses (st : State) (f : PmuSt → PmuSt) : (modPmu st f).fuses = st.fuses := rfl
@[simp] theorem modPmu_primary (st : State) (f : PmuSt → PmuSt) : (modPmu st f).primary = st.primary := rfl
@[simp] theorem modPmu_debugPin (st : State) (f : PmuSt → PmuSt) : (modPmu st f).debugPin = st.debugPin := rfl
@[simp] theorem modPmu_debug (st : State) (f : PmuSt → PmuSt) : (modPmu st f).debug = st.debug := rfl
@[simp] theorem modPmu_sources (st : State) (f : PmuSt → PmuSt) : (modPmu st f).sources = st.sources := rfl
@[simp] theorem modPmu_img (st : State) (f : PmuSt → PmuSt) : (modPmu st f).img = st.img := rfl
@[simp] theorem modPmu_avs (st : State) (f : PmuSt → PmuSt) : (modPmu st f).avs = st.avs := rfl
@[simp] theorem modPmu_slices (st : State) (f : PmuSt → PmuSt) : (modPmu st f).slices = st.slices := rfl
@[simp] theorem modPmu_twinLanes (st : State) (f : PmuSt → PmuSt) : (modPmu st f).twinLanes = st.twinLanes := rfl
@[simp] theorem modPmu_rings (st : State) (f : PmuSt → PmuSt) : (modPmu st f).rings = st.rings := rfl
@[simp] theorem modPmu_insts (st : State) (f : PmuSt → PmuSt) : (modPmu st f).insts = st.insts := rfl
@[simp] theorem modPmu_capBytes (st : State) (f : PmuSt → PmuSt) : (modPmu st f).capBytes = st.capBytes := rfl
@[simp] theorem modPmu_restore (st : State) (f : PmuSt → PmuSt) : (modPmu st f).restore = st.restore := rfl
@[simp] theorem modPmu_ktr (st : State) (f : PmuSt → PmuSt) : (modPmu st f).ktr = st.ktr := rfl
@[simp] theorem modPmu_jnl (st : State) (f : PmuSt → PmuSt) : (modPmu st f).jnl = st.jnl := rfl
@[simp] theorem modPmu_mram (st : State) (f : PmuSt → PmuSt) : (modPmu st f).mram = st.mram := rfl
@[simp] theorem modPmu_tmp (st : State) (f : PmuSt → PmuSt) : (modPmu st f).tmp = st.tmp := rfl
@[simp] theorem modPmu_evl (st : State) (f : PmuSt → PmuSt) : (modPmu st f).evl = st.evl := rfl
@[simp] theorem modPmu_tsu (st : State) (f : PmuSt → PmuSt) : (modPmu st f).tsu = st.tsu := rfl
@[simp] theorem modPmu_saf (st : State) (f : PmuSt → PmuSt) : (modPmu st f).saf = st.saf := rfl
@[simp] theorem modPmu_safOrder (st : State) (f : PmuSt → PmuSt) : (modPmu st f).safOrder = st.safOrder := rfl
@[simp] theorem modPmu_twin (st : State) (f : PmuSt → PmuSt) : (modPmu st f).twin = st.twin := rfl
@[simp] theorem modPmu_mee (st : State) (f : PmuSt → PmuSt) : (modPmu st f).mee = st.mee := rfl
@[simp] theorem modPmu_pmu (st : State) (f : PmuSt → PmuSt) : (modPmu st f).pmu = f st.pmu := rfl
@[simp] theorem modPmu_glb (st : State) (f : PmuSt → PmuSt) : (modPmu st f).glb = st.glb := rfl
@[simp] theorem modPmu_pcie (st : State) (f : PmuSt → PmuSt) : (modPmu st f).pcie = st.pcie := rfl
@[simp] theorem modPmu_tap (st : State) (f : PmuSt → PmuSt) : (modPmu st f).tap = st.tap := rfl
@[simp] theorem modPmu_out (st : State) (f : PmuSt → PmuSt) : (modPmu st f).out = st.out := rfl
@[simp] theorem modPmu_lastRead (st : State) (f : PmuSt → PmuSt) : (modPmu st f).lastRead = st.lastRead := rfl
@[simp] theorem modPmu_freeCount (st : State) (f : PmuSt → PmuSt) : (modPmu st f).freeCount = st.freeCount := rfl

/-! modTsu -/
@[simp] theorem modTsu_pending (st : State) (f : TsuSt → TsuSt) : (modTsu st f).pending = st.pending := rfl
@[simp] theorem modTsu_regs (st : State) (f : TsuSt → TsuSt) : (modTsu st f).regs = st.regs := rfl
@[simp] theorem modTsu_applied (st : State) (f : TsuSt → TsuSt) : (modTsu st f).applied = st.applied := rfl
@[simp] theorem modTsu_defaults (st : State) (f : TsuSt → TsuSt) : (modTsu st f).defaults = st.defaults := rfl
@[simp] theorem modTsu_fuses (st : State) (f : TsuSt → TsuSt) : (modTsu st f).fuses = st.fuses := rfl
@[simp] theorem modTsu_primary (st : State) (f : TsuSt → TsuSt) : (modTsu st f).primary = st.primary := rfl
@[simp] theorem modTsu_debugPin (st : State) (f : TsuSt → TsuSt) : (modTsu st f).debugPin = st.debugPin := rfl
@[simp] theorem modTsu_debug (st : State) (f : TsuSt → TsuSt) : (modTsu st f).debug = st.debug := rfl
@[simp] theorem modTsu_sources (st : State) (f : TsuSt → TsuSt) : (modTsu st f).sources = st.sources := rfl
@[simp] theorem modTsu_img (st : State) (f : TsuSt → TsuSt) : (modTsu st f).img = st.img := rfl
@[simp] theorem modTsu_avs (st : State) (f : TsuSt → TsuSt) : (modTsu st f).avs = st.avs := rfl
@[simp] theorem modTsu_slices (st : State) (f : TsuSt → TsuSt) : (modTsu st f).slices = st.slices := rfl
@[simp] theorem modTsu_twinLanes (st : State) (f : TsuSt → TsuSt) : (modTsu st f).twinLanes = st.twinLanes := rfl
@[simp] theorem modTsu_rings (st : State) (f : TsuSt → TsuSt) : (modTsu st f).rings = st.rings := rfl
@[simp] theorem modTsu_insts (st : State) (f : TsuSt → TsuSt) : (modTsu st f).insts = st.insts := rfl
@[simp] theorem modTsu_capBytes (st : State) (f : TsuSt → TsuSt) : (modTsu st f).capBytes = st.capBytes := rfl
@[simp] theorem modTsu_restore (st : State) (f : TsuSt → TsuSt) : (modTsu st f).restore = st.restore := rfl
@[simp] theorem modTsu_ktr (st : State) (f : TsuSt → TsuSt) : (modTsu st f).ktr = st.ktr := rfl
@[simp] theorem modTsu_jnl (st : State) (f : TsuSt → TsuSt) : (modTsu st f).jnl = st.jnl := rfl
@[simp] theorem modTsu_mram (st : State) (f : TsuSt → TsuSt) : (modTsu st f).mram = st.mram := rfl
@[simp] theorem modTsu_tmp (st : State) (f : TsuSt → TsuSt) : (modTsu st f).tmp = st.tmp := rfl
@[simp] theorem modTsu_evl (st : State) (f : TsuSt → TsuSt) : (modTsu st f).evl = st.evl := rfl
@[simp] theorem modTsu_tsu (st : State) (f : TsuSt → TsuSt) : (modTsu st f).tsu = f st.tsu := rfl
@[simp] theorem modTsu_saf (st : State) (f : TsuSt → TsuSt) : (modTsu st f).saf = st.saf := rfl
@[simp] theorem modTsu_safOrder (st : State) (f : TsuSt → TsuSt) : (modTsu st f).safOrder = st.safOrder := rfl
@[simp] theorem modTsu_twin (st : State) (f : TsuSt → TsuSt) : (modTsu st f).twin = st.twin := rfl
@[simp] theorem modTsu_mee (st : State) (f : TsuSt → TsuSt) : (modTsu st f).mee = st.mee := rfl
@[simp] theorem modTsu_pmu (st : State) (f : TsuSt → TsuSt) : (modTsu st f).pmu = st.pmu := rfl
@[simp] theorem modTsu_glb (st : State) (f : TsuSt → TsuSt) : (modTsu st f).glb = st.glb := rfl
@[simp] theorem modTsu_pcie (st : State) (f : TsuSt → TsuSt) : (modTsu st f).pcie = st.pcie := rfl
@[simp] theorem modTsu_tap (st : State) (f : TsuSt → TsuSt) : (modTsu st f).tap = st.tap := rfl
@[simp] theorem modTsu_out (st : State) (f : TsuSt → TsuSt) : (modTsu st f).out = st.out := rfl
@[simp] theorem modTsu_lastRead (st : State) (f : TsuSt → TsuSt) : (modTsu st f).lastRead = st.lastRead := rfl
@[simp] theorem modTsu_freeCount (st : State) (f : TsuSt → TsuSt) : (modTsu st f).freeCount = st.freeCount := rfl

/-! modImg -/
@[simp] theorem modImg_pending (st : State) (f : ImgSt → ImgSt) : (modImg st f).pending = st.pending := rfl
@[simp] theorem modImg_regs (st : State) (f : ImgSt → ImgSt) : (modImg st f).regs = st.regs := rfl
@[simp] theorem modImg_applied (st : State) (f : ImgSt → ImgSt) : (modImg st f).applied = st.applied := rfl
@[simp] theorem modImg_defaults (st : State) (f : ImgSt → ImgSt) : (modImg st f).defaults = st.defaults := rfl
@[simp] theorem modImg_fuses (st : State) (f : ImgSt → ImgSt) : (modImg st f).fuses = st.fuses := rfl
@[simp] theorem modImg_primary (st : State) (f : ImgSt → ImgSt) : (modImg st f).primary = st.primary := rfl
@[simp] theorem modImg_debugPin (st : State) (f : ImgSt → ImgSt) : (modImg st f).debugPin = st.debugPin := rfl
@[simp] theorem modImg_debug (st : State) (f : ImgSt → ImgSt) : (modImg st f).debug = st.debug := rfl
@[simp] theorem modImg_sources (st : State) (f : ImgSt → ImgSt) : (modImg st f).sources = st.sources := rfl
@[simp] theorem modImg_img (st : State) (f : ImgSt → ImgSt) : (modImg st f).img = f st.img := rfl
@[simp] theorem modImg_avs (st : State) (f : ImgSt → ImgSt) : (modImg st f).avs = st.avs := rfl
@[simp] theorem modImg_slices (st : State) (f : ImgSt → ImgSt) : (modImg st f).slices = st.slices := rfl
@[simp] theorem modImg_twinLanes (st : State) (f : ImgSt → ImgSt) : (modImg st f).twinLanes = st.twinLanes := rfl
@[simp] theorem modImg_rings (st : State) (f : ImgSt → ImgSt) : (modImg st f).rings = st.rings := rfl
@[simp] theorem modImg_insts (st : State) (f : ImgSt → ImgSt) : (modImg st f).insts = st.insts := rfl
@[simp] theorem modImg_capBytes (st : State) (f : ImgSt → ImgSt) : (modImg st f).capBytes = st.capBytes := rfl
@[simp] theorem modImg_restore (st : State) (f : ImgSt → ImgSt) : (modImg st f).restore = st.restore := rfl
@[simp] theorem modImg_ktr (st : State) (f : ImgSt → ImgSt) : (modImg st f).ktr = st.ktr := rfl
@[simp] theorem modImg_jnl (st : State) (f : ImgSt → ImgSt) : (modImg st f).jnl = st.jnl := rfl
@[simp] theorem modImg_mram (st : State) (f : ImgSt → ImgSt) : (modImg st f).mram = st.mram := rfl
@[simp] theorem modImg_tmp (st : State) (f : ImgSt → ImgSt) : (modImg st f).tmp = st.tmp := rfl
@[simp] theorem modImg_evl (st : State) (f : ImgSt → ImgSt) : (modImg st f).evl = st.evl := rfl
@[simp] theorem modImg_tsu (st : State) (f : ImgSt → ImgSt) : (modImg st f).tsu = st.tsu := rfl
@[simp] theorem modImg_saf (st : State) (f : ImgSt → ImgSt) : (modImg st f).saf = st.saf := rfl
@[simp] theorem modImg_safOrder (st : State) (f : ImgSt → ImgSt) : (modImg st f).safOrder = st.safOrder := rfl
@[simp] theorem modImg_twin (st : State) (f : ImgSt → ImgSt) : (modImg st f).twin = st.twin := rfl
@[simp] theorem modImg_mee (st : State) (f : ImgSt → ImgSt) : (modImg st f).mee = st.mee := rfl
@[simp] theorem modImg_pmu (st : State) (f : ImgSt → ImgSt) : (modImg st f).pmu = st.pmu := rfl
@[simp] theorem modImg_glb (st : State) (f : ImgSt → ImgSt) : (modImg st f).glb = st.glb := rfl
@[simp] theorem modImg_pcie (st : State) (f : ImgSt → ImgSt) : (modImg st f).pcie = st.pcie := rfl
@[simp] theorem modImg_tap (st : State) (f : ImgSt → ImgSt) : (modImg st f).tap = st.tap := rfl
@[simp] theorem modImg_out (st : State) (f : ImgSt → ImgSt) : (modImg st f).out = st.out := rfl
@[simp] theorem modImg_lastRead (st : State) (f : ImgSt → ImgSt) : (modImg st f).lastRead = st.lastRead := rfl
@[simp] theorem modImg_freeCount (st : State) (f : ImgSt → ImgSt) : (modImg st f).freeCount = st.freeCount := rfl

/-! modInst -/
@[simp] theorem modInst_pending (st : State) (i : InstId) (f : InstSt → InstSt) : (modInst st i f).pending = st.pending := rfl
@[simp] theorem modInst_regs (st : State) (i : InstId) (f : InstSt → InstSt) : (modInst st i f).regs = st.regs := rfl
@[simp] theorem modInst_applied (st : State) (i : InstId) (f : InstSt → InstSt) : (modInst st i f).applied = st.applied := rfl
@[simp] theorem modInst_defaults (st : State) (i : InstId) (f : InstSt → InstSt) : (modInst st i f).defaults = st.defaults := rfl
@[simp] theorem modInst_fuses (st : State) (i : InstId) (f : InstSt → InstSt) : (modInst st i f).fuses = st.fuses := rfl
@[simp] theorem modInst_primary (st : State) (i : InstId) (f : InstSt → InstSt) : (modInst st i f).primary = st.primary := rfl
@[simp] theorem modInst_debugPin (st : State) (i : InstId) (f : InstSt → InstSt) : (modInst st i f).debugPin = st.debugPin := rfl
@[simp] theorem modInst_debug (st : State) (i : InstId) (f : InstSt → InstSt) : (modInst st i f).debug = st.debug := rfl
@[simp] theorem modInst_sources (st : State) (i : InstId) (f : InstSt → InstSt) : (modInst st i f).sources = st.sources := rfl
@[simp] theorem modInst_img (st : State) (i : InstId) (f : InstSt → InstSt) : (modInst st i f).img = st.img := rfl
@[simp] theorem modInst_avs (st : State) (i : InstId) (f : InstSt → InstSt) : (modInst st i f).avs = st.avs := rfl
@[simp] theorem modInst_slices (st : State) (i : InstId) (f : InstSt → InstSt) : (modInst st i f).slices = st.slices := rfl
@[simp] theorem modInst_twinLanes (st : State) (i : InstId) (f : InstSt → InstSt) : (modInst st i f).twinLanes = st.twinLanes := rfl
@[simp] theorem modInst_rings (st : State) (i : InstId) (f : InstSt → InstSt) : (modInst st i f).rings = st.rings := rfl
@[simp] theorem modInst_insts (st : State) (i : InstId) (f : InstSt → InstSt) : (modInst st i f).insts = st.insts.put i.val (f (inst st i)) := rfl
@[simp] theorem modInst_capBytes (st : State) (i : InstId) (f : InstSt → InstSt) : (modInst st i f).capBytes = st.capBytes := rfl
@[simp] theorem modInst_restore (st : State) (i : InstId) (f : InstSt → InstSt) : (modInst st i f).restore = st.restore := rfl
@[simp] theorem modInst_ktr (st : State) (i : InstId) (f : InstSt → InstSt) : (modInst st i f).ktr = st.ktr := rfl
@[simp] theorem modInst_jnl (st : State) (i : InstId) (f : InstSt → InstSt) : (modInst st i f).jnl = st.jnl := rfl
@[simp] theorem modInst_mram (st : State) (i : InstId) (f : InstSt → InstSt) : (modInst st i f).mram = st.mram := rfl
@[simp] theorem modInst_tmp (st : State) (i : InstId) (f : InstSt → InstSt) : (modInst st i f).tmp = st.tmp := rfl
@[simp] theorem modInst_evl (st : State) (i : InstId) (f : InstSt → InstSt) : (modInst st i f).evl = st.evl := rfl
@[simp] theorem modInst_tsu (st : State) (i : InstId) (f : InstSt → InstSt) : (modInst st i f).tsu = st.tsu := rfl
@[simp] theorem modInst_saf (st : State) (i : InstId) (f : InstSt → InstSt) : (modInst st i f).saf = st.saf := rfl
@[simp] theorem modInst_safOrder (st : State) (i : InstId) (f : InstSt → InstSt) : (modInst st i f).safOrder = st.safOrder := rfl
@[simp] theorem modInst_twin (st : State) (i : InstId) (f : InstSt → InstSt) : (modInst st i f).twin = st.twin := rfl
@[simp] theorem modInst_mee (st : State) (i : InstId) (f : InstSt → InstSt) : (modInst st i f).mee = st.mee := rfl
@[simp] theorem modInst_pmu (st : State) (i : InstId) (f : InstSt → InstSt) : (modInst st i f).pmu = st.pmu := rfl
@[simp] theorem modInst_glb (st : State) (i : InstId) (f : InstSt → InstSt) : (modInst st i f).glb = st.glb := rfl
@[simp] theorem modInst_pcie (st : State) (i : InstId) (f : InstSt → InstSt) : (modInst st i f).pcie = st.pcie := rfl
@[simp] theorem modInst_tap (st : State) (i : InstId) (f : InstSt → InstSt) : (modInst st i f).tap = st.tap := rfl
@[simp] theorem modInst_out (st : State) (i : InstId) (f : InstSt → InstSt) : (modInst st i f).out = st.out := rfl
@[simp] theorem modInst_lastRead (st : State) (i : InstId) (f : InstSt → InstSt) : (modInst st i f).lastRead = st.lastRead := rfl
@[simp] theorem modInst_freeCount (st : State) (i : InstId) (f : InstSt → InstSt) : (modInst st i f).freeCount = st.freeCount := rfl

/-! emit -/
@[simp] theorem emit_pending (st : State) (o : Output) : (emit st o).pending = st.pending := rfl
@[simp] theorem emit_regs (st : State) (o : Output) : (emit st o).regs = st.regs := rfl
@[simp] theorem emit_applied (st : State) (o : Output) : (emit st o).applied = st.applied := rfl
@[simp] theorem emit_defaults (st : State) (o : Output) : (emit st o).defaults = st.defaults := rfl
@[simp] theorem emit_fuses (st : State) (o : Output) : (emit st o).fuses = st.fuses := rfl
@[simp] theorem emit_primary (st : State) (o : Output) : (emit st o).primary = st.primary := rfl
@[simp] theorem emit_debugPin (st : State) (o : Output) : (emit st o).debugPin = st.debugPin := rfl
@[simp] theorem emit_debug (st : State) (o : Output) : (emit st o).debug = st.debug := rfl
@[simp] theorem emit_sources (st : State) (o : Output) : (emit st o).sources = st.sources := rfl
@[simp] theorem emit_img (st : State) (o : Output) : (emit st o).img = st.img := rfl
@[simp] theorem emit_avs (st : State) (o : Output) : (emit st o).avs = st.avs := rfl
@[simp] theorem emit_slices (st : State) (o : Output) : (emit st o).slices = st.slices := rfl
@[simp] theorem emit_twinLanes (st : State) (o : Output) : (emit st o).twinLanes = st.twinLanes := rfl
@[simp] theorem emit_rings (st : State) (o : Output) : (emit st o).rings = st.rings := rfl
@[simp] theorem emit_insts (st : State) (o : Output) : (emit st o).insts = st.insts := rfl
@[simp] theorem emit_capBytes (st : State) (o : Output) : (emit st o).capBytes = st.capBytes := rfl
@[simp] theorem emit_restore (st : State) (o : Output) : (emit st o).restore = st.restore := rfl
@[simp] theorem emit_ktr (st : State) (o : Output) : (emit st o).ktr = st.ktr := rfl
@[simp] theorem emit_jnl (st : State) (o : Output) : (emit st o).jnl = st.jnl := rfl
@[simp] theorem emit_mram (st : State) (o : Output) : (emit st o).mram = st.mram := rfl
@[simp] theorem emit_tmp (st : State) (o : Output) : (emit st o).tmp = st.tmp := rfl
@[simp] theorem emit_evl (st : State) (o : Output) : (emit st o).evl = st.evl := rfl
@[simp] theorem emit_tsu (st : State) (o : Output) : (emit st o).tsu = st.tsu := rfl
@[simp] theorem emit_saf (st : State) (o : Output) : (emit st o).saf = st.saf := rfl
@[simp] theorem emit_safOrder (st : State) (o : Output) : (emit st o).safOrder = st.safOrder := rfl
@[simp] theorem emit_twin (st : State) (o : Output) : (emit st o).twin = st.twin := rfl
@[simp] theorem emit_mee (st : State) (o : Output) : (emit st o).mee = st.mee := rfl
@[simp] theorem emit_pmu (st : State) (o : Output) : (emit st o).pmu = st.pmu := rfl
@[simp] theorem emit_glb (st : State) (o : Output) : (emit st o).glb = st.glb := rfl
@[simp] theorem emit_pcie (st : State) (o : Output) : (emit st o).pcie = st.pcie := rfl
@[simp] theorem emit_tap (st : State) (o : Output) : (emit st o).tap = st.tap := rfl
@[simp] theorem emit_out (st : State) (o : Output) : (emit st o).out = st.out ++ [o] := rfl
@[simp] theorem emit_lastRead (st : State) (o : Output) : (emit st o).lastRead = st.lastRead := rfl
@[simp] theorem emit_freeCount (st : State) (o : Output) : (emit st o).freeCount = st.freeCount := rfl

/-! wr -/
@[simp] theorem wr_pending (st : State) (a : Nat) (w : Word) : (wr st a w).pending = st.pending := rfl
@[simp] theorem wr_regs (st : State) (a : Nat) (w : Word) : (wr st a w).regs = st.regs.put a w := rfl
@[simp] theorem wr_applied (st : State) (a : Nat) (w : Word) : (wr st a w).applied = st.applied := rfl
@[simp] theorem wr_defaults (st : State) (a : Nat) (w : Word) : (wr st a w).defaults = st.defaults := rfl
@[simp] theorem wr_fuses (st : State) (a : Nat) (w : Word) : (wr st a w).fuses = st.fuses := rfl
@[simp] theorem wr_primary (st : State) (a : Nat) (w : Word) : (wr st a w).primary = st.primary := rfl
@[simp] theorem wr_debugPin (st : State) (a : Nat) (w : Word) : (wr st a w).debugPin = st.debugPin := rfl
@[simp] theorem wr_debug (st : State) (a : Nat) (w : Word) : (wr st a w).debug = st.debug := rfl
@[simp] theorem wr_sources (st : State) (a : Nat) (w : Word) : (wr st a w).sources = st.sources := rfl
@[simp] theorem wr_img (st : State) (a : Nat) (w : Word) : (wr st a w).img = st.img := rfl
@[simp] theorem wr_avs (st : State) (a : Nat) (w : Word) : (wr st a w).avs = st.avs := rfl
@[simp] theorem wr_slices (st : State) (a : Nat) (w : Word) : (wr st a w).slices = st.slices := rfl
@[simp] theorem wr_twinLanes (st : State) (a : Nat) (w : Word) : (wr st a w).twinLanes = st.twinLanes := rfl
@[simp] theorem wr_rings (st : State) (a : Nat) (w : Word) : (wr st a w).rings = st.rings := rfl
@[simp] theorem wr_insts (st : State) (a : Nat) (w : Word) : (wr st a w).insts = st.insts := rfl
@[simp] theorem wr_capBytes (st : State) (a : Nat) (w : Word) : (wr st a w).capBytes = st.capBytes := rfl
@[simp] theorem wr_restore (st : State) (a : Nat) (w : Word) : (wr st a w).restore = st.restore := rfl
@[simp] theorem wr_ktr (st : State) (a : Nat) (w : Word) : (wr st a w).ktr = st.ktr := rfl
@[simp] theorem wr_jnl (st : State) (a : Nat) (w : Word) : (wr st a w).jnl = st.jnl := rfl
@[simp] theorem wr_mram (st : State) (a : Nat) (w : Word) : (wr st a w).mram = st.mram := rfl
@[simp] theorem wr_tmp (st : State) (a : Nat) (w : Word) : (wr st a w).tmp = st.tmp := rfl
@[simp] theorem wr_evl (st : State) (a : Nat) (w : Word) : (wr st a w).evl = st.evl := rfl
@[simp] theorem wr_tsu (st : State) (a : Nat) (w : Word) : (wr st a w).tsu = st.tsu := rfl
@[simp] theorem wr_saf (st : State) (a : Nat) (w : Word) : (wr st a w).saf = st.saf := rfl
@[simp] theorem wr_safOrder (st : State) (a : Nat) (w : Word) : (wr st a w).safOrder = st.safOrder := rfl
@[simp] theorem wr_twin (st : State) (a : Nat) (w : Word) : (wr st a w).twin = st.twin := rfl
@[simp] theorem wr_mee (st : State) (a : Nat) (w : Word) : (wr st a w).mee = st.mee := rfl
@[simp] theorem wr_pmu (st : State) (a : Nat) (w : Word) : (wr st a w).pmu = st.pmu := rfl
@[simp] theorem wr_glb (st : State) (a : Nat) (w : Word) : (wr st a w).glb = st.glb := rfl
@[simp] theorem wr_pcie (st : State) (a : Nat) (w : Word) : (wr st a w).pcie = st.pcie := rfl
@[simp] theorem wr_tap (st : State) (a : Nat) (w : Word) : (wr st a w).tap = st.tap := rfl
@[simp] theorem wr_out (st : State) (a : Nat) (w : Word) : (wr st a w).out = st.out := rfl
@[simp] theorem wr_lastRead (st : State) (a : Nat) (w : Word) : (wr st a w).lastRead = st.lastRead := rfl
@[simp] theorem wr_freeCount (st : State) (a : Nat) (w : Word) : (wr st a w).freeCount = st.freeCount := rfl

/-! wrA -/
@[simp] theorem wrA_pending (st : State) (a : Nat) (w : Word) : (wrA st a w).pending = st.pending := rfl
@[simp] theorem wrA_regs (st : State) (a : Nat) (w : Word) : (wrA st a w).regs = st.regs := rfl
@[simp] theorem wrA_applied (st : State) (a : Nat) (w : Word) : (wrA st a w).applied = st.applied.put a w := rfl
@[simp] theorem wrA_defaults (st : State) (a : Nat) (w : Word) : (wrA st a w).defaults = st.defaults := rfl
@[simp] theorem wrA_fuses (st : State) (a : Nat) (w : Word) : (wrA st a w).fuses = st.fuses := rfl
@[simp] theorem wrA_primary (st : State) (a : Nat) (w : Word) : (wrA st a w).primary = st.primary := rfl
@[simp] theorem wrA_debugPin (st : State) (a : Nat) (w : Word) : (wrA st a w).debugPin = st.debugPin := rfl
@[simp] theorem wrA_debug (st : State) (a : Nat) (w : Word) : (wrA st a w).debug = st.debug := rfl
@[simp] theorem wrA_sources (st : State) (a : Nat) (w : Word) : (wrA st a w).sources = st.sources := rfl
@[simp] theorem wrA_img (st : State) (a : Nat) (w : Word) : (wrA st a w).img = st.img := rfl
@[simp] theorem wrA_avs (st : State) (a : Nat) (w : Word) : (wrA st a w).avs = st.avs := rfl
@[simp] theorem wrA_slices (st : State) (a : Nat) (w : Word) : (wrA st a w).slices = st.slices := rfl
@[simp] theorem wrA_twinLanes (st : State) (a : Nat) (w : Word) : (wrA st a w).twinLanes = st.twinLanes := rfl
@[simp] theorem wrA_rings (st : State) (a : Nat) (w : Word) : (wrA st a w).rings = st.rings := rfl
@[simp] theorem wrA_insts (st : State) (a : Nat) (w : Word) : (wrA st a w).insts = st.insts := rfl
@[simp] theorem wrA_capBytes (st : State) (a : Nat) (w : Word) : (wrA st a w).capBytes = st.capBytes := rfl
@[simp] theorem wrA_restore (st : State) (a : Nat) (w : Word) : (wrA st a w).restore = st.restore := rfl
@[simp] theorem wrA_ktr (st : State) (a : Nat) (w : Word) : (wrA st a w).ktr = st.ktr := rfl
@[simp] theorem wrA_jnl (st : State) (a : Nat) (w : Word) : (wrA st a w).jnl = st.jnl := rfl
@[simp] theorem wrA_mram (st : State) (a : Nat) (w : Word) : (wrA st a w).mram = st.mram := rfl
@[simp] theorem wrA_tmp (st : State) (a : Nat) (w : Word) : (wrA st a w).tmp = st.tmp := rfl
@[simp] theorem wrA_evl (st : State) (a : Nat) (w : Word) : (wrA st a w).evl = st.evl := rfl
@[simp] theorem wrA_tsu (st : State) (a : Nat) (w : Word) : (wrA st a w).tsu = st.tsu := rfl
@[simp] theorem wrA_saf (st : State) (a : Nat) (w : Word) : (wrA st a w).saf = st.saf := rfl
@[simp] theorem wrA_safOrder (st : State) (a : Nat) (w : Word) : (wrA st a w).safOrder = st.safOrder := rfl
@[simp] theorem wrA_twin (st : State) (a : Nat) (w : Word) : (wrA st a w).twin = st.twin := rfl
@[simp] theorem wrA_mee (st : State) (a : Nat) (w : Word) : (wrA st a w).mee = st.mee := rfl
@[simp] theorem wrA_pmu (st : State) (a : Nat) (w : Word) : (wrA st a w).pmu = st.pmu := rfl
@[simp] theorem wrA_glb (st : State) (a : Nat) (w : Word) : (wrA st a w).glb = st.glb := rfl
@[simp] theorem wrA_pcie (st : State) (a : Nat) (w : Word) : (wrA st a w).pcie = st.pcie := rfl
@[simp] theorem wrA_tap (st : State) (a : Nat) (w : Word) : (wrA st a w).tap = st.tap := rfl
@[simp] theorem wrA_out (st : State) (a : Nat) (w : Word) : (wrA st a w).out = st.out := rfl
@[simp] theorem wrA_lastRead (st : State) (a : Nat) (w : Word) : (wrA st a w).lastRead = st.lastRead := rfl
@[simp] theorem wrA_freeCount (st : State) (a : Nat) (w : Word) : (wrA st a w).freeCount = st.freeCount := rfl

end Sys2Proof.Machine
end

