-- ==== Sys2Proof/Laws/Stores.lean ====
section
/-!
SUPPORT. Laws of sparse stores and of bit fields: a read after a write, and what a write leaves alone.
-/
namespace Sys2Proof.Machine

variable {α : Type}

@[simp] theorem NMap.get?_nil (k : Nat) : NMap.get? ([] : NMap α) k = none := rfl

theorem NMap.get?_cons (p : Nat × α) (m : NMap α) (k : Nat) :
    NMap.get? (p :: m) k = if p.1 = k then some p.2 else NMap.get? m k := by
  simp only [NMap.get?, List.find?_cons]
  by_cases h : p.1 = k
  · simp [h]
  · have hb : (p.1 == k) = false := by simp [h]
    simp [h, hb]

@[simp] theorem NMap.get?_put_self (m : NMap α) (k : Nat) (v : α) : (m.put k v).get? k = some v := by
  induction m with
  | nil => simp [NMap.put, NMap.get?_cons]
  | cons p m ih =>
    simp only [NMap.put]
    split
    · simp [NMap.get?_cons]
    · split
      · simp [NMap.get?_cons]
      · rename_i h1 h2
        have : p.1 ≠ k := fun e => h2 e.symm
        simp [NMap.get?_cons, this, ih]

theorem NMap.get?_put_ne (m : NMap α) (k j : Nat) (v : α) (h : j ≠ k) : (m.put k v).get? j = m.get? j := by
  have h' : k ≠ j := Ne.symm h
  induction m with
  | nil => simp [NMap.put, NMap.get?_cons, h']
  | cons p m ih =>
    simp only [NMap.put]
    split
    · simp [NMap.get?_cons, h']
    · split
      · rename_i h1 h2
        have : p.1 ≠ j := by omega
        simp [NMap.get?_cons, h', this]
      · simp [NMap.get?_cons, ih]

@[simp] theorem NMap.getD_put_self (m : NMap α) (k : Nat) (v d : α) : (m.put k v).getD k d = v := by simp [NMap.getD]

theorem NMap.getD_put_ne (m : NMap α) (k j : Nat) (v d : α) (h : j ≠ k) : (m.put k v).getD j d = m.getD j d := by
  simp [NMap.getD, NMap.get?_put_ne m k j v h]

theorem NMap.get?_del_self (m : NMap α) (k : Nat) : (m.del k).get? k = none := by
  simp [NMap.get?, NMap.del, List.find?_eq_none]

/-- The canonical form of a store with a first pair. -/
theorem NMap.wf_cons (p : Nat × α) (m : NMap α) :
    NMap.wf (p :: m) = true ↔ (∀ q ∈ m.head?, p.1 < q.1) ∧ NMap.wf m = true := by
  cases m with
  | nil => simp [NMap.wf]
  | cons q m => simp [NMap.wf]

theorem NMap.put_head (m : NMap α) (k x : Nat) (v : α) (hx : x < k) (hm : ∀ p ∈ m.head?, x < p.1) :
    ∀ p ∈ (m.put k v).head?, x < p.1 := by
  cases m with
  | nil => simp [NMap.put, hx]
  | cons p m =>
    have : x < p.1 := hm p (by simp)
    simp only [NMap.put]
    split
    · simp [hx]
    · split <;> simp [hx, this]

theorem NMap.put_wf (m : NMap α) (k : Nat) (v : α) (h : m.wf = true) : (m.put k v).wf = true := by
  induction m with
  | nil => rfl
  | cons p m ih =>
    obtain ⟨hp, hm⟩ := (NMap.wf_cons p m).mp h
    simp only [NMap.put]
    split
    · rename_i hlt; exact (NMap.wf_cons _ _).mpr ⟨by intro q hq; simp at hq; subst hq; exact hlt, h⟩
    · split
      · rename_i h1 h2; exact (NMap.wf_cons _ _).mpr ⟨by rw [h2]; exact hp, hm⟩
      · rename_i h1 h2; exact (NMap.wf_cons _ _).mpr ⟨NMap.put_head m k p.1 v (by omega) hp, ih hm⟩

end Sys2Proof.Machine
end

