-- ==== Sys2Proof/Laws/Ops.lean ====
section
/-!
SUPPORT. What each shared operation can do, said once: registers, the path of a write and of a command, and the bounded
operations: events, messages, counters, records of the log, the Carmine halt.
-/
namespace Sys2Proof.Machine

/-! Registers. -/

@[simp] theorem rd_wr_self (st : State) (a : Nat) (w : Word) : rd (wr st a w) a = w := by simp [rd, wr]

theorem rd_wr_ne (st : State) (a b : Nat) (w : Word) (h : b ≠ a) : rd (wr st a w) b = rd st b := by
  simp [rd, wr, regDefault, NMap.get?_put_ne _ _ _ _ h]

theorem rd_of_regs (st t : State) (hr : t.regs = st.regs) (hd : t.defaults = st.defaults) (a : Nat) : rd t a = rd st a := by
  simp [rd, regDefault, hr, hd]

theorem rdA_of_applied (st t : State) (hr : t.applied = st.applied) (hd : t.defaults = st.defaults) (a : Nat) :
    rdA t a = rdA st a := by
  simp [rdA, regDefault, hr, hd]

@[simp] theorem rdA_wr (st : State) (a b : Nat) (w : Word) : rdA (wr st a w) b = rdA st b := rfl
@[simp] theorem rd_modSl (st : State) (s : SliceId) (f : SliceSt → SliceSt) (a : Nat) : rd (modSl st s f) a = rd st a := rfl
@[simp] theorem rdA_modSl (st : State) (s : SliceId) (f : SliceSt → SliceSt) (a : Nat) : rdA (modSl st s f) a = rdA st a := rfl
@[simp] theorem sl_wr (st : State) (a : Nat) (w : Word) (s : SliceId) : sl (wr st a w) s = sl st s := rfl

@[simp] theorem sl_modSl_self (st : State) (s : SliceId) (f : SliceSt → SliceSt) : sl (modSl st s f) s = f (sl st s) := by
  simp [sl, modSl, upd]

theorem sl_modSl_ne (st : State) (s r : SliceId) (f : SliceSt → SliceSt) (h : r ≠ s) : sl (modSl st s f) r = sl st r := by
  have : s.val ≠ r.val := fun e => h (Fin.ext e.symm)
  simp [sl, modSl, upd, this]

/-! A command register, and a write that the mirror may carry. -/

theorem cmdPF_open (st : State) (a : Nat) (res : Field) (w : Word) (eff : State → State) (h : cmdOpen st a = true) :
    cmdPF a res w eff st = eff st := by
  simp only [cmdOpen, atOnce, Bool.and_eq_true, Bool.not_eq_true', decide_eq_true_eq, Bool.or_eq_true] at h
  obtain ⟨⟨⟨⟨h1, h2⟩, h3⟩, h4⟩, h5⟩ := h
  rcases h3 with h3 | ⟨h3, h6⟩ <;> simp [cmdPF, *]

theorem viaPF_atOnce (st : State) (a : Nat) (w : Word) (eff : State → State) (h : atOnce st a = true) :
    viaPF a w eff st = eff st := by
  simp only [atOnce, Bool.and_eq_true, Bool.not_eq_true', Bool.or_eq_true] at h
  obtain ⟨⟨h1, h2⟩, h3⟩ := h
  rcases h3 with h3 | ⟨h3, h6⟩ <;> simp [viaPF, *]

/-- Everything that a command register can answer. -/
theorem cmdPF_cases (st : State) (a : Nat) (res : Field) (w : Word) (eff : State → State) :
    cmdPF a res w eff st = st ∨ cmdPF a res w eff st = pfDiscard st ∨ cmdPF a res w eff st = cmdEarly st a res w ∨
    cmdPF a res w eff st = setF st a res 1 ∨
    cmdPF a res w eff st = setF (forward st a w) a busyF 1 ∨ cmdPF a res w eff st = eff st := by
  unfold cmdPF
  repeat' split
  all_goals simp

/-- Everything that a write through the PF can answer. -/
theorem viaPF_cases (st : State) (a : Nat) (w : Word) (eff : State → State) :
    viaPF a w eff st = st ∨ viaPF a w eff st = pfDiscard st ∨ viaPF a w eff st = forward st a w ∨ viaPF a w eff st = eff st := by
  unfold viaPF
  repeat' split
  all_goals simp

/-! The bounded operations: which fields of the state each can touch. -/

theorem wr_only (st : State) (a : Nat) (w : Word) : wr st a w = { st with regs := (wr st a w).regs } := rfl
theorem setF_only (st : State) (a : Nat) (f : Field) (v : Nat) : setF st a f v = { st with regs := (setF st a f v).regs } := rfl
theorem countN_only (st : State) (a n : Nat) : countN st a n = { st with regs := (countN st a n).regs } := rfl
theorem count_only (st : State) (a : Nat) : count st a = { st with regs := (count st a).regs } := rfl
theorem draw_only (st : State) : (draw st).2 = { st with freeCount := (draw st).2.freeCount } := rfl
theorem drawFree_only (st : State) : (drawFree st).2 = { st with freeCount := (drawFree st).2.freeCount } := rfl
theorem cmdDone_only (st : State) (a : Nat) (r o : Field) (w : Word) (c : Nat) :
    cmdDone st a r o w c = { st with regs := (cmdDone st a r o w c).regs } := rfl

theorem cmdBusy_only (st : State) (a : Nat) (o : Field) (w : Word) :
    cmdBusy st a o w = { st with regs := (cmdBusy st a o w).regs } := rfl
theorem cmdEarly_only (st : State) (a : Nat) (r : Field) (w : Word) :
    cmdEarly st a r w = { st with regs := (cmdEarly st a r w).regs } := rfl

theorem satF_only (st : State) (a : Nat) (f : Field) : satF st a f = { st with regs := (satF st a f).regs } := by
  unfold satF; split <;> rfl

/-- An interrupt of an event ring. -/
theorem fireEvt_only (st : State) (j : Fin 4) :
    fireEvt st j = { st with rings := (fireEvt st j).rings, out := (fireEvt st j).out } := by
  simp only [fireEvt]; split <;> rfl

theorem evtPut_only (st : State) (j : Fin 4) (e : Event) :
    evtPut st j e = { st with rings := (evtPut st j e).rings, out := (evtPut st j e).out } := by
  simp only [evtPut]
  rw [fireEvt_only]
  rfl

/-- An event touches its ring and what leaves the device. -/
theorem raise_only (st : State) (e : Event) :
    raise st e = { st with rings := (raise st e).rings, out := (raise st e).out } := by
  simp only [raise]
  split
  · rfl
  · exact evtPut_only st (evtRing e) e

theorem pfDiscard_only (st : State) : pfDiscard st =
    { st with regs := (pfDiscard st).regs, rings := (pfDiscard st).rings, out := (pfDiscard st).out } := by
  simp only [pfDiscard]
  rw [raise_only]
  rfl

theorem sendPart_only (type : Nat) (st : State) (body : Bytes) :
    sendPart type st body = { st with twin := (sendPart type st body).twin, out := (sendPart type st body).out } := rfl

theorem sendParts_only (type : Nat) (bodies : List Bytes) : ∀ st : State,
    bodies.foldl (sendPart type) st =
      { st with twin := (bodies.foldl (sendPart type) st).twin, out := (bodies.foldl (sendPart type) st).out } := by
  induction bodies with
  | nil => intro st; rfl
  | cons b bs ih =>
    intro st
    simp only [List.foldl_cons]
    rw [ih, sendPart_only type st b]

/-- A message touches the twin unit and what leaves the device. -/
theorem sendMsg_only (st : State) (type : Nat) (items : List Nat) :
    sendMsg st type items = { st with twin := (sendMsg st type items).twin, out := (sendMsg st type items).out } := by
  simp only [sendMsg]
  split
  · rfl
  · exact sendParts_only type _ st

theorem forward_only (st : State) (a : Nat) (w : Word) :
    forward st a w = { st with twin := (forward st a w).twin, out := (forward st a w).out } := by
  simp only [forward, forwardOp]
  rw [sendMsg_only]
  rfl

/-- A counter event of a slice touches the counters of 19 Table 19-3. -/
theorem pcEvent_only (st : State) (s : SliceId) (ev n : Nat) : pcEvent st s ev n = { st with pmu := (pcEvent st s ev n).pmu } := by
  unfold pcEvent; split <;> rfl

theorem pcEvent_slices (st : State) (s : SliceId) (ev n : Nat) : (pcEvent st s ev n).slices = st.slices := by rw [pcEvent_only]

theorem countN_slices (st : State) (a n : Nat) : (countN st a n).slices = st.slices := by rw [countN_only]

theorem bwAdvance_slices (st : State) : (bwAdvance st).slices = st.slices := by
  simp only [bwAdvance]
  split
  · rfl
  · split <;> split <;> simp [countN_slices]

theorem bwFrame_slices (st : State) (d : Side) (s : SliceId) (k : PortIx) (tx : Bool) (len : Nat) :
    (bwFrame st d s k tx len).slices = st.slices := by
  simp only [bwFrame]
  split <;> simp [bwAdvance_slices, pcEvent_slices]

/-! Records of the log and persistent counts: the MRAM die, its form kept, and the log's queue. -/

theorem mramCount_only (st : State) (a : Nat) : mramCount st a = { st with mram := (mramCount st a).mram } := by
  simp only [mramCount]; split <;> rfl

theorem mramCount_wf (st : State) (a : Nat) (h : Memory.wf st.mram = true) : Memory.wf (mramCount st a).mram = true := by
  simp only [mramCount]
  split
  · exact h
  · exact memWrite_wf _ _ _ h

theorem logPut_only (st : State) (r : LogRec) :
    logPut st r = { st with mram := (logPut st r).mram, evl := (logPut st r).evl } := by
  simp only [logPut]
  split
  · rw [mramCount_only]
  · rfl

theorem logRec_only (st : State) (n : Fin 256) (d : Bytes) (f : Nat) :
    logRec st n d f = { st with mram := (logRec st n d f).mram, evl := (logRec st n d f).evl } := logPut_only st _

theorem logRec_wf (st : State) (n : Fin 256) (d : Bytes) (f : Nat) (h : Memory.wf st.mram = true) :
    Memory.wf (logRec st n d f).mram = true := by
  simp only [logRec, logPut]
  split
  · exact mramCount_wf st _ h
  · exact h

/-! The Carmine halt. -/

/-- A halt leaves the device halted, with no frame in it and ownership released; its cause is the first one's. -/
theorem carmineHalt_halted (st : State) (c : Fin 16) (code slice ix : Nat) (n : Fin 256) (d : Bytes) :
    (carmineHalt st c code slice ix n d).glb.halted = true := by
  unfold carmineHalt
  split
  · rename_i h; rw [logRec_only]; exact h
  · simp only [haltEvent]
    split
    · rw [raise_only, logRec_only]; rfl
    · rw [logRec_only]; rfl

end Sys2Proof.Machine
end

