-- ==== Sys2Proof/WellFormed.lean ====
section
/-!
DEFINITION. Which commands are well-formed: an operand that is a number lies in the range that the spec gives it, a list names
each thing once. A meaning answers for every command; on an ill-formed one it acts on what the operands name, if anything.
-/
namespace Sys2Proof
open Sys2Proof.Machine

/-- A register access is aligned and lies within BAR0 of its function: 64 MiB for the PF (23 R752), 64 KiB for a VF
(18 Table 18-5). -/
def addrOk (fn : InstId) (a : Nat) : Bool :=
  decide (a % 4 = 0) && (if fn = 0 then decide (a < 0x4000000) else decide (a < 0x10000))

/-- A list of numbers in strictly rising order. -/
def rising : List Nat → Bool
  | a :: b :: l => decide (a < b) && rising (b :: l)
  | _ => true

/-- A physical line of at most 32 GiB of DRAM (14 R536, R538). -/
def lineOk (p : Nat) : Bool := decide (p < 2 ^ 29)

/-- Each symbol of a burst is named once, with a bit that is wrong (14 R535). -/
def errsOk (es : List BeatErr) : Bool := decide (es.map (fun e => (e.beat, e.pos))).Nodup && es.all (fun e => e.err != 0)

/-- How many counters a slice has in each scope of 19 Table 19-2: channel, slot, line port, client port. -/
def counterKeys : Fin 4 → Nat
  | 0 => 16 * 16384
  | 1 => 8 * 4 * 16384
  | 2 => 8 * 8
  | 3 => 8

/-- Symbols that 65,536 codewords of RS(544,514) can have had corrected: 15 in each (02 R67). -/
def maxCorrected : Nat := 15 * 65536

/-- The command is well-formed. -/
def Instr.wf : Instr → Bool
  | .fragAged _ ix => decide (ix < 4096)
  | .laneStepDone _ r => r.own.all (· ≤ maxCorrected) && r.other.all (· ≤ maxCorrected)
  | .journalScanDone bad => rising bad && bad.all (fun p => decide (p < 262144))
  | .ctfFrameBoundary _ blocks => decide (blocks.map Prod.fst).Nodup
  | .ctfFrameRx _ _ f => decide (f.bytes.length = 125000 ∨ f.bytes.length = 250000)
  | .meeReadDone p _ errs => lineOk p && errsOk errs
  | .patrolScrub p _ errs => lineOk p && errsOk errs
  | .tamperTrip srcs => !srcs.isEmpty && decide (srcs.map Prod.fst).Nodup
  | .registerWrite fn a _ _ => addrOk fn a
  | .counterFlush kind _ key => decide (key < counterKeys kind)
  | .sramScrub code _ ix _ => decide (ix < 2 ^ 22) && code != 0
  | .meeWriteBack p => lineOk p
  | .clientFrameRx .. | .protectFrameEnd .. | .frameEgressGrant .. | .lineFrameRx .. | .finalReplayCommit .. |
    .recircEntry .. | .learn .. | .rxPauseFrame .. | .pauseHoldEnd .. | .pauseRepeat .. | .headroomMeasure .. |
    .fiHoldRelease .. | .fiArm .. | .fiDisarm .. | .laneSignalDetect .. | .precoderTryTimeout .. |
    .laneTimeout .. | .lossOfLock .. | .eqAtLimit .. | .prsImapRead .. | .prsImapWrite .. | .clsKprofWrite .. |
    .ruleRead .. | .ruleWrite .. | .ruleRetire .. | .ruleCancel .. | .commit .. | .commitApply .. | .tblRead .. |
    .tblWrite .. | .tblInsert .. | .tblDelete .. | .tblLookup .. | .search .. | .next .. | .flushPort .. |
    .flushInstance .. | .fwdTblModeWrite .. | .maintEnter .. | .msCounterAdvance .. | .ageTick .. | .sweepVisit .. |
    .lpmScrub .. | .chRead .. | .chWrite .. | .chDelete .. | .saRead .. | .saLoad .. | .saActivate .. | .saRetire .. |
    .saClear .. | .sciFind .. | .slotChangeApply .. | .rootWrite .. | .derive .. | .nodeRead .. | .invalidate .. |
    .timerArm .. | .timerDisarm .. | .rxFire .. | .timerFired .. | .lifecycleSweep .. | .preInstall .. |
    .journalCommit .. | .journalHaltTimeout | .pnjRead .. | .find | .destroy | .tombDormant | .ackDamage |
    .fsyncEdge .. | .align .. | .perfSecond | .perfSecondClassify | .traceExpWrite .. | .ctfFiArm .. |
    .ctfFiDisarm .. | .tribRead .. | .tribWrite .. | .install .. | .tribSwitch .. | .tribClear .. | .tribDelete .. |
    .pmRead .. | .pageRead .. | .pageWrite .. | .copy .. | .swap .. | .wrap | .tsuNowRead | .step .. | .slew .. |
    .abort .. | .slewDone | .ppsIn | .ppsOutRise | .ppsOutFall | .saffronStage .. | .saffronParserEntry .. |
    .saffronSlotAccess .. | .saffronLaunch .. | .late .. | .claim | .join | .twinSwitch | .leave | .ownLineChange .. |
    .ownAssert | .ownTxEnable | .stepEpochBoundary | .divergenceTestDone .. | .hello .. | .heartbeat .. |
    .indigoStep .. | .digest .. | .health .. | .mirror .. | .learnMessage .. | .timeMessage .. | .capsule .. |
    .ackMessage .. | .helloSend | .heartbeatSend | .timeSend | .ackSend | .capsuleStreamSend .. | .hbLost |
    .candidacyEnd | .doorbell .. | .mbxRead .. | .respond .. | .vfMbxCtlRead .. | .enable .. | .quiesce .. |
    .quiesceDone .. | .quiesceTimeout .. | .freeze .. | .thaw .. | .instanceReset .. | .remove .. | .save .. |
    .restore .. | .shareWrite .. | .shareRead .. | .stateRead .. | .vfFlr .. | .heldDescriptorResume .. | .park .. |
    .arcLoad .. | .arcRead .. | .arcDelete .. | .dramTrained .. | .dqsRetrain | .tamperRecordCommit .. |
    .zeroiseDone | .monitor .. | .causeCleared .. | .lock .. | .tamperAck .. | .tmpRespWrite .. |
    .startupCheckDone .. | .logRead .. | .append | .verify .. | .evlRecordCommit .. | .evlScanDone |
    .powerOnReset .. | .supplyMonitorReset .. | .deviceReset .. | .glbReset .. | .imageSourceTry | .bootDone |
    .download .. | .stage .. | .setPref .. | .advanceSvn | .addKeys | .revokeKey .. | .drain .. | .drainDone .. |
    .drainTimeout .. | .sliceLoad .. | .sliceLoadChecked | .sliceRunning .. | .resume .. | .avsInterval .. |
    .avsEmergEnd .. | .avsHoldEnd .. | .engineLoopWindow .. | .engineDrainDone .. | .engineKatDone .. |
    .portReset .. | .portResetDone | .pllUnlock .. | .pwrfailNFall | .pwrfailGlitch | .holdUp | .glbUpdate .. |
    .updateApply | .evtRingEnable .. | .evtHeadWrite .. | .msixModerationEnd .. | .ringEnable .. | .ringDisable .. |
    .ringStopped .. | .ringCtlRead .. | .vfRingErrRead .. | .injectDescriptorRead .. | .injectFrameCopied .. |
    .dmaErr .. | .pfFlr | .pciePerst | .ctfFcRead .. | .snapshot | .snap | .snapshotVisible | .scRead .. |
    .vfScRead .. | .vfStatRead .. | .bwWindowEnd | .pcStart .. | .pcStop .. | .pcClear .. | .pcWrap .. |
    .pmuCounterRead .. | .glbUmberWrite .. | .smbusBlockRead .. | .alertResponse | .jtagInstruction .. |
    .mr4TemperatureReport .. | .vfEnableClear | .pcieLinkTraining .. | .linkFaultSignallingRx .. => true

end Sys2Proof
end

