-- ==== Sys2Proof/Tests/Slice0.lean ====
section
/-!
SUPPORT. Tests: ill-formed commands are refused, a state and operands meet the hypotheses of each statement, and single
steps on small states.
-/
namespace Sys2Proof.Machine

set_option Elab.async false

/-! States that the tests stand on. -/

/-- A slice whose eight ports of either side are one lane wide and paired straight across. -/
def tSlice : SliceCfg :=
  { enabled := true
    cLanes := Vector.replicate 8 { enabled := true, rate := 5 }, lLanes := Vector.replicate 8 { enabled := true, rate := 5 }
    cPorts := Vector.ofFn (fun k => { enabled := true, speed := 4, fec := 2, pair := k, paired := true })
    lPorts := Vector.ofFn (fun k => { enabled := true, speed := 4, fec := 2, pair := k, paired := true }) }

/-- The same with every lane READY, every port enabled and transmit channel 0 of instance 0. -/
def tSliceSt : SliceSt :=
  { cLanes := Vector.replicate 8 { stage := .ready, beenReady := true }
    lLanes := Vector.replicate 8 { stage := .ready, beenReady := true }
    cPorts := Vector.replicate 8 { enabled := true }, lPorts := Vector.replicate 8 { enabled := true }
    chans := [(0, { valid := true })] }

/-- A running device with four instances. -/
def tRun : State :=
  { img := { state := .running, content := { ni := 4, slices := Vector.replicate 4 tSlice }, sl := Vector.replicate 4 .running }
    slices := Vector.replicate 4 tSliceSt
    tmp := { checked := true }, mee := { trained := true, ready := true }, jnl := { ready := true }, evl := { ready := true } }

/-- A register as written, and as written and applied. -/
def tSet (st : State) (a : Nat) (w : Word) : State := wrA (wr st a w) a w

/-- The same `ns` nanoseconds after reset. -/
def tEl (ns : Nat) (st : State) : State := { st with tsu := { st.tsu with elapsed := BitVec.ofNat 96 (ns * 2 ^ 32) } }

/-- What a command leaves, as `f` sees it. -/
def after {α : Type} (c : Instr) (st : State) (f : State → α) : Option α :=
  match exec c st with
  | .next t => some (f t)
  | _ => none

/-- 64 bytes that parse as an Ethernet frame. -/
def tFrame : RxFrame := { bytes := beBytes 6 0x0200000000FF ++ beBytes 6 0x020000000001 ++ beBytes 2 0x1234 ++ List.replicate 50 0, fcsOk := true, ended := true }
/-- A PAUSE frame of `q` quanta. -/
def tPause (q : Nat) : RxFrame :=
  { bytes := beBytes 6 0x0180C2000001 ++ beBytes 6 1 ++ beBytes 2 0x8808 ++ beBytes 2 1 ++ beBytes 2 q ++ List.replicate 42 0
    fcsOk := true, ended := true }
/-- A frame in an output queue. -/
def tEgr : EgrFrame :=
  { bytes := tFrame.bytes, src := .client 0, inst := 0, prio := 7, prot := none, released := true, tc := none, rxNs := 0, rxEl := 0
    ended := true, started := false, cellErr := false }
/-- A root node whose direct leaf is of the given type. -/
def tNode (type leaf : Fin 8) : Node :=
  { key := List.replicate 32 1, mordant := List.replicate 32 0, root := true, cinnabar := false, type := type, depth := 0
    leafType := leaf, parent := 0, owner := 0, kcv := List.replicate 4 0 }
/-- A slot in state `q`, PN 1 of a block up to 100. -/
def tSlot (q : SlotState) : Slot := { state := q, pn := 1, res := 100 }
/-- Channel 1 of slice 0 with slot 0 as given. -/
def tChan (c : ChRec) (x : Slot) : State :=
  modSl tRun 0 (fun y => { y with chans := [(0, { valid := true }), (1, { c with slots := c.slots.set 0 x })] })

/-! Ill-formed commands are refused by each check of WellFormed, well-formed ones at the ends of their ranges are not. -/

theorem test_wf_fragAged : (Instr.fragAged 0 4095).wf = true ∧ (Instr.fragAged 0 4096).wf = false := by decide +kernel
theorem test_wf_journalScanDone : (Instr.journalScanDone [0, 262143]).wf = true ∧ (Instr.journalScanDone [5, 5]).wf = false ∧
    (Instr.journalScanDone [262144]).wf = false := by decide +kernel
theorem test_wf_ctfFrameBoundary : (Instr.ctfFrameBoundary 0 [(0, []), (1, [])]).wf = true ∧
    (Instr.ctfFrameBoundary 0 [(1, []), (1, [])]).wf = false := by decide +kernel
theorem test_wf_ctfFrameRx : (Instr.ctfFrameRx 0 0 ⟨none, []⟩).wf = false := by decide +kernel
theorem test_wf_meeReadDone : (Instr.meeReadDone (2 ^ 29 - 1) false [⟨0, 0, 1⟩, ⟨0, 1, 1⟩]).wf = true ∧
    (Instr.meeReadDone (2 ^ 29) false []).wf = false ∧ (Instr.meeReadDone 0 false [⟨0, 0, 1⟩, ⟨0, 0, 2⟩]).wf = false ∧
    (Instr.meeReadDone 0 false [⟨0, 0, 0⟩]).wf = false := by decide +kernel
theorem test_wf_patrolScrub : (Instr.patrolScrub 0 true []).wf = true ∧ (Instr.patrolScrub (2 ^ 29) true []).wf = false ∧
    (Instr.patrolScrub 0 true [⟨15, 9, 0⟩]).wf = false := by decide +kernel
theorem test_wf_meeWriteBack : (Instr.meeWriteBack (2 ^ 29 - 1)).wf = true ∧ (Instr.meeWriteBack (2 ^ 29)).wf = false := by decide +kernel
theorem test_wf_tamperTrip : (Instr.tamperTrip [(0, 0), (1, 0)]).wf = true ∧ (Instr.tamperTrip []).wf = false ∧
    (Instr.tamperTrip [(0, 0), (0, 1)]).wf = false := by decide +kernel
theorem test_wf_registerWrite : (Instr.registerWrite 0 0x3FFFFFC 15 0).wf = true ∧ (Instr.registerWrite 0 0x4000000 15 0).wf = false ∧
    (Instr.registerWrite 0 2 15 0).wf = false ∧ (Instr.registerWrite 1 0xFFFC 15 0).wf = true ∧
    (Instr.registerWrite 1 0x10000 15 0).wf = false := by decide +kernel
theorem test_wf_counterFlush : (Instr.counterFlush 0 0 262143).wf = true ∧ (Instr.counterFlush 0 0 262144).wf = false ∧
    (Instr.counterFlush 3 0 8).wf = false := by decide +kernel
theorem test_wf_sramScrub : (Instr.sramScrub 7 0 4194303 true).wf = true ∧ (Instr.sramScrub 7 0 4194304 true).wf = false ∧
    (Instr.sramScrub 0 0 0 true).wf = false := by decide +kernel

/-! 02: lanes, flow control, the fault injector. -/

/-- Lane (client, 0, 0) as given. -/
def tLane (x : LaneSt) : State := modLane tRun (.lane .client 0 0) (fun _ => x)

theorem test_witness_lanes :
    (laneOf (tLane { stage := .sigWait }) (.lane .client 0 0)).stage = .sigWait ∧
    (laneOf (tLane { stage := .cdr }) (.lane .client 0 0)).stage = .cdr ∧
    (laneOf (tLane { stage := .eq }) (.lane .client 0 0)).stage = .eq ∧ laneFec tRun (.lane .client 0 0) = true ∧
    isPam4 (laneCfgOf tRun (.lane .client 0 0)) = true ∧
    (let st := tEl 10000000 (tLane { stage := .fecLock, opposite := true })
     (laneOf st (.lane .client 0 0)).stage = .fecLock ∧ (laneOf st (.lane .client 0 0)).opposite = true ∧
     bitW (rxCtl (tSet st (Reg.sdsRxCtl 0 0 0) 0x80000000) (.lane .client 0 0)) 31 = true ∧
     (laneOf st (.lane .client 0 0)).since + 5000000 ≤ elNs st ∧
     (laneOf (tLane { stage := .fecLock }) (.lane .client 0 0)).opposite = false) ∧
    (let st := tEl 10000000 (tLane { stage := .cdr })
     (laneOf st (.lane .client 0 0)).since + 10000000 ≤ elNs st ∧ (laneOf st (.lane .client 0 0)).beenReady = false ∧
     (laneOf st (.lane .client 0 0)).stage ≠ .off ∧ elNs (tEl 9999999 st) < (laneOf st (.lane .client 0 0)).since + 10000000) ∧ (14 + 1) % 16 ≠ 0 ∧ (0xFFFE : BitVec 16) ≠ BitVec.allOnes 16 ∧
    portOfLane tRun .client 0 0 = some 0 ∧ portOfLane tRun .client 3 7 = some 7 ∧ portUp tRun .line 3 7 = true := by decide +kernel

theorem test_lane_timeout : after (.laneTimeout (.lane .client 0 0)) (tEl 10000000 (tLane { stage := .cdr, consec := 14, retries := 0xFFFE }))
    (fun t => ((laneOf t (.lane .client 0 0)).stage, (laneOf t (.lane .client 0 0)).retries)) = some (.sigWait, 0xFFFF) := by decide +kernel

/-- Gray mapping and the precoder (R65, R66), and the low coefficients of the generator in IEEE 802.3 Table 91-1. -/
theorem test_coding : pam4Levels [false, false, false, true, true, true, true, false] = [0, 1, 2, 3] ∧
    precode 0 [1, 2, 3] = [1, 1, 2] ∧ atPin true 3 = 0 ∧ rsGen.drop 26 = [158, 128, 834, 523] ∧
    (rsEncode 1 (List.replicate 5141 false)).2 = [false] := by decide +kernel

/-- Priority 0 of client port (0, 0) held until `u`. -/
def tHold (u : Nat) : State := modPort tRun .client 0 0 (fun p => { p with hold := { until_ := p.hold.until_.set 0 (some u) } })

theorem test_witness_flow :
    rxOn tRun .client 0 0 = true ∧ pauseKind (tPause 0).bytes = 1 ∧ pauseKind (tPause 65535).bytes = 1 ∧
    macBad .client (tPause 1) = false ∧
    flagA (tSet tRun (Reg.pcsFcCtl 0 0 0) (putF 0 Fld.pcsFcCtl_RX_HONOUR 1)) (Reg.pcsFcCtl 0 0 0) Fld.pcsFcCtl_RX_HONOUR = true ∧
    (port (tHold 0) .client 0 0).hold.until_[(0 : Fin 8)] = some 0 ∧
    flagA tRun (Reg.pcsFcCtl 0 0 0) Fld.pcsFcCtl_FRZ_HR = false := by decide +kernel

theorem test_pause_hold_end : after (.pauseHoldEnd .client 0 0 0) (tHold 0) (fun t => (port t .client 0 0).hold.until_[(0 : Fin 8)])
    = some none ∧ after (.pauseHoldEnd .client 0 0 0) (tHold 1) (fun t => (port t .client 0 0).hold.until_[(0 : Fin 8)]) = some (some 1) := by
  decide +kernel

/-- Client port (0, 0) in XOFF with a response being measured. -/
def tXoff : State := modPort tRun .client 0 0 (fun p => { p with flow := { xoff := true, measuring := true } })
theorem test_witness_xoff : (port tXoff .client 0 0).flow.xoff = true ∧ (port tXoff .client 0 0).flow.pfcXoff = 0 ∧
    (port tXoff .client 0 0).flow.nextRep ≤ elNs tXoff ∧ (port tXoff .client 0 0).flow.measuring = true := by decide +kernel

/-- The injector of line port (0, 0): armed, and with a frame held. -/
def tFi (armed : Bool) (held : List (HeldFrame × Nat × Nat)) : State :=
  modPort tRun .line 0 0 (fun p => { p with fi := { armed := armed }, fiHeld := held })
theorem test_witness_injector : isL2 tRun .line 0 0 = true ∧ isL2 tRun .line 3 7 = true ∧ atOnce tRun (Reg.pcsFiCmd 0 0) = true ∧
    logFull tRun = false ∧
    (port (tFi false []) .line 0 0).fi.armed = false ∧ getF (putF 0 Fld.pcsFiCfg_ACTION 1) Fld.pcsFiCfg_ACTION < 2 ∧
    (port (tFi true []) .line 0 0).fi.armed = true ∧ (port (tFi true [(.tx tEgr, 1, 0)]) .line 0 0).fiHeld = [(.tx tEgr, 1, 0)] ∧
    0 ≤ elNs tRun := by decide +kernel

/-! Published vectors: FIPS 197 appendix C.1, FIPS 180-4 "abc", GCM test case 2 of the GCM specification, CMAC-AES256 of the
empty message from SP 800-38B, and the check values of the CRCs over "123456789". -/

/-- The bytes "123456789". -/
def tDigits : Bytes := beBytes 9 0x313233343536373839

theorem test_aes : aesEnc (beBytes 16 0x000102030405060708090A0B0C0D0E0F) (beBytes 16 0x00112233445566778899AABBCCDDEEFF) =
    beBytes 16 0x69C4E0D86A7B0430D8CDB78070B4C55A ∧
    aesDec (beBytes 16 0x000102030405060708090A0B0C0D0E0F) (beBytes 16 0x69C4E0D86A7B0430D8CDB78070B4C55A) =
    beBytes 16 0x00112233445566778899AABBCCDDEEFF := by decide +kernel
theorem test_gcm : gcmSeal (beBytes 16 0) (beBytes 12 0) [] (beBytes 16 0) =
    (beBytes 16 0x0388DACE60B6A392F328C2B971B2FE78, beBytes 16 0xAB6E47D42CEC13BDF53A67B21257BDDF) := by decide +kernel
theorem test_cmac : cmac (beBytes 32 0x603DEB1015CA71BE2B73AEF0857D77811F352C073B6108D72D9810A30914DFF4) [] =
    beBytes 16 0x028962F61B7BF89EFC6B551F4667D983 := by decide +kernel
theorem test_sha384 : sha384 [0x61, 0x62, 0x63] = beBytes 48
    0xCB00753F45A35E8BB5A03D699AC65007272C32AB0EDED1631A8B605A43FF5BED8086072BA1E7CC2358BAECA134C825A7 := by decide +kernel
theorem test_crcs : crc32 tDigits = 0xCBF43926 ∧ crc32c tDigits = 0xE3069283 ∧ crc64 tDigits = 0x62EC59E3F1A4F00A ∧
    crc7 tDigits = 0x75 := by decide +kernel

/-! 03, 04: instance map, rules, versions. -/

/-- A rule of instance `i`, its key fully masked in the instance field only. -/
def tRule (prio : BitVec 16) (addDone retired : Bool) (addVer : BitVec 16) : RuleEnt :=
  { value := 0, mask := BitVec.ofNat 512 (0xFF * 2 ^ 488), prio := prio, addVer := addVer, delVer := 0, addDone := addDone
    retired := retired, act := 0, chan := 0 }
/-- Slice 0 with `m` as its protect-path table. -/
def tRules (m : NMap RuleEnt) : State := modRules tRun 0 .client (fun _ => m)
/-- CLS_RDATA that describes a rule of instance 0. -/
def tRdata : State := wr tRun (Reg.clsRdata 0 0 31) 0x0000FF00

theorem test_witness_imap : cmdOpen tRun (Reg.prsImapCmd 0) = true ∧ (3 : InstId) ≠ 0 ∧ (3 : InstId).val < tRun.img.content.ni ∧
    (portCfg tRun .line 0 7).enabled = true ∧ atOnce tRun (Reg.clsKprof 0 1 13) = true ∧ rulesUsed tRun 0 .line = 0 := by decide +kernel

theorem test_witness_rules : cmdOpen tRun (Reg.clsRuleCmd 0 0) = true ∧ cmdOpen tRun (Reg.clsRuleCmd 3 1) = true ∧
    (ruleTbl (tRules [(8191, tRule 0 true false 0)]) 0 .client).get? 8191 = some (tRule 0 true false 0) ∧
    ruleWriteCode tRdata 0 .client 8191 (rdataRule tRdata 0 .client) = 0 ∧
    instRefusal tRun (instOfNat (ruleInst (tRule 0 true false 0))) = 0 ∧ pendWrite tRun 0 (tRule 0 true false 0) = false ∧
    (tRule 0 true false 0).retired = false ∧ pendWrite tRun 0 (tRule 0 false false 1) = true := by decide +kernel

theorem test_rule_write : after (.ruleWrite 0 .client 8191) tRdata (fun t =>
    ((ruleTbl t 0 .client).has 8191, fld t (Reg.clsRuleCmd 0 0) Fld.clsRuleCmd_RESULT)) = some (true, 0) := by decide +kernel

theorem test_witness_commit : atOnce tRun (Reg.clsCommit 0) = true ∧
    ((sl (modSl tRun 0 (fun x => { x with current := 2 })) 0).current - (sl tRun 0).oldest).toNat + 0 < 3 ∧
    fld tRun (Reg.clsRuleCmd 0 0) Fld.clsRuleCmd_BUSY = 0 ∧ fld tRun (Reg.clsRuleCmd 0 1) Fld.clsRuleCmd_BUSY = 0 ∧
    (sl (modSl tRun 0 (fun x => { x with commitPend := 1 })) 0).commitPend ≠ 0 := by decide +kernel

/-- COMMIT with CURRENT three ahead of OLDEST is refused with BUSY; with two it is accepted. -/
theorem test_commit_limit :
    after (.commit 0) (modSl tRun 0 (fun x => { x with current := 3 })) (fun t => (sl t 0).commitPend) = some 0 ∧
    after (.commit 0) (modSl tRun 0 (fun x => { x with current := 2 })) (fun t => (sl t 0).commitPend) = some 1 := by decide +kernel

/-- Of two matching rules of one PRIO the lower index wins; a larger PRIO wins over both; none wins where none matches. -/
theorem test_winning_rule :
    NMap.wf [(1, tRule 5 true false 0), (4, tRule 5 true false 0), (7, tRule 6 true false 0)] = true ∧
    (pickRule [(1, tRule 5 true false 0), (4, tRule 5 true false 0), (7, tRule 6 true false 0)] 0 0).map Prod.fst = some 7 ∧
    (pickRule [(1, tRule 5 true false 0), (4, tRule 5 true false 0)] 0 0).map Prod.fst = some 1 ∧
    pickRule [(1, tRule 5 true false 0)] (BitVec.ofNat 512 (2 ^ 488)) 0 = none := by decide +kernel

/-! 05: peer tables. -/

/-- A MAC entry of instance 0, and a slice that holds it at the first place of its key. -/
def tMac : MacEnt := { key := ⟨0, 0, 0⟩, static_ := false, hold := true, lport := 0, chan := 0, age := 0, mstamp := 0 }
def tLpm : LpmEnt := { inst := 0, v4 := false, addr := 0, plen := 0, lport := 0, chan := 0 }
def tMacAt (ix : Nat) : State := modMac tRun 0 (fun m => m.put ix tMac)
def tLpmAt (ix : Nat) : State := modLpm tRun 0 (fun m => m.put ix tLpm)
def tPlace : Nat := (macPlaces tRun ⟨0, 0, 0⟩).headD 0

theorem test_witness_table : cmdOpen tRun (Reg.fwdTblCmd 0) = true ∧
    ((sl (tMacAt 5) 0).mac.get? 5).isSome = true ∧ ((sl (tLpmAt 16383) 0).lpm.get? 16383).isSome = true ∧
    (sl tRun 0).mac.get? 5 = none ∧ (macOfData tRun 0).key = ⟨0, 0, 0⟩ ∧
    entryCode tRun 0 (macOfData tRun 0).key.inst true (some ((macOfData tRun 0).lport, (macOfData tRun 0).chan)) = 0 ∧
    entryCode (modSl tRun 0 (fun x => { x with chans := [] })) 0 0 true (some (0, 0)) ≠ 0 ∧
    entryCode tRun 0 (macOfData tRun 0).key.inst true none = 0 ∧ instExists tRun (macOfData tRun 0).key.inst = true ∧
    macFind tRun (sl tRun 0).mac (macOfData tRun 0).key = none := by decide +kernel

theorem test_witness_table_places :
    (macFree tRun (sl tRun 0).mac (macOfData tRun 0).key).isSome = true ∧
    ((macFind tRun (sl (tMacAt tPlace) 0).mac (macOfData tRun 0).key).map Prod.fst) = some tPlace ∧
    macFree tRun ((macPlaces tRun ⟨0, 0, 0⟩).foldl (fun m i => m.put i tMac) []) ⟨0, 0, 0⟩ = none := by decide +kernel

theorem test_witness_lpm :
    entryCode tRun 0 (lpmOfData tRun 0).inst (lpmFormOk (lpmOfData tRun 0))
      (some ((lpmOfData tRun 0).lport, (lpmOfData tRun 0).chan)) = 0 ∧
    entryCode tRun 0 (lpmOfData tRun 0).inst (lpmFormOk (lpmOfData tRun 0)) none = 0 ∧
    (lpmFind (sl (tLpmAt 0) 0).lpm (lpmOfData tRun 0)).map Prod.fst = some 0 ∧ lpmFind (sl tRun 0).lpm (lpmOfData tRun 0) = none ∧
    (lpmBest (sl (tLpmAt 0) 0).lpm 0 false 0).map Prod.fst = some 0 ∧ (sl tRun 0).lpm.length < 16384 := by decide +kernel

theorem test_witness_lpm_insert : ∃ m, lpmPlace (sl tRun 0).lpm (lpmOfData tRun 0) (drawFree tRun).1 = some m := by
  have h : (sl tRun 0).lpm = [] := by decide +kernel
  rw [h]
  simp [lpmPlace, freeIn, freeAt, countP, Nat.mod_lt]

/-- MAINT in force on both tables, with a search latched. -/
def tMaint : State := modSl (tMacAt 5) 0 (fun x =>
  { x with maint := Vector.replicate 2 true, search := Vector.replicate 2 (some ([], [], 0)) })
theorem test_witness_maint : atOnce tRun (Reg.fwdTblMode 0) = true ∧
    bitW (rd (wr tRun (Reg.fwdTblMode 0) 0xC0000000) (Reg.fwdTblMode 0)) (31 - tblNum .mac) = true ∧
    bitW (rd (wr tRun (Reg.fwdTblMode 0) 0xC0000000) (Reg.fwdTblMode 0)) (31 - tblNum .lpm) = true ∧
    (sl tRun 0).maint[tblFin .lpm] = false ∧ (sl tMaint 0).maint[tblFin .mac] = true ∧ 262143 < tblSize .mac ∧
    (sl tMaint 0).search[tblFin .mac] = some ([], [], 0) ∧ cmdOpen tMaint (Reg.fwdTblCmd 0) = true ∧
    isL2 tMaint .line 0 0 = true ∧ instExists tMaint 0 = true ∧ instRefusal tMaint 0 = 0 ∧
    (imagesFrom tMaint 0 .mac 0).all (fun p => p.2.2) = true ∧
    ((imagesFrom tMaint 0 .mac 0).find? (fun p => imageMatches [] [] p.2.1)).map Prod.fst = some 5 := by decide +kernel

/-- A SEARCH finds the entry from its own index and none beyond it. -/
theorem test_search : after (.search 0 .mac 5) tMaint (fun t => fld t (Reg.fwdTblCmd 0) Fld.fwdTblCmd_RESULT) = some 0 ∧
    after (.search 0 .mac 6) tMaint (fun t => fld t (Reg.fwdTblCmd 0) Fld.fwdTblCmd_RESULT) = some 2 := by decide +kernel

/-- A learn in the queue, and the clocks of the table. -/
def tLearn : State := modSl tRun 0 (fun x => { x with learns := [{ key := ⟨0, 0, 0⟩, chan := 0, lport := 0 }], tickMs := 1000 })
def tAged : State := modSl (tMacAt 262143) 0 (fun x => { x with tick := 0xFFF })
theorem test_witness_learning : (sl tLearn 0).learns = [{ key := ⟨0, 0, 0⟩, chan := 0, lport := 0 }] ∧ tLearn.twin.state = .off ∧
    tLearn.twin.learnQ = [] ∧ (sl tLearn 0).maint[0] = false ∧ macFind tLearn (sl tLearn 0).mac ⟨0, 0, 0⟩ = none ∧
    (macFree tLearn (sl tLearn 0).mac ⟨0, 0, 0⟩).isSome = true ∧
    learnedCount (sl tLearn 0).mac < fldA (tSet tLearn (Reg.fwdLrnLim 0) (putF 0 Fld.fwdLrnLim_LEARN_MAX 1)) (Reg.fwdLrnLim 0)
      Fld.fwdLrnLim_LEARN_MAX ∧
    sliceExists tLearn 0 = true ∧ (sl tLearn 0).msAt < elNs (modTsu tLearn (fun t => { t with elapsed := BitVec.ofNat 96 (1000000 * 2 ^ 32) })) / 1000000 ∧
    (sl tLearn 0).tickLen ≤ (sl tLearn 0).tickMs := by decide +kernel
theorem test_witness_sweep : ((sl tAged 0).mac.get? 262143) = some tMac ∧ (sl tAged 0).maint[0] = false ∧
    (let st := tSet (tSet tAged (Reg.fwdLrnCfg 0) (putF (rdA tAged (Reg.fwdLrnCfg 0)) Fld.fwdLrnCfg_AGE_EN 1))
        (Reg.fwdLrnCfg 0) (putF (rdA tAged (Reg.fwdLrnCfg 0)) Fld.fwdLrnCfg_AGE_EN 1)
     fldA st (Reg.fwdLrnCfg 0) Fld.fwdLrnCfg_AGE_EN ≠ 0 ∧ ageLimit st 0 < ((sl st 0).tick - tMac.age).toNat) ∧
    tAged.twin.state = .off ∧ tAged.twin.learnQ = [] ∧ tMac.parOk = true ∧ tLpm.resOk = true ∧
    (let st := modSl tAged 0 (fun x => { x with tick := 0, ms := 700 })
     ((sl st 0).tick - tMac.age).toNat ≤ ageLimit st 0 ∧ holdMs st 0 ≤ (msStamp st 0 - tMac.mstamp).toNat) ∧ tMac.hold = true ∧ tMac.static_ = false ∧
    ((sl (tLpmAt 16383) 0).lpm.get? 16383) = some tLpm ∧ tLpm.keyOk = true := by decide +kernel

/-! 06-08: channels, slots, switch timers, the key tree. -/

/-- SAE_CH_DATA that describes a receive channel. -/
def tChData (rx : Bool) : State := wr tRun (Reg.saeChData0 0) (if rx then 0x40000000 else 0)

theorem test_witness_channels : cmdOpen tRun (Reg.saeCmd 0) = true ∧ ans.all (fun an => (slotOf tRun 0 1 an).due == none) = true ∧
    (chOf tRun 0 1).pend = [] ∧ (chOf tRun 0 0).valid = true ∧ (chOf tRun 0 16383).valid = false ∧
    (let n := chOfImage (tChData false) ((List.range 8).map (chData (tChData false) 0)) (chOf tRun 0 1)
     chBadParam n (getF (chData (tChData false) 0 5) ⟨31, 30⟩) = false ∧ instExists tRun n.inst = true ∧ instRefusal tRun n.inst = 0 ∧
     n.dirRx = false ∧ channelsOf tRun 0 n.inst < (inst tRun n.inst).shares[(0 : Fin 4)].channels) ∧
    (let n := chOfImage (tChData true) ((List.range 8).map (chData (tChData true) 0)) (chOf tRun 0 1)
     n.dirRx = true ∧ chBadParam n (getF (chData (tChData true) 0 5) ⟨31, 30⟩) = false) ∧
    ans.all (fun an => !(slotOf tRun 0 1 an).bad) = true ∧ (chOf tRun 0 1).bad = false ∧ (chOf tRun 0 1).thrMissed = false ∧
    (chOf tRun 0 1).eccFail = false ∧ tRun.img.content.twin = false ∧ instRefusal tRun (chOf tRun 0 1).inst = 0 ∧
    slotsEmpty (chOf tRun 0 0) = true := by decide +kernel
theorem test_witness_receive_channel : let st := tChData true
    let n := chOfImage st ((List.range 8).map (chData st 0)) (chOf st 0 1)
    instExists st n.inst = true ∧ instRefusal st n.inst = 0 ∧ channelsOf st 0 n.inst < (inst st n.inst).shares[(0 : Fin 4)].channels ∧
    sciFind st 0 n.sci = none ∧ (sciFree st 0 n.sci).isSome = true ∧ (sciFree (sciRemove st 0 1) 0 n.sci).isSome = true ∧
    ((sciFind (modHash tRun 0 (fun m => m.put ((sciPlaces tRun 0).headD 0) { sci := 0, ch := 3 })) 0 0).map (fun p => p.2.bad)) = some false := by
  decide +kernel
theorem test_witness_sci : sciFind tRun 0 0 = none ∧ (sciFree tRun 0 0).isSome = true ∧
    (sciFind (modHash tRun 0 (fun m => m.put ((sciPlaces tRun 0).headD 0) { sci := 0, ch := 3 })) 0 0).map (fun p => p.2.ch) = some 3 := by
  decide +kernel

theorem test_witness_slots : (sl (tChan { valid := true } (tSlot .loaded)) 0).chans.has 1 = true ∧
    (slotOf (tChan { valid := true } (tSlot .loaded)) 0 1 0).state = .loaded ∧
    (slotOf (tChan { valid := true } (tSlot .active)) 0 1 0).state = .active ∧
    (slotOf (tChan { valid := true } (tSlot .dropping)) 0 1 0).state = .dropping ∧
    cmdOpen (tChan { valid := true } (tSlot .loaded)) (Reg.saeCmd 0) = true ∧
    (chOf (tChan { valid := true, pend := [.retire 0] } (tSlot .active)) 0 1).pend = [.retire 0] ∧
    (∀ q : SlotState, let st := tChan { valid := true } (tSlot q)
      (chOf st 0 1).bad = false ∧ (chOf st 0 1).thrMissed = false ∧ (chOf st 0 1).eccFail = false ∧ (chOf st 0 1).epochMode = false ∧
      (chOf st 0 1).pend = [] ∧ (slotOf st 0 1 0).bad = false ∧ ans.all (fun an => (slotOf st 0 1 an).due == none) = true ∧
      instRefusal st (chOf st 0 1).inst = 0) ∧
    (slotOf (tChan { valid := true } { tSlot .guard with due := some 0 }) 0 1 0).due = some 0 ∧
    (slotOf (tChan { valid := true } { tSlot .retiring with due := some 0 }) 0 1 0).state = .retiring ∧
    (slotOf (tChan { valid := true } { tSlot .guard with due := some 0 }) 0 1 0).state = .guard ∧
    ans.all (fun an => an == 0 || (slotOf (tChan { valid := true } { tSlot .guard with due := some 0 }) 0 1 an).due == none) = true ∧
    (inst tRun (chOf tRun 0 1).inst).state ≠ .frozen := by
  refine ⟨by decide +kernel, by decide +kernel, by decide +kernel, by decide +kernel, by decide +kernel, by decide +kernel, ?_, by decide +kernel⟩
  intro q; cases q <;> decide +kernel

/-- SA_LOAD at the ends of the range of a start: 1 and the last PN of the suite. -/
theorem test_witness_load : let st := wr (tChan { valid := true } {}) (Reg.saeSaData0 0 + 16) 1
    (saData st 0 10).testBit 31 = false ∧ 0 < saData st 0 4 + saData st 0 5 * 2 ^ 32 ∧
    saData st 0 4 + saData st 0 5 * 2 ^ 32 ≤ lastPn (chOf st 0 1).suite ∧
    assocsOf st 0 0 < (inst st 0).shares[(0 : Fin 4)].assocs ∧
    (slotOf st 0 1 0).state = .empty ∧ cmdOpen st (Reg.saeCmd 0) = true ∧
    (let key := keyIn (clearSaeKey st 0) (suiteKey 0 (List.replicate 32 0))
     let fp := fingerprint (clearSaeKey st 0) 0 0 (suiteKey 0 key) (assocBase 0 (chOf st 0 1).sci 0 0)
     (startRule (clearSaeKey st 0) (kindOf false).val (lastPn 0) fp 1).toOption.map (fun p => p.2.2) = some none ∧
     (startRule (clearSaeKey st 0) (kindOf false).val (lastPn 0) fp (lastPn 0)).toOption.map (fun p => p.2.2) = some none) := by decide +kernel

/-- GUARD ends at its instant and not a nanosecond before. -/
theorem test_guard_end :
    after (.lifecycleSweep 0 1) (tChan { valid := true } { tSlot .guard with due := some 0 }) (fun t => (slotOf t 0 1 0).state) = some .empty ∧
    after (.lifecycleSweep 0 1) (tChan { valid := true } { tSlot .guard with due := some 1 }) (fun t => (slotOf t 0 1 0).state) = some .guard := by
  decide +kernel

/-- Switch timer 7 of slice 0 as given. -/
def tTimer (x : SwTimer) : State := modTimer tRun 0 7 (fun _ => x)
theorem test_witness_timers : atOnce tRun (Reg.saeSwtCtl 0 7) = true ∧
    (sl (tTimer { time := 0, lead := 0, armed := true, rxFired := true }) 0).timers[(7 : Fin 8)].armed = true ∧
    (sl tRun 0).timers[(7 : Fin 8)].armed = false ∧ nsLe 0 (nowNs tRun) = true ∧ armInRange tRun 0 0 = false ∧
    armInRange tRun 2000000000 0 = true := by decide +kernel

/-- A channel in epoch mode, and a node whose direct leaf serves it. -/
def tEpoch : State := { tChan { valid := true, epochMode := true } {} with ktr := { nodes := [(0, tNode 0 1)] } }
theorem test_witness_preinstall : (chOf tEpoch 0 1).epochMode = true ∧ (chOf tEpoch 0 1).preErr = false ∧
    (chOf tEpoch 0 1).valid = true ∧ (chOf tEpoch 0 1).bad = false ∧ (chOf tEpoch 0 1).eccFail = false ∧ (tNode 0 1).bad = false ∧
    (inst tEpoch (chOf tEpoch 0 1).inst).state ≠ .frozen ∧ (slotOf tEpoch 0 1 (epochAn (chOf tEpoch 0 1))).state = .empty ∧ preInstalling tEpoch 0 1 = false ∧
    node? tEpoch (chOf tEpoch 0 1).parent.toNat = some (tNode 0 1) ∧ leafReason (chOf tEpoch 0 1) (some (tNode 0 1)) = 0 ∧
    leafReason (chOf tEpoch 0 1) (some (tNode 0 2)) ≠ 0 ∧ tEpoch.glb.halted = false ∧ tEpoch.glb.holdup = false ∧
    assocsOf tEpoch 0 0 < (inst tEpoch 0).shares[(0 : Fin 4)].assocs := by decide +kernel

/-- The root at node 0, and KTR_CFG that names it as the parent. -/
def tTree : State := { tRun with ktr := { nodes := [(0, tNode 0 1)] } }
theorem test_witness_keytree : rootCode tRun 15 = 0 ∧ rootCode tRun 16 ≠ 0 ∧ fld tRun Reg.ktrCmd busyF = 0 ∧
    cmdOpen tTree Reg.ktrCmd = true ∧ tTree.twin.state ≠ .standby ∧ tTree.twin.state ≠ .syncing ∧
    node? tTree (cfgParent tTree) = some (tNode 0 1) ∧ deriveCode tTree 16 = 0 ∧ 15 < nodeCount tTree ∧
    invalidateCode tTree 0 false = 0 ∧ invalidateCode tTree 0 true = 0 ∧ tRun.glb.halted = false ∧ (tNode 0 1).bad = false := by decide +kernel

/-- A transmit channel at PN 1 of a block that ends there, and one at the last PN. -/
def tTake (pn : Nat) : State := tChan { valid := true, encAn := some 0 } { tSlot .active with pn := pn, res := pn }
theorem test_witness_take : (takePn (tTake 1) 0 1).1.isSome = true ∧ (takePn (tTake (2 ^ 32 - 1)) 0 1).1.isSome = true ∧
    (takePn (takePn (tTake (2 ^ 32 - 1)) 0 1).2 0 1).1 = none ∧ (takePn (takePn (tTake 1) 0 1).2 0 1).1 = none := by decide +kernel
theorem test_witness_take_twice :
    let st := tChan { valid := true, encAn := some 0 } (tSlot .active)
    (takePn st 0 1).1.map (fun p => p.2.pn) = some 1 ∧ (takePn (takePn st 0 1).2 0 1).1.map (fun p => p.2.pn) = some 2 := by decide +kernel

/-- A slot whose node was lost is no user of the node that takes its index (07 R300, R307). -/
theorem test_reused_node :
    let lost := nodeEcc (putNode (tChan {} { tSlot .active with keySrc := true, node := 20 }) 20 (tNode 1 0)) 20
    nodeUsers (putNode (tChan {} { tSlot .active with keySrc := true, node := 20 }) 20 (tNode 1 0)) 20 = 1 ∧
    (slotOf lost 0 1 0).state = .active ∧ nodeUsers (putNode lost 20 (tNode 1 0)) 20 = 0 := by decide +kernel

/-! 00, 01: the queue, the halt, the frame paths. -/

theorem test_witness_reset_memory : Memory.wf State.reset.mram = true ∧ Memory.wf tRun.mram = true ∧ State.reset.pending = [] := by decide +kernel
/-- A step takes the command at the front and leaves the rest. -/
theorem test_step : (match step { tRun with pending := [.freeze 1, .thaw 1] } with | .next t => some t.pending | _ => none) = some [.thaw 1] := by
  decide +kernel
theorem test_witness_halt :
    (modGlb tRun (fun g => { g with halted := true })).glb.halted = true ∧ tRun.glb.halted = false ∧ twinStandby tRun = false ∧
    booted { tRun with img := {} } = false ∧ twinStandby { tRun with img := {} } = false ∧ fld (wr tRun Reg.vimCmd (putF 0 busyF 1)) Reg.vimCmd busyF ≠ 0 ∧
    booted tRun = true ∧ fld (wr tRun Reg.meeArcCmd (putF 0 busyF 1)) Reg.meeArcCmd busyF ≠ 0 ∧
    sliceOn tRun 0 = true ∧ fld (wr tRun (Reg.clsRuleCmd 0 1) (putF 0 busyF 1)) (Reg.clsRuleCmd 0 1) busyF ≠ 0 := by decide +kernel
/-- Before step 4 a command is refused with NOT_READY or BUSY, its operands stored. -/
theorem test_early :
    booted (modImg tRun (fun i => { i with state := .loading })) = false ∧
    twinOwner (modImg tRun (fun i => { i with state := .loading })) = false ∧
    after (.arcRead 5) (modImg tRun (fun i => { i with state := .loading })) (fun t =>
      (fld t Reg.meeArcCmd Fld.meeArcCmd_RESULT, fld t Reg.meeArcCmd Fld.meeArcCmd_ENTRY)) = some (7, 5) := by decide +kernel
/-- In the halt a register write is ignored. -/
theorem test_halt : after (.registerWrite 0 Reg.tsuAdjNs 0xF 5) (modGlb tRun (fun g => { g with halted := true })) (fun t => rd t Reg.tsuAdjNs) = some 0 := by
  decide +kernel

/-- A limit of `n` cells on client port (0, 0). -/
def tLim (n : Nat) (st : State) : State := tSet st (Reg.pcsFcLim 0 0 0) (putF 0 Fld.pcsFcLim_PORT_CELLS n)
theorem test_witness_client_rx :
    let st := tLim 65535 tRun
    let ar (st : State) : State := (arrive (bwFrame st .client 0 0 false 68) 0).2
    let p := parse { prsCfg st 0 with more := false } tFrame.bytes
    let c : Pkt := { clientPkt (ar st) 0 0 tFrame p with order := (arrive st 0).1 }
    let no := modInst st 0 (fun x => { x with state := .frozen })
    let full := modInst st 0 (fun x => { x with shares := Vector.replicate 4 {} })
    rxOn tRun .client 0 0 = true ∧ rxOn tRun .line 0 0 = true ∧ rxOn State.reset .client 0 0 = false ∧ rxOn State.reset .line 0 0 = false ∧
    tFrame.ended = true ∧ pauseKind tFrame.bytes = 0 ∧ macBad .client tFrame = false ∧ macBad .client { tFrame with fcsOk := false } = true ∧
    admits (bwFrame st .client 0 0 false 68) 0 = true ∧ portFull (ar st) 0 0 (prioOf p) = false ∧
    portFull (ar (tLim 0 tRun)) 0 0 (prioOf p) = true ∧ cellsFree (ar st) 0 tFrame.bytes = true ∧
    (inst (parserEntry (ar st) c) c.inst).state = .enabled ∧
    instCells (sl (parserEntry (ar st) c) 0) c.inst < (inst (parserEntry (ar st) c) c.inst).shares[(0 : Fin 4)].cells ∧
    (inst (parserEntry (ar no) c) c.inst).state ≠ .enabled ∧
    (inst (parserEntry (ar full) c) c.inst).shares[(0 : Fin 4)].cells ≤ instCells (sl (parserEntry (ar full) c) 0) c.inst := by decide +kernel
theorem test_witness_line_rx :
    let st := bwFrame tRun .line 0 0 false 68
    let stop := bwFrame (modImg tRun (fun i => { i with sl := Vector.replicate 4 .draining })) .line 0 0 false 68
    macBad .line tFrame = false ∧ macBad .line { tFrame with bytes := tFrame.bytes.take 59 } = true ∧ admits st 0 = true ∧ admits stop 0 = false ∧
    rxOn (modImg tRun (fun i => { i with sl := Vector.replicate 4 .draining })) .line 0 0 = true ∧
    (port st .line 0 0).fi.armed = false ∧ (port st .line 0 0).fiHeld = [] := by decide +kernel

def tWait : WaitFrame := { frame := tEgr, parse := none, mal := none, dec := .drop, reason := 0, rule := none, cnts := [] }
/-- A frame of channel 1 whose integrity is protected, with the ICV given, PN 5. -/
def tVer (icv : Nat) : VFrame :=
  { bytes := tFrame.bytes.take 12 ++ [0x88, 0xE5, 0, 2, 0, 0, 0, 5, 7, 7] ++ beBytes 16 icv, port := 0, ver := 0, inst := 0, ch := 1, an := 0, pn := 5
    key := List.replicate 32 1, h := List.replicate 16 3, salt := 0, ssci := 0, suite := 0, confOff := 0, sci := 9, tci := 0, tagOff := 12, pn32 := 5
    secTagLen := 8, sl := 2, rxNs := 0, rxEl := 0, cellErr := false, order := 0 }
theorem test_witness_rx_commit : openFrame (tVer 0) = none ∧ (openFrame (tVer 0x7AF08F1B12CC9C1F081579A82899BC40)).isSome = true ∧
    (rxCommit (tChan { valid := true } (tSlot .dropping)) 0 (tVer 0)).1 = false ∧
    (rxCommit (tChan { valid := true } (tSlot .active)) 0 (tVer 0)).1 = true := by decide +kernel
theorem test_witness_crossing :
    (sl (modSl tRun 0 (fun x => { x with waiting := [(0, tWait)] })) 0).waiting = [(0, tWait)] ∧ (sl tRun 0).waiting = [] ∧
    pairOf { tRun with img := { tRun.img with content := {} } } .client 0 0 = none ∧
    (sl (modSl tRun 0 (fun x => { x with engine := [tVer 0] })) 0).engine = tVer 0 :: [] ∧ (tVer 0).cellErr = false ∧ (sl tRun 0).recirc = [] ∧
    (let f (o : Nat) : RecFrame := { bytes := tFrame.bytes, lport := 0, ver := 0, inst := 0, rcp := 0, rxCh := none, rxNs := 0, rxEl := 0, order := o }
     let st := modSl tRun 0 (fun x => { x with recirc := [f 0] })
     let wait := modSl tRun 0 (fun x => { x with recirc := [f 1], engine := [tVer 0] })
     (sl st 0).recirc = f 0 :: [] ∧ recWaits (sl st 0) (f 0) = false ∧ (sl wait 0).recirc = f 1 :: [] ∧ recWaits (sl wait 0) (f 1) = true) := by decide +kernel
theorem test_witness_grant :
    let st := modPort tRun .line 0 0 (fun p => { p with queue := [tEgr] })
    let held := modPort st .line 0 0 (fun p => { p with hold := { until_ := Vector.replicate 8 (some 1) } })
    isL2 st .line 0 0 = true ∧ (port st .line 0 0).queue = tEgr :: [] ∧ tEgr.prio = 7 ∧ (∀ g ∈ [tEgr], g.started = false) ∧
    txLive st .line 0 0 = true ∧ txLive (modGlb st (fun g => { g with halted := true })) .line 0 0 = false ∧
    earlierOnWay (sl st 0) tEgr = false ∧ wireBusy st 0 0 = false ∧ outputHeld held .line 0 0 7 = true ∧ txLive held .line 0 0 = true ∧ outputHeld st .line 0 0 7 = false ∧ launchNear st 0 0 = false ∧
    tEgr.cellErr = false ∧ tEgr.tc = none ∧ tEgr.ended = true ∧
    (let e (x : Nat) : FragEnt := { key := { dir := .client, inst := 0, src := 0, dst := 0, proto := 0, fragId := 0 }, dec := .drop, byRule := true, expires := x }
     let st := modFrags tRun 0 (fun _ => [e 0, e 1])
     (sl st 0).frags[0]? = some (e 0) ∧ (sl st 0).frags[1]? = some (e 1) ∧ (e 0).expires ≤ elNs st ∧ elNs st < (e 1).expires) := by decide +kernel
/-- A grant of a live port sends the frame; it is one that a rule released. -/
theorem test_witness_egress : after (.frameEgressGrant .line 0 0 7) (modPort tRun .line 0 0 (fun p => { p with queue := [tEgr] }))
    (fun t => t.out) = some [.frame .line 0 0 tFrame.bytes true] ∧ tEgr.released = true := by decide +kernel

/-- An engine holds a frame of `bs`. -/
def tHeldIn (bs : Bytes) : State := modSl (tLim 65535 tRun) 0 (fun x => { x with engine := [{ tVer 0 with bytes := bs }] })
theorem test_cells (x : SliceSt) (v : VFrame) : cellsOf v.bytes ≤ cellsUsed { x with engine := [v] } := by
  have h : sumOf (fun (f : VFrame) => cellsOf f.bytes) [v] = cellsOf v.bytes := by simp [sumOf]
  unfold cellsUsed
  rw [h]; omega
theorem test_witness_no_cells (bs : Bytes) (h : 65536 ≤ cellsOf bs) :
    cellsFree (arrive (bwFrame (tHeldIn bs) .client 0 0 false 68) 0).2 0 tFrame.bytes = false := by
  let x : SliceSt := { sl (tLim 65535 tRun) 0 with arrivals := (sl (tLim 65535 tRun) 0).arrivals + 1 }
  have a : sl (arrive (bwFrame (tHeldIn bs) .client 0 0 false 68) 0).2 0 = { x with engine := [{ tVer 0 with bytes := bs }] } := by
    have e (st : State) (f : SliceSt → SliceSt) : sl (arrive (bwFrame (modSl st 0 f) .client 0 0 false 68) 0).2 0 =
        { f (sl st 0) with arrivals := (f (sl st 0)).arrivals + 1 } := by
      rw [arrive, sl_modSl_self, sl, bwFrame_slices, ← sl, sl_modSl_self]
    exact e _ _
  have b := test_cells x { tVer 0 with bytes := bs }
  have c : 0 < cellsOf tFrame.bytes := by decide +kernel
  simp only [cellsFree, decide_eq_false_iff_not, a]
  simp only at b
  omega
theorem test_witness_much : ∃ bs, 65536 ≤ cellsOf bs :=
  have h (n : Nat) (g : 16777216 ≤ n) : 65536 ≤ cellsOf (List.replicate n 0) := by
    rw [cellsOf, List.length_replicate, ceilDiv]; omega
  ⟨_, h _ (Nat.le_refl _)⟩
theorem test_witness_no_cells_else (b : Bool) : let st := bwFrame (tHeldIn []) .client 0 0 b 68
    rxOn (tHeldIn []) .client 0 0 = true ∧ admits st 0 = true ∧ portFull (arrive st 0).2 0 0 0 = false := by revert b; decide +kernel

/-! 09: the journal. -/

/-- A record of fingerprint 1.. -/
def tRec (seq : BitVec 56) (v : Nat) (n : Byte) : JRec := { seq := seq, tomb := false, kind := 0, fp := List.replicate 12 n, value := v }
/-- Two dormant records are held, PNJ_FP names the first. -/
def tJnl : State :=
  wr (wr (wr { tRun with jnl := { tRun.jnl with index := [(0, tRec 1 100 1), (262143, tRec 2 200 2)], nextSeq := 3 } }
    (Reg.pnjFp 0) 0x01010101) (Reg.pnjFp 1) 0x01010101) (Reg.pnjFp 2) 0x01010101
/-- The first of them has a live user. -/
def tJnlLive : State :=
  modSl tJnl 0 (fun y => { y with chans := [(1, { valid := true, slots := Vector.replicate 4 { state := .active, jidx := 0 } })] })

theorem test_witness_journal :
    cmdOpen tJnl Reg.pnjCmd = true ∧ cmdOpen tRun Reg.pnjCmd = true ∧ pnjNotReady tJnl = false ∧ pnjNotReady tRun = false ∧
    heldRecord tJnl (pnjFp tJnl) = some (0, tRec 1 100 1) ∧ tombCode tJnl (pnjFp tJnl) = 0 ∧
    cmdOpen tJnlLive Reg.pnjCmd = true ∧ pnjNotReady tJnlLive = false ∧
    heldRecord tJnlLive (pnjFp tJnlLive) = some (0, tRec 1 100 1) ∧ tombCode tJnlLive (pnjFp tJnlLive) = 4 ∧
    heldRecord tRun (pnjFp tRun) = none ∧
    tJnl.jnl.index.filter (fun p => tombCode tJnl p.2.fp == 0) = (0, tRec 1 100 1) :: [(262143, tRec 2 200 2)] ∧
    cmdOpen { tRun with jnl := { ready := true, damaged := true } } Reg.pnjCmd = true ∧
    pnjNotReady { tRun with jnl := { ready := true, damaged := true } } = false ∧ tRun.jnl.acked = false ∧ tRun.jnl.damaged = false ∧
    cmdOpen { tRun with jnl := {} } Reg.pnjCmd = true ∧ pnjNotReady { tRun with jnl := {} } = true := by decide +kernel

/-- A record in writing for DESTROY, and one that is tried until it commits. -/
def tWriting (u : JUse) : State :=
  { tJnl with jnl := { tJnl.jnl with head := 262143, writing := some ({ cls := 1, kind := 0, tomb := true, fp := List.replicate 12 1, value := 100, use := u }, 3) } }
/-- 1 ms after time 0, writes having failed since then. -/
def tMs : State := tEl 1000000 { tRun with jnl := { tRun.jnl with failingSince := some 0 } }
/-- A tamper record waits, and a journal write has passed it. -/
def tPassed : State :=
  { tWriting .destroy with
    jnl := { (tWriting .destroy).jnl with passed := true }
    evl := { ready := true, queue := [{ bootNs := 0, tsuNs := 0, source := 0, flags := 0, groupSize := 1, groupIndex := 0, detail := [] }] } }
theorem test_witness_journal_writes :
    jnlWrites (tWriting .destroy) = true ∧ (tWriting .destroy).jnl.writing.isSome = true ∧
    jnlWrites (tWriting .dropped) = true ∧ forever .dropped = true ∧ jnlWrites { tRun with jnl := {} } = false ∧
    (tamperWaits (tWriting .destroy) && (tWriting .destroy).jnl.passed) = false ∧ tamperWaits tPassed = true ∧ tPassed.jnl.passed = true ∧
    tMs.jnl.failingSince = some 0 ∧ ({} : JnlSt).ready = false ∧ elNs tMs = 1000000 ∧ tMs.glb.halted = false ∧ tRun.glb.halted = false ∧ ringUsed tRun.mram = [] := by decide +kernel
theorem test_witness_start :
    ((startRule tJnl 0 0xFFFFFFFF (List.replicate 12 1) 1).toOption.map (fun p => (p.1, p.2.1))) = some (101, 16777316) ∧
    ((startRule tJnl 0 0xFFFFFFFF (List.replicate 12 9) 0xFFFFFFFF).toOption.map (fun p => (p.1, p.2.1))) = some (0xFFFFFFFF, 0xFFFFFFFF) ∧
    ((startRule tJnl 0 101 (List.replicate 12 1) 101).toOption.map (fun p => (p.1, p.2.1))) = some (101, 101) := by decide +kernel
theorem test_witness_scan : [(0, tRec 1 100 1), (1, tRec 2 100 1), (262143, tRec 2 99 1)].Pairwise (fun p q => p.1 < q.1) := by
  decide +kernel

/-- Of two records of one fingerprint the scan holds the one of higher SEQ. -/
theorem test_scan : [(0, tRec 1 100 1), (1, tRec 2 100 1), (262143, tRec 2 99 1)].foldl indexAdd [] = [(1, tRec 2 100 1)] := by
  decide +kernel
/-- A record and its CRC read back; with one bit wrong they do not. -/
theorem test_record : recOfBytes (recBytes (tRec 5 77 3)) = some (tRec 5 77 3) ∧ recOfBytes ((recBytes (tRec 5 77 3)).set 20 0) = none := by
  decide +kernel

/-! 10: the cipher transport frame. -/

/-- A slice whose line lanes 0 and 7 carry CTF and whose client port 0 is L1. -/
def tCtfSlice : SliceCfg :=
  { tSlice with
    lLanes := (tSlice.lLanes.set 0 { enabled := true, rate := 5, ctf := true }).set 7 { enabled := true, rate := 5, ctf := true }
    cPorts := tSlice.cPorts.set 0 { enabled := true, speed := 4, l1 := true } }
/-- Both lanes in frame lock, their last page phase as given, and the tributaries given. -/
def tCtf (ph : Bool) (x : NMap TribSt) : State :=
  let c : CtfLaneSt := { lock := true, rxPhase := ph }
  let st := { tRun with img := { tRun.img with content := { tRun.img.content with slices := Vector.replicate 4 tCtfSlice } } }
  modCtf st 0 (fun y => { y with lanes := (y.lanes.set 0 c).set 7 c, trib := x })
/-- A key position of AN 0 that may send and receive frames 1 to 100. -/
def tPos (q : PosState) : KeyPos := { state := q, key := List.replicate 32 1, txStart := 1, txRes := 100, rxNext := 1, rxRes := 100 }
def tTrib (q : PosState) : TribSt := { pos := Vector.replicate 2 {} |>.set 0 (tPos q), txPos := some 0 }

theorem test_ctf_lane (ph : Bool) : isCtf (tCtf ph []) 0 0 = true ∧ (laneOf (tCtf ph []) (.lane .line 0 0)).stage = .ready ∧
    (ctfLane (tCtf ph []) 0 0).lock = true ∧ (tCtf ph []).glb.halted = false ∧ isTilora (tCtf ph []) 0 0 = false ∧
    faw.take 6 = faw ∧ (sl (tCtf ph []) 0).ctf.trib = [] ∧ (ctfLane (tCtf ph []) 0 0).rxPhase = ph := by
  revert ph; decide +kernel
theorem test_witness_ctf_frames : ∃ st f, isCtf st 0 0 = true ∧ (laneOf st (.lane .line 0 0)).stage = .ready ∧
    (ctfLane st 0 0).lock = true ∧ st.glb.halted = false ∧ isTilora st 0 0 = false ∧ f.take 6 = faw ∧ (sl st 0).ctf.trib = [] ∧
    (byteAt (ctfScramble (padTo 250000 f)) 13).getLsbD 7 = (ctfLane st 0 0).rxPhase :=
  have h := test_ctf_lane ((byteAt (ctfScramble (padTo 250000 faw)) 13).getLsbD 7)
  ⟨_, faw, h.1, h.2.1, h.2.2.1, h.2.2.2.1, h.2.2.2.2.1, h.2.2.2.2.2.1, h.2.2.2.2.2.2.1, h.2.2.2.2.2.2.2.symm⟩
theorem test_witness_ctf_lost : let st := modCtfLane (tCtf false []) 0 0 (fun x => { x with badFaw := 4 })
    isCtf st 0 0 = true ∧ (laneOf st (.lane .line 0 0)).stage = .ready ∧ (ctfLane st 0 0).lock = true ∧ st.glb.halted = false ∧
    ([] : Bytes).take 6 ≠ faw ∧ (ctfLane st 0 0).badFaw = 4 ∧
    (let st := modLane st (.lane .line 0 0) (fun x => { x with stage := .pcsLock })
     isCtf st 0 0 = true ∧ (laneOf st (.lane .line 0 0)).stage = .pcsLock ∧ st.glb.halted = false) := by decide +kernel
theorem test_witness_seconds : let st := modCtf (tEl 1000099999 tRun) 3 (fun c => { c with secStart := 0 })
    elNs st < (sl st 3).ctf.secStart + 1000100000 ∧ (∀ r : SliceId, (sl (tEl 1000100000 tRun) r).ctf.secStart + 1000100000 ≤ elNs (tEl 1000100000 tRun)) ∧
    (trib? (tCtf false [(0, tTrib .inUse)]) 0 0).isSome = true := by decide +kernel
theorem test_witness_ctf_others : sliceOn (tCtf false []) 0 = true ∧ isCtf tRun 0 0 = false ∧ (ctfLane tRun 0 0).lock = false ∧
    sliceOn { tRun with img := { tRun.img with sl := Vector.replicate 4 .off } } 0 = false := by decide +kernel

theorem test_witness_fsync :
    let st := tSet (tCtf false []) (Reg.ctfFsyncCfg 0) (putF 0 Fld.ctfFsyncCfg_FSYNC_EN 1)
    sliceOn st 0 = true ∧ st.glb.halted = false ∧ st.twin.state = .off ∧ (sl st 0).ctf.alignArmed = false ∧
    (sl (modCtf st 0 (fun c => { c with alignArmed := true })) 0).ctf.alignArmed = true ∧ (sl st 0).ctf.ignored ≠ BitVec.allOnes 16 ∧
    flagA st (Reg.ctfFsyncCfg 0) Fld.ctfFsyncCfg_FSYNC_EN = true ∧
    atOnce st (Reg.ctfFsyncStat 0) = true ∧ atOnce st (Reg.ctfTraceExp 0 7 3) = true := by decide +kernel

/-- An edge exactly 1,000 ns off corrects, one 1,001 ns off is ignored. -/
theorem test_fsync :
    let st := tSet (tCtf false []) (Reg.ctfFsyncCfg 0) (putF 0 Fld.ctfFsyncCfg_FSYNC_EN 1)
    after (.fsyncEdge 0 (-1000)) st (fun t => ((sl t 0).ctf.corr, (sl t 0).ctf.ignored)) = some (-1000000, 0) ∧
    after (.fsyncEdge 0 1001) st (fun t => ((sl t 0).ctf.corr, (sl t 0).ctf.ignored)) = some (0, 1) := by decide +kernel

theorem test_witness_lane_injector :
    let st := tCtf false []
    let on := modCtfLane st 0 7 (fun x => { x with fi := { armed := true } })
    atOnce st (Reg.ctfFiCmd 0 7) = true ∧ isCtf st 0 7 = true ∧ logFull st = false ∧ (ctfLane st 0 7).fi.armed = false ∧
    getF (rdA st (Reg.ctfFiCfg 0 7)) Fld.ctfFiCfg_ACTION = 0 ∧ getF (rdA st (Reg.ctfFiSel 0 7)) Fld.ctfFiSel_OFFSET < 4 ∧
    getF (rdA (tSet st (Reg.ctfFiCfg 0 7) (putF 0 Fld.ctfFiCfg_ACTION 1)) (Reg.ctfFiCfg 0 7)) Fld.ctfFiCfg_ACTION = 1 ∧
    atOnce on (Reg.ctfFiCmd 0 7) = true ∧ isCtf on 0 7 = true ∧ logFull on = false ∧ (ctfLane on 0 7).fi.armed = true ∧
    logFull { on with evl := { ready := true, head := 65536 } } = true ∧
    atOnce { on with evl := { ready := true, head := 65536 } } (Reg.ctfFiCmd 0 7) = true := by decide +kernel

theorem test_witness_tributaries :
    let st (q : PosState) := tCtf false [(0, tTrib q), (256 * 7 + 239, tTrib q)]
    cmdOpen (st .empty) (Reg.tsiTribCmd 0) = true ∧ isCtf (st .empty) 0 7 = true ∧ (trib? (st .empty) 0 (tribNo 7 239)).isSome = true ∧
    trib? (st .empty) 0 (tribNo 0 1) = none ∧ (portCfg (st .empty) .client 0 0).enabled = true ∧ (portCfg (st .empty) .client 0 0).l1 = true ∧
    getF (tribData (st .empty) 0 0) Fld.tsiTribData_CPORT = 0 ∧ getF (tribData (st .empty) 0 0) Fld.tsiTribData_INSTANCE = 0 ∧
    instExists (st .empty) 0 = true ∧ instRefusal (st .empty) 0 = 0 ∧ posEmpty (tTrib .empty) = true ∧
    inPages (st .empty) 0 7 239 = false ∧ (tTrib .loaded).pos.toList.any (fun p => p.state == .loaded) = true ∧
    positions.find? (fun p => ((tTrib .revoked).pos[p].state == .loaded || (tTrib .revoked).pos[p].state == .revoked) &&
      (tTrib .revoked).pos[p].an == 0) = some 0 := by decide +kernel
theorem test_witness_install :
    let r := { tNode 3 3 with root := false, depth := 1 }
    let st := { tCtf false [(256 * 7 + 239, tTrib .inUse)] with ktr := { nodes := [(0, r)], fpKey := List.replicate 16 1 } }
    cmdOpen st (Reg.tsiTribCmd 0) = true ∧ trib? st 0 (tribNo 7 239) = some (tTrib .inUse) ∧
    positions.find? (fun p => (tTrib .inUse).pos[p].state == .empty) = some 1 ∧
    (∀ q : Fin 2, (tTrib .inUse).pos[q].state ≠ .empty → (tTrib .inUse).pos[q].an ≠ 3) ∧ isTilora st 0 7 = false ∧
    node? st (getF (tribData st 0 5) Fld.tsiTribData_NODE) = some r ∧ r.bad = false ∧ r.type = 3 ∧ r.owner = (tTrib .inUse).inst ∧
    (installRules st 0 (tribNo 7 239) 1 3 (tTrib .inUse) 0 r).toOption.isSome = true := by decide +kernel
theorem test_witness_pages : cmdOpen (tCtf false []) (Reg.tsiPageCmd 0) = true ∧ slotBad (tCtf false []) 0 7 0 = false ∧
    slotBad (tCtf false []) 0 7 239 = false ∧ slotBad (tCtf false []) 0 7 240 = true ∧ slotBad (tCtf false []) 0 1 0 = true ∧
    (sl (tCtf false []) 0).ctf.swapPend = false ∧ badMap (tCtf false []) 0 = false ∧
    (let st := modCtf (tCtf false []) 0 (fun c => { c with swapPend := true })
     cmdOpen st (Reg.tsiPageCmd 0) = true ∧ (sl st 0).ctf.swapPend = true ∧ badMap st 0 = false) := by decide +kernel

/-- What one end seals for a frame, the other end opens. -/
theorem test_witness_trib_frames :
    let y := { tTrib .inUse with pos := (tTrib .inUse).pos.set 0 { tPos .inUse with key := List.replicate 16 1 } }
    let st := tCtf false [(0, y)]
    ((sealTrib st 0 0 0 1 [1, 2, 3]).1.bind (fun c => (openTrib st 0 0 0 1 0 false c.1 c.2).1)) = some [1, 2, 3] := by decide +kernel

/-! 11: the time base and the calendar. -/

/-- NOW at `ns`. -/
def tAt (ns : Nat) (st : State) : State := { st with tsu := { st.tsu with now := BitVec.ofNat 64 (ns * 2 ^ 32) } }
theorem test_witness_time : atOnce tRun Reg.tsuCmd = true ∧ booted tRun = true ∧ tRun.saf = [] ∧ anyArmed tRun = false ∧ tRun.tsu.slewLeft = 0 ∧
    tRun.tsu.stepPend = none ∧ tRun.tsu.ppsIgnored ≠ BitVec.allOnes 16 ∧
    anyArmed (modTimer tRun 3 7 (fun x => { x with armed := true })) = true ∧
    (atOnce { tRun with tsu := { slewLeft := 1 } } Reg.tsuCmd = true) ∧
    flagA tRun Reg.tsuCfg Fld.tsuCfg_PPS_IN_EN = false ∧
    (let st := tSet tRun Reg.tsuCfg (putF (putF 0 Fld.tsuCfg_PPS_IN_EN 1) Fld.tsuCfg_PPS_OUT_EN 1)
     flagA st Reg.tsuCfg Fld.tsuCfg_PPS_IN_EN = true ∧ ppsOn st = true ∧ st.tsu.ppsOutHigh = false ∧ st.tsu.ppsLast = none ∧
     nsLe (rd st Reg.tsuPpsoTime) (nowNs st) = true ∧ elNs st < 0 + 500000000) := by decide +kernel
theorem test_witness_slew : let st (n : Nat) (b : Bool) : State := { tRun with tsu := { slewLeft := n, abort := b, ppsPend := true } }
    (st 1 false).tsu.stepPend = none ∧ (st 1 false).tsu.slewLeft = 1 ∧ (st 5 true).tsu.slewLeft ≠ 0 ∧ slewStops (st 5 true) = true ∧
    1 < (st 2 false).tsu.slewLeft ∧ slewStops (st 2 false) = false ∧ (st 2 false).tsu.ppsPend = true ∧
    ({ tRun with saf := [{ inst := 0, s := 0, k := 0, launch := 0, sendLate := false, bytes := [], stage := .dram, out := none, chan := none
                           order := 0 }] } : State).saf ≠ [] := by decide +kernel
theorem test_witness_pps :
    let st := tSet { tRun with tsu := { ppsLast := some 0 } } Reg.tsuCfg (putF 0 Fld.tsuCfg_PPS_IN_EN 1)
    flagA st Reg.tsuCfg Fld.tsuCfg_PPS_IN_EN = true ∧ st.tsu.ppsLast = some 0 ∧ elNs (tEl 499999999 st) < 0 + 500000000 ∧
    0 + 500000000 ≤ elNs (tEl 500000000 { st with tsu := st.tsu }) := by decide +kernel
/-- An edge of PPS_IN is latched at the tick after it (R438). -/
theorem test_pps_latch : after .ppsIn (tSet (tAt 7 tRun) Reg.tsuCfg (putF 0 Fld.tsuCfg_PPS_IN_EN 1))
    (fun t => (t.tsu.ppsEdges, (tick t).tsu.ppsEdges, (tick t).tsu.ppsCapNs == nowNs (tick t))) = some (0, 1, true) := by decide +kernel
/-- A tick adds the increment to NOW, and the wrap tick is one that passes 2^64. -/
theorem test_tick : (tick tRun).tsu.now = nowInc tRun ∧ (tick (tAt 0xFFFFFFFF tRun)).tsu.now = 0xFFFFFFFF00000000 + nowInc tRun ∧
    after .wrap (tAt 0xFFFFFFFF tRun) (fun t => decide (t.tsu.now < 0x200000000)) = some true ∧ after .wrap tRun (fun t => t.tsu.ticks) = some 0 := by
  decide +kernel

/-- One frame with a launch time of 1 ms, NOW at `ns`. -/
def tSafFrame (q : SafStage) : SafFrame :=
  { inst := 0, s := 0, k := 0, launch := 1000000, sendLate := false, bytes := tFrame.bytes, stage := q, out := none, chan := some (1, false), order := 0 }
def tSaf (ns : Nat) (f : SafFrame) (st : State) : State := { tAt ns st with saf := [f] }
theorem test_witness_saffron :
    let f := tSafFrame
    safFirst (tSaf 900000 (f .dram) tRun) 0 (fun f => f.stage == .dram) = some (f .dram, 0) ∧
    within (tSaf 900000 (f .dram) tRun) 100 1000000 = true ∧ within (tSaf 899999 (f .dram) tRun) 100 1000000 = false ∧
    past (tSaf 990000 (f .dram) tRun) 10 1000000 = false ∧
    countP (fun f => f.s == 0 && f.stage != .dram) (tSaf 900000 (f .dram) tRun).saf < 4096 ∧
    (let st := tSaf 992000 (f .staged) tRun
     safFirst st 0 (fun f => f.stage == .staged) = some (f .staged, 0) ∧ within st 8 1000000 = true ∧ past st 5 1000000 = false ∧
     admits st 0 = true ∧ (let c := safPkt st (f .staged) (parse (prsCfg st 0) tFrame.bytes)
      (admitInst (parserEntry st c) 0 c.inst tFrame.bytes).1 = true ∧
      (admitInst (parserEntry (modInst st 0 (fun x => { x with state := .frozen })) c) 0 c.inst tFrame.bytes).1 = false)) := by decide +kernel
theorem test_witness_saffron_access :
    let f := tSafFrame
    let st := tSaf 995000 (f .parsed) (tChan { valid := true, bind := 15, encAn := some 0 } (tSlot .active))
    let no := tSaf 998000 (f .parsed) (tChan { valid := true, bind := 15 } {})
    safFirst st 0 (fun f => f.stage == .parsed) = some (f .parsed, 0) ∧ within st 5 1000000 = true ∧ past st 2 1000000 = false ∧
    within no 5 1000000 = true ∧ past no 2 1000000 = false ∧ admits st 0 = true ∧ admits no 0 = true ∧
    (let c := safPkt st (f .parsed) (parse (prsCfg st 0) tFrame.bytes)
     (protAccess st 0 1 (bindNo c) tFrame.bytes).1.isSome = true ∧ c.outPort = some 0 ∧
     (protAccess no 0 1 (bindNo c) tFrame.bytes).1 = none) := by decide +kernel
theorem test_witness_saffron_launch :
    let f := { tSafFrame .accessed with out := some (0, tEgr) }
    let st := tSaf 1000000 f tRun
    safFirst st 0 (fun f => match f.out with | some (j, _) => j == 0 && f.stage == .accessed | none => false) = some (f, 0) ∧
    reached st 0 (launchAt st 0 0 1000000) = true ∧ outputHeld st .line 0 0 tEgr.prio = false ∧
    wireBusy st 0 0 = false ∧ (port st .line 0 0).queue.any (fun g => g.started) = false ∧
    isLate (tSaf 990001 (tSafFrame .dram) tRun) { tSafFrame .dram with sendLate := true } = true ∧
    isLate (tSaf 990000 (tSafFrame .dram) tRun) (tSafFrame .dram) = false ∧ isLate (tSaf 990001 (tSafFrame .dram) tRun) (tSafFrame .dram) = true ∧
    isLate (tSaf 998001 (tSafFrame .parsed) tRun) { tSafFrame .parsed with sendLate := true } = true ∧
    (tSaf 998001 (tSafFrame .parsed) tRun).saf[0]? = some (tSafFrame .parsed) := by decide +kernel

/-! 12: the twin unit. -/

/-- A package of a pair, in a state, its lanes up, with a LINK node. -/
def tTwin (q : TwinState) : State :=
  { tRun with
    img := { tRun.img with content := { tRun.img.content with twin := true } }
    twinLanes := Vector.replicate 4 { stage := .ready, beenReady := true }
    ktr := { nodes := [(0, { tNode 5 5 with root := false, depth := 1 })] }
    twin := { state := q, keyed := true, rand := List.replicate 16 1 } }
/-- The HELLO of its partner. -/
def tHello (q : TwinState) : Hello :=
  let st := tTwin .start
  { runHash := st.img.runHash, devid := devid st, debug := false, twinState := q, rootValid := BitVec.ofNat 16 (rootBits st)
    rootKcv := rootKcvs st, linkNode := linkIx st, linkKcv := linkKcv st, rand := [] }
theorem test_witness_twin_commands : cmdOpen (tTwin .start) Reg.twnCmd = true ∧ devicePortsReady (tTwin .start) = true ∧
    (linkNode (tTwin .start)).isSome = true ∧ ((linkNode (tTwin .start)).all (fun n => !n.bad)) = true ∧ twinLinkUp (tTwin .start) = true ∧
    (tTwin .start).debug = false ∧ (tTwin .start).twin.partner = none ∧
    (let st := modTwin (tTwin .start) (fun t => { t with partner := some (tHello .alone) })
     cmdOpen st Reg.twnCmd = true ∧ (linkNode st).isSome = true ∧ (tHello .alone).debug = false ∧ helloMismatch st (tHello .alone) = 0) ∧
    cmdOpen (tTwin .active) Reg.twnCmd = true ∧ (tTwin .active).twin.testing = false ∧ cmdOpen (tTwin .standby) Reg.twnCmd = true ∧
    cmdOpen (tTwin .syncing) Reg.twnCmd = true ∧ cmdOpen (tTwin .alone) Reg.twnCmd = true ∧ devicePortsReady (tTwin .alone) = true ∧
    (tTwin .alone).twin.testing = false := by decide +kernel

/-- 16 us after time 0, the partner's line released since time 0. -/
def tTwinAt (ns : Nat) (q : TwinState) (f : TwinSt → TwinSt) : State :=
  modTwin { tTwin q with tsu := { elapsed := BitVec.ofNat 96 (ns * 2 ^ 32) } } f
theorem test_witness_interlock :
    mayAssert (tTwinAt 10000 .start (fun t => { t with claimUntil := some 10001 })) = true ∧
    mayAssert (tTwinAt 9999 .start (fun t => { t with claimUntil := some 10001 })) = false ∧
    mayAssert (tTwinAt 10000 .standby (fun t => { t with takingOver := true })) = true ∧
    mayAssert (tTwinAt 10000 .alone id) = true ∧ mayAssert (tTwinAt 10000 .active id) = true ∧
    (tTwinAt 2000 .alone (fun t => { t with own := true, assertedAt := some 0 })).twin.assertedAt = some 0 ∧
    elNs (tTwinAt 2000 .alone id) = 2000 ∧ elNs (tTwinAt 1999 .alone id) < 0 + 2000 ∧ (tTwinAt 2000 .alone id).glb.halted = false ∧
    (tTwinAt 16000 .active id).twin.hbLost = false ∧ (tTwinAt 16000 .active id).twin.lastHb + 16000 ≤ elNs (tTwinAt 16000 .active id) ∧
    (tTwinAt 16000 .standby id).twin.lastHb + 16000 ≤ elNs (tTwinAt 16000 .standby id) ∧
    elNs (tTwinAt 15999 .active id) < (tTwinAt 15999 .active id).twin.lastHb + 16000 ∧
    (tTwinAt 0 .standby (fun t => { t with candidateUntil := some 0 })).twin.candidateUntil = some 0 ∧
    ({ tTwinAt 0 .alone (fun t => { t with own := true }) with primary := true } : State).twin.own = true := by decide +kernel
theorem test_witness_switchover :
    (let st := tTwinAt 100 .standby (fun t => { t with partnerOwn := true })
     st.twin.partnerOwn = true ∧ st.twin.state = .standby ∧ switching st = false ∧ st.twin.own = false) ∧
    switching (tTwinAt 100 .standby (fun t => { t with partnerOwn := true, switchingUntil := some 101 })) = true ∧
    (tTwinAt 16000 .standby id).twin.hbLost = false ∧ switching (tTwinAt 16000 .standby id) = false ∧
    switching (tTwinAt 16000 .standby (fun t => { t with switchingUntil := some 16001 })) = true ∧
    elNs (tTwinAt 99 .standby (fun t => { t with candidateUntil := some 100 })) < 100 := by decide +kernel
/-- A release seen in STANDBY begins a switchover; in another state it is kept alone. -/
theorem test_release_seen :
    after (.ownLineChange false) (tTwinAt 100 .standby (fun t => { t with partnerOwn := true })) (fun t =>
      (t.twin.takingOver, t.twin.partnerSince, t.twin.switchingUntil)) = some (true, 100, some 23200) ∧
    after (.ownLineChange false) (tTwinAt 100 .syncing (fun t => { t with partnerOwn := true })) (fun t =>
      (t.twin.takingOver, t.twin.partnerSince, t.twin.switchingUntil)) = some (false, 100, none) := by decide +kernel
theorem test_witness_epochs :
    elNs (tTwinAt 8191 .active id) < 8192 * ((tTwinAt 8191 .active id).twin.epoch + 1) ∧
    (let st := tTwinAt 8192 .off id
     8192 * (st.twin.epoch + 1) ≤ elNs st ∧ st.twin.mirrorQ = [] ∧ st.twin.learnQ = [] ∧ st.twin.switchAt = none ∧ st.jnl.applies = []) ∧
    (∀ q : TwinState, q ≠ .off → q ≠ .halted →
      let st1 := releaseHeld (applyDue (applyReservations (nextEpoch (tTwinAt 8192 q id))))
      st1.twin.state ≠ .off ∧ st1.twin.state ≠ .halted) ∧
    (tTwin .active).twin.testing = false ∧ (tTwinAt 0 .active (fun t => { t with testing := true })).twin.testing = true ∧
    (tTwinAt 0 .active (fun t => { t with testing := true })).glb.halted = false ∧
    (tTwinAt 0 .standby (fun t => { t with testing := true })).twin.state = .standby := by
  refine ⟨by decide +kernel, by decide +kernel, ?_, by decide +kernel⟩
  intro q; cases q <;> decide +kernel

/-- A keyed package takes the next message of a sequence whose tag is its partner's, whatever the message holds. -/
theorem test_take (q : TwinState) (type : Nat) (items : List Nat) : ∃ m st1, takeMsg type m items (tTwin q) = (true, st1) ∧
    st1.twin.state = q ∧ st1.twin.epoch = 0 ∧ m.epoch = 0 ∧ st1.img = (tTwin q).img :=
  have open_ : ((tTwin q).glb.halted || !(tTwin q).twin.keyed || !twinLinkUp (tTwin q)) = false := by cases q <;> decide +kernel
  have keep (h : MsgHdr) (bs : Bytes) : partnerTag (tTwin q) type { h with tag := bs } items = partnerTag (tTwin q) type h items := rfl
  let h : MsgHdr := { flags := 0, seq := 1, epoch := 0, tag := [] }
  ⟨{ h with tag := partnerTag (tTwin q) type h items }, modTwin (tTwin q) (fun t => { t with rxSeq := 1 + ((msgParts type items).length - 1), missing := [] }), by
    simp only [takeMsg, open_, keep]
    rw [if_neg (by decide), if_neg (by simp), if_pos (by cases q <;> decide +kernel)]; rfl, rfl, rfl, rfl, rfl⟩
/-- A package without a session takes none. -/
theorem test_take_none (type : Nat) (m : MsgHdr) (items : List Nat) : takeMsg type m items tRun = (false, tRun) := by
  have h : (tRun.glb.halted || !tRun.twin.keyed || !twinLinkUp tRun) = true := by decide +kernel
  rw [takeMsg, h]; rfl
theorem test_witness_messages : (∃ m st1, takeMsg 6 m ([{ epoch := 1, op := .write 0 0 }].flatMap mirNats) (tTwin .standby) = (true, st1) ∧
    twinStandby st1 = true ∧ st1.twin.epoch < 1) ∧
    (∃ m st1, takeMsg 6 m ([{ epoch := 1, op := .write 0 0 }].flatMap mirNats) (tTwin .alone) = (true, st1) ∧ twinStandby st1 = false) ∧
    (∃ m st1, takeMsg 7 m ((0 : SliceId).val :: [].flatMap macNats) (tTwin .standby) = (true, st1) ∧ twinStandby st1 = true ∧
      st1.twin.epoch < epochOf st1 m.epoch + 2) ∧
    (∃ m st1, takeMsg 7 m ((0 : SliceId).val :: [].flatMap macNats) (tTwin .alone) = (true, st1) ∧ twinStandby st1 = false) ∧
    (∃ m st1, takeMsg 8 m [(0 : BitVec 64).toNat] (tTwin .standby) = (true, st1) ∧ twinStandby st1 = true) ∧
    (∃ m st1, takeMsg 8 m [(0 : BitVec 64).toNat] (tTwin .alone) = (true, st1) ∧ twinStandby st1 = false) ∧
    (∃ m st1, takeMsg 9 m ([.cut 0].flatMap capNats) (tTwin .syncing) = (true, st1) ∧ st1.twin.state = .syncing) ∧
    (∃ m : MsgHdr, m.tag ≠ partnerTag (tTwin .standby) 10 m [0]) := by
  have st (t : State) (h : t.twin.state = .standby) : twinStandby t = true := by simp [twinStandby, h]
  have no (t : State) (h : t.twin.state = .alone) : twinStandby t = false := by simp [twinStandby, h]
  obtain ⟨m, t, h, a, b, c, d⟩ := test_take .standby 6 ([{ epoch := 1, op := .write 0 0 }].flatMap mirNats)
  obtain ⟨n, u, i, a', _⟩ := test_take .alone 6 ([{ epoch := 1, op := .write 0 0 }].flatMap mirNats)
  obtain ⟨m7, t7, h7, a7, b7, c7, d7⟩ := test_take .standby 7 ((0 : SliceId).val :: [].flatMap macNats)
  obtain ⟨n7, u7, i7, a7', _⟩ := test_take .alone 7 ((0 : SliceId).val :: [].flatMap macNats)
  obtain ⟨m8, t8, h8, a8, b8, c8, d8⟩ := test_take .standby 8 [(0 : BitVec 64).toNat]
  obtain ⟨n8, u8, i8, a8', _⟩ := test_take .alone 8 [(0 : BitVec 64).toNat]
  obtain ⟨m9, t9, h9, a9, b9, c9, d9⟩ := test_take .syncing 9 ([.cut 0].flatMap capNats)
  refine ⟨⟨m, t, h, st t a, by omega⟩, ⟨n, u, i, no u a'⟩, ⟨m7, t7, h7, st t7 a7, by simp [epochOf, b7, c7]⟩, ⟨n7, u7, i7, no u7 a7'⟩,
    ⟨m8, t8, h8, st t8 a8⟩, ⟨n8, u8, i8, no u8 a8'⟩, ⟨m9, t9, h9, a9⟩, ?_⟩
  refine ⟨⟨0, 0, 0, 0 :: (partnerTag (tTwin .standby) 10 ⟨0, 0, 0, []⟩ [0])⟩, fun hh => ?_⟩
  exact absurd (congrArg List.length hh) (by
    show ((0 : Byte) :: partnerTag (tTwin .standby) 10 ⟨0, 0, 0, []⟩ [0]).length ≠ (partnerTag (tTwin .standby) 10 ⟨0, 0, 0, []⟩ [0]).length
    simp)
theorem test_witness_hello : (∀ q : TwinState, twinLinkUp (tTwin q) = true ∧ (tTwin q).glb.halted = false ∧ (tTwin q).twin.keyed = true) ∧
    (tHello .syncing).twinState = .syncing ∧ (tHello .start).twinState = .start ∧ (linkNode (tTwin .alone)).isSome = true ∧
    linkNode { tTwin .alone with ktr := {} } = none := by
  refine ⟨?_, by decide +kernel⟩
  intro q; cases q <;> decide +kernel
theorem test_witness_sends :
    (let st := modTwin (tTwinAt 1000000 .start id) (fun t => { t with keyed := false })
     st.twin.state ≠ .off ∧ st.glb.halted = false ∧ st.twin.keyed = false ∧ twinLinkUp st = true ∧ st.twin.rand ≠ [] ∧
     st.twin.lastHello + 1000000 ≤ elNs st) ∧
    elNs (tTwinAt 999999 .start id) < (tTwinAt 999999 .start id).twin.lastHello + 1000000 ∧
    (let st := tTwinAt 1000 .active (fun t => { t with stream := [.cut 0] })
     st.glb.halted = false ∧ st.twin.keyed = true ∧ st.twin.lastHbSent + 1000 ≤ elNs st ∧ st.twin.lastTime + 1000 ≤ elNs st ∧
     st.twin.lastAck + 1000 ≤ elNs st ∧ st.twin.stream.take 1 ≠ [] ∧ st.twin.streaming = false) ∧
    (let st := tTwinAt 1000 .alone (fun t => { t with stream := [.cut 0], streaming := true })
     st.twin.streaming = true ∧ st.twin.stream.drop 1 = [] ∧ st.twin.cutEpoch = none ∧ st.twin.stream.drop 0 ≠ []) ∧
    elNs (tTwinAt 999 .active id) < (tTwinAt 999 .active id).twin.lastHbSent + 1000 ∧
    elNs (tTwinAt 999 .active id) < (tTwinAt 999 .active id).twin.lastTime + 1000 ∧
    elNs (tTwinAt 999 .active id) < (tTwinAt 999 .active id).twin.lastAck + 1000 := by decide +kernel
theorem test_witness_once : (∀ x ∈ (tTwin .standby).twin.missing, x.1 ≤ (tTwin .standby).twin.rxSeq) ∧
    ∃ m st1, takeMsg 2 m [] (tTwin .standby) = (true, st1) :=
  have ⟨m, t, h, _⟩ := test_take .standby 2 []
  ⟨by decide +kernel, m, t, h⟩

/-! 13: instances. -/

/-- Instance 1 in a state, with a WRAP node at index 0. -/
def tInst (q : InstState) (f : InstSt → InstSt) : State :=
  modInst { tRun with ktr := { nodes := [(0, { tNode 4 4 with owner := 1, key := List.replicate 16 1 })] } } 1 (fun x => f { x with state := q })
theorem test_witness_mailbox : hasVf tRun 1 = true ∧ hasVf tRun 3 = true ∧ hasVf tRun 0 = false ∧ hasVf tRun 4 = false ∧ tRun.glb.halted = false ∧
    cmdOpen tRun Reg.vimMbxCmd = true ∧ (inst tRun 1).state = .disabled ∧ (inst tRun 1).pending = false ∧
    (inst (tInst .enabled id) 1).state ≠ .disabled ∧ (inst (tInst .enabled id) 1).pending = false ∧
    (inst (tInst .frozen (fun x => { x with pending := true })) 1).pending = true ∧
    cmdOpen (tInst .frozen (fun x => { x with pending := true })) Reg.vimMbxCmd = true := by decide +kernel
theorem test_mailbox : after (.doorbell 1) (tInst .enabled id) (fun t => (inst t 1).pending) = some true ∧
    after (.doorbell 1) (tInst .enabled (fun x => { x with pending := true })) (fun t => (inst t 1).overrun) = some true := by decide +kernel

/-- Instance 1 has tributary 5 of lane 0, in a standby page. -/
def tInPage : State :=
  modCtf (tInst .quiesced id) 0 (fun c => { c with trib := [(5, { inst := 1 })], tx := c.tx.set 0 { standby := [(0, 5)] } })
theorem test_witness_instances : instExists tRun 1 = true ∧ instExists tRun 3 = true ∧ cmdOpen (tInst .disabled id) Reg.vimCmd = true ∧
    cmdOpen (tInst .enabled id) Reg.vimCmd = true ∧ cmdOpen (tInst .quiescing id) Reg.vimCmd = true ∧
    cmdOpen (tInst .quiesced id) Reg.vimCmd = true ∧ cmdOpen (tInst .frozen id) Reg.vimCmd = true ∧
    (inst (tInst .quiesced id) 1).state = .quiesced ∧ tribInPage (tInst .quiesced id) 1 = false ∧ tribInPage tInPage 1 = true ∧
    (inst tInPage 1).state = .quiesced ∧ cmdOpen tInPage Reg.vimCmd = true ∧
    (inst (tInst .quiescing id) 1).flrPend = false ∧ instFrames (tInst .quiescing id) 1 = 0 ∧
    (inst (tInst .quiescing id) 1).quiesceUntil ≤ elNs (tInst .quiescing id) ∧
    (let st := tInst .quiescing (fun x => { x with flrPend := true, quiesceUntil := 1 })
     (inst st 1).flrPend = true ∧ instFrames st 1 = 0 ∧ elNs st < (inst st 1).quiesceUntil ∧
     tribInPage (raise (modInst st 1 (fun x => { x with state := .quiesced, flrPend := false })) { block := 4, index := 2, ps := [1] }) 1 = false) ∧
    (let st := modSl (tInst .quiescing id) 0 (fun x => { x with engine := [{ tVer 0 with inst := 1 }] })
     instFrames st 1 ≠ 0 ∧ (inst (countN (instDiscard st 1) (Reg.vimCnt 3) (instFrames st 1)) 1).flrPend = false) := by decide +kernel
/-- QUIESCED is left by ENABLE and FREEZE, ENABLED is not left by FREEZE. -/
theorem test_instances : after (.freeze 1) (tInst .quiesced id) (fun t => (inst t 1).state) = some .frozen ∧
    after (.freeze 1) (tInst .enabled id) (fun t => (inst t 1).state) = some .enabled := by decide +kernel

/-- SHARE_WRITE of the largest shares that instance 0 leaves: none but a weight. -/
def tShare : State := wr tRun Reg.vimShare0 (putF 0 Fld.vimShare_WEIGHT 1)
theorem test_witness_shares : cmdOpen tShare Reg.vimCmd = true ∧ instExists tShare 1 = true ∧ (inst tShare 1).state ≠ .quiescing ∧
    (inst tShare 1).state ≠ .frozen ∧ sliceEnabled tShare 3 = true ∧ (shareAsked tShare).weight ≠ 0 ∧
    sharesFit tShare 3 1 (shareAsked tShare) (calendarAsked tShare) = true ∧
    (let st := wr (tInst .frozen id) Reg.vimCapLen 0xFFFFFFFF
     cmdOpen st Reg.vimCmd = true ∧ (wrapNode st 1).isSome = true ∧ ((wrapNode st 1).all (fun n => !n.bad)) = true ∧
     (∀ r : SliceId, instTribs st r 1 = []) ∧ capLen (capSections (capRecs st 1 [])) ≤ (rd st Reg.vimCapLen).toNat) ∧
    hasVf tInPage 1 = true ∧ tribInPage (flrRings tInPage 1) 1 = true ∧ tribInPage (flrRings (tInst .quiesced id) 1) 1 = false ∧
    hasVf (tInst .enabled id) 1 = true ∧ (tInst .enabled id).glb.halted = false := by decide +kernel

/-- The smallest capsule: a header and the section that closes it. -/
def tCapsule : Bytes :=
  capHead (tInst .disabled id) 2 9 (List.replicate 3 0) (List.replicate 32 7) [(10, 0, [])] ++ beBytes 16 0x407EC5A8611F9BFD0E0EAFC7CB7245C0 ++
    leBytes 2 10 ++ List.replicate 14 0 ++ beBytes 16 0x482F42438C3516E00CCEA08A824B297E
theorem test_witness_restore :
    let st := wr (tInst .disabled id) Reg.vimCapLen 160
    cmdOpen st Reg.vimCmd = true ∧ (inst st 1).state = .disabled ∧ (node? st (capNodeIx st)).all (fun n => !n.bad) = true ∧
    (restoreCheck { st with capBytes := [] } 1 []).toOption = none ∧
    ((restoreCheck { st with capBytes := [] } 1 tCapsule).toOption.map (fun p => p.2)) = some [] := by decide +kernel

/-- A capsule of one CHANNELS and one SLOTS record: channel 2 of slice 0 with its slot 0 LOADED. -/
def tSavedCap : Bytes :=
  capHead (tInst .disabled id) 1 0 (List.replicate 4 0) (List.replicate 32 7) [(3, 1, List.replicate 48 0), (4, 1, List.replicate 96 0), (10, 0, [])] ++
    beBytes 96 0x0F787446C5F4BA73E066D652992D925A030001000000300000000000000000003177B38B4BE38CB22AF79A566233C4AFC297AF147EADF00F5C194C178F51ABB11D4324B6F9D985382C940C1B7F474EACA5A528BD9E6506ED560A7087F44D6704 ++
    beBytes 96 0x04000100000060000000000000000000B0009BA3F3D696446A9E7A547999CF4D5CE6700A54AAB52F20C438882CDD293556E8BFE366245B561C17318555EDBA7B77BF5A7D4569BAB479D1D1D2CC541178723C30DCA77392C3284B60926B8A3A8A ++
    beBytes 64 0xBB6E7143659FF1788B093F856799DFEA727B3012D411D8248476204651277FDE0A0000000000000000000000000000001172689C63464E2D7ACC500E3648CB96
/-- Instance 1 DISABLED with shares for it. -/
def tTarget : State :=
  wr (tInst .disabled (fun x => { x with shares := Vector.replicate 4 { cells := 100, assocs := 4, channels := 4, rules := 4, weight := 1 } }))
    Reg.vimCapLen 368
/-- Its capsule key and records. -/
def tSavedKey : Bytes := beBytes 32 0xB49F50609EC7D219A8FD3A5777E612E18E63A30F1ABC5F9D82F1803A90C5F6BA
def tSavedSlot : Bytes :=
  padTo 96 (beBytes 44 0x0004020000000000000000000000000000000000010000000000000000000000000000000000000000000000 ++
    beBytes 40 0x49AEBB72DB6881AC88CDBE952B43078C4DB4DD3066C8F57A63DFAFCF2533A600D65AEAA4A4C60C1C)
def tSavedRecs : List (Nat × Nat × Bytes) := [(1, 3, padTo 48 (beBytes 9 0x000002000100008000)), (2, 4, tSavedSlot)]
theorem test_witness_restore_check : cmdOpen tTarget Reg.vimCmd = true ∧ (inst tTarget 1).state = .disabled ∧
    (node? tTarget (capNodeIx tTarget)).all (fun n => !n.bad) = true ∧
    (restoreCheck { tTarget with capBytes := [] } 1 tSavedCap).toOption = some (tSavedKey, tSavedRecs) := by decide +kernel
/-- The start rule admits the slot of the capsule. -/
theorem test_witness_restore_slots :
    (restoreSlots 1 tSavedKey tSavedRecs ((tSavedRecs.filter (fun p => p.2.1 == 4)).map (fun p => (p.1, p.2.2)))
      (capStage { tTarget with capBytes := [] } tSavedCap)).toOption.isSome = true := by decide +kernel

/-! 14: external memory. -/

/-- Data line 0 written under counter 1, its tag as given, its counter in the cache; a zero byte waits for line 1. -/
def tMee (tag : Bytes) : State :=
  { tRun with mee := { trained := true, ready := true, cache := [(nodeLine tRun 1 0, { ctrs := 1 :: List.replicate 7 0 })]
                       wb := [(1, { bytes := List.replicate 64 0, mask := 1 })]
                       dram := [(0, List.replicate 64 5), (tagLine tRun 0, padTo 64 tag)] } }
/-- The tag of that line. -/
def tTag : Bytes := dataTag (tMee []) 0 1 (List.replicate 64 5)

theorem test_witness_memory :
    (let st := { tRun with mee := {} }
     st.mee.trained = false ∧ st.glb.halted = false ∧ booted st = true ∧ (∀ j : Fin 4, st.mee.tries[j] < 3)) ∧
    (tMee []).mee.trained = true ∧ (tMee []).mee.retrainAt ≤ elNs (tMee []) ∧
    (let st := { tRun with mee := { tries := Vector.replicate 4 3 } }
     st.mee.trained = false ∧ booted st = true ∧
     (List.range 4).filter (fun i => decide (3 < (st.mee.tries.mapFinIdx (fun i n _ => if (8 : BitVec 4).getLsbD i then n + 1 else n)).toList.getD i 0)) ≠ []) ∧
    elNs { tRun with mee := { trained := true, retrainAt := 1 } } < 1 ∧
    { tRun.img.content with dramRanks := true }.dramRanks = true ∧
    (tMee []).mee.ready = true ∧ (tMee []).glb.halted = false ∧ lineKind (tMee []) 0 = .data 0 ∧ lineKind (tMee []) 100663295 = .data 100663295 ∧
    lineKind tRun 0 = .data 0 ∧ ((fetchCtr tRun 0 0).toOption.map (fun t => ctrOf t 0 0)) = some 0 ∧
    lineKind (tMee []) 1 = .data 1 ∧ (tMee []).mee.wb.get? 1 = some { bytes := List.replicate 64 0, mask := 1 } ∧ mayWrite (tMee []) 1 = true ∧
    mayWrite (tMee []) (tagLine (tMee []) 1) = true ∧
    (writeData (tMee []) 1 { bytes := List.replicate 64 0, mask := 1 }).toOption.isSome = true ∧ (tMee []).mee.wb.get? 0 = none ∧
    (let st := tSet (tMee []) Reg.drcCtl (putF 0 Fld.drcCtl_PATROL_EN 1)
     flagA st Reg.drcCtl Fld.drcCtl_PATROL_EN = true ∧ st.mee.dram.has 0 = true ∧ st.mee.ready = true ∧ lineKind st 0 = .data 0 ∧
     (fetchCtr st 0 0).toOption.isSome = true) := by decide +kernel

theorem test_gf_zero (n : Nat) : gfMulPow n 0#4 = 0#4 := by
  induction n with
  | zero => rfl
  | succ n ih => exact ih
theorem test_syndrome (b : Nat) : syndrome b (fun _ => 0#4) = 0 := by
  have h (l : List Nat) : l.foldl (fun s i => s ^^^ gfMulPow (i * b % 15) 0#4) 0#4 = 0#4 := by
    induction l with
    | nil => rfl
    | cons a l ih => simpa [test_gf_zero] using ih
  exact h _
/-- A burst without an error passes, whatever the code's first root is. -/
theorem test_burst (st : State) (p : Nat) (rank patrol : Bool) : ∃ b, readBurst st p rank patrol [] = .ok (b, st) := by
  have e (t : Nat) : decodeBeat (beatErr [] t) = some none := by
    show decodeBeat (fun _ => 0#4) = some none
    simp [decodeBeat, test_syndrome]
  have h (l : List Nat) (bs : Bytes) : ∃ c, l.foldl (fun r t =>
      match r, decodeBeat (beatErr [] t) with
      | some (bs, ps), some none => some (bs ++ xorBytes (sub (dramLine st p) (4 * t) 4) (errBytes (beatErr [] t)), ps)
      | some (bs, ps), some (some (i, c)) =>
        let e : Nat → BitVec 4 := fun j => if j = i then beatErr [] t j ^^^ c else beatErr [] t j
        some (bs ++ xorBytes (sub (dramLine st p) (4 * t) 4) (errBytes e), ps ++ [i])
      | _, _ => none) (some (bs, [])) = some (c, ([] : List Nat)) := by
    induction l generalizing bs with
    | nil => exact ⟨bs, rfl⟩
    | cons a l ih => rw [List.foldl_cons, e a]; exact ih _
  obtain ⟨c, hc⟩ := h (List.range 16) []
  have d : decodeLine (dramLine st p) [] = some (c, []) := hc
  exact ⟨c, by unfold readBurst; rw [d]; simp⟩
/-- Two wrong symbols of beat 0 whose first syndrome is 0 for the root `b`. -/
def tTwo (b : Nat) : List BeatErr := [⟨0, 0, gfMulPow b 1⟩, ⟨0, 1, 1⟩]
theorem test_two : ∀ b : Fin 15, syndrome b.val (beatErr (tTwo b.val) 0) = 0 ∧ syndrome (b.val + 1) (beatErr (tTwo b.val) 0) ≠ 0 := by
  decide +kernel
/-- A beat with them is uncorrectable, and so is its burst. -/
theorem test_uncorrectable (st : State) (p : Nat) (rank patrol : Bool) :
    readBurst st p rank patrol (tTwo (Config.rsRoot % 15)) = .error (ueCause st p, p) := by
  have h := test_two ⟨Config.rsRoot % 15, Nat.mod_lt _ (by decide)⟩
  have d : decodeBeat (beatErr (tTwo (Config.rsRoot % 15)) 0) = none := by
    unfold decodeBeat
    simp only [h.1, h.2, and_false, if_false, if_true]
    split <;> rfl
  have k : decodeLine (dramLine st p) (tTwo (Config.rsRoot % 15)) = none := by
    unfold decodeLine
    rw [show List.range 16 = 0 :: List.range' 1 15 from by decide, List.foldl_cons, d]
    generalize List.range' 1 15 = l
    induction l with
    | nil => rfl
    | cons a l ih => simpa using ih
  unfold readBurst
  rw [k]
theorem test_fetch (st : State) (a : ¬ 0 = meeLevels st) (b : st.mee.cache.has (nodeLine st 1 0) = true) : fetchCtr st 0 0 = .ok st := by
  simp [fetchCtr, fetchNode, a, b]
theorem test_witness_reads : fetchCtr (tMee tTag) 0 0 = .ok (tMee tTag) ∧ ctrOf (tMee tTag) 0 0 ≠ 0 ∧
    (openData (tMee tTag) 0 (List.replicate 64 5)).toOption.isSome = true ∧
    (openData (tMee []) 0 (List.replicate 64 5)).toOption = none ∧ (∃ b, readBurst (tMee tTag) 0 false false [] = .ok (b, tMee tTag)) :=
  ⟨test_fetch _ (by decide +kernel) (by decide +kernel), by decide +kernel, by decide +kernel, by decide +kernel, test_burst _ _ _ _⟩

/-- A counter node whose bytes do not verify under its parent's counter 1. -/
theorem test_witness_no_counter :
    let st := { tRun with mee := { trained := true, ready := true, cache := [(nodeLine tRun 2 0, { ctrs := 1 :: List.replicate 7 0 })] } }
    st.mee.ready = true ∧ lineKind st 0 = .data 0 ∧ (fetchCtr st 0 0).toOption = none := by decide +kernel
theorem test_witness_symbol : 0 < 10 ∧ 9 < 10 ∧ (1 : BitVec 4) ≠ 0 ∧ (15 : BitVec 4) ≠ 0 := by decide

theorem test_witness_archive :
    let st0 := tChan { valid := true } (tSlot .loaded)
    let ld0 := { tChan { valid := true } {} with mee := { tRun.mee with arc := [(1048575, ⟨0, false, 0, List.replicate 32 1, 0, 0, 1⟩)] } }
    let met (st : State) : State :=
      slotCheck (boundary (wr st Reg.meeArcSel (word [(Fld.meeArcSel_SLICE, 0), (Fld.meeArcSel_AN, 0), (Fld.meeArcSel_CHANNEL, 1)])) 0 1 none) 0 1 0
    let st := met st0
    let ld := met ld0
    st0.mee.ready = true ∧ cmdOpen st0 Reg.meeArcCmd = true ∧ atOnce st0 Reg.meeArcSel = true ∧ sliceEnabled st0 0 = true ∧
    ld0.mee.ready = true ∧ cmdOpen ld0 Reg.meeArcCmd = true ∧ atOnce ld0 Reg.meeArcSel = true ∧ sliceEnabled ld0 0 = true ∧
    (ld0.mee.arc.get? 1048575).isSome = true ∧ st0.mee.arc.get? 5 = none ∧
    st.mee.ready = true ∧ cmdOpen st Reg.meeArcCmd = true ∧ atOnce st Reg.meeArcSel = true ∧ sliceEnabled st 0 = true ∧
    (∀ a, (slotOf st 0 1 a).due = none) ∧ (chOf st 0 1).pend = [] ∧ instRefusal st (chOf st 0 1).inst = 0 ∧
    (slotOf st 0 1 0).state = .loaded ∧ (slotOf st 0 1 0).keySrc = false ∧ st.mee.arc.has 0 = false ∧ st.mee.arc.get? 1048575 = none ∧
    ld.mee.ready = true ∧ cmdOpen ld Reg.meeArcCmd = true ∧ atOnce ld Reg.meeArcSel = true ∧ sliceEnabled ld 0 = true ∧
    (∀ a, (slotOf ld 0 1 a).due = none) ∧ (chOf ld 0 1).pend = [] ∧ ld.mee.arc.has 1048575 = true ∧ (chOf ld 0 1).valid = true ∧
    (chOf ld 0 1).eccFail = false ∧ (slotOf ld 0 1 0).state = .empty ∧ (chOf ld 0 1).epochMode = false ∧
    assocsOf ld 0 0 < (inst ld 0).shares[(0 : Fin 4)].assocs ∧ (chOf ld 0 1).dirRx = false ∧ (chOf ld 0 1).suite = 0 ∧ (chOf ld 0 1).inst = 0 := by
  decide +kernel
theorem test_witness_scrub : tRun.glb.halted = false ∧ sliceOn tRun 0 = true ∧ sliceOn tRun 3 = true ∧
    (modGlb tRun (fun g => { g with halted := true })).glb.halted = true ∧
    sliceOn { tRun with img := { tRun.img with sl := Vector.replicate 4 .off } } 0 = false ∧ codeOfSlice 1 = true := by decide +kernel

/-! 15: tamper sources and the evidence log. -/

/-- Sources 0 and 8 are watched; `f` sets the unit. -/
def tTmp (f : TmpSt → TmpSt) : State :=
  { tRun with img := { tRun.img with content := { tRun.img.content with caseEn := 1, loopEn := 1 } }, tmp := f tRun.tmp }
theorem test_witness_tamper : (tTmp id).glb.holdup = false ∧ tmpWatched (tTmp id) 0 = true ∧ tmpWatched (tTmp id) 8 = true ∧
    tmpWatched (tTmp id) 29 = true ∧ tmpWatched (tTmp id) 1 = false ∧ tmpWatched (tTmp id) 23 = false ∧
    (tTmp id).tmp.src[(0 : Fin 30)].present = false ∧ (tTmp id).tmp.src[(29 : Fin 30)].present = false ∧
    atOnce (tTmp id) Reg.tmpCmd = true ∧ (tTmp id).tmp.locked = false ∧ (tTmp id).tmp.squelched = false ∧
    atOnce (tTmp (fun t => { t with locked := true, squelched := true })) Reg.tmpCmd = true ∧
    (let st := tTmp (fun t => { t with squelched := true, src := t.src.set 29 { present := true, squelching := true } })
     atOnce st Reg.tmpCmd = true ∧ st.tmp.squelched = true ∧ st.tmp.src[(29 : Fin 30)].squelching = true ∧ st.tmp.src[(29 : Fin 30)].present = true) ∧
    (∀ n : Fin 30, (tTmp (fun t => { t with squelched := true })).tmp.src[n].squelching = true →
      (tTmp (fun t => { t with squelched := true })).tmp.src[n].present = false) ∧
    atOnce (tTmp id) (respReg true) = true ∧ atOnce (tTmp id) (respReg false) = true ∧ booted (tTmp id) = true ∧
    (tTmp (fun t => { t with checked := false })).tmp.checked = false := by decide +kernel
theorem test_witness_monitor :
    let st := tEl 10000000 (tTmp (fun t => { t with src := t.src.set 8 { alone := some (1, 0) } }))
    detsDisagree st 8 1 = true ∧ st.glb.holdup = false ∧ st.tmp.src[(29 : Fin 30)].present = false ∧ (8 : Fin 30) ≠ 29 ∧
    detsDisagree { st with tsu := { st.tsu with elapsed := BitVec.ofNat 96 (9999999 * 2 ^ 32) } } 8 1 = false ∧
    (tTmp (fun t => { t with src := t.src.set 0 { present := true } })).tmp.src[(0 : Fin 30)].present = true := by decide +kernel
theorem test_witness_startup_check :
    fins30.filter (causeAt (modTmp (tTmp (fun t => { t with checked := false })) (fun t => { t with checked := true })) 0 (Vector.replicate 16 0)) = [] := by
  decide +kernel
/-- A trip with response HALT stops the device, and one with RECORD does not. -/
theorem test_trip : after (.tamperTrip [(0, 0)]) (tTmp (fun t => { t with resp := t.resp.set 0 2 })) (fun t => t.glb.halted) = some true ∧
    after (.tamperTrip [(0, 0)]) (tTmp id) (fun t => (t.glb.halted, t.tmp.src[(0 : Fin 30)].present)) = some (false, true) := by decide +kernel

/-- One record of a source waits, at a position of the log. -/
def tLog (source : Fin 256) (head : Nat) : State :=
  { tRun with evl := { ready := true, head := head, queue := [{ bootNs := 0, tsuNs := 0, source := source, flags := 0, groupSize := 1, groupIndex := 0, detail := padTo 24 [] }] } }
theorem test_witness_log : (tLog 29 65535).evl.queue ≠ [] ∧ (tLog 29 65535).glb.holdup = false ∧ (tLog 29 65535).evl.ready = true ∧
    (tLog 29 65535).evl.head < 65536 ∧ (29 : Fin 256).val < 30 ∧ 30 ≤ (30 : Fin 256).val ∧ (tLog 29 65535).evl.tries = 0 ∧
    ({ tRun with evl := {} } : State).evl.ready = false ∧
    (∀ c ∈ ({ tRun with evl := {} } : State).mram, ¬ (logBase ≤ c.1 ∧ c.1 < logBase + 64 * logSize)) ∧
    cmdOpen (tLog 40 65535) Reg.evlCmd = true ∧ (65534 : BitVec 16).toNat < (tLog 40 65535).evl.head ∧
    (tLog 29 65535).evl.queue.all (fun r => logWrites (tLog 29 65535) r) = true ∧
    (let st := tLog 29 65534
     (1 : Nat) % 2 = 1 ∧ st.evl.head + 1 < 65536) ∧
    (tLog 29 65536).evl.queue.all (fun r => !logWrites (tLog 29 65536) r) = true ∧ tRun.evl.queue = [] ∧
    (modGlb (tLog 40 65535) (fun g => { g with halted := true })).glb.halted = true ∧
    fld (modGlb (tLog 40 65535) (fun g => { g with halted := true })) Reg.evlCmd busyF = 0 ∧
    logFull (tLog 40 65536) = true ∧ cmdOpen (tLog 40 65536) Reg.evlCmd = true ∧
    (tLog 40 65535).evl.head ≤ (65535 : BitVec 16).toNat ∧ logFull (tLog 40 65535) = false := by decide +kernel

theorem test_witness_alarms : strongest [{ n := 0, resp := 2, items := [] }] = 2 ∧
    strongest [{ n := 0, resp := 0, items := [] }, { n := 29, resp := 3, items := [] }] = 3 ∧
    strongest [{ n := 0, resp := 1, items := [] }] = 1 ∧ tRun.glb.halted = false ∧ tRun.glb.holdup = false ∧ tRun.tmp.squelched = false := by
  decide +kernel
theorem test_witness_zeroise : (tTmp (fun t => { t with zeroising := true })).tmp.zeroising = true ∧
    (tTmp (fun t => { t with zeroisePend := some 0 })).tmp.zeroising = false ∧
    elNs (tTmp (fun t => { t with zeroisePend := some 0 })) < 0 + 11000 ∧ tRun.tmp.zeroisePend = none := by decide +kernel
/-- Clearing leaves a slot's key at zero. -/
theorem test_zeroise : after .zeroiseDone { tChan { valid := true } { tSlot .active with key := List.replicate 32 1 } with tmp := { zeroising := true } }
    (fun t => ((slotOf t 0 1 0).key, t.glb.zeroised)) = some (List.replicate 32 0, true) := by decide +kernel

/-! 16: images, sources, slices, resets. -/

/-- A public key, and the signatures of the two images below under it. -/
def tKey : Bytes := beBytes 96
  0x7AE9E1DB1160794C70C1EF071BE5191F6C66240F4608FBE8A44ECD36C3ED5DB97500F2E4D84E3FB45850FD6F4303302BD8AC21444CD80D241538D8034B399A0DEE3636EB5CB00B9499D061A571DB0F14BB47ED79453948ED63F3A6CCBBF6E74F
def tSigFull : Bytes := beBytes 96
  0xA7AFE1C38A1F596B9391BFD0BAAF73DD7472B5A18A4E219A289EA20D6DC7072C7C9FFE6FD0C84D0AF6A004529213A4F535528D717548B3EE3CF3242E3A0C8C038E386741EE4EF312BDF9A05EE194DBEC905DD9C899B3B853269F5ACD65B879AA
def tSigPart : Bytes := beBytes 96
  0xA7AFE1C38A1F596B9391BFD0BAAF73DD7472B5A18A4E219A289EA20D6DC7072C7C9FFE6FD0C84D0AF6A004529213A4F5778AEF30DD5FD045B1893E8377C90996ECAD7CA5A7FB3CAB7CEA1C95E3FA79F233186DC7D788F26C761A1754CC6D06A5
/-- What is signed of an image with empty sections of these types: KIND, the slice that a partial image names, and the body. -/
def tBody (kind b13 : Byte) (types : List Nat) : Bytes :=
  [0x41, 0x53, 0x56, 0x53, 1, 0, kind, 0] ++ leBytes 4 (352 + 8 * types.length) ++ [0, b13] ++ List.replicate 54 0 ++ tKey ++
    List.replicate 92 0 ++ types.flatMap (fun x => leBytes 2 x ++ List.replicate 6 0)
def tFull : ImageSrc := { present := true, bytes := tBody 0 0 [1, 2, 2, 2, 2, 3, 6] ++ tSigFull }
def tPart : ImageSrc := { present := true, bytes := tBody 1 1 [2, 6] ++ tSigPart }
/-- The key's hash stands in the fuses; MRAM slot A holds the image `x`. -/
def tBoot (x : ImageSrc) (f : ImgSt → ImgSt) (st : State) : State :=
  { st with fuses := { st.fuses with keys := st.fuses.keys.set 0 { hash := sha384 tKey, programmed := true } }
            sources := st.sources.set 0 x, img := f st.img }

/-- A signed image with a changed bit fails with code 5, and one whose key is not fused with code 3. -/
theorem test_check : checkImage (tBoot {} id State.reset) { tFull with bytes := tFull.bytes.set 12 1 } none = 5 ∧
    checkImage State.reset tFull none = 3 := by decide +kernel

theorem test_witness_resets : Memory.wf tRun.mram = true ∧ resetting tRun = false ∧ resetting State.reset = true ∧ (0xD0 : Byte) ≠ 0xD1 := by
  decide +kernel
theorem test_witness_sources : State.reset.img.state = .loading ∧ State.reset.glb.halted = false ∧ nextSource (tBoot tFull id State.reset) = some (0, 0) ∧
    checkImage (tBoot tFull id State.reset) (tBoot tFull id State.reset).sources[(0 : Fin 3)] none = 1 ∧
    checkImage State.reset State.reset.sources[(0 : Fin 3)] none = 2 ∧
    nextSource { State.reset with img := { res := (Vector.replicate 4 0).set 0 2 |>.set 1 2 } } = some (2, 2) ∧
    State.reset.img.res.toList.getD 0 0 = 0 ∧ tRun.img.state ≠ .loading ∧
    (let st := { tRun with img := { tRun.img with state := .verified } }
     st.img.state = .verified ∧ st.mee.trained = true ∧ st.jnl.ready = true ∧ st.glb.halted = false) := by decide +kernel
theorem test_witness_signed : after .imageSourceTry (tBoot tFull id State.reset) (fun t => decide (t.img.state = .verified)) = some true := by
  decide +kernel

/-- IMG_LEN as the images need it. -/
def tImg (q : ImgState) (n : Nat := 408) : State := wr (tBoot {} (fun i => { i with state := q }) tRun) Reg.imgLen (BitVec.ofNat 32 n)
theorem test_witness_image_commands : (tImg .noImage).img.state = .noImage ∧ (tImg .noImage).glb.halted = false ∧
    fld (tImg .noImage) Reg.imgCmd busyF = 0 ∧ imgBadParam (withImage false tFull (tImg .noImage)) 0 = false ∧
    checkImage (withImage false tFull (tImg .noImage)) (hostImage (withImage false tFull (tImg .noImage)) false) none = 1 ∧
    checkImage (withImage false {} (tImg .noImage)) (hostImage (withImage false {} (tImg .noImage)) false) none = 2 ∧
    booted (tImg .noImage) = false ∧ cmdOpen (tImg .running) Reg.imgCmd = true ∧ (tImg .running).img.source.val = b2n false ∧
    (tImg .running).img.source.val ≠ b2n true ∧ imgBadParam (withImage false tFull (tImg .running)) 0 = false ∧
    (tImg .running).img.keyIndex = 0 ∧
    (let st := { tImg .running with fuses := { (tImg .running).fuses with keys := Vector.replicate 4 { programmed := true } } }
     cmdOpen st Reg.imgCmd = true ∧ (decide ((3 : Fin 4) = st.img.keyIndex) ||
      !(upd st.fuses.keys 3 (fun x => { x with revoked := true })).toList.any (fun x => x.programmed && !x.revoked)) = false) := by decide +kernel

theorem test_witness_download : after (.download tFull) (tImg .noImage) (fun t => decide (t.img.state = .verified)) = some true := by decide +kernel

/-- Slice 0 in a state. -/
def tSl (q : SliceState) : State := let st := tImg .running 368; { st with img := { st.img with sl := st.img.sl.set 0 q } }
theorem test_witness_slices : cmdOpen (tSl .running) Reg.imgSliceCmd = true ∧ cmdOpen (tSl .draining) Reg.imgSliceCmd = true ∧
    cmdOpen (tSl .drained) Reg.imgSliceCmd = true ∧ cmdOpen (tSl .off) Reg.imgSliceCmd = true ∧ framesIn (sl (tSl .draining) 0) = 0 ∧
    (∀ f ∈ (tSl .draining).saf, f.s ≠ 0) ∧ (tSl .draining).img.drainUntil[(0 : Fin 4)] ≤ elNs (tSl .draining) ∧
    imgBadParam (withImage true tPart (tSl .drained)) 1 = false ∧ imgBadParam (withImage true tPart (tSl .draining)) 1 = false ∧
    (let st := { tSl .off with img := { (tSl .off).img with checking := some (0, tPart) } }
     st.img.checking = some (0, tPart) ∧ checkImage st tPart (some 0) = 1 ∧ checkImage st tPart (some 1) = 2) ∧
    (tSl .loading).img.loadUntil[(0 : Fin 4)] ≤ elNs (tSl .loading) ∧ imgBadParam (withImage true {} (wr (tSl .drained) Reg.imgLen 0)) 1 = true ∧
    imgBadParam (withImage true tPart (tSl .running)) 1 = false ∧
    (let st := modLane { tSl .loading with img := { (tSl .loading).img with loadUntil := Vector.replicate 4 1 } } (.lane .line 0 3) (fun x => { x with stage := .cdr })
     (portCfg st .line 0 3).enabled = true ∧ portUp st .line 0 3 = false ∧ elNs st < st.img.loadUntil[(0 : Fin 4)]) := by decide +kernel
/-- DRAIN stops a RUNNING slice alone. -/
theorem test_drain : after (.drain 0 false) (tSl .running) (fun t => t.img.sl[(0 : Fin 4)]) = some .draining ∧
    after (.drain 0 false) (tSl .drained) (fun t => t.img.sl[(0 : Fin 4)]) = some .drained := by decide +kernel

/-! 17: power, resets of a port, hold-up. -/

/-- Slice 0's loop, and its protect pool. -/
def tAvs (f : AvsSt → AvsSt) : State := modAvs tRun 0 f
def tPool (p : PoolSt) : State := modPool tMs 0 .client (fun _ => p)
theorem test_witness_power : tRun.img.sl[(0 : Fin 4)] = .running ∧ tRun.glb.halted = false ∧ avsHeld tRun 0 = false ∧
    avsNext tRun 0 31 = (tRun.avs[(0 : Fin 4)]).requested.toNat - 5 ∧ avsNext tRun 0 0 ≠ (tRun.avs[(0 : Fin 4)]).requested.toNat ∧
    avsNext tRun 0 (avsCfg tRun 0 Fld.pwrAvsCfg_SLACK_LO) = (tRun.avs[(0 : Fin 4)]).requested.toNat ∧
    avsHeld (tAvs (fun a => { a with emergUntil := some 0 })) 0 = true ∧
    ((tAvs (fun a => { a with emergUntil := some 0, failUntil := some 0 })).avs[(0 : Fin 4)]).failUntil = some 0 ∧
    avsCfg (tSet tRun (Reg.pwrAvsCfg 0) (putF 0 Fld.pwrAvsCfg_FRZ 1)) 0 Fld.pwrAvsCfg_FRZ ≠ 0 ∧ avsCfg tRun 0 Fld.pwrAvsCfg_FRZ = 0 ∧
    (tRun.avs[(0 : Fin 4)]).failUntil = none ∧ elNs tRun < 1 ∧
    engShort (tPool {}) 0 .client = true ∧ engShort (tPool { inPool := 2 }) 0 .client = false ∧
    engShort (tPool { inPool := 10, lowSince := some 0 }) 0 .client = false ∧
    engFrozen (tSet (tPool { inPool := 2 }) (Reg.pwrEngCtl 0) (putF 0 Fld.pwrEngCtl_FRZ 1)) 0 .client = true ∧
    engShort (tSet (tPool { inPool := 2 }) (Reg.pwrEngCtl 0) (putF 0 Fld.pwrEngCtl_FRZ 1)) 0 .client = false ∧
    (poolOf (tPool { inPool := 2 }) 0 .client).rising = 0 ∧ (poolOf (tPool { inPool := 2 }) 0 .client).inPool ≠ 0 ∧
    sliceOn (tPool {}) 0 = true ∧ (tPool {}).glb.halted = false ∧ engFrozen (tPool {}) 0 .client = false ∧
    engUp (tPool {}) 0 .client < 127 ∧ enginesOn { inPool := 2 : PoolSt } < engMax (tPool {}) 0 .client ∧ enginesOn { inPool := 2 : PoolSt } + 0 < 10 ∧
    ¬ engUp (tPool {}) 0 .client < 0 ∧ (0 : BitVec 7).toNat < engDown (tPool {}) 0 .client ∧
    engMin (tPool {}) 0 .client < ({ inPool := 10, lowSince := some 0 } : PoolSt).inPool ∧ 0 + 1000000 ≤ elNs (tPool {}) ∧
    elNs (tPool {}) < 1 + 1000000 ∧
    (poolOf (tPool { draining := 1 }) 0 .client).draining ≠ 0 ∧ (poolOf (tPool { rising := 1 }) 0 .client).rising ≠ 0 := by decide +kernel
/-- A pool whose load has been low for 1 ms gives one engine up, and one a nanosecond short of it none. -/
theorem test_engines :
    after (.engineLoopWindow 0 .client 0) (tPool { inPool := 10, lowSince := some 0 }) (fun t => (poolOf t 0 .client).inPool) = some 9 ∧
    after (.engineLoopWindow 0 .client 0) (tPool { inPool := 10, lowSince := some 1 }) (fun t => (poolOf t 0 .client).inPool) = some 10 := by
  decide +kernel

/-- PWRFAIL_N low since `a`, 1 ms after time 0. -/
def tFail (a : Nat) : State := modGlb tMs (fun g => { g with pwrfailLow := true, pwrfailAt := a })
theorem test_witness_resets_of_ports : cmdOpen tRun Reg.pwrPortRst = true ∧ sliceOn tRun 3 = true ∧ (portCfg tRun .line 3 7).enabled = true ∧
    (portCfg ({ tRun with img := { tRun.img with content := {} } }) .client 0 0).enabled = false ∧
    cmdOpen ({ tRun with img := { tRun.img with content := {} } }) Reg.pwrPortRst = true ∧
    (modGlb tRun (fun g => { g with portReset := some (3, .line, 7) })).glb.portReset = some (3, .line, 7) ∧
    tRun.glb.pwrfailLow = false ∧ tRun.glb.holdup = false ∧ (modGlb tRun (fun g => { g with holdup := true })).glb.holdup = true ∧ (tFail 999901).glb.pwrfailLow = true ∧ elNs (tFail 999901) < (tFail 999901).glb.pwrfailAt + 100 ∧
    (tFail 999901).glb.glitches ≠ BitVec.allOnes 16 ∧ (tFail 999900).glb.pwrfailAt + 100 ≤ elNs (tFail 999900) ∧
    (modGlb (tFail 999901) (fun g => { g with glitches := BitVec.allOnes 16 })).glb.glitches = BitVec.allOnes 16 ∧ logFull (tFail 999900) = false ∧
    (tFail 999900).glb.holdup = false ∧ atOnce tRun (umberReg .client) = true ∧ atOnce tRun (umberReg .line) = true := by decide +kernel
theorem test_holdup : after .holdUp (tFail 999900) (fun t => (t.glb.holdup, t.jnl.closed)) = some (true, true) ∧
    after .holdUp (tFail 999901) (fun t => t.glb.holdup) = some false := by decide +kernel

/-! 18: registers and rings. -/

theorem test_plain : wrKind Reg.tsuAdjNs = .plain := rfl
theorem test_witness_registers : (regRow? Reg.tsuAdjNs).isSome = true ∧ atOnce tRun Reg.tsuAdjNs = true ∧ Reg.tsuAdjNs % 4 = 0 ∧
    Reg.tsuAdjNs < 0x4000000 ∧ tRun.glb.halted = false ∧ (0x3FFFFFF : Nat) % 4 ≠ 0 ∧ atOnce tRun Reg.glbUpdate = true ∧ booted tRun = true ∧
    noCounters tRun Reg.tsuAdjNs = false ∧ noCounters { tRun with fuses := { is4832 := false } } (Reg.pmuPcCtl 3) = true ∧
    hasVf tRun 4 = false ∧ (4 : InstId) ≠ 0 ∧
    tRun.glb.update = none ∧ (modGlb tRun (fun g => { g with update := some (1, []) })).glb.update = some (1, []) ∧
    atOnce (modGlb tRun (fun g => { g with update := some (1, []) })) Reg.glbUpdate = true := by decide +kernel
/-- The writable bits of a register are written, the others stay. -/
theorem test_register_write : after (.registerWrite 0 Reg.tsuAdjNs 0xF 0xFFFFFFFF) tRun (fun t => rd t Reg.tsuAdjNs) = some 0xFFFFFFFF ∧
    after (.registerWrite 0 Reg.glbDevid 0xF 0xFFFFFFFF) tRun (fun t => regRead t Reg.glbDevid) = some 0x48321140 := by decide +kernel

theorem test_witness_event_rings :
    let v (size : Nat) : Word := word [(Fld.hifEvtCfg_EN, 1), (Fld.hifEvtCfg_SIZE_LOG2, size)]
    atOnce tRun (Reg.hifEvtCfg 3) = true ∧ getF (v 6) Fld.hifEvtCfg_EN ≠ 0 ∧ getF (v 6) Fld.hifEvtCfg_SIZE_LOG2 = 6 ∧
    getF (v 16) Fld.hifEvtCfg_SIZE_LOG2 = 16 ∧ getF (v 5) Fld.hifEvtCfg_SIZE_LOG2 < 6 ∧ 16 < getF (v 17) Fld.hifEvtCfg_SIZE_LOG2 ∧
    getF 0 Fld.hifEvtCfg_EN = 0 ∧ (tRun.rings[(3 : Fin 4)]).en = false ∧ (tRun.rings[(3 : Fin 4)]).run = false ∧
    atOnce tRun (Reg.hifEvtHead 3) = true ∧ (tRun.rings[(3 : Fin 4)]).overflow = false ∧
    ((modEvt tRun 3 (fun r => { r with overflow := true })).rings[(3 : Fin 4)]).overflow = true ∧
    ((modEvt tRun 3 (fun r => { r with overflow := true })).rings[(3 : Fin 4)]).run = false ∧
    ((modEvt tRun 3 (fun r => { r with en := true })).rings[(3 : Fin 4)]).en = true ∧ ((modEvt tRun 3 (fun r => { r with run := true })).rings[(3 : Fin 4)]).run = true ∧
    (let st := modEvt (wr tRun (Reg.hifEvtCfg 3) (v 6)) 3 (fun r => { r with en := true, overflow := true })
     atOnce st (Reg.hifEvtHead 3) = true ∧ 2 ≤ evtFree (modEvt st 3 (fun r => { r with head := 0 })) 3 ∧
     evtFree (modEvt (modEvt st 3 (fun r => { r with tail := 62 })) 3 (fun r => { r with head := 0 })) 3 < 2) ∧
    (let st := modRing tRun 3 15 (fun x => { x with held := true })
     (ringOf st 3 15).held = true ∧ (ringOf st 3 15).nextFire ≤ elNs st) ∧
    ((modEvt tRun 3 (fun r => { r with held := true })).rings[(3 : Fin 4)]).held = true ∧
    ((modEvt tRun 3 (fun r => { r with held := true })).rings[(3 : Fin 4)]).nextFire ≤ elNs tRun := by decide +kernel

/-- Inject ring 8 of instance 0 in a state, with one descriptor to read. -/
def tRing (f : RingSt → RingSt) : State := modRing (wr tRun (ringTailA 0 8) 1) 0 8 f
def tDesc (lt : Bool) (ns : Nat) : InjDesc :=
  { bufAddr := 0, length := 60, sliceNo := 0, port := 0, ltEn := lt, sendLate := false, launchNs := BitVec.ofNat 32 ns, cookie := 0 }
theorem test_witness_rings :
    let on := tRing (fun x => { x with en := true, run := true })
    let held (p : HandPhase) : State := tRing (fun x => { x with en := true, run := true, hand := some { desc := tDesc false 0, bytes := tFrame.bytes, phase := p } })
    hasRings tRun 0 = true ∧ hasRings tRun 3 = true ∧ hasVf tRun 3 = true ∧ atOnce tRun (Reg.ringCtl 8) = true ∧ tRun.glb.halted = false ∧
    (ringOf tRun 0 8).en = false ∧ (ringOf tRun 0 8).run = false ∧ (ringOf tRun 0 8).hand = none ∧ ringSizeLog (wr tRun (ringCfgA 0 8) (putF 0 Fld.ringCfg_SIZE_LOG2 5)) 0 8 < 6 ∧
    ringSizeLog (wr tRun (ringCfgA 0 8) (putF 0 Fld.ringCfg_SIZE_LOG2 6)) 0 8 = 6 ∧
    ringSizeLog (wr tRun (ringCfgA 0 8) (putF 0 Fld.ringCfg_SIZE_LOG2 16)) 0 8 = 16 ∧
    (ringOf (held .copying) 0 8).hand.isSome = true ∧ injReadable on 0 8 = true ∧ twinOwner on = false ∧ injReadable tRun 0 8 = false ∧
    injCode on 0 (tDesc false 0) (tFrame.bytes.take 60) = 0 ∧ injCode on 0 { tDesc false 0 with length := 59 } (tFrame.bytes.take 59) = 4 ∧
    launchOut 0 0 = true ∧ launchOut 0 1 = false ∧ launchOut 0 2000000000 = false ∧ launchOut 0 2000000001 = true ∧
    safCode on 0 (tFrame.bytes.take 60) = 0 ∧ takesInject on 0 0 = true ∧ takesInject (held .held) 0 0 = true ∧
    (held .held).img.content.twin = false ∧ (ringOf on 0 8).run = true ∧ (ringOf on 0 8).hand = none := by decide +kernel
/-- The phases of a descriptor in hand, one that waits for its slice, and a package that forwards. -/
theorem test_witness_descriptors :
    let hold (p : HandPhase) (lt : Bool) : State :=
      tRing (fun x => { x with en := true, run := true, hand := some { desc := tDesc lt 0, bytes := tFrame.bytes, phase := p } })
    let on := tRing (fun x => { x with en := true, run := true })
    let served (st : State) : State := modInst st 0 (fun x => { x with injLast := 8 })
    let g := tFrame.bytes.take 60
    (∀ p : HandPhase, (ringOf (hold p false) 0 8).hand.map (fun h => h.phase) = some p ∧ (ringOf (hold p false) 0 8).run = true) ∧
    (let st := modInst on 0 (fun x => { x with shares := Vector.replicate 4 {} })
     injReadable st 0 8 = true ∧ twinOwner st = false ∧ injCode (served st) 0 (tDesc false 0) g = 0 ∧ takesInject (served st) 0 0 = false) ∧
    (let st := { on with img := { tRun.img with content := { tRun.img.content with twin := true } }, twin := { state := .alone } }
     injReadable st 0 8 = true ∧ twinOwner st = true) ∧
    injCode (served on) 0 (tDesc true 5) g = 0 ∧ launchOut (nowNs on) 5 = false ∧ launchOut (nowNs on) 0 = true ∧
    takesInject (served on) 0 0 = true ∧ injCode (served on) 0 { tDesc false 0 with length := 59 } (tFrame.bytes.take 59) ≠ 0 ∧
    safCode (served on) 0 g = 0 ∧
    safCode (served (modInst on 0 (fun x => { x with calendar := 0 }))) 0 g ≠ 0 := by
  refine ⟨?_, by decide +kernel⟩
  intro p; cases p <;> decide +kernel

/-! 19, 21: counters and pins. -/

theorem test_witness_statistics :
    let on := modPmu (tSet tRun Reg.pmuCfg (putF 0 Fld.pmuCfg_SAMPLE_EN 1)) (fun p => { p with nextAt := 0 })
    flagA on Reg.pmuCfg Fld.pmuCfg_SAMPLE_EN = true ∧ on.pmu.nextAt ≤ elNs on ∧ on.pmu.taking = none ∧
    atOnce tRun Reg.pmuSnapCmd = true ∧ (takeSnap tRun).pmu.taking.isSome = true ∧ atOnce (takeSnap tRun) Reg.pmuSnapCmd = true ∧
    cmdOpen tRun Reg.pmuScCmd = true ∧ tRun.mee.ready = true ∧ scBad tRun 0 0 0 = false ∧ scBad tRun 3 3 7 = false ∧ scBad tRun 1 0 16383 = true ∧
    hasVf tRun 1 = true ∧ hasVf tRun 3 = true ∧ tRun.glb.halted = false ∧ booted tRun = true ∧ (chOf tRun 0 0).inst ≠ 1 ∧
    (let st := modCh tRun 0 0 (fun c => { c with inst := 1 })
     scBad st 0 0 0 = false ∧ scBad st 1 0 0 = false ∧ (chOf st 0 0).inst = 1) := by decide +kernel
theorem test_witness_flush :
    ((ctrsOfKind (sl (modSl tRun 0 (fun x => { x with chCtr := [(5, { chip := 0x80000000 })] })) 0) 0).getD 5 {}).chip.toNat = 2 ^ 31 ∧
    ((ctrsOfKind (sl tRun 3) 3).getD 7 {}).chip.toNat < 2 ^ 31 ∧ { tRun.mee with ready := false }.ready = false ∧
    scBad { tRun with mee := { tRun.mee with ready := false } } 0 0 0 = false ∧
    cmdOpen { tRun with mee := { tRun.mee with ready := false } } Reg.pmuScCmd = true ∧ (chOf tRun 0 16383).valid = false := by decide +kernel
/-- Bandwidth windows on, none of them ended, one ended, and two. -/
theorem test_witness_windows :
    let st := tSet tRun Reg.pmuBwCfg (putF (rdA tRun Reg.pmuBwCfg) Fld.pmuBwCfg_BW_EN 1)
    let at_ (n : Nat) : State := tEl (n * bwWinNs st) st
    flagA (at_ 0) Reg.pmuBwCfg Fld.pmuBwCfg_BW_EN = true ∧ (at_ 0).pmu.winStart ≤ elNs (at_ 0) ∧
    (elNs (at_ 0) - (at_ 0).pmu.winStart) / bwWinNs (at_ 0) = 0 ∧ (elNs (at_ 1) - (at_ 1).pmu.winStart) / bwWinNs (at_ 1) = 1 ∧
    (elNs (at_ 2) - (at_ 2).pmu.winStart) / bwWinNs (at_ 2) = 2 ∧ flagA tRun Reg.pmuBwCfg Fld.pmuBwCfg_BW_EN = false := by decide +kernel
theorem test_witness_strobes : tRun.fuses.is4832 = true ∧ atOnce tRun (Reg.pmuPcCtl 0) = true ∧ atOnce tRun (Reg.pmuPcCtl 3) = true ∧
    (let st := { tRun with fuses := { is4832 := false } }
     st.fuses.is4832 = false ∧ atOnce st (Reg.pmuPcCtl 1) = true) ∧
    (let st := modPc tRun 3 (fun c => { c with run := true, cnt := Vector.replicate 8 (BitVec.allOnes 48) })
     (st.pmu.pc[(3 : Fin 4)]).run = true ∧ (st.pmu.pc[(3 : Fin 4)]).cnt[(7 : Fin 8)] = BitVec.allOnes 48) ∧
    bitW 0xC0000000 31 = true ∧ bitW 0xC0000000 30 = true ∧ bitW 0xA0000000 29 = true ∧ bitW 0xA0000000 31 = true ∧
    bitW 0x60000000 30 = true ∧ bitW 0x60000000 29 = true := by decide +kernel
/-- A write of START alone starts the slice's counters; one of START and STOP does nothing. -/
theorem test_strobes : after (.registerWrite 0 (Reg.pmuPcCtl 0) 0xF 0x80000000) tRun (fun t => (t.pmu.pc[(0 : Fin 4)]).run) = some true ∧
    after (.registerWrite 0 (Reg.pmuPcCtl 0) 0xF 0xC0000000) tRun (fun t => (t.pmu.pc[(0 : Fin 4)]).run) = some false := by decide +kernel

theorem test_witness_pins : smbReg 0 = some Reg.glbDevid ∧ Reg.glbDevid ≠ Reg.tmpEnv ∧ smbReg 4 = some Reg.twnStat ∧ smbReg 5 = none ∧
    smbAlert (modTmp tRun (fun t => { t with squelched := true })) = true ∧ smbAlert tRun = false ∧ tapTaken tRun .idcode false ≠ .debug ∧
    drivesPins .extest = true ∧ ({ tRun with debug := true } : State).debug = true ∧ 5 ≤ (5 : Byte).toNat ∧ tRun.debug = false := by decide +kernel
theorem test_smbus : after (.smbusBlockRead 0) tRun (fun t => t.out.getLast?) = some (some (.smbus [4, 0x40, 0x11, 0x32, 0x48])) ∧
    after .alertResponse (modTmp tRun (fun t => { t with squelched := true })) (fun t => t.out) = some [.smbus [0x5C]] := by decide +kernel

end Sys2Proof.Machine
end

section
/-!
PROOFS. The frame commands of 01, one equation per outcome, and O6 put together from them.
-/
namespace Sys2Proof.Machine

/-! ### An update of a slice or port is what it does to the slice or port as it stands -/

theorem modSl_congr (st : State) (s : SliceId) {f g : SliceSt → SliceSt} (h : f (sl st s) = g (sl st s)) :
    modSl st s f = modSl st s g := by
  have hu : upd st.slices s f = upd st.slices s g := congrArg (st.slices.set s) h
  simp only [modSl, hu]

theorem modSl_of_fixed (st : State) (s : SliceId) {f : SliceSt → SliceSt} (h : f (sl st s) = sl st s) :
    modSl st s f = st := by
  have hu : upd st.slices s f = st.slices := (congrArg (st.slices.set s) h).trans (Vector.set_getElem_self _)
  simp only [modSl, hu]

theorem modPort_of_fixed (st : State) (d : Side) (s : SliceId) (k : PortIx) {f : PortSt → PortSt}
    (h : f (port st d s k) = port st d s k) : modPort st d s k f = st := by
  refine modSl_of_fixed st s ?_
  cases d with
  | client =>
    have hu : upd (sl st s).cPorts k f = (sl st s).cPorts :=
      (congrArg ((sl st s).cPorts.set k) h).trans (Vector.set_getElem_self _)
    simp only [hu]
  | line =>
    have hu : upd (sl st s).lPorts k f = (sl st s).lPorts :=
      (congrArg ((sl st s).lPorts.set k) h).trans (Vector.set_getElem_self _)
    simp only [hu]

/-! ### Admission of a frame by its client port and by the state and share of its owner (02 R101, 13 R504, R509) -/

section Admission
variable {st : State} {s : SliceId} {i : InstId} {bs : Bytes}

theorem admitInst_of_not_enabled (h : (inst st i).state ≠ .enabled) : admitInst st s i bs = (false, instDrop st i) := by
  simp [admitInst, h]

theorem admitInst_of_share_used (h : (inst st i).state = .enabled)
    (hs : (inst st i).shares[s].cells ≤ instCells (sl st s) i) : admitInst st s i bs = (false, shareDrop st i) := by
  rw [admitInst, if_neg (not_not_intro h), if_pos hs]

theorem admitInst_of_share_left (h : (inst st i).state = .enabled)
    (hs : instCells (sl st s) i < (inst st i).shares[s].cells) :
    admitInst st s i bs = (true, pcEvent st s 0x030 (cellsOf bs)) := by
  rw [admitInst, if_neg (not_not_intro h), if_neg (Nat.not_le.mpr hs)]

variable {c : Pkt} {p : Parse} {k : PortIx}

theorem clientPass_of_full (h : portFull st c.s k (prioOf p) = true) : clientPass st c p k = fcDrop st c.s k := by
  simp [clientPass, h]

theorem clientPass_of_no_cells (h : portFull st c.s k (prioOf p) = false) (hc : cellsFree st c.s c.bytes = false) :
    clientPass st c p k = st := by
  simp [clientPass, h, hc]

theorem clientPass_of_refused (h : portFull st c.s k (prioOf p) = false) (hc : cellsFree st c.s c.bytes = true) {t : State}
    (ha : admitInst (parserEntry st c) c.s c.inst c.bytes = (false, t)) : clientPass st c p k = t := by
  simp [clientPass, h, hc, ha]

theorem clientPass_of_admitted (h : portFull st c.s k (prioOf p) = false) (hc : cellsFree st c.s c.bytes = true) {t : State}
    (ha : admitInst (parserEntry st c) c.s c.inst c.bytes = (true, t)) : clientPass st c p k = protectParsed t c p := by
  simp [clientPass, h, hc, ha]

end Admission

/-! ### A frame arrives on a client port (01 R28) -/

section ClientFrame
variable {st : State} {s : SliceId} {k : PortIx} {f : RxFrame}

theorem exec_clientFrameRx_of_off (h : rxOn st .client s k = false) : exec (.clientFrameRx s k f) st = .next st := by
  simp [exec, execClientFrameRx, h]

theorem exec_clientFrameRx_of_macBad (h : rxOn st .client s k = true) (he : f.ended = true) (hm : macBad .client f = true) :
    exec (.clientFrameRx s k f) st = .next (macDrop .client s k (bwFrame st .client s k false (f.bytes.length + 4))) := by
  simp [exec, execClientFrameRx, h, he, hm]

/-- A whole good frame that the slice admits, the parse being complete, comes to the admission of its port. -/
theorem exec_clientFrameRx_of_admits (h : rxOn st .client s k = true) (he : f.ended = true) (hp : pauseKind f.bytes = 0)
    (hm : macBad .client f = false) {st1 : State} (h1 : st1 = bwFrame st .client s k false (f.bytes.length + 4))
    (ha : admits st1 s = true) {p : Parse} (hparse : p = parse { prsCfg st1 s with more := false } f.bytes) :
    exec (.clientFrameRx s k f) st = .next (settle (clientPass (arrive st1 s).2
      { clientPkt (arrive st1 s).2 s k f p with order := (arrive st1 s).1 } p k) s) := by
  subst h1 hparse
  simp [exec, execClientFrameRx, clientIn, h, he, hp, hm, ha]

end ClientFrame

/-! ### A frame arrives on a line port (02 R106, 06 R251) -/

section LineFrame
variable {st : State} {s : SliceId} {k : PortIx} {f : RxFrame}

/-- No held frame of a line port is released where none is held. -/
theorem fiFurther_of_none_held {rx : Bool} (h : (port st .line s k).fiHeld = []) : fiFurther st s k rx = ([], st) := by
  have hst : modPort st .line s k (fun x => { x with fiHeld := [] }) = st :=
    modPort_of_fixed st .line s k (by rw [← h])
  simp [fiFurther, h, hst]

theorem fiStep_of_unarmed {rx : Bool} {bs : Bytes} (h : (port st .line s k).fi.armed = false) :
    fiStep st s k rx bs = (.pass bs, st) := by
  simp [fiStep, h]

theorem exec_lineFrameRx_of_off (h : rxOn st .line s k = false) : exec (.lineFrameRx s k f) st = .next st := by
  simp [exec, execLineFrameRx, h]

theorem exec_lineFrameRx_of_macBad (h : rxOn st .line s k = true) (hm : macBad .line f = true) :
    exec (.lineFrameRx s k f) st = .next (macDrop .line s k (bwFrame st .line s k false (f.bytes.length + 4))) := by
  simp [exec, execLineFrameRx, h, hm]

theorem exec_lineFrameRx_of_not_admits (h : rxOn st .line s k = true) (hp : pauseKind f.bytes = 0)
    (hm : macBad .line f = false) {st1 : State} (h1 : st1 = bwFrame st .line s k false (f.bytes.length + 4))
    (ha : admits st1 s = false) : exec (.lineFrameRx s k f) st = .next st1 := by
  subst h1
  simp [exec, execLineFrameRx, h, hp, hm, ha]

theorem exec_lineFrameRx_of_unarmed (h : rxOn st .line s k = true) (hp : pauseKind f.bytes = 0)
    (hm : macBad .line f = false) {st1 : State} (h1 : st1 = bwFrame st .line s k false (f.bytes.length + 4))
    (ha : admits st1 s = true) (hfi : (port st1 .line s k).fi.armed = false) (hheld : (port st1 .line s k).fiHeld = []) :
    exec (.lineFrameRx s k f) st = .next (settle (lineIn st1 s k f.bytes) s) := by
  subst h1
  simp [exec, execLineFrameRx, h, hp, hm, ha, fiFurther_of_none_held hheld, fiStep_of_unarmed hfi]

end LineFrame

/-! ### A frame's end comes (03 R138) -/

section FrameEnd
variable {st st1 : State} {s : SliceId} {k : PortIx} {f : RxFrame}

theorem exec_protectFrameEnd_of_waiting
    (h1 : st1 = if rxOn st .client s k then bwFrame st .client s k false (f.bytes.length + 4) else st) {w : WaitFrame}
    (hw : (sl st1 s).waiting = [(k, w)]) :
    exec (.protectFrameEnd s k f) st =
      .next (settle (endWaiting (modSl st1 s (fun x => { x with waiting := [] })) s k w f) s) := by
  have herase : modSl st1 s (fun x => { x with waiting := x.waiting.eraseP (fun w => w.1 == k) }) =
      modSl st1 s (fun x => { x with waiting := [] }) := modSl_congr st1 s (by simp [hw])
  simp [exec, execProtectFrameEnd, ← h1, hw, herase]

theorem exec_protectFrameEnd_of_unpaired
    (h1 : st1 = if rxOn st .client s k then bwFrame st .client s k false (f.bytes.length + 4) else st)
    (hw : ∀ w ∈ (sl st1 s).waiting, w.1 ≠ k) (hpair : pairOf st1 .client s k = none) :
    exec (.protectFrameEnd s k f) st = .next st1 := by
  have hfind : (sl st1 s).waiting.find? (fun w => w.1 == k) = none := by simpa using hw
  simp [exec, execProtectFrameEnd, ← h1, hfind, hpair]

end FrameEnd

/-! ### The final replay commit of a channel's next frame (06 R256) -/

section FinalCommit
variable {st st1 : State} {s : SliceId} {v : VFrame} {rest : List VFrame}
  (he : (sl st s).engine = v :: rest) (h1 : st1 = modSl st s (fun x => { x with engine := rest }))
include he h1

theorem modSl_engine_erase_head :
    modSl st s (fun x => { x with engine := x.engine.eraseP (fun u => u.ch == v.ch) }) = st1 :=
  h1 ▸ modSl_congr st s (by simp [he])

variable (hc : v.cellErr = false)
include hc

theorem exec_finalReplayCommit_of_bad_icv (ho : openFrame v = none) :
    exec (.finalReplayCommit s v.ch) st = .next (settle (icvFailed st1 s v) s) := by
  simp [exec, execFinalReplayCommit, modSl_engine_erase_head he h1, he, hc, ho]

theorem exec_finalReplayCommit_of_refused {bs : Bytes} (ho : openFrame v = some bs) {t : State}
    (hr : rxCommit st1 s v = (false, t)) : exec (.finalReplayCommit s v.ch) st = .next (settle t s) := by
  simp [exec, execFinalReplayCommit, modSl_engine_erase_head he h1, he, hc, ho, hr]

theorem exec_finalReplayCommit_of_committed {bs : Bytes} (ho : openFrame v = some bs) {t : State}
    (hr : rxCommit st1 s v = (true, t)) :
    exec (.finalReplayCommit s v.ch) st = .next (settle (secondPass t s v bs) s) := by
  simp [exec, execFinalReplayCommit, modSl_engine_erase_head he h1, he, hc, ho, hr]

end FinalCommit

/-! ### The recirculation queue (01 R36) -/

section Recirculation
variable {st : State} {s : SliceId} {f : RecFrame} {rest : List RecFrame}

theorem exec_recircEntry_of_none (h : ∀ f ∈ (sl st s).recirc, recWaits (sl st s) f = true) :
    exec (.recircEntry s) st = .next st := by
  have hfind : (sl st s).recirc.find? (fun f => !recWaits (sl st s) f) = none := by simpa using h
  simp [exec, execRecircEntry, hfind]

/-- A recirculated frame as the protect path's parser meets it, bound for line port `lp`. -/
def recircPkt (s : SliceId) (lp : PortIx) (f : RecFrame) : Pkt :=
  { bytes := f.bytes, d := .client, s := s, side := .line, k := f.lport, inst := f.inst, ver := f.ver, verified := true
    rcp := some f.rcp, rxCh := f.rxCh, src := .recirc f.lport, outPort := some lp, rxNs := f.rxNs, rxEl := f.rxEl
    order := f.order }

theorem exec_recircEntry_of_head (h : (sl st s).recirc = f :: rest) (hw : recWaits (sl st s) f = false) {st1 : State}
    (h1 : st1 = modSl st s (fun x => { x with recirc := rest })) :
    exec (.recircEntry s) st =
      let c := recircPkt s (Fin.ofNat 8 (getF (ruleRcp st1 s f.rcp.val) Fld.clsRcp_LPORT)) f
      .next (settle (protectParsed (parserEntry st1 c) c (parse (prsCfg st1 s) f.bytes)) s) := by
  have herase : modSl st s (fun x => { x with recirc := x.recirc.eraseP (fun f => !recWaits x f) }) = st1 :=
    h1 ▸ modSl_congr st s (by simp [h, hw])
  simp [exec, execRecircEntry, recircPkt, h, hw, herase]

end Recirculation

/-! ### A grant of an output port (01 R34) -/

section Grant
variable {st : State} {d : Side} {s : SliceId} {k : PortIx} {f : EgrFrame} {rest : List EgrFrame}

theorem exec_frameEgressGrant_of_queued {q : Fin 8} (hl2 : isL2 st d s k = true) (hq : (port st d s k).queue = f :: rest) :
    exec (.frameEgressGrant d s k q) st = .next (settle (grant st d s k q) s) := by
  simp [exec, execFrameEgressGrant, hl2, hq]

theorem tcCorrect_of_no_tc (h : f.tc = none) : tcCorrect st d s k f = (f, st) := by simp [tcCorrect, h]

variable (hq : (port st d s k).queue = f :: rest)
include hq

/-- The first frame of all goes, whatever stands behind it, unless one that came before it is still on its way. -/
theorem firstOf_queue_head (ho : earlierOnWay (sl st s) f = false) :
    firstOf st d s k f.prio (port st d s k).queue = some (f, 0) := by
  simp [firstOf, hq, List.zipIdx_cons, ho]

variable (hs : ∀ g ∈ f :: rest, g.started = false)
include hs

theorem queue_none_started : (port st d s k).queue.any (fun g => g.started) = false := by
  simpa [hq] using hs

variable (ho : earlierOnWay (sl st s) f = false)
include ho

theorem grant_head_of_down (hlive : txLive st d s k = false) :
    grant st d s k f.prio = downDrop (dequeue st d s k 0) d s k := by
  simp [grant, queue_none_started hq hs, firstOf_queue_head hq ho, hlive]

theorem grant_head_of_held (hlive : txLive st d s k = true) (hheld : outputHeld st d s k f.prio = true) :
    grant st d s k f.prio = st := by
  simp [grant, queue_none_started hq hs, firstOf_queue_head hq ho, hlive, hheld]

theorem grant_head_of_free (hlive : txLive st d s k = true) (hheld : outputHeld st d s k f.prio = false)
    (hline : d = .line → launchNear st s k = false ∧ wireBusy st s k = false) (hcell : f.cellErr = false)
    (htc : f.tc = none) (hend : f.ended = true) :
    grant st d s k f.prio = finish (dequeue st d s k 0) d s k f true := by
  have hwire : (d == .line && (launchNear st s k || wireBusy st s k)) = false := by
    cases d with
    | client => rfl
    | line => simp [hline rfl]
  simp [grant, queue_none_started hq hs, firstOf_queue_head hq ho, hlive, hheld, hwire, hcell, tcCorrect_of_no_tc htc, hend]

end Grant

/-! ### An entry of the fragment table expires (04 R183) -/

section Fragment
variable {st : State} {s : SliceId} {ix : Nat} {e : FragEnt}

theorem exec_fragAged_of_expired (h : (sl st s).frags[ix]? = some e) (hx : e.expires ≤ elNs st) :
    exec (.fragAged s ix) st =
      .next (count (modFrags st s (fun l => l.eraseIdx ix)) (Reg.clsCnt s (sideNum e.key.dir) 13)) := by
  simp [exec, execFragAged, h, hx]

theorem exec_fragAged_of_live (h : (sl st s).frags[ix]? = some e) (hx : elNs st < e.expires) :
    exec (.fragAged s ix) st = .next st := by
  simp [exec, execFragAged, h, Nat.not_le.mpr hx]

end Fragment

/-! ### The statement -/

/-- Settles O6: each clause is the equation above of its command's outcome. -/
theorem framesEnterCrossAndLeaveASlice : Obligations.FramesEnterCrossAndLeaveASlice := by
  intro st s k
  refine ⟨fun h f => exec_clientFrameRx_of_off h, fun h f => exec_lineFrameRx_of_off h, ?clientFrame, ?lineFrame,
    ?frameEnd, ?finalCommit, fun h => exec_recircEntry_of_none (by simp [h]),
    fun f rest h hw hrest => exec_recircEntry_of_none (by simp [h, hrest, hw]), ?recircHead, ?egress,
    fun ix e h => ⟨exec_fragAged_of_expired h, exec_fragAged_of_live h⟩⟩
  case clientFrame =>
    intro f hrx hend hpause st1 p sta c
    refine ⟨exec_clientFrameRx_of_macBad hrx hend, fun hmac hadm => ?_⟩
    have hexec : exec (.clientFrameRx s k f) st = .next (settle (clientPass sta c p k) s) :=
      exec_clientFrameRx_of_admits hrx hend hpause hmac rfl hadm rfl
    refine ⟨fun hfull => ?_, fun hroom hcells => ?_, fun hroom hcells => ⟨fun hdis => ?_,
      fun hen => ⟨fun hshare => ?_, fun hshare => ?_⟩⟩⟩
    · rw [hexec, clientPass_of_full (c := c) hfull]
      rfl
    · rw [hexec, clientPass_of_no_cells (c := c) hroom hcells]
    · rw [hexec, clientPass_of_refused (c := c) hroom hcells (admitInst_of_not_enabled hdis)]
    · rw [hexec, clientPass_of_refused (c := c) hroom hcells (admitInst_of_share_used hen hshare)]
    · rw [hexec, clientPass_of_admitted (c := c) hroom hcells (admitInst_of_share_left hen hshare)]
      rfl
  case lineFrame =>
    intro f hrx hpause st1
    exact ⟨exec_lineFrameRx_of_macBad hrx, fun hmac => exec_lineFrameRx_of_not_admits hrx hpause hmac rfl,
      fun hmac => exec_lineFrameRx_of_unarmed hrx hpause hmac rfl⟩
  case frameEnd =>
    intro f st1
    exact ⟨fun w => exec_protectFrameEnd_of_waiting rfl, exec_protectFrameEnd_of_unpaired rfl⟩
  case finalCommit =>
    intro ch v rest hengine hch hcell st1
    subst hch
    exact ⟨exec_finalReplayCommit_of_bad_icv hengine rfl hcell, fun bs hopen =>
      ⟨fun t => exec_finalReplayCommit_of_refused hengine rfl hcell hopen,
        fun t => exec_finalReplayCommit_of_committed hengine rfl hcell hopen⟩⟩
  case recircHead =>
    intro f rest hqueue hgo st1
    exact ⟨recircPkt s (Fin.ofNat 8 (getF (ruleRcp st1 s f.rcp.val) Fld.clsRcp_LPORT)) f, rfl, rfl, rfl, rfl, rfl, rfl, rfl,
      exec_recircEntry_of_head hqueue hgo rfl⟩
  case egress =>
    intro d q f rest hl2 hqueue hprio hstarted hway st1
    subst hprio
    rw [exec_frameEgressGrant_of_queued hl2 hqueue]
    refine ⟨fun hdown => ?_, fun hlive => ⟨fun hheld => ?_, fun hheld hline hcell htc hend => ?_⟩⟩
    · rw [grant_head_of_down hqueue hstarted hway hdown]
    · rw [grant_head_of_held hqueue hstarted hway hlive hheld]
    · rw [grant_head_of_free hqueue hstarted hway hlive hheld hline hcell htc hend]

end Sys2Proof.Machine
end

section
/-!
PROOFS. The lane receivers, flow control and the line fault injector of 02: what an update of one lane or port does, one
equation per outcome of each command, and O8, O9 and O10 put together from them.
-/
namespace Sys2Proof.Machine

/-! ### An update of a lane or port turns on the lane or port as it stands -/

theorem upd_congr {α : Type} {n : Nat} {v : Vector α n} {i : Fin n} {f g : α → α} (h : f v[i] = g v[i]) :
    upd v i f = upd v i g :=
  congrArg (v.set i) h

theorem modPort_congr {st : State} {d : Side} {s : SliceId} {k : PortIx} {f g : PortSt → PortSt}
    (h : f (port st d s k) = g (port st d s k)) : modPort st d s k f = modPort st d s k g := by
  refine modSl_congr st s ?_
  cases d with
  | client => exact congrArg (fun v => { sl st s with cPorts := v }) (upd_congr h)
  | line => exact congrArg (fun v => { sl st s with lPorts := v }) (upd_congr h)

theorem modLane_congr {st : State} {l : LaneId} {f g : LaneSt → LaneSt} (h : f (laneOf st l) = g (laneOf st l)) :
    modLane st l f = modLane st l g := by
  rcases l with ⟨_ | _, s, k⟩ | i
  · exact modSl_congr st s (congrArg (fun v => { sl st s with cLanes := v }) (upd_congr h))
  · exact modSl_congr st s (congrArg (fun v => { sl st s with lLanes := v }) (upd_congr h))
  · exact congrArg (fun v => { st with twinLanes := v }) (upd_congr h)

@[simp] theorem port_modPort_self (st : State) (d : Side) (s : SliceId) (k : PortIx) (f : PortSt → PortSt) :
    port (modPort st d s k f) d s k = f (port st d s k) := by
  cases d <;> simp [port, modPort, upd]

@[simp] theorem laneOf_modLane_self (st : State) (l : LaneId) (f : LaneSt → LaneSt) :
    laneOf (modLane st l f) l = f (laneOf st l) := by
  rcases l with ⟨_ | _, s, k⟩ | i <;> simp [laneOf, modLane, sl, modSl, upd]

@[simp] theorem modLane_img (st : State) (l : LaneId) (f : LaneSt → LaneSt) : (modLane st l f).img = st.img := by
  rcases l with ⟨_ | _, s, k⟩ | i <;> rfl

@[simp] theorem setStage_img (g : LaneStage) (st : State) (l : LaneId) : (setStage g st l).img = st.img :=
  modLane_img st l _

@[simp] theorem laneOf_setStage_retries (g : LaneStage) (st : State) (l : LaneId) :
    (laneOf (setStage g st l) l).retries = (laneOf st l).retries := by
  simp [setStage]

theorem portCfg_of_img {st t : State} (h : t.img = st.img) (d : Side) (s : SliceId) (k : PortIx) :
    portCfg t d s k = portCfg st d s k := by
  cases d <;> simp only [portCfg, h]

/-- The image alone says which port a lane belongs to (02 R90). -/
theorem portOfLane_of_img {st t : State} (h : t.img = st.img) (d : Side) (s : SliceId) (i : PortIx) :
    portOfLane t d s i = portOfLane st d s i := by
  simp only [portOfLane, portLanes, portCfg_of_img h]

/-! ### The meaning of each command of this chapter

Said once, so that no proof below unfolds every arm of `exec` for one of them. -/

section Dispatch
variable (st : State)

theorem exec_laneSignalDetect (l : LaneId) : exec (.laneSignalDetect l) st = execLaneSignalDetect l st := rfl
theorem exec_laneStepDone (l : LaneId) (r : LockRuns) : exec (.laneStepDone l r) st = execLaneStepDone l r st := rfl
theorem exec_precoderTryTimeout (l : LaneId) : exec (.precoderTryTimeout l) st = execPrecoderTryTimeout l st := rfl
theorem exec_laneTimeout (l : LaneId) : exec (.laneTimeout l) st = execLaneTimeout l st := rfl
theorem exec_eqAtLimit (l : LaneId) (on : Bool) : exec (.eqAtLimit l on) st = execEqAtLimit l on st := rfl
theorem exec_lossOfLock (l : LaneId) (c : LockLoss) : exec (.lossOfLock l c) st = execLossOfLock l c st := rfl
theorem exec_linkFaultSignallingRx (d : Side) (s : SliceId) (k : PortIx) (lf rf : Bool) :
    exec (.linkFaultSignallingRx d s k lf rf) st = execLinkFaultSignallingRx d s k lf rf st := rfl
theorem exec_rxPauseFrame (d : Side) (s : SliceId) (k : PortIx) (f : RxFrame) :
    exec (.rxPauseFrame d s k f) st = execRxPauseFrame d s k f st := rfl
theorem exec_pauseHoldEnd (d : Side) (s : SliceId) (k : PortIx) (q : Fin 8) :
    exec (.pauseHoldEnd d s k q) st = execPauseHoldEnd d s k q st := rfl
theorem exec_pauseRepeat (s : SliceId) (k : PortIx) : exec (.pauseRepeat s k) st = execPauseRepeat s k st := rfl
theorem exec_headroomMeasure (s : SliceId) (k : PortIx) (ns : Nat) :
    exec (.headroomMeasure s k ns) st = execHeadroomMeasure s k ns st := rfl
theorem exec_fiArm (s : SliceId) (k : PortIx) (other : Bool) :
    exec (.fiArm s k other) st = execFiArm s k other st := rfl
theorem exec_fiDisarm (s : SliceId) (k : PortIx) (other : Bool) :
    exec (.fiDisarm s k other) st = execFiDisarm s k other st := rfl
theorem exec_fiHoldRelease (s : SliceId) (k : PortIx) : exec (.fiHoldRelease s k) st = execFiHoldRelease s k st := rfl

end Dispatch

/-! ### Bring-up of a lane receiver (02 R67, R71, R73) -/

section Lane
variable {st : State} {l : LaneId}

theorem exec_laneSignalDetect_of_sigWait (h : (laneOf st l).stage = .sigWait) :
    exec (.laneSignalDetect l) st = .next (setStage .cdr (modLane st l (fun x => { x with sigDet := true })) l) := by
  simp [exec_laneSignalDetect, execLaneSignalDetect, h]

theorem exec_laneStepDone_of_cdr {r : LockRuns} (h : (laneOf st l).stage = .cdr) :
    exec (.laneStepDone l r) st = .next (setStage .eq st l) := by
  simp [exec_laneStepDone, execLaneStepDone, h]

theorem exec_laneStepDone_of_eq_fec {r : LockRuns} (h : (laneOf st l).stage = .eq) (hf : laneFec st l = true) :
    exec (.laneStepDone l r) st = .next (setStage .fecLock st l) := by
  simp [exec_laneStepDone, execLaneStepDone, h, hf]

theorem exec_laneStepDone_of_fecLock {r : LockRuns} (h : (laneOf st l).stage = .fecLock) :
    exec (.laneStepDone l r) st = .next (fecLocked l r st) := by
  simp [exec_laneStepDone, execLaneStepDone, h]

/-- A PAM4 lane goes on with the setting picked, the image's or, where PRECODE_AUTO allows it, the opposite one. -/
theorem fecLocked_of_kept {r : LockRuns} {opp : Bool} (hp : isPam4 (laneCfgOf st l) = true)
    (hpick : precoderPick (laneOf st l).opposite r.own r.other = some opp)
    (hkeep : opp = false ∨ bitW (rxCtl st l) 31 = true) :
    fecLocked l r st = setStage .pcsLock (modLane st l (fun x =>
      { x with precodeDet := (laneCfgOf st l).precRx != opp, mismatch := false })) l := by
  have hk : (!opp || bitW (rxCtl st l) 31) = true := by simpa using hkeep
  simp [fecLocked, hp, hpick, hk]

/-- Before the opposite setting is tried, the image's alone can have locked. -/
theorem precoderPick_untried (a : Nat) (other : Option Nat) : precoderPick false (some a) other = some false := rfl

theorem precoderPick_other_better {a b : Nat} (h : b < a) : precoderPick true (some a) (some b) = some true := by
  simp [precoderPick, h]

theorem stepLasts_iff {ms : Nat} : stepLasts st l ms = true ↔ (laneOf st l).since + ms * 1000000 ≤ elNs st := by
  simp [stepLasts]

theorem exec_precoderTryTimeout_of_due (h : (laneOf st l).stage = .fecLock) (hp : isPam4 (laneCfgOf st l) = true)
    (ht : (laneOf st l).since + 5 * 1000000 ≤ elNs st) :
    exec (.precoderTryTimeout l) st = .next (modLane st l (fun x => { x with opposite := true })) := by
  simp [exec_precoderTryTimeout, execPrecoderTryTimeout, h, hp, stepLasts_iff.mpr ht]

theorem exec_laneTimeout_of_cdr (h : (laneOf st l).stage = .cdr) :
    exec (.laneTimeout l) st = .next (if stepLasts st l 10 then laneTimedOut st l else st) := by
  simp [exec_laneTimeout, execLaneTimeout, h]

/-- A time-out that is neither the first after READY nor a 16th raises no event. -/
theorem laneTimedOut_of_no_event (hb : (laneOf st l).beenReady = false) (hc : ((laneOf st l).consec + 1) % 16 ≠ 0)
    (hr : (laneOf st l).retries ≠ BitVec.allOnes 16) :
    laneTimedOut st l =
      modLane (setStage .sigWait st l) l (fun x => { x with consec := x.consec + 1, retries := x.retries + 1 }) := by
  have hcount : modLane (setStage .sigWait st l) l (fun x => { x with
        consec := x.consec + 1, retries := if x.retries = BitVec.allOnes 16 then x.retries else x.retries + 1 }) =
      modLane (setStage .sigWait st l) l (fun x => { x with consec := x.consec + 1, retries := x.retries + 1 }) :=
    modLane_congr (by rw [laneOf_setStage_retries, if_neg hr])
  simpa [laneTimedOut, hb, hc] using hcount

theorem exec_eqAtLimit_of_running {on : Bool} (h : (laneOf st l).stage ≠ .off) :
    exec (.eqAtLimit l on) st = .next (modLane st l (fun x => { x with eqAtLimit := on })) := by
  simp [exec_eqAtLimit, execEqAtLimit, h]

end Lane

/-! ### Loss of lock and link faults (02 R77, R79) -/

section LinkFault
variable {st : State} {d : Side} {s : SliceId} {i k : PortIx}

theorem portLost_of_port (h : portOfLane st d s i = some k) :
    portLost st (.lane d s i) = modPort st d s k (fun p => { p with localFault := false, remoteFault := false }) := by
  simp [portLost, h]

theorem laneBack_of_ready_client {g : LaneStage} (hg : (laneOf st (.lane .client s i)).stage = .ready)
    (hk : portOfLane st .client s i = some k) :
    laneBack st (.lane .client s i) g = modPort (setStage g st (.lane .client s i)) .client s k
      (fun p => { p with localFault := false, remoteFault := false }) := by
  have hk' : portOfLane (setStage g st (.lane .client s i)) .client s i = some k :=
    (portOfLane_of_img (setStage_img g st _) .client s i).trans hk
  simp [laneBack, hg, ctfLof, portLost_of_port hk']

theorem exec_lossOfLock_cdr_of_ready {l : LaneId} (h : (laneOf st l).stage = .ready) :
    exec (.lossOfLock l .cdr) st = .next (laneBack st l .cdr) := by
  simp [exec_lossOfLock, execLossOfLock, laneLost, h]

theorem exec_linkFaultSignallingRx_of_up {lf rf : Bool} (h : portUp st d s k = true) :
    exec (.linkFaultSignallingRx d s k lf rf) st =
      .next (modPort st d s k (fun p => { p with localFault := lf, remoteFault := rf })) := by
  simp [exec_linkFaultSignallingRx, execLinkFaultSignallingRx, h]

end LinkFault

/-- Settles O8: each clause is the equation above of its command's outcome. -/
theorem laneReceiverMovesThroughItsSteps : Obligations.LaneReceiverMovesThroughItsSteps := by
  intro st l
  refine ⟨exec_laneSignalDetect_of_sigWait, fun r => exec_laneStepDone_of_cdr, fun r => exec_laneStepDone_of_eq_fec,
    ?imageSetting, ?oppositeSetting, exec_precoderTryTimeout_of_due, ?timedOut, ?stillRunning,
    fun on => exec_eqAtLimit_of_running, ?lossOfLock, fun d s k lf rf => exec_linkFaultSignallingRx_of_up⟩
  case imageSetting =>
    intro a other hstage hpam htried
    have hpick : precoderPick (laneOf st l).opposite (some a) other = some false := by
      rw [htried, precoderPick_untried]
    rw [exec_laneStepDone_of_fecLock hstage, fecLocked_of_kept hpam hpick (.inl rfl)]
    simp
  case oppositeSetting =>
    intro a b hstage hpam htried hfewer hauto
    have hpick : precoderPick (laneOf st l).opposite (some a) (some b) = some true := by
      rw [htried, precoderPick_other_better hfewer]
    rw [exec_laneStepDone_of_fecLock hstage, fecLocked_of_kept hpam hpick (.inr hauto)]
    simp
  case timedOut =>
    intro hstage hready hevent hmax htime
    have hlasts : stepLasts st l 10 = true := stepLasts_iff.mpr htime
    rw [exec_laneTimeout_of_cdr hstage, if_pos hlasts, laneTimedOut_of_no_event hready hevent hmax]
  case stillRunning =>
    intro hstage htime
    have hlasts : ¬ stepLasts st l 10 = true := fun h => Nat.not_le.mpr htime (stepLasts_iff.mp h)
    rw [exec_laneTimeout_of_cdr hstage, if_neg hlasts]
  case lossOfLock =>
    intro s i k hl hstage hport
    subst hl
    rw [exec_lossOfLock_cdr_of_ready hstage, laneBack_of_ready_client hstage hport]

/-! ### A frame at a pin touches registers and the performance unit alone (19 R679) -/

theorem bwAdvance_only (st : State) : bwAdvance st = { st with regs := (bwAdvance st).regs, pmu := (bwAdvance st).pmu } := by
  simp only [bwAdvance]
  split
  · rfl
  · split <;> split <;> rfl

theorem bwFrame_only (st : State) (d : Side) (s : SliceId) (k : PortIx) (tx : Bool) (len : Nat) :
    bwFrame st d s k tx len =
      { st with regs := (bwFrame st d s k tx len).regs, pmu := (bwFrame st d s k tx len).pmu } := by
  simp only [bwFrame]
  rw [bwAdvance_only, pcEvent_only, pcEvent_only st]
  split <;> rfl

/-! ### Flow control (02 R100, R102, R105) -/

section Flow
variable {st : State} {d : Side} {s : SliceId} {k : PortIx}

/-- PAUSE sets the end of the hold of every priority, whatever held before. -/
theorem holdFor_of_pause {el speed : Nat} {bs : Bytes} {h : HoldSt} (hp : pauseKind bs = 1) (q : Fin 8) :
    (holdFor el speed bs h).until_[q] =
      if beVal (sub bs 16 2) = 0 then none else some (el + beVal (sub bs 16 2) * 512 / speed) := by
  simp [holdFor, hp]

theorem takePause_of_honoured {bs : Bytes} (h : flagA st (Reg.pcsFcCtl s (sideNum d) k) Fld.pcsFcCtl_RX_HONOUR = true) :
    takePause d s k bs st =
      modPort st d s k (fun p => { p with hold := holdFor (elNs st) (speedOf (portCfg st d s k)) bs p.hold }) := by
  simp [takePause, h]

theorem exec_rxPauseFrame_of_good {f : RxFrame} (hon : rxOn st d s k = true) (hk : pauseKind f.bytes ≠ 0)
    (hm : macBad d f = false) :
    exec (.rxPauseFrame d s k f) st =
      .next (takePause d s k f.bytes (bwFrame st d s k false (f.bytes.length + 4))) := by
  simp [exec_rxPauseFrame, execRxPauseFrame, hon, hk, hm]

theorem exec_pauseHoldEnd_of_due {q : Fin 8} {u : Nat} (hq : (port st d s k).hold.until_[q] = some u) (hu : u ≤ elNs st) :
    exec (.pauseHoldEnd d s k q) st =
      .next (modPort st d s k (fun p => { p with hold := { until_ := p.hold.until_.set q none } })) :=
  (exec_pauseHoldEnd st d s k q).trans <| congrArg Host.Outcome.next <|
    modPort_congr (by simp only [hq, if_pos hu])

theorem exec_pauseRepeat_of_pause_due (hx : (port st .client s k).flow.xoff = true)
    (hpfc : (port st .client s k).flow.pfcXoff = 0) (ht : (port st .client s k).flow.nextRep ≤ elNs st) :
    exec (.pauseRepeat s k) st =
      .next (sendControl (modPort st .client s k (fun p => { p with flow := { p.flow with
          nextRep := (port st .client s k).flow.nextRep + repeatNs st s k } })) s k
        (pauseBody (fldA st (Reg.pcsFcCtl s 0 k) Fld.pcsFcCtl_QUANTA))) := by
  simp [exec_pauseRepeat, execPauseRepeat, hx, hpfc, ht]

theorem exec_headroomMeasure_of_unfrozen {ns : Nat} (hm : (port st .client s k).flow.measuring = true)
    (hf : flagA st (Reg.pcsFcCtl s 0 k) Fld.pcsFcCtl_FRZ_HR = false) :
    exec (.headroomMeasure s k ns) st =
      .next (fcUpdate (keepHeadroom (modPort st .client s k (fun p => { p with flow := { p.flow with
        measuring := false, resp := (ns :: p.flow.resp).take 16 } })) s k) s k) := by
  simp [exec_headroomMeasure, execHeadroomMeasure, hm, hf]

end Flow

/-- Settles O9: a good PAUSE frame counts at the pin, which moves registers and the performance unit alone, and sets the
holds of its port; the other clauses are the equations above. -/
theorem flowControlFollowsPauseFrames : Obligations.FlowControlFollowsPauseFrames := by
  intro st s k
  refine ⟨?pause, fun d q u => exec_pauseHoldEnd_of_due, exec_pauseRepeat_of_pause_due,
    fun ns => exec_headroomMeasure_of_unfrozen⟩
  intro d f hon hpause hmac hhonour
  have hexec := exec_rxPauseFrame_of_good hon (by simp [hpause]) hmac
  obtain ⟨regs, pmu, hpin⟩ : ∃ regs pmu,
      bwFrame st d s k false (f.bytes.length + 4) = { st with regs := regs, pmu := pmu } :=
    ⟨_, _, bwFrame_only st d s k false _⟩
  rw [hpin, takePause_of_honoured (st := { st with regs := regs, pmu := pmu }) hhonour] at hexec
  refine ⟨_, hexec, rfl, rfl, rfl, fun r hr => ?_, fun q => ?_⟩
  · exact sl_modSl_ne _ s r _ hr
  · rw [port_modPort_self]
    exact holdFor_of_pause hpause q

/-! ### The fault injector of a line port (02 R110 to R112) -/

theorem pickCode_of_no_cause (st : State) {causes : List (Bool × Nat)} (h : ∀ c ∈ causes, c.1 = false) :
    pickCode st causes = (0, st) := by
  have hnone : causes.filter (fun c => c.1) = [] := by simpa using h
  simp [pickCode, hnone]

/-- A write of the one strobe of PCS_FI_CMD sets its bit alone: bit 31 is ARM, bit 30 DISARM. -/
theorem armWord_bits : bitW (word [(Fld.pcsFiCmd_ARM, 1), (Fld.pcsFiCmd_DISARM, b2n false)]) 31 = true ∧
    bitW (word [(Fld.pcsFiCmd_ARM, 1), (Fld.pcsFiCmd_DISARM, b2n false)]) 30 = false := by decide
theorem disarmWord_bits : bitW (word [(Fld.pcsFiCmd_ARM, b2n false), (Fld.pcsFiCmd_DISARM, 1)]) 31 = false ∧
    bitW (word [(Fld.pcsFiCmd_ARM, b2n false), (Fld.pcsFiCmd_DISARM, 1)]) 30 = true := by decide

section Injector
variable {st : State} {s : SliceId} {k : PortIx}

section Strobe
variable {w : Word} (hl2 : isL2 st .line s k = true) (hlog : logFull st = false)
include hl2 hlog

theorem fiStrobe_arm (ha : bitW w 31 = true) (hd : bitW w 30 = false) (hun : (port st .line s k).fi.armed = false)
    (hact : getF (rdA st (Reg.pcsFiCfg s k)) Fld.pcsFiCfg_ACTION < 2) :
    fiStrobe s k w st =
      let cfg := rdA st (Reg.pcsFiCfg s k)
      let sel := rdA st (Reg.pcsFiSel s k)
      fiRecord (setF (modFi st s k (fun _ => { armed := true, cfg := cfg, sel := sel }))
        (Reg.pcsFiStat s k) Fld.pcsFiStat_RESULT 0) 33 (b2n (bitW cfg 29)) s k cfg sel := by
  have h2 : getF (rdA st (Reg.pcsFiCfg s k)) Fld.pcsFiCfg_ACTION ≠ 2 := Nat.ne_of_lt hact
  have h3 : getF (rdA st (Reg.pcsFiCfg s k)) Fld.pcsFiCfg_ACTION ≠ 3 := Nat.ne_of_lt (Nat.lt_succ_of_lt hact)
  have hpick : pickCode st (fiCauses st s k true false) = (0, st) :=
    pickCode_of_no_cause st (by simp [fiCauses, hl2, hlog, hun, h2, h3])
  simp [fiStrobe, ha, hd, hpick]

theorem fiStrobe_disarm_of_none_held (ha : bitW w 31 = false) (hd : bitW w 30 = true)
    (harm : (port st .line s k).fi.armed = true) (hheld : (port st .line s k).fiHeld = []) :
    fiStrobe s k w st =
      fiRecord (setF (modPort st .line s k (fun p => { p with fi := { p.fi with armed := false }, fiHeld := [] }))
        (Reg.pcsFiStat s k) Fld.pcsFiStat_RESULT 0) 34 (b2n (bitW (port st .line s k).fi.cfg 29)) s k
        (port st .line s k).fi.cfg (port st .line s k).fi.sel := by
  have hpick : pickCode st (fiCauses st s k false true) = (0, st) :=
    pickCode_of_no_cause st (by simp [fiCauses, hl2, hlog, harm])
  simp [fiStrobe, ha, hd, hpick, hheld]

end Strobe

theorem exec_fiArm_of_atOnce {other : Bool} (h : atOnce st (Reg.pcsFiCmd s k) = true) :
    exec (.fiArm s k other) st =
      .next (settle (fiStrobe s k (word [(Fld.pcsFiCmd_ARM, 1), (Fld.pcsFiCmd_DISARM, b2n other)]) st) s) := by
  simp only [exec_fiArm, execFiArm, viaPF_atOnce _ _ _ _ h, fiCmd]

theorem exec_fiDisarm_of_atOnce {other : Bool} (h : atOnce st (Reg.pcsFiCmd s k) = true) :
    exec (.fiDisarm s k other) st =
      .next (settle (fiStrobe s k (word [(Fld.pcsFiCmd_ARM, b2n other), (Fld.pcsFiCmd_DISARM, 1)]) st) s) := by
  simp only [exec_fiDisarm, execFiDisarm, viaPF_atOnce _ _ _ _ h, fiCmd]

theorem exec_fiHoldRelease_of_only_held {f : EgrFrame} {m u : Nat} (hh : (port st .line s k).fiHeld = [(.tx f, m, u)])
    (hu : u ≤ elNs st) :
    exec (.fiHoldRelease s k) st =
      .next (settle (releaseTx s k (modPort st .line s k (fun p => { p with fiHeld := [] })) (.tx f)) s) := by
  have herase : modPort st .line s k (fun p => { p with fiHeld := p.fiHeld.eraseP (fun h => decide (h.2.2 ≤ elNs st)) }) =
      modPort st .line s k (fun p => { p with fiHeld := [] }) :=
    modPort_congr (by simp [hh, hu])
  simp [exec_fiHoldRelease, execFiHoldRelease, hh, hu, herase]

end Injector

/-- Settles O10: no cause of Table 2-7 applies, so the strobe takes effect at once. -/
theorem lineFaultInjectorArmsAndDisarms : Obligations.LineFaultInjectorArmsAndDisarms := by
  intro st s k hl2
  refine ⟨fun hopen hlog => ⟨fun hun hact => ?arm, fun harm hheld => ?disarm⟩,
    fun f m u => exec_fiHoldRelease_of_only_held⟩
  case arm =>
    obtain ⟨hset, hclear⟩ := armWord_bits
    rw [exec_fiArm_of_atOnce hopen, fiStrobe_arm hl2 hlog hset hclear hun hact]
  case disarm =>
    obtain ⟨hclear, hset⟩ := disarmWord_bits
    rw [exec_fiDisarm_of_atOnce hopen, fiStrobe_disarm_of_none_held hl2 hlog hclear hset harm hheld]

end Sys2Proof.Machine
end

section
/-!
PROOFS. The instance map, the key extractors, the rule commands and the versions of 03 and 04: what a command register reads
once its command has completed, what a block of registers reads once a list of words has been stored there, one equation per
outcome of each command, and O11 put together from them.
-/
namespace Sys2Proof.Machine

/-! ### A command register after its command has completed (18 R644) -/

section Completed
variable {st : State} {a : Nat} {res op : Field} {w : Word} {code : Nat}

theorem fld_cmdDone_result (h : res.ok = true) :
    fld (cmdDone st a res op w code) a res = code % 2 ^ (res.hi - res.lo + 1) := by
  simp only [fld, cmdDone, rd_wr_self, getF_putF_self _ _ _ h]

theorem fld_cmdDone_busy (h : res.ok = true) (hb : res.apart busyF = true) :
    fld (cmdDone st a res op w code) a busyF = 0 := by
  have hbusy : busyF.ok = true := by decide
  simp only [fld, cmdDone, rd_wr_self, getF_putF_ne _ _ _ _ h hbusy hb, getF_putF_self _ _ _ hbusy, Nat.zero_mod]

theorem rd_cmdDone_ne {b : Nat} (h : b ≠ a) : rd (cmdDone st a res op w code) b = rd st b :=
  rd_wr_ne _ _ _ _ h

end Completed

/-! ### A list of words stored to a block of registers -/

/-- The words of `ws` stored to the registers `a k`, `a (k + 1)` and so on. -/
def storeWords (a : Nat → Nat) (ws : List Word) (k : Nat) (st : State) : State :=
  (ws.zipIdx k).foldl (fun st p => wr st (a p.2) p.1) st

section StoreWords
variable {a : Nat → Nat} {i k : Nat} {v : Word}

theorem storeWords_cons (ws : List Word) (st : State) :
    storeWords a (v :: ws) k st = storeWords a ws (k + 1) (wr st (a k) v) := rfl

theorem storeWords_only (ws : List Word) (st : State) :
    storeWords a ws k st = { st with regs := (storeWords a ws k st).regs } := by
  induction ws generalizing k st with
  | nil => rfl
  | cons x ws ih => exact ih (wr st (a k) x)

theorem rd_storeWords_below (ha : Function.Injective a) (ws : List Word) (st : State) (hi : i < k) :
    rd (storeWords a ws k st) (a i) = rd st (a i) := by
  induction ws generalizing k st with
  | nil => rfl
  | cons x ws ih =>
    rw [storeWords_cons, ih _ (Nat.lt_succ_of_lt hi), rd_wr_ne _ _ _ _ (ha.ne (Nat.ne_of_lt hi))]

theorem rd_storeWords (ha : Function.Injective a) (ws : List Word) (st : State) (hi : ws[i]? = some v) :
    rd (storeWords a ws k st) (a (k + i)) = v := by
  induction ws generalizing i k st with
  | nil => simp at hi
  | cons x ws ih =>
    cases i with
    | zero =>
      obtain rfl : x = v := by simpa using hi
      exact (rd_storeWords_below ha ws _ (Nat.lt_succ_self k)).trans (rd_wr_self st (a k) x)
    | succ i =>
      rw [storeWords_cons, ← Nat.succ_add_eq_add_succ k i]
      exact ih (wr st (a k) x) (by simpa using hi)

end StoreWords

/-! ### The instance map (03 R148) -/

/-- The fields of a command word for the map are the operands it was made of. -/
theorem imapWord_fields (op : Nat) (d : Side) (k : PortIx) (vid : BitVec 12) (i : InstId) :
    getF (imapWord op d k vid i) Fld.prsImapCmd_OP = op % 4 ∧
    sideOfBit (getF (imapWord op d k vid i) Fld.prsImapCmd_SIDE) = d ∧
    Fin.ofNat 8 (getF (imapWord op d k vid i) Fld.prsImapCmd_PORT) = k ∧
    getF (imapWord op d k vid i) Fld.prsImapCmd_VID = vid.toNat ∧
    getF (imapWord op d k vid i) Fld.prsImapCmd_INST = i.val := by
  simp (disch := decide) only [imapWord, word, List.foldl_cons, List.foldl_nil, getF_putF_self, getF_putF_ne]
  refine ⟨rfl, ?side, ?port, Nat.mod_eq_of_lt vid.isLt, Nat.mod_eq_of_lt i.isLt⟩
  case side => cases d <;> rfl
  case port => exact Fin.ext ((Nat.mod_mod _ _).trans (Nat.mod_eq_of_lt k.isLt))

section InstanceMap
variable {st : State} {s : SliceId} {d : Side} {k : PortIx} {vid : BitVec 12} {i : InstId}

theorem imapCmd_read :
    imapCmd s (imapWord 1 d k vid i) st =
      imapDone s (putF (imapWord 1 d k vid i) Fld.prsImapCmd_INST ((sl st s).imap.getD (imapKey d k vid.toNat) 0)) 0 st := by
  obtain ⟨hop, hside, hport, hvid, -⟩ := imapWord_fields 1 d k vid i
  simp only [imapCmd, hop, hside, hport, hvid]

theorem imapCmd_write_of_enabled (hi : i ≠ 0) (hn : i.val < st.img.content.ni) (hen : (portCfg st d s k).enabled = true) :
    imapCmd s (imapWord 2 d k vid i) st =
      imapDone s (imapWord 2 d k vid i) 0
        (modSl st s (fun x => { x with imap := x.imap.put (imapKey d k vid.toNat) i.val })) := by
  obtain ⟨hop, hside, hport, hvid, hinst⟩ := imapWord_fields 2 d k vid i
  have hi0 : i.val ≠ 0 := fun h => hi (Fin.ext h)
  have hok : ¬ (!(portCfg st d s k).enabled || decide (st.img.content.ni ≤ i.val)) = true := by
    simp [hen, hn]
  simp only [imapCmd, hop, hside, hport, hvid, hinst, if_neg hok, if_neg hi0]

theorem exec_prsImapRead_of_open (h : cmdOpen st (Reg.prsImapCmd s) = true) :
    exec (.prsImapRead s d k vid) st = .next (imapDone s
      (putF (imapWord 1 d k vid 0) Fld.prsImapCmd_INST ((sl st s).imap.getD (imapKey d k vid.toNat) 0)) 0 st) :=
  congrArg Host.Outcome.next ((cmdPF_open _ _ _ _ _ h).trans imapCmd_read)

theorem exec_prsImapWrite_of_open (h : cmdOpen st (Reg.prsImapCmd s) = true) (hi : i ≠ 0) (hn : i.val < st.img.content.ni)
    (hen : (portCfg st d s k).enabled = true) :
    exec (.prsImapWrite s d k vid i) st = .next (imapDone s (imapWord 2 d k vid i) 0
      (modSl st s (fun x => { x with imap := x.imap.put (imapKey d k vid.toNat) i.val }))) :=
  congrArg Host.Outcome.next ((cmdPF_open _ _ _ _ _ h).trans (imapCmd_write_of_enabled hi hn hen))

end InstanceMap

/-! ### Key extractors (04 R153) -/

theorem exec_clsKprofWrite_of_empty {st : State} {s : SliceId} {d : Side} {e : Fin 14} {v : Word}
    (h : atOnce st (Reg.clsKprof s (sideNum d) e) = true) (hu : rulesUsed st s d = 0) :
    exec (.clsKprofWrite s d e v) st = .next (wr st (Reg.clsKprof s (sideNum d) e) (v &&& 0xFF)) :=
  congrArg Host.Outcome.next ((viaPF_atOnce _ _ _ _ h).trans (if_neg (not_not_intro hu)))

/-! ### Rule commands (04 R168, R173, R185) -/

/-- The word that a rule command writes to CLS_RULE_CMD. -/
def ruleWord (op : Nat) (ix : BitVec 13) : Word := word [(Fld.clsRuleCmd_OP, op), (Fld.clsRuleCmd_INDEX, ix.toNat)]

/-- The 36 words of CLS_RDATA that describe an entry (R185). -/
def entryWords (r : RuleEnt) : List Word :=
  ruleBits r ++
    [word [(Fld.clsRdata_VALID, 1), (Fld.clsRdata_ADD_DONE, b2n r.addDone), (Fld.clsRdata_RETIRED, b2n r.retired),
      (Fld.clsRdata_PRIO, r.prio.toNat)],
     word [(Fld.clsRdata_ADD_VER, r.addVer.toNat), (Fld.clsRdata_DEL_VER, if r.retired then r.delVer.toNat else 0)],
     r.act, BitVec.ofNat 32 r.chan.val]

theorem ruleBits_length (r : RuleEnt) : (ruleBits r).length = 32 := by simp [ruleBits]

theorem entryWords_bits (r : RuleEnt) {i : Nat} (hi : i < 32) : (entryWords r)[i]? = some ((ruleBits r).getD i 0) := by
  have hlt : i < (ruleBits r).length := (ruleBits_length r).symm ▸ hi
  simp [entryWords, List.getElem?_append_left hlt, List.getElem?_eq_getElem hlt]

theorem entryWords_act (r : RuleEnt) : (entryWords r)[34]? = some r.act := by
  simp [entryWords, ruleBits_length]

theorem entryWords_chan (r : RuleEnt) : (entryWords r)[35]? = some (BitVec.ofNat 32 r.chan.val) := by
  simp [entryWords, ruleBits_length]

theorem clsRdata_injective (i j : Nat) : Function.Injective (Reg.clsRdata i j) := fun x y h => by
  simp only [Reg.clsRdata] at h
  omega

theorem clsRdata_ne_clsRuleCmd (i j x : Nat) : Reg.clsRdata i j x ≠ Reg.clsRuleCmd i j := by
  simp only [Reg.clsRdata, Reg.clsRuleCmd]
  omega

section RuleCommands
variable {st : State} {s : SliceId} {d : Side} {ix : BitVec 13} {r : RuleEnt}

theorem ruleDone_only (w : Word) (code : Nat) (st : State) :
    ruleDone s d w code st = { st with regs := (ruleDone s d w code st).regs } := cmdDone_only _ _ _ _ _ _

theorem fld_ruleDone_result (w : Word) (st : State) :
    fld (ruleDone s d w 0 st) (Reg.clsRuleCmd s (sideNum d)) Fld.clsRuleCmd_RESULT = 0 :=
  (fld_cmdDone_result (by decide)).trans (Nat.zero_mod _)

theorem fld_ruleDone_busy (w : Word) (code : Nat) (st : State) :
    fld (ruleDone s d w code st) (Reg.clsRuleCmd s (sideNum d)) busyF = 0 :=
  fld_cmdDone_busy (by decide) (by decide)

theorem rd_ruleDone_clsRdata (w : Word) (code : Nat) (st : State) (i : Nat) :
    rd (ruleDone s d w code st) (Reg.clsRdata s (sideNum d) i) = rd st (Reg.clsRdata s (sideNum d) i) :=
  rd_cmdDone_ne (clsRdata_ne_clsRuleCmd _ _ _)

theorem ruleRead_of_entry {n : Nat} {w : Word} (hr : (ruleTbl st s d).get? n = some r) :
    ruleRead s d n w st = ruleDone s d w 0 (storeWords (Reg.clsRdata s (sideNum d)) (entryWords r) 0 st) := by
  simp only [ruleRead, hr, storeWords, entryWords]

/-- After a READ, word `i` of CLS_RDATA is word `i` of the entry. -/
theorem rd_ruleRead_of_entry {n i : Nat} {w v : Word} (hr : (ruleTbl st s d).get? n = some r)
    (hv : (entryWords r)[i]? = some v) : rd (ruleRead s d n w st) (Reg.clsRdata s (sideNum d) i) = v := by
  have h := rd_storeWords (k := 0) (clsRdata_injective s (sideNum d)) (entryWords r) st hv
  rwa [ruleRead_of_entry hr, rd_ruleDone_clsRdata, ← Nat.zero_add i]

theorem ruleRead_of_entry_only {n : Nat} {w : Word} (hr : (ruleTbl st s d).get? n = some r) :
    ruleRead s d n w st = { st with regs := (ruleRead s d n w st).regs } := by
  rw [ruleRead_of_entry hr, ruleDone_only, storeWords_only]

theorem ruleOp_of_open {op : Nat} {eff : Word → State → State} (h : cmdOpen st (Reg.clsRuleCmd s (sideNum d)) = true) :
    ruleOp op s d ix eff st = .next (eff (ruleWord op ix) st) :=
  congrArg Host.Outcome.next (cmdPF_open _ _ _ _ _ h)

variable (hopen : cmdOpen st (Reg.clsRuleCmd s (sideNum d)) = true)
include hopen

theorem exec_ruleRead_of_open : exec (.ruleRead s d ix) st = .next (ruleRead s d ix.toNat (ruleWord 1 ix) st) :=
  ruleOp_of_open hopen

theorem exec_ruleWrite_of_no_cause (hcode : ruleWriteCode st s d ix.toNat (rdataRule st s d) = 0) :
    exec (.ruleWrite s d ix) st = .next (ruleDone s d (ruleWord 2 ix) 0
      (modRules st s d (fun m => m.put ix.toNat (rdataRule st s d)))) :=
  (ruleOp_of_open hopen).trans (by simp [ruleWrite, hcode])

theorem exec_ruleRetire_of_settled (hr : (ruleTbl st s d).get? ix.toNat = some r)
    (hinst : instRefusal st (instOfNat (ruleInst r)) = 0) (hpend : pendWrite st s r = false) (hret : r.retired = false) :
    exec (.ruleRetire s d ix) st = .next (ruleDone s d (ruleWord 3 ix) 0
      (modRules st s d (fun m => m.put ix.toNat { r with retired := true, delVer := (sl st s).current }))) :=
  (ruleOp_of_open hopen).trans (by simp [ruleRetire, hr, hinst, hpend, hret])

theorem exec_ruleCancel_of_pendWrite (hr : (ruleTbl st s d).get? ix.toNat = some r)
    (hinst : instRefusal st (instOfNat (ruleInst r)) = 0) (hpend : pendWrite st s r = true) :
    exec (.ruleCancel s d ix) st = .next (ruleDone s d (ruleWord 4 ix) 0
      (modRules st s d (fun m => m.del ix.toNat))) :=
  (ruleOp_of_open hopen).trans (by simp [ruleCancel, hr, hinst, hpend])

end RuleCommands

/-! ### Versions (04 R165, R169 to R171) -/

section Versions
variable {st : State} {s : SliceId}

theorem ruleBusy_of_idle (h0 : fld st (Reg.clsRuleCmd s 0) Fld.clsRuleCmd_BUSY = 0)
    (h1 : fld st (Reg.clsRuleCmd s 1) Fld.clsRuleCmd_BUSY = 0) : ruleBusy st s = false := by
  simp [ruleBusy, h0, h1]

theorem commitPF_of_idle {w : Word} (hopen : atOnce st (Reg.clsCommit s) = true) (hidle : ruleBusy st s = false) :
    commitPF s w st = commitStrobe s w st := by
  simp [commitPF, hidle, viaPF_atOnce _ _ _ _ hopen]

theorem commitStrobe_of_room {w : Word} (hw : getF w Fld.clsCommit_COMMIT = 1)
    (hroom : ((sl st s).current - (sl st s).oldest).toNat + (sl st s).commitPend < 3) :
    commitStrobe s w st = wr (modSl st s (fun x => { x with commitPend := x.commitPend + 1 })) (Reg.clsCommit s) 0 := by
  simp only [commitStrobe, hw, Nat.one_ne_zero, if_false, ge_iff_le, if_neg (Nat.not_le.mpr hroom)]

theorem exec_commit_of_idle (hopen : atOnce st (Reg.clsCommit s) = true) (hidle : ruleBusy st s = false)
    (hroom : ((sl st s).current - (sl st s).oldest).toNat + (sl st s).commitPend < 3) :
    exec (.commit s) st =
      .next (wr (modSl st s (fun x => { x with commitPend := x.commitPend + 1 })) (Reg.clsCommit s) 0) :=
  congrArg Host.Outcome.next ((commitPF_of_idle hopen hidle).trans (commitStrobe_of_room (by decide) hroom))

theorem exec_commitApply_of_pending (h : (sl st s).commitPend ≠ 0) :
    exec (.commitApply s) st = .next (versionRetire (modSl st s (fun x =>
      { x with commitPend := x.commitPend - 1, current := x.current + 1 })) s) :=
  congrArg Host.Outcome.next (if_neg h)

end Versions

/-- Settles O11: a READ of a rule is told by the registers it leaves; every other clause is the equation above of its
command's outcome. -/
theorem ruleCommandsAndCommitsActAsTheirOp : Obligations.RuleCommandsAndCommitsActAsTheirOp := by
  refine ⟨fun st s d => ⟨?imap, fun e v => exec_clsKprofWrite_of_empty, ?rules⟩, fun st s => ⟨?commit,
    exec_commitApply_of_pending⟩⟩
  case imap =>
    intro hopen k vid
    exact ⟨exec_prsImapRead_of_open hopen, fun i => exec_prsImapWrite_of_open hopen⟩
  case rules =>
    intro hopen ix w
    refine ⟨fun r hr => ⟨_, exec_ruleRead_of_open hopen, ruleRead_of_entry_only hr,
      fun i hi => rd_ruleRead_of_entry hr (entryWords_bits r hi), rd_ruleRead_of_entry hr (entryWords_act r),
      rd_ruleRead_of_entry hr (entryWords_chan r), ?result, ?busy⟩, exec_ruleWrite_of_no_cause hopen,
      fun r hr hinst => ⟨exec_ruleRetire_of_settled hopen hr hinst, exec_ruleCancel_of_pendWrite hopen hr hinst⟩⟩
    case result => rw [ruleRead_of_entry hr, fld_ruleDone_result]
    case busy => rw [ruleRead_of_entry hr, fld_ruleDone_busy]
  case commit =>
    intro hopen hroom hidle0 hidle1
    exact exec_commit_of_idle hopen (ruleBusy_of_idle hidle0 hidle1) hroom

end Sys2Proof.Machine
end

section
/-!
PROOFS. The winning rule of 04: a well-formed sparse store as a list of strictly rising indices, the winning rule as the
outcome of one pass over that list, told by what one more entry at its end changes, and O12 put together from them.
-/
namespace Sys2Proof.Machine

/-! ### A well-formed store is a list of strictly rising indices, and it holds exactly its entries -/

section RisingStore
variable {α : Type} {m : NMap α}

theorem forall_mem_lt_iff_head (hm : m.Pairwise (fun p q => p.1 < q.1)) (k : Nat) :
    (∀ q ∈ m, k < q.1) ↔ ∀ q ∈ m.head?, k < q.1 := by
  cases hm with
  | nil => simp only [List.not_mem_nil, List.head?_nil, Option.mem_def, reduceCtorEq, false_implies, implies_true]
  | cons hr _ =>
    rw [List.forall_mem_cons, List.head?_cons]
    constructor
    · rintro ⟨hk, -⟩ q hq
      exact Option.mem_some.mp hq ▸ hk
    · intro h
      have hk := h _ rfl
      exact ⟨hk, fun q hq => Nat.lt_trans hk (hr q hq)⟩

theorem NMap.wf_iff_pairwise : m.wf = true ↔ m.Pairwise (fun p q => p.1 < q.1) := by
  induction m with
  | nil => exact ⟨fun _ => List.Pairwise.nil, fun _ => rfl⟩
  | cons p m ih =>
    rw [NMap.wf_cons, List.pairwise_cons, ih]
    exact and_congr_left fun hm => (forall_mem_lt_iff_head hm p.1).symm

theorem NMap.get?_eq_some_iff_mem (hwf : m.wf = true) {k : Nat} {v : α} : m.get? k = some v ↔ (k, v) ∈ m := by
  rw [NMap.wf_iff_pairwise] at hwf
  induction m with
  | nil => simp
  | cons p m ih =>
    obtain ⟨hp, hm⟩ := List.pairwise_cons.mp hwf
    rw [NMap.get?_cons, List.mem_cons]
    split
    case isTrue hk =>
      have hlater : (k, v) ∉ m := fun hmem => absurd (hp _ hmem) (by simp [hk])
      simp [hlater, Prod.ext_iff, hk, eq_comm]
    case isFalse hk =>
      have hne : (k, v) ≠ p := fun h => hk (h ▸ rfl)
      simp [hne, ih hm]

end RisingStore

/-! ### The winning rule (04 R155) -/

/-- The rule takes part in the choice for this key under this version: intact (20 R702), it applies and it matches. -/
def takesKey (key : BitVec 512) (v : BitVec 16) (r : RuleEnt) : Bool := !r.bad && applies r v && keyMatches r key

/-- The order of R155: a larger PRIO, or the same PRIO and a lower index. -/
def outranks (p q : Nat × RuleEnt) : Prop := q.2.prio < p.2.prio ∨ (q.2.prio = p.2.prio ∧ p.1 < q.1)

/-- `p` is an entry of the list that takes part and outranks every other entry that does. -/
def wins (m : List (Nat × RuleEnt)) (key : BitVec 512) (v : BitVec 16) (p : Nat × RuleEnt) : Prop :=
  p ∈ m ∧ takesKey key v p.2 = true ∧ ∀ q ∈ m, takesKey key v q.2 = true → q ≠ p → outranks p q

/-- Induction along a list from its end, the way a left fold meets its entries. -/
theorem list_induction_from_end {α : Type} {motive : List α → Prop} (nil : motive [])
    (concat : ∀ m p, motive m → motive (m ++ [p])) (m : List α) : motive m := by
  rw [← List.reverse_reverse m]
  induction m.reverse with
  | nil => exact nil
  | cons p m ih => exact List.reverse_cons ▸ concat m.reverse p ih

section WinningRule
variable {m : List (Nat × RuleEnt)} {key : BitVec 512} {v : BitVec 16} {p b : Nat × RuleEnt}

theorem pickRule_concat_of_not_takes (h : takesKey key v p.2 = false) :
    pickRule (m ++ [p]) key v = pickRule m key v := by
  rw [takesKey] at h
  simp only [pickRule, List.foldl_append, List.foldl_cons, List.foldl_nil, h, Bool.false_eq_true, if_false]

/-- An entry that takes part, met after a list: the best of the list gives way to a smaller PRIO only. -/
theorem pickRule_concat_of_takes (h : takesKey key v p.2 = true) :
    pickRule (m ++ [p]) key v =
      some ((pickRule m key v).elim p (fun b => if b.2.prio < p.2.prio then p else b)) := by
  rw [takesKey] at h
  simp only [pickRule, List.foldl_append, List.foldl_cons, List.foldl_nil, h, if_true]
  split
  case h_1 b hb => simp only [hb, Option.elim_some, apply_ite some]
  case h_2 hb => simp only [hb, Option.elim_none]

theorem pickRule_eq_none_iff : pickRule m key v = none ↔ ∀ q ∈ m, takesKey key v q.2 = false := by
  induction m using list_induction_from_end with
  | nil => simp [pickRule]
  | concat m p ih =>
    cases hp : takesKey key v p.2 with
    | false =>
      rw [pickRule_concat_of_not_takes hp, ih, List.forall_mem_append, List.forall_mem_singleton]
      exact (and_iff_left hp).symm
    | true =>
      rw [pickRule_concat_of_takes hp, List.forall_mem_append, List.forall_mem_singleton]
      simp [hp]

theorem wins_concat_of_not_takes (hb : wins m key v b) (hp : takesKey key v p.2 = false) : wins (m ++ [p]) key v b := by
  obtain ⟨hmem, htakes, hbest⟩ := hb
  refine ⟨List.mem_append_left _ hmem, htakes, List.forall_mem_append.mpr ⟨hbest, List.forall_mem_singleton.mpr ?_⟩⟩
  intro h
  simp [hp] at h

theorem wins_concat_of_outranks (hb : wins m key v b) (hp : outranks b p) : wins (m ++ [p]) key v b := by
  obtain ⟨hmem, htakes, hbest⟩ := hb
  exact ⟨List.mem_append_left _ hmem, htakes,
    List.forall_mem_append.mpr ⟨hbest, List.forall_mem_singleton.mpr fun _ _ => hp⟩⟩

theorem wins_concat_last (hp : takesKey key v p.2 = true)
    (hm : ∀ q ∈ m, takesKey key v q.2 = true → outranks p q) : wins (m ++ [p]) key v p :=
  ⟨List.mem_append_right _ (List.mem_singleton_self p), hp,
    List.forall_mem_append.mpr ⟨fun q hq ht _ => hm q hq ht, List.forall_mem_singleton.mpr fun _ h => absurd rfl h⟩⟩

/-- An entry of a larger PRIO than the winner outranks all that take part. -/
theorem outranks_of_wins_of_lt (hb : wins m key v b) (hlt : b.2.prio < p.2.prio) :
    ∀ q ∈ m, takesKey key v q.2 = true → outranks p q := by
  obtain ⟨-, -, hbest⟩ := hb
  intro q hq htakes
  left
  by_cases hqb : q = b
  · exact hqb ▸ hlt
  · obtain hprio | ⟨hprio, -⟩ := hbest q hq htakes hqb
    · exact BitVec.lt_trans hprio hlt
    · exact hprio ▸ hlt

/-- R155, for a table in rising order of index. -/
theorem wins_of_pickRule (hm : m.Pairwise (fun p q => p.1 < q.1)) (h : pickRule m key v = some p) :
    wins m key v p := by
  induction m using list_induction_from_end generalizing p with
  | nil => simp [pickRule] at h
  | concat m l ih =>
    obtain ⟨hrise, -, hlast⟩ := List.pairwise_append.mp hm
    cases hl : takesKey key v l.2 with
    | false => exact wins_concat_of_not_takes (ih hrise (pickRule_concat_of_not_takes hl ▸ h)) hl
    | true =>
      rw [pickRule_concat_of_takes hl, Option.some_inj] at h
      cases hbest : pickRule m key v with
      | none =>
        obtain rfl : l = p := by simpa [hbest] using h
        exact wins_concat_last hl fun q hq htakes => by simp [pickRule_eq_none_iff.mp hbest q hq] at htakes
      | some b =>
        have hb := ih hrise hbest
        simp only [hbest, Option.elim_some] at h
        split at h
        case isTrue hlt => exact h ▸ wins_concat_last hl (outranks_of_wins_of_lt hb hlt)
        case isFalse hge =>
          have ⟨hmem, _⟩ := hb
          have hidx : b.1 < l.1 := hlast b hmem l (List.mem_singleton_self l)
          have hrank : outranks b l :=
            (Nat.lt_or_eq_of_le (BitVec.not_lt.mp hge)).imp_right fun heq => ⟨BitVec.eq_of_toNat_eq heq, hidx⟩
          exact h ▸ wins_concat_of_outranks hb hrank

end WinningRule

/-- Settles O12: in a well-formed table what is stored at an index is what is an entry of the list, and of that list
`wins_of_pickRule` and `pickRule_eq_none_iff` say which rule the pass picks. -/
theorem winningRuleHasLargestPriorityThenLowestIndex : Obligations.WinningRuleHasLargestPriorityThenLowestIndex := by
  intro m key v hwf
  refine ⟨fun ix r hpick => ?some, ?none⟩
  case some =>
    obtain ⟨hmem, htakes, hbest⟩ := wins_of_pickRule (NMap.wf_iff_pairwise.mp hwf) hpick
    refine ⟨(NMap.get?_eq_some_iff_mem hwf).mpr hmem, htakes, fun jx q hq hq_takes hne => ?_⟩
    exact hbest (jx, q) ((NMap.get?_eq_some_iff_mem hwf).mp hq) hq_takes fun heq => hne (congrArg Prod.fst heq)
  case none =>
    rw [pickRule_eq_none_iff]
    exact ⟨fun hnone jx q hq => hnone (jx, q) ((NMap.get?_eq_some_iff_mem hwf).mp hq),
      fun hnone p hp => hnone p.1 p.2 ((NMap.get?_eq_some_iff_mem hwf).mpr hp)⟩

end Sys2Proof.Machine
end

section
/-!
PROOFS. The peer tables of 05: what a lookup by key answers where the parity is good, one equation per outcome of each table
command, a search along entries of good parity, and O13 put together from them.
-/
namespace Sys2Proof.Machine

/-! ### Lookups that meet no bad parity (05 R189, R206, R210) -/

section TableLookup
variable {st : State} {s : SliceId} {ix : Nat}

theorem macLookup_of_absent {k : MacKey} (hf : macFind st (sl st s).mac k = none) : macLookup st s k = (none, st) := by
  simp only [macLookup, hf]

theorem macLookup_of_good {k : MacKey} {g : MacEnt} (hf : macFind st (sl st s).mac k = some (ix, g))
    (hg : g.parOk = true) : macLookup st s k = (some (ix, g), st) := by
  simp only [macLookup, hf, hg, if_true]

theorem lpmByKey_of_absent {e : LpmEnt} (hf : lpmFind (sl st s).lpm e = none) : lpmByKey st s e = (none, st) := by
  simp only [lpmByKey, hf]

theorem lpmByKey_of_good {e g : LpmEnt} (hf : lpmFind (sl st s).lpm e = some (ix, g)) (hk : g.keyOk = true)
    (hr : g.resOk = true) : lpmByKey st s e = (some (ix, g), st) := by
  simp only [lpmByKey, hf, hk, hr, Bool.and_self, if_true]

end TableLookup

theorem tblOp_of_open {st : State} {s : SliceId} {w : Word} {eff : Word → State → State}
    (h : cmdOpen st (Reg.fwdTblCmd s) = true) : tblOp s w eff st = .next (eff w st) :=
  congrArg Host.Outcome.next (cmdPF_open _ _ _ _ _ h)

/-! ### Commands on the MAC peer table (05 R190, R215 to R217) -/

/-- The code of the causes 4 to 6 of R217 for the MAC entry that the data words describe. -/
def macEntryCode (st : State) (s : SliceId) : Nat :=
  entryCode st s (macOfData st s).key.inst true (some ((macOfData st s).lport, (macOfData st s).chan))

theorem macEntryCode_eq (st : State) (s : SliceId) : entryCode st s (macOfData st s).key.inst true
    (some ((macOfData st s).lport, (macOfData st s).chan)) = macEntryCode st s := rfl

section MacCommands
variable {st : State} {s : SliceId} {ix : Nat} {g : MacEnt} (hopen : cmdOpen st (Reg.fwdTblCmd s) = true)
include hopen

theorem exec_tblRead_mac_of_entry {i : BitVec 18} (he : (sl st s).mac.get? i.toNat = some g) (hg : g.parOk = true) :
    exec (.tblRead s .mac i) st = .next (tblDone s (tblWord 1 .mac i.toNat false) 0 (putData st s (macImage g))) := by
  have hi : ¬ tblSize .mac ≤ i.toNat := Nat.not_le.mpr i.isLt
  exact (tblOp_of_open hopen).trans (by simp only [tblRead, if_neg hi, he, hg, if_true])

theorem exec_tblRead_mac_of_free {i : BitVec 18} (he : (sl st s).mac.get? i.toNat = none) :
    exec (.tblRead s .mac i) st =
      .next (tblDone s (tblWord 1 .mac i.toNat false) 0 (putData st s (List.replicate 7 0))) := by
  have hi : ¬ tblSize .mac ≤ i.toNat := Nat.not_le.mpr i.isLt
  exact (tblOp_of_open hopen).trans (by simp only [tblRead, if_neg hi, he])

theorem exec_tblLookup_mac_of_good (hi : instExists st (macOfData st s).key.inst = true)
    (hf : macFind st (sl st s).mac (macOfData st s).key = some (ix, g)) (hg : g.parOk = true) :
    exec (.tblLookup s .mac) st = .next (tblFound s (tblWord 5 .mac 0 false) ix (macImage g) st) :=
  (tblOp_of_open hopen).trans (by simp [tblLookup, hi, macLookup_of_good hf hg])

theorem exec_tblLookup_mac_of_absent (hi : instExists st (macOfData st s).key.inst = true)
    (hf : macFind st (sl st s).mac (macOfData st s).key = none) :
    exec (.tblLookup s .mac) st = .next (tblDone s (tblWord 5 .mac 0 false) 2 st) :=
  (tblOp_of_open hopen).trans (by simp [tblLookup, hi, macLookup_of_absent hf])

section Delete
variable (hcode : entryCode st s (macOfData st s).key.inst true none = 0)
include hcode

theorem exec_tblDelete_mac_of_good (hf : macFind st (sl st s).mac (macOfData st s).key = some (ix, g))
    (hg : g.parOk = true) :
    exec (.tblDelete s .mac) st = .next (tblDone s (tblWord 4 .mac 0 false) 0 (modMac st s (fun m => m.del ix))) :=
  (tblOp_of_open hopen).trans (by simp [tblDelete, hcode, macLookup_of_good hf hg])

theorem exec_tblDelete_mac_of_absent (hf : macFind st (sl st s).mac (macOfData st s).key = none) :
    exec (.tblDelete s .mac) st = .next (tblDone s (tblWord 4 .mac 0 false) 2 st) :=
  (tblOp_of_open hopen).trans (by simp [tblDelete, hcode, macLookup_of_absent hf])

end Delete

theorem exec_tblInsert_mac_of_refused (hcode : macEntryCode st s ≠ 0) :
    exec (.tblInsert s .mac) st =
      .next (tblRefuse s (tblWord 3 .mac 0 false) (macEntryCode st s) (macOfData st s).key.inst st) :=
  (tblOp_of_open hopen).trans (by simp [tblInsert, macEntryCode_eq, hcode])

section Write
variable (hcode : macEntryCode st s = 0)
include hcode

theorem exec_tblWrite_mac_of_good (hf : macFind st (sl st s).mac (macOfData st s).key = some (ix, g))
    (hg : g.parOk = true) :
    exec (.tblWrite s .mac) st =
      .next (tblDone s (tblWord 2 .mac 0 false) 0 (modMac st s (fun m => m.put ix (macOfData st s)))) :=
  (tblOp_of_open hopen).trans (by simp [tblWrite, macEntryCode_eq, hcode, macLookup_of_good hf hg])

theorem exec_tblWrite_mac_of_absent (hf : macFind st (sl st s).mac (macOfData st s).key = none) :
    exec (.tblWrite s .mac) st = .next (tblDone s (tblWord 2 .mac 0 false) 2 st) :=
  (tblOp_of_open hopen).trans (by simp [tblWrite, macEntryCode_eq, hcode, macLookup_of_absent hf])

theorem exec_tblInsert_mac_of_good (hf : macFind st (sl st s).mac (macOfData st s).key = some (ix, g))
    (hg : g.parOk = true) :
    exec (.tblInsert s .mac) st = .next (tblDone s (tblWord 3 .mac 0 false) 3 st) :=
  (tblOp_of_open hopen).trans (by simp [tblInsert, macEntryCode_eq, hcode, macLookup_of_good hf hg])

theorem exec_tblInsert_mac_of_place (hf : macFind st (sl st s).mac (macOfData st s).key = none)
    (hp : macFree st (sl st s).mac (macOfData st s).key = some ix) :
    exec (.tblInsert s .mac) st =
      .next (tblDone s (tblWord 3 .mac 0 false) 0 (modMac st s (fun m => m.put ix (macOfData st s)))) :=
  (tblOp_of_open hopen).trans (by simp [tblInsert, macEntryCode_eq, hcode, macLookup_of_absent hf, hp])

theorem exec_tblInsert_mac_of_no_place (hf : macFind st (sl st s).mac (macOfData st s).key = none)
    (hp : macFree st (sl st s).mac (macOfData st s).key = none) :
    exec (.tblInsert s .mac) st = .next (tblDone s (tblWord 3 .mac 0 false) 4 st) :=
  (tblOp_of_open hopen).trans (by simp [tblInsert, macEntryCode_eq, hcode, macLookup_of_absent hf, hp])

end Write

end MacCommands

/-! ### Commands on the LPM table (05 R206, R207, R215 to R217) -/

section LpmCommands
variable {st : State} {s : SliceId} {ix : Nat} {g : LpmEnt} (hopen : cmdOpen st (Reg.fwdTblCmd s) = true)
include hopen

theorem exec_tblRead_lpm_of_entry {i : BitVec 18} (he : (sl st s).lpm.get? i.toNat = some g) (hi : i.toNat < 16384)
    (hk : g.keyOk = true) (hr : g.resOk = true) :
    exec (.tblRead s .lpm i) st = .next (tblDone s (tblWord 1 .lpm i.toNat false) 0 (putData st s (lpmImage g))) := by
  have hi' : ¬ tblSize .lpm ≤ i.toNat := Nat.not_le.mpr hi
  exact (tblOp_of_open hopen).trans (by simp only [tblRead, if_neg hi', he, hk, hr, Bool.and_self, if_true])

theorem exec_tblLookup_lpm_of_good (hi : instExists st (lpmOfData st s).inst = true)
    (hf : lpmBest (sl st s).lpm (lpmOfData st s).inst (lpmOfData st s).v4 (lpmOfData st s).addr = some (ix, g))
    (hk : g.keyOk = true) (hr : g.resOk = true) :
    exec (.tblLookup s .lpm) st = .next (tblFound s (tblWord 5 .lpm 0 false) ix (lpmImage g) st) :=
  (tblOp_of_open hopen).trans (by simp [tblLookup, hi, hf, hk, hr])

theorem exec_tblDelete_lpm_of_good
    (hcode : entryCode st s (lpmOfData st s).inst (lpmFormOk (lpmOfData st s)) none = 0)
    (hf : lpmFind (sl st s).lpm (lpmOfData st s) = some (ix, g)) (hk : g.keyOk = true) (hr : g.resOk = true) :
    exec (.tblDelete s .lpm) st = .next (tblDone s (tblWord 4 .lpm 0 false) 0 (modLpm st s (fun m => m.del ix))) :=
  (tblOp_of_open hopen).trans (by simp [tblDelete, hcode, lpmByKey_of_good hf hk hr])

section Write
variable (hcode : entryCode st s (lpmOfData st s).inst (lpmFormOk (lpmOfData st s))
  (some ((lpmOfData st s).lport, (lpmOfData st s).chan)) = 0)
include hcode

theorem exec_tblWrite_lpm_of_good (hf : lpmFind (sl st s).lpm (lpmOfData st s) = some (ix, g)) (hk : g.keyOk = true)
    (hr : g.resOk = true) :
    exec (.tblWrite s .lpm) st =
      .next (tblDone s (tblWord 2 .lpm 0 false) 0 (modLpm st s (fun m => m.put ix (lpmOfData st s)))) :=
  (tblOp_of_open hopen).trans (by simp [tblWrite, hcode, lpmByKey_of_good hf hk hr])

theorem exec_tblInsert_lpm_of_place {m : NMap LpmEnt} (hf : lpmFind (sl st s).lpm (lpmOfData st s) = none)
    (hlen : (sl st s).lpm.length < 16384)
    (hm : lpmPlace (sl st s).lpm (lpmOfData st s) (drawFree st).1 = some m) :
    exec (.tblInsert s .lpm) st =
      .next (tblDone s (tblWord 3 .lpm 0 false) 0 (modLpm (drawFree st).2 s (fun _ => m))) := by
  have hlpm : (sl (drawFree st).2 s).lpm = (sl st s).lpm := rfl
  exact (tblOp_of_open hopen).trans
    (by simp only [tblInsert, hcode, lpmByKey_of_absent hf, hlpm, hm, if_neg (Nat.not_le.mpr hlen), ne_eq,
      not_true_eq_false, if_false])

end Write

end LpmCommands

/-! ### FWD_TBL_MODE and MAINT (05 R214) -/

section Maint
variable {st : State} {s : SliceId}

/-- The word that a write to FWD_TBL_MODE carries. -/
def modeWord (m l : Bool) : Word :=
  word [(Fld.fwdTblMode_MAC_MAINT_REQ, b2n m), (Fld.fwdTblMode_LPM_MAINT_REQ, b2n l)]

theorem modeWord_bits : ∀ m l : Bool, (modeWord m l).getLsbD 31 = m ∧ (modeWord m l).getLsbD 30 = l := by decide

theorem modeWord_masked : ∀ m l : Bool, modeWord m l &&& 0xC0000000 = modeWord m l := by decide

theorem exec_fwdTblModeWrite_of_atOnce {m l : Bool} (h : atOnce st (Reg.fwdTblMode s) = true) :
    exec (.fwdTblModeWrite s m l) st = .next (tblModeWrite s (modeWord m l) st) :=
  congrArg Host.Outcome.next (viaPF_atOnce _ _ _ _ h)

theorem tblModeWrite_only (w : Word) : tblModeWrite s w st =
    { st with regs := (tblModeWrite s w st).regs, slices := (tblModeWrite s w st).slices } := rfl

theorem tblModeWrite_regsKept (w : Word) : regsKept [Reg.fwdTblMode s] st (tblModeWrite s w st) := fun a ha =>
  (rd_modSl _ _ _ a).trans (rd_wr_ne _ _ _ _ (List.ne_of_not_mem_cons ha))

/-- The request bits are the register's only writable ones, so it keeps the whole word. -/
theorem rd_tblModeWrite (m l : Bool) :
    rd (tblModeWrite s (modeWord m l) st) (Reg.fwdTblMode s) = modeWord m l := by
  simp only [tblModeWrite, rd_modSl, rd_wr_self, modeWord_masked]

theorem maint_tblModeWrite (m l : Bool) :
    (sl (tblModeWrite s (modeWord m l) st) s).maint[0] = ((sl st s).maint[0] && m) ∧
    (sl (tblModeWrite s (modeWord m l) st) s).maint[1] = ((sl st s).maint[1] && l) := by
  obtain ⟨hbit31, hbit30⟩ := modeWord_bits m l
  simp [tblModeWrite, bitW, -BitVec.getLsbD_eq_getElem, hbit31, hbit30]

theorem exec_maintEnter_of_requested {t : Tbl} (hreq : bitW (rd st (Reg.fwdTblMode s)) (31 - tblNum t) = true)
    (hm : (sl st s).maint[tblFin t] = false) :
    exec (.maintEnter s t) st = .next (modSl st s (fun x =>
      { x with maint := x.maint.set (tblFin t) true, search := x.search.set (tblFin t) none })) :=
  congrArg Host.Outcome.next (if_pos (by simp [hreq, hm]))

end Maint

/-! ### SEARCH, NEXT and the flushes (05 R215) -/

/-- A search latched: its data, its mask and the index from which NEXT goes on. -/
def latchSearch (st : State) (s : SliceId) (t : Tbl) (data mask : List Word) (n : Nat) : State :=
  modSl st s (fun x => { x with search := x.search.set (tblFin t) (some (data, mask, n)) })

section SearchRun
variable {st : State} {s : SliceId} {t : Tbl}

theorem foldl_parityError_of_good {es : List (Nat × List Word × Bool)} (hgood : ∀ p ∈ es, p.2.2 = true) (n : Nat) :
    es.foldl (fun st p => if !p.2.2 && decide (p.1 < n) then parityError st s t p.1 else st) st = st := by
  induction es with
  | nil => rfl
  | cons p es ih =>
    obtain ⟨hp, hes⟩ := List.forall_mem_cons.mp hgood
    simp only [List.foldl_cons, hp, Bool.not_true, Bool.false_and, Bool.false_eq_true, if_false]
    exact ih hes

theorem find?_good_of_all_good {es : List (Nat × List Word × Bool)} (hgood : ∀ p ∈ es, p.2.2 = true)
    (data mask : List Word) : es.find? (fun p => p.2.2 && imageMatches data mask p.2.1) =
      es.find? (fun p => imageMatches data mask p.2.1) := by
  induction es with
  | nil => rfl
  | cons p es ih =>
    obtain ⟨hp, hes⟩ := List.forall_mem_cons.mp hgood
    simp only [List.find?_cons, hp, Bool.true_and, ih hes]

theorem searchRun_of_hit {w : Word} {data mask : List Word} {from_ ix : Nat} {image : List Word}
    (hgood : ∀ p ∈ imagesFrom st s t from_, p.2.2 = true)
    (hhit : (imagesFrom st s t from_).find? (fun p => imageMatches data mask p.2.1) = some (ix, image, true)) :
    searchRun s t w data mask from_ st = tblFound s w ix image (latchSearch st s t data mask (ix + 1)) := by
  simp only [searchRun, find?_good_of_all_good hgood, hhit, foldl_parityError_of_good hgood, latchSearch]

end SearchRun

/-- The line port that the data words name, as FLUSH_PORT of a table reads them. -/
def dataPort (st : State) (s : SliceId) : Tbl → PortIx
  | .mac => (macOfData st s).lport
  | .lpm => (lpmOfData st s).lport

/-- The owner that the data words name, as FLUSH_INSTANCE of a table reads them. -/
def dataInst (st : State) (s : SliceId) : Tbl → InstId
  | .mac => (macOfData st s).key.inst
  | .lpm => (lpmOfData st s).inst

theorem tblWord_staticToo (op : Nat) (t : Tbl) (ix : Nat) (x : Bool) :
    (getF (tblWord op t ix x) Fld.fwdTblCmd_STATIC_TOO != 0) = x := by
  simp (disch := decide) only [tblWord, word, List.foldl_cons, List.foldl_nil, getF_putF_self, getF_putF_ne]
  cases x <;> rfl

theorem entryCode_of_no_result {st : State} {s : SliceId} {i : InstId} (hi : instExists st i = true)
    (hr : instRefusal st i = 0) : entryCode st s i true none = 0 := by
  simp [entryCode, hi, hr]

section MaintCommands
variable {st : State} {s : SliceId} {t : Tbl} (hopen : cmdOpen st (Reg.fwdTblCmd s) = true)
include hopen

section NoMaint
variable (hm : (sl st s).maint[tblFin t] = false)
include hm

theorem exec_search_of_no_maint {ix : BitVec 18} :
    exec (.search s t ix) st = .next (tblDone s (tblWord 6 t ix.toNat false) 5 st) :=
  (tblOp_of_open hopen).trans (by simp [tblSearch, hm])

theorem exec_next_of_no_maint : exec (.next s t) st = .next (tblDone s (tblWord 7 t 0 false) 5 st) :=
  (tblOp_of_open hopen).trans (by simp [tblNext, hm])

theorem exec_flushPort_of_no_maint {x : Bool} :
    exec (.flushPort s t x) st = .next (tblDone s (tblWord 8 t 0 x) 5 st) :=
  (tblOp_of_open hopen).trans (by simp [tblFlushPort, hm])

theorem exec_flushInstance_of_no_maint {x : Bool} :
    exec (.flushInstance s t x) st = .next (tblDone s (tblWord 9 t 0 x) 5 st) :=
  (tblOp_of_open hopen).trans (by simp [tblFlushInstance, hm])

end NoMaint

variable (hm : (sl st s).maint[tblFin t] = true)
include hm

theorem exec_search_of_hit {i : BitVec 18} {ix : Nat} {image : List Word} (hi : i.toNat < tblSize t)
    (hgood : ∀ p ∈ imagesFrom st s t i.toNat, p.2.2 = true)
    (hhit : (imagesFrom st s t i.toNat).find? (fun p =>
      imageMatches ((List.range 7).map (fun i => rd st (Reg.fwdTblData s i)))
        ((List.range 7).map (fun i => rd st (Reg.fwdTblMask s i))) p.2.1) = some (ix, image, true)) :
    exec (.search s t i) st = .next (tblFound s (tblWord 6 t i.toNat false) ix image
      (latchSearch st s t ((List.range 7).map (fun i => rd st (Reg.fwdTblData s i)))
        ((List.range 7).map (fun i => rd st (Reg.fwdTblMask s i))) (ix + 1))) :=
  (tblOp_of_open hopen).trans (by
    simp only [tblSearch, hm, Bool.not_true, Bool.false_eq_true, if_false, if_neg (Nat.not_le.mpr hi),
      searchRun_of_hit hgood hhit])

theorem exec_next_of_hit {data mask : List Word} {from_ ix : Nat} {image : List Word}
    (hs : (sl st s).search[tblFin t] = some (data, mask, from_))
    (hgood : ∀ p ∈ imagesFrom st s t from_, p.2.2 = true)
    (hhit : (imagesFrom st s t from_).find? (fun p => imageMatches data mask p.2.1) = some (ix, image, true)) :
    exec (.next s t) st =
      .next (tblFound s (tblWord 7 t 0 false) ix image (latchSearch st s t data mask (ix + 1))) :=
  (tblOp_of_open hopen).trans (by
    simp only [tblNext, hm, Bool.not_true, Bool.false_eq_true, if_false, hs, searchRun_of_hit hgood hhit])

theorem exec_flushPort_of_l2 {x : Bool} (hl2 : isL2 st .line s (dataPort st s t) = true) :
    exec (.flushPort s t x) st = .next (flushWhere s t x (fun e => e.lport == dataPort st s t)
      (fun e => e.lport == dataPort st s t) (tblWord 8 t 0 x) st) := by
  refine (tblOp_of_open hopen).trans ?_
  cases t with
  | mac => simp_all [tblFlushPort, dataPort, tblWord_staticToo]
  | lpm => simp_all [tblFlushPort, dataPort, tblWord_staticToo]

theorem exec_flushInstance_of_ready {x : Bool} (hi : instExists st (dataInst st s t) = true)
    (hr : instRefusal st (dataInst st s t) = 0) :
    exec (.flushInstance s t x) st = .next (flushWhere s t x (fun e => e.key.inst == dataInst st s t)
      (fun e => e.inst == dataInst st s t) (tblWord 9 t 0 x) st) := by
  have hcode : entryCode st s (dataInst st s t) true none = 0 := entryCode_of_no_result hi hr
  refine (tblOp_of_open hopen).trans ?_
  cases t with
  | mac => simp_all [tblFlushInstance, dataInst, tblWord_staticToo]
  | lpm => simp_all [tblFlushInstance, dataInst, tblWord_staticToo]

end MaintCommands

/-- Settles O13: every clause is the equation above of its command's outcome; a write to FWD_TBL_MODE is told by what it
leaves in the register and in MAINT. -/
theorem tableCommandsActAsTheirOp : Obligations.TableCommandsActAsTheirOp := by
  refine ⟨fun st s hopen => ⟨?read, ?macWrite, ?macRefused, ?macDelete, ?macLookup, ?lpmWrite, ?lpmDelete, ?lpmLookup⟩,
    fun st s => ⟨?mode, fun t => exec_maintEnter_of_requested, fun hopen t => ⟨?noMaint, ?maint⟩⟩⟩
  case read =>
    exact fun ix => ⟨fun g => exec_tblRead_mac_of_entry hopen, fun g => exec_tblRead_lpm_of_entry hopen,
      exec_tblRead_mac_of_free hopen⟩
  case macWrite =>
    exact fun hcode => ⟨
      fun ix g hf hg => ⟨exec_tblWrite_mac_of_good hopen hcode hf hg, exec_tblInsert_mac_of_good hopen hcode hf hg⟩,
      fun hf => ⟨exec_tblWrite_mac_of_absent hopen hcode hf, fun ix => exec_tblInsert_mac_of_place hopen hcode hf,
        exec_tblInsert_mac_of_no_place hopen hcode hf⟩⟩
  case macRefused => exact exec_tblInsert_mac_of_refused hopen
  case macDelete =>
    exact fun hcode => ⟨fun ix g => exec_tblDelete_mac_of_good hopen hcode, exec_tblDelete_mac_of_absent hopen hcode⟩
  case macLookup =>
    exact fun hi => ⟨fun ix g => exec_tblLookup_mac_of_good hopen hi, exec_tblLookup_mac_of_absent hopen hi⟩
  case lpmWrite =>
    exact fun hcode => ⟨fun ix g => exec_tblWrite_lpm_of_good hopen hcode,
      fun m => exec_tblInsert_lpm_of_place hopen hcode⟩
  case lpmDelete => exact fun hcode ix g => exec_tblDelete_lpm_of_good hopen hcode
  case lpmLookup => exact fun hi ix g => exec_tblLookup_lpm_of_good hopen hi
  case mode =>
    intro hat m l
    obtain ⟨hbit31, hbit30⟩ := modeWord_bits m l
    refine ⟨_, exec_fwdTblModeWrite_of_atOnce hat, tblModeWrite_only _, tblModeWrite_regsKept _, ?_, ?_,
      maint_tblModeWrite m l⟩
    · rw [rd_tblModeWrite, hbit31]
    · rw [rd_tblModeWrite, hbit30]
  case noMaint =>
    exact fun hm => ⟨fun ix => exec_search_of_no_maint hopen hm, exec_next_of_no_maint hopen hm,
      fun x => exec_flushPort_of_no_maint hopen hm, fun x => exec_flushInstance_of_no_maint hopen hm⟩
  case maint =>
    intro hm
    refine ⟨fun i ix image hi ⟨hgood, hhit⟩ => exec_search_of_hit hopen hm hi hgood hhit,
      fun d m i ix image hs ⟨hgood, hhit⟩ => exec_next_of_hit hopen hm hs hgood hhit, ?_, ?_⟩
    · exact fun x => exec_flushPort_of_l2 hopen hm
    · exact fun x => exec_flushInstance_of_ready hopen hm

end Sys2Proof.Machine
end

section
/-!
PROOFS. Learning, the clocks, the sweep and the scrubber of 05: a change of the MAC table in single operation, one equation
per outcome of each command, and O14 put together from them.
-/
namespace Sys2Proof.Machine

theorem modSl_modSl (st : State) (s : SliceId) (f g : SliceSt → SliceSt) :
    modSl (modSl st s f) s g = modSl st s (fun x => g (f x)) := by
  simp only [modSl, upd, Fin.getElem_fin, Vector.getElem_set_self, Vector.set_set]

/-! ### The MAC table in single operation (05 R218, R219) -/

section SingleOperation
variable {st : State} {s : SliceId} (hoff : st.twin.state = .off)

section Off
include hoff

theorem learnsHere_of_off : learnsHere st = true := by simp [learnsHere, hoff]

theorem twinOwner_of_off : twinOwner st = false := by simp [twinOwner, hoff]

theorem macChange_of_off (c : MacChange) : macChange st s c = macApply st s c := by
  simp [macChange, twinOwner_of_off hoff]

end Off

theorem macEngine_of_no_changes (hq : st.twin.learnQ = []) : macEngine st s = (sl st s).mac := by
  simp [macEngine, hq]

theorem macFree_has {m : NMap MacEnt} {k : MacKey} {ix : Nat} (h : macFree st m k = some ix) : m.has ix = false := by
  simpa using List.find?_some h

theorem macApply_install_of_free {ix : Nat} {e : MacEnt} (hplace : (sl st s).mac.has ix = false)
    (hkey : macFind st (sl st s).mac e.key = none) :
    macApply st s (.install ix e) = modMac st s (fun m => m.put ix e) := by
  simp [macApply, hplace, hkey]

theorem macApply_remove_of_learned {ix : Nat} {e : MacEnt} (he : (sl st s).mac.get? ix = some e)
    (hs : e.static_ = false) : macApply st s (.remove ix e.key) = modMac st s (fun m => m.del ix) := by
  simp [macApply, he, hs]

/-! ### The learn engine (05 R197, R199) -/

/-- The entry that a learn makes now. -/
def learnedEntry (st : State) (s : SliceId) (q : Learn) : MacEnt :=
  { key := q.key, static_ := false, hold := true, lport := q.lport, chan := q.chan, age := (sl st s).tick
    mstamp := msStamp st s }

section Engine
variable {q : Learn} {ix : Nat} (hq : st.twin.learnQ = []) (hm : (sl st s).maint[0] = false)
  (hfind : macFind st (sl st s).mac q.key = none) (hfree : macFree st (sl st s).mac q.key = some ix)
  (hroom : learnedCount (sl st s).mac < fldA st (Reg.fwdLrnLim s) Fld.fwdLrnLim_LEARN_MAX)
include hoff hq hm hfind hfree hroom

theorem learnOne_of_room :
    learnOne st s q = count (modMac st s (fun m => m.put ix (learnedEntry st s q))) (Reg.fwdCnt s 0) := by
  have hinstall : macChange st s (.install ix (learnedEntry st s q)) =
      modMac st s (fun m => m.put ix (learnedEntry st s q)) :=
    (macChange_of_off hoff _).trans (macApply_install_of_free (macFree_has hfree) hfind)
  simp only [learnedEntry] at hinstall ⊢
  simp only [learnOne, hm, macEngine_of_no_changes hq, hfind, hfree, if_neg (Nat.not_le.mpr hroom), hinstall,
    Bool.false_eq_true, if_false]

end Engine

/-- The slice once the learn at the head of its queue has left it and `qs` stays. -/
def learnTaken (st : State) (s : SliceId) (qs : List Learn) : State := modSl st s (fun x => { x with learns := qs })

theorem sl_learnTaken (st : State) (s : SliceId) (qs : List Learn) :
    sl (learnTaken st s qs) s = { sl st s with learns := qs } := sl_modSl_self _ _ _

section Queue
variable {q : Learn} {qs : List Learn} {ix : Nat} (hl : (sl st s).learns = q :: qs)
  (hfind : macFind st (sl st s).mac q.key = none)
include hoff hl hfind

theorem exec_learn_of_absent : exec (.learn s) st = .next (learnOne (learnTaken st s qs) s q) := by
  have hhere : learnsHere (learnTaken st s qs) = true := learnsHere_of_off hoff
  have hlook : macLookup (learnTaken st s qs) s q.key = (none, learnTaken st s qs) :=
    macLookup_of_absent (by rwa [sl_learnTaken])
  simp only [learnTaken] at hhere hlook ⊢
  refine congrArg Host.Outcome.next ?_
  simp [hl, hhere, hlook]

theorem exec_learn_of_room (hm : (sl st s).maint[0] = false) (hq : st.twin.learnQ = [])
    (hfree : macFree st (sl st s).mac q.key = some ix)
    (hroom : learnedCount (sl st s).mac < fldA st (Reg.fwdLrnLim s) Fld.fwdLrnLim_LEARN_MAX) :
    exec (.learn s) st = .next (count (modSl st s (fun x => { x with
      learns := qs
      mac := x.mac.put ix { key := q.key, static_ := false, hold := true, lport := q.lport, chan := q.chan, age := x.tick
                            mstamp := msStamp st s } })) (Reg.fwdCnt s 0)) := by
  have hone : learnOne (learnTaken st s qs) s q = count (modMac (learnTaken st s qs) s (fun m =>
      m.put ix (learnedEntry (learnTaken st s qs) s q))) (Reg.fwdCnt s 0) := by
    apply learnOne_of_room (st := learnTaken st s qs) hoff hq <;> rwa [sl_learnTaken]
  rw [exec_learn_of_absent hoff hl hfind, hone, modMac, learnTaken, modSl_modSl]
  refine congrArg (fun t => Host.Outcome.next (count t (Reg.fwdCnt s 0))) (modSl_congr st s ?_)
  simp [learnedEntry, msStamp]

end Queue

end SingleOperation

/-! ### The clocks (05 R199, R200, R203) -/

section Clocks
variable {st : State} {s : SliceId}

theorem exec_msCounterAdvance_of_due (hs : sliceExists st s = true) (ht : (sl st s).msAt < elNs st / 1000000) :
    exec (.msCounterAdvance s) st =
      .next (modSl st s (fun x => { x with ms := x.ms + 1, msAt := x.msAt + 1, tickMs := x.tickMs + 1 })) :=
  congrArg Host.Outcome.next (if_pos ⟨hs, ht⟩)

theorem exec_ageTick_of_due (ht : (sl st s).tickLen ≤ (sl st s).tickMs) :
    exec (.ageTick s) st = .next (modSl st s (fun x =>
      { x with tick := x.tick + 1, tickMs := x.tickMs - x.tickLen, tickLen := ageTickMs st s })) :=
  congrArg Host.Outcome.next (if_pos ht)

end Clocks

/-! ### The sweep (05 R201, R204) -/

theorem exec_sweepVisit_of_entry {st : State} {s : SliceId} {ix : BitVec 18} {e : MacEnt}
    (he : (sl st s).mac.get? ix.toNat = some e) :
    exec (.sweepVisit s ix) st = .next (sweepEntry st s ix.toNat e) := by
  refine congrArg Host.Outcome.next ?_
  simp only [he]

section Sweep
variable {st : State} {s : SliceId} {ix : Nat} {e : MacEnt} (hp : e.parOk = true)
  (hm : (sl st s).maint[0] = false) (hen : fldA st (Reg.fwdLrnCfg s) Fld.fwdLrnCfg_AGE_EN ≠ 0)
  (hoff : st.twin.state = .off)
include hp hm hen hoff

theorem sweepEntry_of_aged (he : (sl st s).mac.get? ix = some e) (hq : st.twin.learnQ = []) (hs : e.static_ = false)
    (hage : ageLimit st s < ((sl st s).tick - e.age).toNat) :
    sweepEntry st s ix e = count (modMac st s (fun m => m.del ix)) (Reg.fwdCnt s 7) := by
  simp [-BitVec.toNat_sub, sweepEntry, hp, hm, hen, learnsHere_of_off hoff, hq, hs, hage, macChange_of_off hoff,
    macApply_remove_of_learned he hs]

theorem sweepEntry_of_held (hage : ((sl st s).tick - e.age).toNat ≤ ageLimit st s) (hh : e.hold = true)
    (hover : holdMs st s ≤ (msStamp st s - e.mstamp).toNat) :
    sweepEntry st s ix e = modMac st s (fun m => m.put ix { e with hold := false }) := by
  simp [-BitVec.toNat_sub, sweepEntry, hp, hm, hen, learnsHere_of_off hoff, hh, hover, Nat.not_lt.mpr hage]

end Sweep

/-! ### The scrubber (05 R209, R210) -/

section Scrub
variable {st : State} {s : SliceId} {ix : BitVec 14} {e : LpmEnt} (he : (sl st s).lpm.get? ix.toNat = some e)
include he

theorem exec_lpmScrub_of_bad_key : exec (.lpmScrub s ix true) st = .next (parityError st s .lpm ix.toNat) := by
  refine congrArg Host.Outcome.next ?_
  simp only [he, Bool.true_or, if_true]

theorem exec_lpmScrub_of_good_key (hk : e.keyOk = true) : exec (.lpmScrub s ix false) st = .next st := by
  refine congrArg Host.Outcome.next ?_
  simp [he, hk]

end Scrub

/-- Settles O14: every clause is the equation above of its command's outcome; what the scrubber does with a bad key is the
parity error of R210. -/
theorem learnedEntriesAgeAndTheTableIsSwept : Obligations.LearnedEntriesAgeAndTheTableIsSwept := by
  intro st s
  refine ⟨?learn, exec_msCounterAdvance_of_due, exec_ageTick_of_due, ?sweep, ?scrub⟩
  case learn =>
    intro q qs ix hl hoff hq hm hfind hfree hroom
    exact exec_learn_of_room hoff hl hfind hm hq hfree hroom
  case sweep =>
    intro ix e he hp hm hen hoff hq
    rw [exec_sweepVisit_of_entry he]
    exact ⟨fun hs hage => congrArg _ (sweepEntry_of_aged hp hm hen hoff he hq hs hage),
      fun hage hh hover => congrArg _ (sweepEntry_of_held hp hm hen hoff hage hh hover)⟩
  case scrub => exact fun ix e he => ⟨exec_lpmScrub_of_bad_key he, exec_lpmScrub_of_good_key he⟩

end Sys2Proof.Machine
end

section
/-!
PROOFS. Channel and slot records of 06 under the operations that change one of them, what taking a packet number does to the
encoding slot, and O19 put together from them.
-/
namespace Sys2Proof.Machine

/-! ### A channel record after a change of it or of one of its slots -/

section Records
variable (st : State) (s : SliceId) (ch : ChIx) (an : An)

theorem chOf_modCh_self (f : ChRec → ChRec) : chOf (modCh st s ch f) s ch = f (chOf st s ch) := by
  simp only [chOf, modCh, sl_modSl_self, NMap.getD_put_self]

theorem chOf_modSlot_self (f : Slot → Slot) :
    chOf (modSlot st s ch an f) s ch = { chOf st s ch with slots := upd (chOf st s ch).slots an f } :=
  chOf_modCh_self st s ch _

theorem slotOf_modSlot_self (f : Slot → Slot) : slotOf (modSlot st s ch an f) s ch an = f (slotOf st s ch an) := by
  simp [slotOf, chOf_modSlot_self, upd]

variable {st} {t : State}

theorem chOf_of_slices (h : t.slices = st.slices) : chOf t s ch = chOf st s ch := by simp only [chOf, sl, h]

theorem slotOf_of_slices (h : t.slices = st.slices) : slotOf t s ch an = slotOf st s ch an := by
  simp only [slotOf, chOf_of_slices s ch h]

end Records

theorem raise_slices (st : State) (e : Event) : (raise st e).slices = st.slices := by rw [raise_only]

theorem jnlRequest_slices (st : State) (r : JReq) : (jnlRequest st r).slices = st.slices := rfl

/-! ### What stays of a slot under the operations that ask for a reservation or a rekey -/

/-- From `st` to `t` the channel keeps its encoding slot, and slot `an` its key and its place in the packet numbers. -/
structure PnKept (s : SliceId) (ch : ChIx) (an : An) (st t : State) : Prop where
  encAn : (chOf t s ch).encAn = (chOf st s ch).encAn
  key : (slotOf t s ch an).key = (slotOf st s ch an).key
  pn : (slotOf t s ch an).pn = (slotOf st s ch an).pn
  exhausted : (slotOf t s ch an).exhausted = (slotOf st s ch an).exhausted

section PnKept
variable {s : SliceId} {ch : ChIx} {an : An} {st t u : State}

theorem PnKept.trans (h : PnKept s ch an st t) (g : PnKept s ch an t u) : PnKept s ch an st u :=
  ⟨g.encAn.trans h.encAn, g.key.trans h.key, g.pn.trans h.pn, g.exhausted.trans h.exhausted⟩

theorem pnKept_of_slices (h : t.slices = st.slices) : PnKept s ch an st t := by
  constructor <;> simp only [slotOf_of_slices s ch an h, chOf_of_slices s ch h]

theorem PnKept.ite (c : Prop) [Decidable c] (h : PnKept s ch an st t) : PnKept s ch an st (if c then t else st) := by
  split
  · exact h
  · exact pnKept_of_slices rfl

theorem pnKept_modSlot {f : Slot → Slot} (hk : (f (slotOf st s ch an)).key = (slotOf st s ch an).key)
    (hp : (f (slotOf st s ch an)).pn = (slotOf st s ch an).pn)
    (he : (f (slotOf st s ch an)).exhausted = (slotOf st s ch an).exhausted) :
    PnKept s ch an st (modSlot st s ch an f) := by
  constructor
  · rw [chOf_modSlot_self]
  · rw [slotOf_modSlot_self, hk]
  · rw [slotOf_modSlot_self, hp]
  · rw [slotOf_modSlot_self, he]

theorem pnKept_raise (e : Event) : PnKept s ch an st (raise st e) := pnKept_of_slices (raise_slices st e)

theorem pnKept_rekey (e : Event) :
    PnKept s ch an st (raise (modSlot st s ch an (fun x => { x with rekeyReq := true })) e) :=
  (pnKept_modSlot rfl rfl rfl).trans (pnKept_raise e)

theorem pnKept_checkReserve : PnKept s ch an st (checkReserve st s ch an) := by
  have hreserve (req : Nat) : PnKept s ch an st (reserveSlot st s ch an req) :=
    (pnKept_modSlot rfl rfl rfl).trans (pnKept_of_slices (jnlRequest_slices _ _))
  unfold checkReserve
  dsimp only
  split
  · exact pnKept_of_slices rfl
  · split
    · exact hreserve _
    · exact pnKept_of_slices rfl

end PnKept

/-! ### Taking a packet number (06 R245) -/

section TakePn
variable {st t : State} {s : SliceId} {ch : ChIx} {an : An} {x : Slot}

theorem takePn_of_exhausted (henc : (chOf st s ch).encAn = some an) (hex : (slotOf st s ch an).exhausted = true) :
    (takePn st s ch).1 = none := by
  simp only [takePn, henc, hex, if_true]
  split
  · rfl
  · split <;> rfl

/-- What a take that gives a number has found, and that all it then does but `pnTaken` keeps the slot's key and number. -/
theorem takePn_eq_some (h : takePn st s ch = (some (an, x), t)) :
    (chOf st s ch).encAn = some an ∧ x = slotOf st s ch an ∧ x.exhausted = false ∧ x.pn ≤ x.res ∧
      PnKept s ch an (modSlot st s ch an (pnTaken (chOf st s ch).suite)) t := by
  unfold takePn at h
  cases henc : (chOf st s ch).encAn with
  | none => simp [henc] at h
  | some an' =>
    simp only [henc] at h
    split at h
    · simp at h
    split at h
    · simp at h
    split at h
    · simp at h
    next hex =>
    split at h
    · simp at h
    next hres =>
    simp only [Prod.mk.injEq, Option.some.injEq] at h
    obtain ⟨⟨rfl, rfl⟩, rfl⟩ := h
    refine ⟨rfl, rfl, Bool.eq_false_iff.mpr hex, Nat.le_of_not_lt hres, ?_⟩
    refine .trans ?_ (pnKept_of_slices (pcEvent_slices _ _ _ _))
    refine .trans ?_ pnKept_checkReserve
    exact .trans (.ite _ (pnKept_raise _)) (.ite _ (pnKept_rekey _))

theorem pnTaken_key (suite : Fin 4) (x : Slot) : (pnTaken suite x).key = x.key := by
  unfold pnTaken
  dsimp only
  split <;> rfl

theorem pnTaken_of_last {suite : Fin 4} (h : x.pn = lastPn suite) : pnTaken suite x = { x with exhausted := true } :=
  if_pos h

theorem pnTaken_of_not_last {suite : Fin 4} (h : x.pn ≠ lastPn suite) : pnTaken suite x = { x with pn := x.pn + 1 } :=
  if_neg h

end TakePn

/-- Settles O19: the take stores `pnTaken` of the slot, and what follows keeps its key and its number, so that the next take
of the channel meets the exhausted slot or the next number. -/
theorem packetNumbersAreTakenOnceAndInsideTheReservation :
    Obligations.PacketNumbersAreTakenOnceAndInsideTheReservation := by
  intro st t s ch an x h
  obtain ⟨henc, hx, hnot, hle, hkept⟩ := takePn_eq_some h
  have hslot : slotOf (modSlot st s ch an (pnTaken (chOf st s ch).suite)) s ch an = pnTaken (chOf st s ch).suite x := by
    rw [slotOf_modSlot_self, hx]
  have henct : (chOf t s ch).encAn = some an := by rw [hkept.encAn, chOf_modSlot_self, henc]
  have hkey : (slotOf t s ch an).key = x.key := by rw [hkept.key, hslot, pnTaken_key]
  have hnext (hpn : x.pn ≠ lastPn (chOf st s ch).suite) : (slotOf t s ch an).pn = x.pn + 1 := by
    rw [hkept.pn, hslot, pnTaken_of_not_last hpn]
  have hlast (hpn : x.pn = lastPn (chOf st s ch).suite) : (slotOf t s ch an).exhausted = true := by
    rw [hkept.exhausted, hslot, pnTaken_of_last hpn]
  refine ⟨henc, hx, hnot, hle, hkey, hnext, fun hpn => ⟨hlast hpn, takePn_of_exhausted henct (hlast hpn)⟩, ?_⟩
  intro an' x' h'
  obtain ⟨henc', hx', hnot', -, -⟩ := takePn_eq_some (Prod.ext h' rfl)
  obtain rfl : an = an' := Option.some.inj (henct.symm.trans henc')
  have hpn : x.pn ≠ lastPn (chOf st s ch).suite := fun hpn => by simp [hx', hlast hpn] at hnot'
  exact ⟨rfl, hx' ▸ hnext hpn⟩

end Sys2Proof.Machine
end

section
/-!
PROOFS. The secure channel and slot commands of 06 and the frame boundaries of 08: what reading a record, a frame boundary and
the judging of a command come to where nothing stands in their way, one equation per outcome of each command, and O15 and O16
put together from them.
-/
namespace Sys2Proof.Machine

/-! ### Reading a record without a memory error (06 R264) -/

section Good
variable {st : State} {s : SliceId} {ch : ChIx} {an : An}

theorem chanCheck_of_good (h : (chOf st s ch).bad = false) : chanCheck st s ch = st := by simp [chanCheck, h]

theorem slotCheck_of_good (h : (slotOf st s ch an).bad = false) : slotCheck st s ch an = st := by simp [slotCheck, h]

end Good

/-! ### A slot that changes state -/

section SlotState
variable {st : State} {s : SliceId} {ch : ChIx} {an : An}

theorem leaveRecord_slices (pos : Nat) (leaf force : Bool) : (leaveRecord st pos leaf force).slices = st.slices := by
  unfold leaveRecord
  split
  · rfl
  · split <;> rfl

theorem slotLeaves_slices (force : Bool) : (slotLeaves st s ch an force).slices = st.slices :=
  leaveRecord_slices _ _ _

theorem chOf_slotEmpty_self :
    chOf (slotEmpty st s ch an) s ch = { chOf st s ch with slots := upd (chOf st s ch).slots an (fun _ => {}) } := by
  unfold slotEmpty
  dsimp only
  rw [chOf_modSlot_self]
  split
  · rw [chOf_of_slices s ch (slotLeaves_slices false)]
  · rfl

theorem chOf_enterGuard_self : chOf (enterGuard st s ch an) s ch =
    { chOf st s ch with
      slots := upd (chOf st s ch).slots an (fun x =>
        { x with state := .guard, due := some (elNs st + guardNs st s (chOf st s ch).lcProf) })
      encAn := if (chOf st s ch).encAn = some an then none else (chOf st s ch).encAn } := by
  unfold enterGuard
  dsimp only
  rw [chOf_modCh_self, chOf_modSlot_self]

/-- From `st` to `t` the channel keeps its other slots, its waiting changes and its record of a missed switch. -/
structure OnlySlot (s : SliceId) (ch : ChIx) (an : An) (st t : State) : Prop where
  others : ∀ a, a ≠ an → slotOf t s ch a = slotOf st s ch a
  pend : (chOf t s ch).pend = (chOf st s ch).pend
  thrMissed : (chOf t s ch).thrMissed = (chOf st s ch).thrMissed

theorem upd_ne {α : Type} {n : Nat} (v : Vector α n) {i j : Fin n} (f : α → α) (h : j ≠ i) : (upd v i f)[j] = v[j] :=
  Vector.getElem_set_ne _ _ fun e => h (Fin.ext e.symm)

theorem onlySlot_slotEmpty : OnlySlot s ch an st (slotEmpty st s ch an) := by
  constructor
  · intro a ha
    simp only [slotOf, chOf_slotEmpty_self, upd_ne _ _ ha]
  · rw [chOf_slotEmpty_self]
  · rw [chOf_slotEmpty_self]

theorem onlySlot_enterGuard : OnlySlot s ch an st (enterGuard st s ch an) := by
  constructor
  · intro a ha
    simp only [slotOf, chOf_enterGuard_self, upd_ne _ _ ha]
  · rw [chOf_enterGuard_self]
  · rw [chOf_enterGuard_self]

end SlotState

/-! ### Due transitions of a channel's slots (08 R323, R337) -/

/-- What a frame boundary does with the window of one slot. -/
def dueTransition (s : SliceId) (ch : ChIx) (st : State) (an : An) : State :=
  match (slotOf st s ch an).due with
  | some d =>
    if elNs st < d then st
    else match (slotOf st s ch an).state with
      | .retiring => enterGuard st s ch an
      | .guard => slotEmpty st s ch an
      | _ => st
  | none => st

section Due
variable {st : State} {s : SliceId} {ch : ChIx} {an : An}

theorem dueTransitions_eq_foldl (h : frozen st (chOf st s ch).inst = false) :
    dueTransitions st s ch = ans.foldl (dueTransition s ch) st := by
  unfold dueTransitions
  rw [h]
  rfl

theorem foldl_dueTransition_of_none_due {l : List An} (h : ∀ a ∈ l, (slotOf st s ch a).due = none) :
    l.foldl (dueTransition s ch) st = st := by
  induction l with
  | nil => rfl
  | cons a l ih =>
    have ha : dueTransition s ch st a = st := by simp only [dueTransition, h a List.mem_cons_self]
    rw [List.foldl_cons, ha, ih fun b hb => h b (List.mem_cons_of_mem a hb)]

theorem dueTransitions_of_none_due (h : ∀ a, (slotOf st s ch a).due = none) : dueTransitions st s ch = st := by
  cases hf : frozen st (chOf st s ch).inst with
  | true => simp [dueTransitions, hf]
  | false => rw [dueTransitions_eq_foldl hf, foldl_dueTransition_of_none_due fun a _ => h a]

/-- With one slot in a window, the boundary does what that slot's window asks for. -/
theorem dueTransitions_of_one_due {t : State} (hf : frozen st (chOf st s ch).inst = false)
    (h : ∀ a, a ≠ an → (slotOf st s ch a).due = none) (hstep : dueTransition s ch st an = t)
    (hothers : OnlySlot s ch an st t) : dueTransitions st s ch = t := by
  have hmem : ∀ a : An, a ∈ ans := by decide
  obtain ⟨l, r, hsplit⟩ := List.append_of_mem (hmem an)
  have hnodup : (l ++ an :: r).Nodup := hsplit ▸ (by decide : ans.Nodup)
  obtain ⟨-, hright, hleft⟩ := List.nodup_append.mp hnodup
  obtain ⟨hout, -⟩ := List.nodup_cons.mp hright
  rw [dueTransitions_eq_foldl hf, hsplit, List.foldl_append, List.foldl_cons,
    foldl_dueTransition_of_none_due fun a ha => h a (hleft a ha an List.mem_cons_self), hstep]
  refine foldl_dueTransition_of_none_due fun a ha => ?_
  have hne : a ≠ an := fun e => hout (e ▸ ha)
  rw [hothers.others a hne, h a hne]

theorem dueTransition_of_guard {d : Nat} (hdue : (slotOf st s ch an).due = some d) (hd : d ≤ elNs st)
    (hx : (slotOf st s ch an).state = .guard) : dueTransition s ch st an = slotEmpty st s ch an := by
  simp only [dueTransition, hdue, hx, if_neg (Nat.not_lt.mpr hd)]

theorem dueTransition_of_retiring {d : Nat} (hdue : (slotOf st s ch an).due = some d) (hd : d ≤ elNs st)
    (hx : (slotOf st s ch an).state = .retiring) : dueTransition s ch st an = enterGuard st s ch an := by
  simp only [dueTransition, hdue, hx, if_neg (Nat.not_lt.mpr hd)]

end Due

/-! ### A frame boundary without a trigger (06 R267, 08 R314, R335) -/

section Boundary
variable {st : State} {s : SliceId} {ch : ChIx}

theorem pendingChanges_of_nil {switched : Bool} (h : (chOf st s ch).pend = []) : pendingChanges st s ch switched = st := by
  simp [pendingChanges, h]

theorem pendingChanges_of_single {switched : Bool} {q : SlotChange} (h : (chOf st s ch).pend = [q]) :
    pendingChanges st s ch switched = applyChange s ch switched (modCh st s ch (fun c => { c with pend := [] })) q := by
  simp [pendingChanges, h]

theorem boundary_of_stored {t : State} (hhas : (sl st s).chans.has ch.val = true) (hbad : (chOf st s ch).bad = false)
    (hdue : dueTransitions st s ch = t) (hmiss : (chOf t s ch).thrMissed = false) :
    boundary st s ch none = pendingChanges t s ch false := by
  simp [boundary, boundaryWith, hhas, chanCheck_of_good hbad, hdue, hmiss]

theorem boundary_of_nothing_due (hbad : (chOf st s ch).bad = false) (hdue : ∀ a, (slotOf st s ch a).due = none)
    (hpend : (chOf st s ch).pend = []) (hmiss : (chOf st s ch).thrMissed = false) : boundary st s ch none = st := by
  cases hhas : (sl st s).chans.has ch.val with
  | false => simp [boundary, boundaryWith, hhas]
  | true => rw [boundary_of_stored hhas hbad (dueTransitions_of_none_due hdue) hmiss, pendingChanges_of_nil hpend]

theorem exec_slotChangeApply_of_one_waiting {q : SlotChange} (hhas : (sl st s).chans.has ch.val = true)
    (hbad : (chOf st s ch).bad = false) (hdue : ∀ a, (slotOf st s ch a).due = none)
    (hmiss : (chOf st s ch).thrMissed = false) (hpend : (chOf st s ch).pend = [q]) :
    exec (.slotChangeApply s ch) st =
      .next (applyChange s ch false (modCh st s ch (fun c => { c with pend := [] })) q) := by
  refine congrArg Host.Outcome.next ?_
  rw [boundary_of_stored hhas hbad (dueTransitions_of_none_due hdue) hmiss, pendingChanges_of_single hpend]

theorem exec_lifecycleSweep_of_one_due {an : An} {t : State} (hhas : (sl st s).chans.has ch.val = true)
    (hbad : (chOf st s ch).bad = false) (hmiss : (chOf st s ch).thrMissed = false) (hpend : (chOf st s ch).pend = [])
    (hstate : (inst st (chOf st s ch).inst).state ≠ .frozen) (hothers : ∀ a, a ≠ an → (slotOf st s ch a).due = none)
    (hstep : dueTransition s ch st an = t) (honly : OnlySlot s ch an st t) :
    exec (.lifecycleSweep s ch) st = .next t := by
  have hf : frozen st (chOf st s ch).inst = false := by simpa [frozen] using hstate
  have hdue := dueTransitions_of_one_due hf hothers hstep honly
  refine congrArg Host.Outcome.next ?_
  rw [boundary_of_stored hhas hbad hdue (honly.thrMissed.trans hmiss), pendingChanges_of_nil (honly.pend.trans hpend)]

end Boundary

/-! ### The judging of a command (06 R271, 13 R515) -/

section Judge
variable {st : State} {s : SliceId} {w : Word} {i : InstId} {causes : List (Bool × Nat)} {ok : State → State}

theorem saeJudge_of_no_cause (h : ∀ c ∈ causes, c.1 = false) : saeJudge s w i causes ok st = ok st := by
  simp [saeJudge, pickCode_of_no_cause st h]

theorem saeState_none (h : instRefusal st i = 0) : ∀ c ∈ saeState st i, c.1 = false := by
  simp [saeState, stateCauses, h]

theorem saeOp_of_open {eff : Word → State → State} (h : cmdOpen st (Reg.saeCmd s) = true) :
    saeOp s w eff st = .next (eff w st) :=
  congrArg Host.Outcome.next (cmdPF_open _ _ _ _ _ h)

end Judge

/-! ### Channel commands (06 R226-R231, R265, R271) -/

section Channel
variable {st : State} {s : SliceId} {ch : ChIx} {an : An} (hopen : cmdOpen st (Reg.saeCmd s) = true)
include hopen

theorem exec_chRead_of_good (hbad : (chOf st s ch).bad = false) :
    exec (.chRead s ch) st = .next (saeDone s (saeWord 1 ch 0) 0
      ((chImage (chOf st s ch)).zipIdx.foldl (fun st p => wr st (Reg.saeChData0 s + 4 * p.2) p.1) st)) := by
  refine (saeOp_of_open hopen).trans (congrArg Host.Outcome.next ?_)
  simp only [chRead, chanCheck_of_good hbad]

theorem exec_saRead_of_valid (hb : boundary st s ch none = st) (hbad : (slotOf st s ch an).bad = false)
    (hv : (chOf st s ch).valid = true) :
    exec (.saRead s ch an) st = .next (saeDone s (saeWord 4 ch an) 0
      ((slotImage (slotOf st s ch an)).zipIdx.foldl (fun st p => wr st (Reg.saeSaData0 s + 4 * p.2) p.1) st)) := by
  refine (saeOp_of_open hopen).trans (congrArg Host.Outcome.next ?_)
  simp only [saRead, hb, slotCheck_of_good hbad]
  exact saeJudge_of_no_cause (by simp [hv])

theorem exec_saRead_of_not_valid (hb : boundary st s ch none = st) (hbad : (slotOf st s ch an).bad = false)
    (hv : (chOf st s ch).valid = false) : exec (.saRead s ch an) st = .next (saeDone s (saeWord 4 ch an) 3 st) := by
  refine (saeOp_of_open hopen).trans (congrArg Host.Outcome.next ?_)
  simp only [saRead, hb, slotCheck_of_good hbad, hv]
  rfl

theorem exec_chDelete_of_empty (hb : boundary st s ch none = st) (hv : (chOf st s ch).valid = true)
    (he : slotsEmpty (chOf st s ch) = true) (hi : instRefusal st (chOf st s ch).inst = 0) :
    exec (.chDelete s ch) st = .next (saeDone s (saeWord 3 ch 0) 0
      (modSl (sciRemove st s ch) s (fun x => { x with chans := x.chans.del ch.val }))) := by
  refine (saeOp_of_open hopen).trans (congrArg Host.Outcome.next ?_)
  simp only [chDelete, hb]
  refine saeJudge_of_no_cause (List.forall_mem_append.mpr ⟨?_, saeState_none hi⟩)
  simp [hv, he]

theorem exec_sciFind_of_hit {ix : Nat} {e : SciEnt}
    (hf : sciFind st s ((chData st s 3).setWidth 64 <<< 32 ||| (chData st s 2).setWidth 64) = some (ix, e))
    (hbad : e.bad = false) :
    exec (.sciFind s) st = .next (saeDone s (putF (saeWord 9 0 0) Fld.saeCmd_CHANNEL e.ch.val) 0 st) := by
  refine (saeOp_of_open hopen).trans (congrArg Host.Outcome.next ?_)
  simp [sciFindCmd, hf, hbad]

theorem exec_sciFind_of_none
    (hf : sciFind st s ((chData st s 3).setWidth 64 <<< 32 ||| (chData st s 2).setWidth 64) = none) :
    exec (.sciFind s) st = .next (saeDone s (saeWord 9 0 0) 11 st) := by
  refine (saeOp_of_open hopen).trans (congrArg Host.Outcome.next ?_)
  simp only [sciFindCmd, hf]

end Channel

/-! ### CH_WRITE of a free channel (06 R226-R228) -/

/-- The counters of a channel start from 0. -/
def chCtrsCleared (st : State) (s : SliceId) (ch : ChIx) : State :=
  modSl st s (fun x => { x with chCtr := clearCtrs x.chCtr (16 * ch.val) (16 * ch.val + 16) })

section Write
variable {st : State} {s : SliceId} {ch : ChIx} {n : ChRec} (hopen : cmdOpen st (Reg.saeCmd s) = true)
  (hn : chOfImage st ((List.range 8).map (chData st s)) (chOf st s ch) = n) (hb : boundary st s ch none = st)
  (hv : (chOf st s ch).valid = false) (hecc : (chOf st s ch).eccFail = false)
  (hparam : chBadParam n (getF (chData st s 5) ⟨31, 30⟩) = false) (hinst : instExists st n.inst = true)
  (hnew : instRefusal st n.inst = 0) (hold : instRefusal st (chOf st s ch).inst = 0)
  (hshare : channelsOf st s n.inst < (inst st n.inst).shares[s].channels)
include hopen hn hb hv hecc hparam hinst hnew hold hshare

theorem exec_chWrite_of_transmit (hdir : n.dirRx = false) (hbind : st.img.content.twin = false ∨ n.bind ≠ 15) :
    exec (.chWrite s ch) st = .next (saeDone s (saeWord 2 ch 0) 0
      (modCh (chCtrsCleared (sciRemove st s ch) s ch) s ch (fun _ => n))) := by
  refine (saeOp_of_open hopen).trans (congrArg Host.Outcome.next ?_)
  simp only [chWrite, hb, hn, hdir, hv]
  rw [saeJudge_of_no_cause]
  · simp [chCtrsCleared]
  · simp only [List.forall_mem_append]
    refine ⟨⟨?_, saeState_none hold⟩, saeState_none hnew⟩
    simpa [hv, hecc, hinst] using ⟨hparam, hshare, fun ht => hbind.resolve_left (by simp [ht])⟩

theorem exec_chWrite_of_receive {ix : Nat} (hdir : n.dirRx = true) (hfind : sciFind st s n.sci = none)
    (hroom : (sciFree st s n.sci).isSome = true) (hfree : sciFree (sciRemove st s ch) s n.sci = some ix) :
    exec (.chWrite s ch) st = .next (saeDone s (saeWord 2 ch 0) 0
      (modCh (chCtrsCleared (modHash (sciRemove st s ch) s
        (fun m => m.put ix { sci := n.sci, ch := ch })) s ch) s ch (fun _ => n))) := by
  refine (saeOp_of_open hopen).trans (congrArg Host.Outcome.next ?_)
  simp only [chWrite, hb, hn, hdir, hv, hfind]
  rw [saeJudge_of_no_cause]
  · simp [chCtrsCleared, hfree]
  · simp only [List.forall_mem_append]
    refine ⟨⟨?_, saeState_none hold⟩, saeState_none hnew⟩
    simpa [hv, hecc, hinst, Option.isSome_iff_ne_none] using ⟨hparam, hshare, Option.isSome_iff_ne_none.mp hroom⟩

end Write

/-- Settles O15: each clause is the equation above of its command's outcome, the frame boundary before it changing nothing. -/
theorem channelCommandsReadWriteDeleteAndFind : Obligations.ChannelCommandsReadWriteDeleteAndFind := by
  intro st s ch hopen hslots hpend hbad hmiss
  have hb : boundary st s ch none = st := boundary_of_nothing_due hbad (fun a => (hslots a).1) hpend hmiss
  refine ⟨exec_chRead_of_good hopen hbad, fun an => exec_saRead_of_valid hopen hb (hslots an).2,
    fun an => exec_saRead_of_not_valid hopen hb (hslots an).2, ?write, exec_chDelete_of_empty hopen hb,
    fun ix e => exec_sciFind_of_hit hopen, exec_sciFind_of_none hopen⟩
  case write =>
    intro hv hecc hparam hinst hnew hold hshare
    exact ⟨exec_chWrite_of_transmit hopen rfl hb hv hecc hparam hinst hnew hold hshare,
      fun ix => exec_chWrite_of_receive hopen rfl hb hv hecc hparam hinst hnew hold hshare⟩

/-! ### Slot commands that wait for the frame boundary (06 R266, R271) -/

section Change
variable {st : State} {s : SliceId} {ch : ChIx} {an : An} (hb : boundary st s ch none = st)
  (hbad : (slotOf st s ch an).bad = false) (hv : (chOf st s ch).valid = true)
  (hi : instRefusal st (chOf st s ch).inst = 0)
include hb hbad hv hi

theorem saChange_of_allowed {w : Word} {allowed : ChRec → SlotState → Bool} {q : SlotChange}
    (h : allowed (chOf st s ch) (slotOf st s ch an).state = true) :
    saChange s ch an w allowed q st = saeDone s w 0 (modCh st s ch (fun c => { c with pend := c.pend ++ [q] })) := by
  simp only [saChange, hb, slotCheck_of_good hbad, hv, if_true]
  refine saeJudge_of_no_cause (List.forall_mem_append.mpr ⟨?_, saeState_none hi⟩)
  simp [h]

variable (hopen : cmdOpen st (Reg.saeCmd s) = true)
include hopen

theorem exec_saActivate_of_loaded (hx : (slotOf st s ch an).state = .loaded) (hecc : (chOf st s ch).eccFail = false)
    (hep : (chOf st s ch).epochMode = false) :
    exec (.saActivate s ch an) st = .next (saeDone s (saeWord 6 ch an) 0
      (modCh st s ch (fun c => { c with pend := c.pend ++ [.activate an] }))) := by
  refine (saeOp_of_open hopen).trans (congrArg Host.Outcome.next ?_)
  rw [saActivate, saChange_of_allowed hb hbad hv hi]
  simp [hx, hecc, hep]

theorem exec_saRetire_of_used (hx : (slotOf st s ch an).state = .active ∨ (slotOf st s ch an).state = .retiring) :
    exec (.saRetire s ch an) st = .next (saeDone s (saeWord 7 ch an) 0
      (modCh st s ch (fun c => { c with pend := c.pend ++ [.retire an] }))) := by
  refine (saeOp_of_open hopen).trans (congrArg Host.Outcome.next ?_)
  rw [saRetire, saChange_of_allowed hb hbad hv hi]
  simpa using hx

theorem exec_saClear_of_idle (hx : (slotOf st s ch an).state = .loaded ∨ (slotOf st s ch an).state = .dropping ∨
      (slotOf st s ch an).state = .exported) :
    exec (.saClear s ch an) st = .next (saeDone s (saeWord 8 ch an) 0
      (modCh st s ch (fun c => { c with pend := c.pend ++ [.clear an] }))) := by
  refine (saeOp_of_open hopen).trans (congrArg Host.Outcome.next ?_)
  rw [saClear, saChange_of_allowed hb hbad hv hi]
  simpa [or_assoc] using hx

end Change

/-! ### SA_LOAD (06 R237, R238, 09 R353) -/

/-- The fields of a command word for the SAE are the operands it was made of. -/
theorem saeWord_fields (op : Nat) (ch : ChIx) (an : An) :
    getF (saeWord op ch an) Fld.saeCmd_OP = op % 16 ∧
    Fin.ofNat 16384 (getF (saeWord op ch an) Fld.saeCmd_CHANNEL) = ch ∧
    Fin.ofNat 4 (getF (saeWord op ch an) Fld.saeCmd_AN) = an := by
  simp (disch := decide) only [saeWord, word, List.foldl_cons, List.foldl_nil, getF_putF_self, getF_putF_ne]
  refine ⟨rfl, ?channel, ?slot⟩
  case channel => exact Fin.ext ((Nat.mod_mod _ _).trans (Nat.mod_eq_of_lt ch.isLt))
  case slot => exact Fin.ext ((Nat.mod_mod _ _).trans (Nat.mod_eq_of_lt an.isLt))

section Load
variable {st : State} {s : SliceId} {ch : ChIx} {an : An}

theorem saeCmd_saLoad : saeCmd s (saeWord 5 ch an) st = saLoad s ch an (saeWord 5 ch an) st := by
  obtain ⟨hop, hch, han⟩ := saeWord_fields 5 ch an
  simp only [saeCmd, hop, hch, han]

/-- A free SAE_CMD serves SA_LOAD, which clears SAE_KEY itself. -/
theorem exec_saLoad_of_open (hopen : cmdOpen st (Reg.saeCmd s) = true) :
    exec (.saLoad s ch an) st = .next (saLoad s ch an (saeWord 5 ch an) st) := by
  have hserves : cmdPF (Reg.saeCmd s) Fld.saeCmd_RESULT (saeWord 5 ch an) (saeCmd s (saeWord 5 ch an)) st =
      saLoad s ch an (saeWord 5 ch an) st := (cmdPF_open _ _ _ _ _ hopen).trans saeCmd_saLoad
  simp only [cmdOpen, Bool.and_eq_true, decide_eq_true_eq] at hopen
  obtain ⟨⟨-, hbooted⟩, hbusy⟩ := hopen
  refine congrArg Host.Outcome.next ?_
  simp [saePF, hserves, hbooted, hbusy]

/-- An installation that the start rule lets begin without an eviction is queued. -/
theorem startInstall_of_started {src : Fin 4} {cls : Fin 3} {key : Bytes} {salt salt' : BitVec 96} {ssci ssci' : Word}
    {req node start res : Nat} {keySrc leaf : Bool} {ok fail : State → State} {fp : Bytes} {c : ChRec}
    (hc : chOf st s ch = c) (hsalt : (if isXpn c.suite then salt else 0) = salt')
    (hssci : (if isXpn c.suite then ssci else 0) = ssci')
    (hfp : fingerprint st (kindOf c.dirRx).val c.suite.val (suiteKey c.suite key) (assocBase c.suite c.sci salt' ssci') = fp)
    (hrule : startRule st (kindOf c.dirRx).val (lastPn c.suite) fp req = .ok (start, res, none)) :
    startInstall st src cls s ch an key salt ssci req keySrc leaf node ok fail =
      ok (jnlRequest st { cls := cls, kind := kindOf c.dirRx, tomb := false, fp := fp, value := res
                          use := .load src s ch an (loadedSlot c.suite key salt' ssci' start res keySrc leaf node) }) := by
  simp only [startInstall, hc, hsalt, hssci, hfp, hrule]

/-- SA_LOAD without a cause to refuse it, the key being in SAE_KEY: the installation is asked for with SAE_KEY cleared. -/
theorem saLoad_of_no_cause {w : Word} {req : Nat} (hb : boundary st s ch none = st)
    (hbad : (slotOf st s ch an).bad = false) (hv : (chOf st s ch).valid = true)
    (hi : instRefusal st (chOf st s ch).inst = 0) (hecc : (chOf st s ch).eccFail = false)
    (hx : (slotOf st s ch an).state = .empty) (hep : (chOf st s ch).epochMode = false)
    (hsrc : (saData st s 10).testBit 31 = false) (hreq : saData st s 4 + saData st s 5 * 2 ^ 32 = req) (hpos : 0 < req)
    (hlast : req ≤ lastPn (chOf st s ch).suite)
    (hshare : assocsOf st s (chOf st s ch).inst < (inst st (chOf st s ch).inst).shares[s].assocs) :
    saLoad s ch an w st =
      startInstall (clearSaeKey st s) 0 1 s ch an
        (keyIn (clearSaeKey st s) (suiteKey (chOf st s ch).suite
          ((List.range 8).map (fun i => leBytes 4 (rd st (Reg.saeKey s i)).toNat)).flatten))
        (BitVec.ofNat 96 (saData (clearSaeKey st s) s 0 + saData (clearSaeKey st s) s 1 * 2 ^ 32 +
          saData (clearSaeKey st s) s 2 * 2 ^ 64))
        (BitVec.ofNat 32 (saData (clearSaeKey st s) s 3)) req false false (saData st s 10 % 2 ^ 17)
        (fun st => cmdBusy st (Reg.saeCmd s) Fld.saeCmd_OP w) (saeDone s w 12) := by
  have hslot : slotOf (clearSaeKey st s) s ch an = slotOf st s ch an := slotOf_of_slices s ch an rfl
  have hassocs (i : InstId) : assocsOf (clearSaeKey st s) s i = assocsOf st s i := rfl
  have hinst (i : InstId) : inst (clearSaeKey st s) i = inst st i := rfl
  simp only [saLoad, hb, slotCheck_of_good hbad, hsrc, hv, hecc, hreq, Bool.false_eq_true, if_false]
  rw [saeJudge_of_no_cause]
  simp only [List.forall_mem_append]
  refine ⟨⟨?_, by simp⟩, by simpa using saeState_none (st := clearSaeKey st s) hi⟩
  simpa [hslot, hx, hep, hassocs, hinst] using And.intro ⟨Nat.pos_iff_ne_zero.mp hpos, hlast⟩ hshare

end Load

/-- Settles O16: the frame boundary before a command changes nothing, so that each clause is the equation above of its
command's outcome; at a boundary with one slot in a window only that slot moves. -/
theorem slotCommandsLoadAndChangeAtABoundary : Obligations.SlotCommandsLoadAndChangeAtABoundary := by
  intro st s ch an hhas c x hbad hmiss
  refine ⟨?commands, fun hdue q => exec_slotChangeApply_of_one_waiting hhas hbad hdue hmiss, ?sweep⟩
  case commands =>
    intro hopen hdue hx hpend hv hi
    have hb : boundary st s ch none = st := boundary_of_nothing_due hbad hdue hpend hmiss
    refine ⟨exec_saActivate_of_loaded hb hx hv hi hopen, exec_saRetire_of_used hb hx hv hi hopen,
      exec_saClear_of_idle hb hx hv hi hopen, ?_⟩
    intro req st1 raw key salt ssci fp start res hecc hempty hep hsrc hpos hlast hshare hrule
    rw [exec_saLoad_of_open hopen, saLoad_of_no_cause hb hx hv hi hecc hempty hep hsrc rfl hpos hlast hshare]
    have hc : chOf st1 s ch = c := chOf_of_slices s ch rfl
    rw [startInstall_of_started hc rfl rfl rfl hrule]
  case sweep =>
    intro hothers hpend hstate d hdue hd
    have hsweep {t : State} := exec_lifecycleSweep_of_one_due (t := t) hhas hbad hmiss hpend hstate hothers
    exact ⟨fun hx => hsweep (dueTransition_of_guard hdue hd hx) onlySlot_slotEmpty,
      fun hx => hsweep (dueTransition_of_retiring hdue hd hx) onlySlot_enterGuard⟩

end Sys2Proof.Machine
end

section
/-!
PROOFS. The scrub of on-chip memory of 20, and O42 put together from what it does with a correctable word, with an
uncorrectable one, and where it does nothing.
-/
namespace Sys2Proof.Machine

/-! ### The scrub of on-chip memory (20 R701-R703, Table 20-3) -/

section SramScrub
variable {st : State} {s : SliceId} {code : Fin 14} {ix : Nat}

/-- The scrub meets no word: during a halt, for code 0, and in a slice without power. -/
theorem exec_sramScrub_of_idle (ue : Bool)
    (h : code = 0 ∨ (codeOfSlice code ∧ !sliceOn st s) ∨ st.glb.halted) : exec (.sramScrub code s ix ue) st = .next st :=
  congrArg Host.Outcome.next (if_pos h)

variable (hrun : st.glb.halted = false) (hon : sliceOn st s = true) (hcode : code ≠ 0)
include hrun hon hcode

theorem not_scrubIdle : ¬ (code = 0 ∨ (codeOfSlice code ∧ !sliceOn st s) ∨ st.glb.halted) := by
  simp [hrun, hon, hcode]

theorem exec_sramScrub_uncorrectable : exec (.sramScrub code s ix true) st = .next (scrubUe code s ix st) :=
  congrArg Host.Outcome.next ((if_neg (not_scrubIdle hrun hon hcode)).trans (if_pos rfl))

theorem exec_sramScrub_correctable (h5 : code ≠ 5) (h6 : code ≠ 6) :
    exec (.sramScrub code s ix false) st = .next (scrubCe code s st) := by
  refine congrArg Host.Outcome.next ((if_neg (not_scrubIdle hrun hon hcode)).trans ?_)
  rw [if_neg Bool.false_ne_true, if_neg (not_or_intro h5 h6)]

end SramScrub

/-- A correctable word counts in GLB, one of a block with a counter of its own there too. -/
theorem scrubCe_eq (st : State) (s : SliceId) {code : Fin 14} (h : code ≠ 0) :
    scrubCe code s st =
      (let t := count st (Reg.glbFltCnt 0)
       if code.val ≤ 3 then count t (Reg.saeCnt s (code.val + 1)) else if code.val = 4 then count t (Reg.ktrCnt 3)
       else t) := by
  match code, h with
  | ⟨0, _⟩, h => exact absurd rfl h
  | ⟨1, _⟩, _ | ⟨2, _⟩, _ | ⟨3, _⟩, _ | ⟨4, _⟩, _ => rfl
  | ⟨n + 5, _⟩, _ =>
    have h3 : ¬ n + 5 ≤ 3 := by omega
    have h4 : n + 5 ≠ 4 := by omega
    simp only [scrubCe, if_neg h3, if_neg h4]

/-- Settles O42: the arm of `scrubUe` for a code is its clause; code 12 asks for a halt again, and there is none. -/
theorem scrubOfOnChipMemoryActsByTheTable : Obligations.ScrubOfOnChipMemoryActsByTheTable := by
  intro st s ix
  refine ⟨fun hrun hon => ?byCode, fun hhalt code ue => exec_sramScrub_of_idle ue (.inr (.inr hhalt)),
    fun ue => exec_sramScrub_of_idle ue (.inl rfl),
    fun hoff code hslice ue => exec_sramScrub_of_idle ue (.inr (.inl ⟨hslice, by simp [hoff]⟩))⟩
  case byCode =>
    have hue {code : Fin 14} (h : code ≠ 0) := exec_sramScrub_uncorrectable (ix := ix) hrun hon h
    have hmee : scrubUe 12 s ix st = meeFail (sramUncorr st) 7 7 0 0 := if_neg (Bool.eq_false_iff.mp hrun)
    refine ⟨fun code h0 h5 h6 => ?_, hue (by decide), hue (by decide), hue (by decide), hue (by decide), hue (by decide),
      hue (by decide), hue (by decide), hue (by decide), hue (by decide), hue (by decide), hue (by decide), ?_,
      hue (by decide)⟩
    · rw [exec_sramScrub_correctable hrun hon h0 h5 h6, scrubCe_eq st s h0]
    · rw [hue (by decide), hmee]

end Sys2Proof.Machine
end

section
/-!
PROOFS. The commands of the key tree of 07, and O18 put together from the outcome of each: ROOT_WRITE as KTR_CMD takes it
by its own rule, and the others where the command register is open.
-/
namespace Sys2Proof.Machine

/-! ### The command word and the steps the commands share (07 R310, R311) -/

section CommandWord
variable (op : Nat) (n : BitVec 17) (force : Bool)

theorem getF_ktrWord_op : getF (ktrWord op n force) Fld.ktrCmd_OP = op % 8 := by
  simp (disch := decide) only [ktrWord, word, List.foldl_cons, List.foldl_nil, getF_putF_self, getF_putF_ne]
  rfl

theorem ktrNode_ktrWord : ktrNode (ktrWord op n force) = n.toNat := by
  simp (disch := decide) only [ktrNode, ktrWord, word, List.foldl_cons, List.foldl_nil, getF_putF_self]
  exact Nat.mod_eq_of_lt n.isLt

/-- Bit 23 of the command word is FORCE. -/
theorem bitW_ktrWord_force : bitW (ktrWord op n force) 23 = force := by
  simp only [bitW, ktrWord, word, List.foldl_cons, List.foldl_nil, getLsbD_putF]
  cases force <;> rfl

end CommandWord

section Shared
variable {st : State} {k : Nat}

theorem nodeCheck_of_good (h : ∀ r, node? st k = some r → r.bad = false) : nodeCheck st k = st := by
  simp only [nodeCheck]
  split
  · next r hr => simp [h r hr]
  · rfl

/-- An accepted command of the key tree leaves no record of a refusal by instance state. -/
theorem stateRecord_of_accepted (i : InstId) : stateRecord st 0 11 12 1 0 i = st := by simp [stateRecord]

/-- A command other than ROOT_WRITE takes effect where KTR_CMD is open, with no refusal counted before it. -/
theorem ktrPF_of_open {op : Nat} {n : BitVec 17} {force : Bool} (hop : op % 8 ≠ 1) (h : cmdOpen st Reg.ktrCmd = true) :
    ktrPF (ktrWord op n force) st = ktrCmd (ktrWord op n force) st := by
  have hserves := cmdPF_open st Reg.ktrCmd Fld.ktrCmd_RESULT (ktrWord op n force) (ktrCmd (ktrWord op n force)) h
  simp only [cmdOpen, atOnce, Bool.and_eq_true, Bool.not_eq_true', decide_eq_true_eq] at h
  obtain ⟨⟨⟨⟨hrun, -⟩, -⟩, hbooted⟩, hbusy⟩ := h
  simp [ktrPF, getF_ktrWord_op, hop, hserves, hrun, hbooted, hbusy]

end Shared

/-! ### ROOT_WRITE (07 R279, R280, R301) -/

/-- The root that ROOT_WRITE stores at `n`. -/
def rootNode (st : State) (n : Nat) : Node :=
  let key := keyIn st (regBytes st (Reg.ktrKey 0))
  { key := key, mordant := List.replicate 32 0, root := true, cinnabar := st.debug, type := 0, depth := 0
    leafType := cfgLeaf st, parent := n, owner := cfgOwner st, kcv := kcvOf key }

section RootWrite
variable {st : State} {n : BitVec 17} (hrun : st.glb.halted = false) (hbusy : fld st Reg.ktrCmd busyF = 0)
include hrun hbusy

/-- ROOT_WRITE meets neither the mirror nor the start-up's refusal, only a halt and BUSY. -/
theorem exec_rootWrite_of_idle : exec (.rootWrite n) st = .next (rootWrite (ktrWord 1 n false) st) := by
  refine congrArg Host.Outcome.next ?_
  simp [ktrPF, getF_ktrWord_op, hrun, hbusy]

theorem exec_rootWrite_of_no_cause (hcode : rootCode st n.toNat = 0) :
    exec (.rootWrite n) st =
      .next (clearKtrKey (ktrDone (ktrWord 1 n false) 0 (putNode st n.toNat (rootNode st n.toNat)))) := by
  rw [exec_rootWrite_of_idle hrun hbusy]
  simp only [rootWrite, ktrNode_ktrWord, hcode, if_true, rootNode]

theorem exec_rootWrite_of_refused (hcode : rootCode st n.toNat ≠ 0) :
    exec (.rootWrite n) st = .next (clearKtrKey (ktrDone (ktrWord 1 n false) (rootCode st n.toNat) st)) := by
  rw [exec_rootWrite_of_idle hrun hbusy]
  simp only [rootWrite, ktrNode_ktrWord, if_neg hcode]

end RootWrite

/-! ### DERIVE, READ and INVALIDATE -/

/-- The child of `p` that DERIVE stores: its key is that of KTR_MORD under the key of `p`, one level down (07 R283, R287). -/
def childNode (st : State) (p : Node) : Node :=
  let m := regBytes st (Reg.ktrMord 0)
  let key := kdf p.key m (p.depth.val + 1)
  { key := key, mordant := m, root := false, cinnabar := st.debug, type := cfgType st, depth := p.depth + 1
    leafType := cfgLeaf st, parent := cfgParent st, owner := cfgOwner st, kcv := kcvOf key }

/-- KTR_MORD loaded with the mordant `m`. -/
def mordantShown (st : State) (m : Bytes) : State :=
  (List.range 8).foldl (fun st i => wr st (Reg.ktrMord i) (BitVec.ofNat 32 (leVal (sub m (4 * i) 4)))) st

/-- KTR_MORD loaded with the mordant of node `n`, KTR_RB with the last words of its record (07 R278). -/
def nodeShown (st : State) (n : Nat) : State :=
  (nodeImage st n).zipIdx.foldl (fun st (p : Word × Nat) => wr st (Reg.ktrRb p.2) p.1)
    (mordantShown st (((node? st n).map (fun r => r.mordant)).getD []))

/-- The record's last words are no register's contents. -/
theorem nodeImage_wr (st : State) (a : Nat) (w : Word) (n : Nat) : nodeImage (wr st a w) n = nodeImage st n := rfl

theorem nodeImage_mordantShown (st : State) (m : Bytes) (n : Nat) : nodeImage (mordantShown st m) n = nodeImage st n :=
  List.foldlRecOn (motive := fun t => nodeImage t n = nodeImage st n) (List.range 8) _ rfl
    fun t ht _ _ => (nodeImage_wr t _ _ n).trans ht

/-- The nodes of `t` freed (07 R296). -/
def nodesFreed (st : State) (t : List Nat) : State :=
  { st with ktr := { st.ktr with nodes := st.ktr.nodes.filter (fun p => !t.contains p.1) } }

section OpenCommands
variable {st : State} {n : BitVec 17} (hopen : cmdOpen st Reg.ktrCmd = true)
include hopen

theorem exec_derive_of_open : exec (.derive n) st = .next (derive (ktrWord 2 n false) st) := by
  refine congrArg Host.Outcome.next ((ktrPF_of_open (by decide) hopen).trans ?_)
  simp only [ktrCmd, getF_ktrWord_op]

theorem exec_nodeRead_of_open : exec (.nodeRead n) st = .next (nodeRead (ktrWord 3 n false) st) := by
  refine congrArg Host.Outcome.next ((ktrPF_of_open (by decide) hopen).trans ?_)
  simp only [ktrCmd, getF_ktrWord_op]

theorem exec_invalidate_of_open (force : Bool) :
    exec (.invalidate n force) st = .next (invalidate (ktrWord 4 n force) st) := by
  refine congrArg Host.Outcome.next ((ktrPF_of_open (by decide) hopen).trans ?_)
  simp only [ktrCmd, getF_ktrWord_op]

theorem exec_derive_of_no_cause {p : Node} (hp : node? st (cfgParent st) = some p) (hbad : p.bad = false)
    (hcode : deriveCode st n.toNat = 0) :
    exec (.derive n) st =
      .next (ktrDone (ktrWord 2 n false) 0 (count (putNode st n.toNat (childNode st p)) (Reg.ktrCnt 0))) := by
  have hcheck : nodeCheck st (cfgParent st) = st := nodeCheck_of_good (by simp [hp, hbad])
  rw [exec_derive_of_open hopen]
  simp only [derive, ktrNode_ktrWord, hcheck, hp, hcode, if_true, stateRecord_of_accepted, childNode]

theorem exec_nodeRead_of_good (hn : n.toNat < nodeCount st) (hgood : ∀ r, node? st n.toNat = some r → r.bad = false) :
    exec (.nodeRead n) st = .next (ktrDone (ktrWord 3 n false) 0 (nodeShown st n.toNat)) := by
  rw [exec_nodeRead_of_open hopen]
  simp only [nodeRead, ktrNode_ktrWord, if_neg (Nat.not_le_of_lt hn), nodeCheck_of_good hgood]
  rw [← mordantShown, nodeImage_mordantShown, ← nodeShown]

theorem exec_invalidate_of_no_cause (force : Bool) (hgood : ∀ r, node? st n.toNat = some r → r.bad = false)
    (hcode : invalidateCode st n.toNat force = 0) :
    exec (.invalidate n force) st = .next (ktrDone (ktrWord 4 n force) 0
      (orphanUsers (if force then revokeUsers (nodesFreed st (subtree st n.toNat)) (subtree st n.toNat)
        else nodesFreed st (subtree st n.toNat)) (subtree st n.toNat))) := by
  rw [exec_invalidate_of_open hopen]
  simp only [invalidate, ktrNode_ktrWord, bitW_ktrWord_force, nodeCheck_of_good hgood, hcode, if_true,
    stateRecord_of_accepted, nodesFreed]

end OpenCommands

/-- Settles O18: each clause is the equation above of its command's outcome. The clauses of the open commands do not use
that the package is no standby: KTR_CMD is open at none. -/
theorem keyTreeCommandsWriteDeriveReadAndInvalidate : Obligations.KeyTreeCommandsWriteDeriveReadAndInvalidate := by
  intro st n
  exact ⟨fun hrun hbusy => ⟨exec_rootWrite_of_no_cause hrun hbusy, exec_rootWrite_of_refused hrun hbusy⟩,
    fun hopen _ _ => ⟨fun p => exec_derive_of_no_cause hopen, exec_nodeRead_of_good hopen,
      exec_invalidate_of_no_cause hopen⟩⟩

end Sys2Proof.Machine
end

section
/-!
PROOFS. The switch timers and the epoch pre-install of 08: the strobes of SAE_SWT_CTL, the two fires, the leaf that an EMPTY
slot of EPOCH is loaded with, and O17 put together from the outcome of each.
-/
namespace Sys2Proof.Machine

/-! ### The strobes of SAE_SWT_CTL (08 R334, R342) -/

/-- A write of SAE_SWT_CTL with the strobes and the lead as given. -/
def swtWord (arm dis : Bool) (lead : BitVec 16) : Word :=
  word [(Fld.saeSwtCtl_ARM, b2n arm), (Fld.saeSwtCtl_DISARM, b2n dis), (Fld.saeSwtCtl_RX_LEAD, lead.toNat)]

section StrobeWord
variable (arm dis : Bool) (lead : BitVec 16)

/-- Bit 31 of the word is ARM. -/
theorem bitW_swtWord_arm : bitW (swtWord arm dis lead) 31 = arm := by
  simp only [bitW, swtWord, word, List.foldl_cons, List.foldl_nil, getLsbD_putF]
  cases arm <;> rfl

/-- Bit 30 of the word is DISARM. -/
theorem bitW_swtWord_disarm : bitW (swtWord arm dis lead) 30 = dis := by
  simp only [bitW, swtWord, word, List.foldl_cons, List.foldl_nil, getLsbD_putF]
  cases dis <;> rfl

theorem getF_swtWord_lead : getF (swtWord arm dis lead) Fld.saeSwtCtl_RX_LEAD = lead.toNat := by
  simp (disch := decide) only [swtWord, word, List.foldl_cons, List.foldl_nil, getF_putF_self]
  exact Nat.mod_eq_of_lt lead.isLt

end StrobeWord

/-- The answer to a strobe: its code beside the lead that was written. -/
def swtAnswer (st : State) (s : SliceId) (t : Fin 8) (lead : BitVec 16) (code : Nat) : State :=
  wr st (Reg.saeSwtCtl s t) (word [(Fld.saeSwtCtl_RESULT, code), (Fld.saeSwtCtl_RX_LEAD, lead.toNat)])

section Strobe
variable {st : State} {s : SliceId} {t : Fin 8} {lead : BitVec 16}

theorem timerStrobe_both : timerStrobe s t (swtWord true true lead) st = swtAnswer st s t lead 4 := by
  simp only [timerStrobe, bitW_swtWord_arm, bitW_swtWord_disarm, getF_swtWord_lead, Bool.and_self, if_true, swtAnswer]

theorem timerStrobe_arm_of_armed (h : (sl st s).timers[t].armed = true) :
    timerStrobe s t (swtWord true false lead) st = swtAnswer st s t lead 1 := by
  simp [-Fin.getElem_fin, timerStrobe, bitW_swtWord_arm, bitW_swtWord_disarm, getF_swtWord_lead, h, swtAnswer]

/-- ARM takes TIME and the lead where TIME lies in range, and nothing where it does not. -/
theorem timerStrobe_arm_of_not_armed (h : (sl st s).timers[t].armed = false) :
    timerStrobe s t (swtWord true false lead) st =
      if armInRange st (rd st (Reg.saeSwtTime s t)) lead.toNat then
        swtAnswer (modTimer st s t (fun _ =>
          { time := rd st (Reg.saeSwtTime s t), lead := lead, armed := true, rxFired := false })) s t lead 0
      else swtAnswer st s t lead 3 := by
  cases hr : armInRange st (rd st (Reg.saeSwtTime s t)) lead.toNat <;>
    simp [-Fin.getElem_fin, timerStrobe, bitW_swtWord_arm, bitW_swtWord_disarm, getF_swtWord_lead, h, hr, swtAnswer]

theorem timerStrobe_disarm_of_armed (h : (sl st s).timers[t].armed = true) :
    timerStrobe s t (swtWord false true lead) st =
      swtAnswer (modTimer st s t (fun x => { x with armed := false })) s t lead 0 := by
  simp [-Fin.getElem_fin, timerStrobe, bitW_swtWord_arm, bitW_swtWord_disarm, getF_swtWord_lead, h, swtAnswer]

theorem timerStrobe_disarm_of_not_armed (h : (sl st s).timers[t].armed = false) :
    timerStrobe s t (swtWord false true lead) st = swtAnswer st s t lead 2 := by
  simp [-Fin.getElem_fin, timerStrobe, bitW_swtWord_arm, bitW_swtWord_disarm, getF_swtWord_lead, h, swtAnswer]

variable (hopen : atOnce st (Reg.saeSwtCtl s t) = true) (other : Bool)
include hopen

theorem exec_timerArm_of_atOnce :
    exec (.timerArm s t other lead) st = .next (timerStrobe s t (swtWord true other lead) st) :=
  congrArg Host.Outcome.next (viaPF_atOnce _ _ _ _ hopen)

theorem exec_timerDisarm_of_atOnce :
    exec (.timerDisarm s t other lead) st = .next (timerStrobe s t (swtWord other true lead) st) :=
  congrArg Host.Outcome.next (viaPF_atOnce _ _ _ _ hopen)

end Strobe

/-! ### The transmit fire (08 R333, R334) -/

section Fire
variable {st : State} {s : SliceId} {t : Fin 8}

/-- The receive fire happens once for each ARM. -/
theorem doRxFire_of_fired (h : (sl st s).timers[t].rxFired = true) : doRxFire st s t = st := by
  simp only [doRxFire, rxDue, h, Bool.not_true, Bool.and_false, Bool.false_and, Bool.false_eq_true, if_false]

theorem exec_timerFired_of_due (harmed : (sl st s).timers[t].armed = true) (hfired : (sl st s).timers[t].rxFired = true)
    (htime : nsLe (sl st s).timers[t].time (nowNs st) = true) :
    exec (.timerFired s t) st = .next (raise (fireAll (modTimer st s t (fun x => { x with armed := false })) s t false)
      { block := 23, index := 6, slice := s.val, ps := [t.val] }) := by
  refine congrArg Host.Outcome.next ?_
  simp only [harmed, htime, Bool.and_self, if_true, doRxFire_of_fired hfired]

end Fire

/-! ### The epoch pre-install (08 R327, R328) -/

section PreInstall
variable {st : State} {s : SliceId} {ch : ChIx}

theorem preInstallOk_of_empty (hv : (chOf st s ch).valid = true) (hecc : (chOf st s ch).eccFail = false)
    (hep : (chOf st s ch).epochMode = true) (herr : (chOf st s ch).preErr = false)
    (hx : (slotOf st s ch (epochAn (chOf st s ch))).state = .empty)
    (hi : (inst st (chOf st s ch).inst).state ≠ .frozen) : preInstallOk st s ch (epochAn (chOf st s ch)) = true := by
  simpa [preInstallOk, hv, hecc, hep, herr, hx, frozen] using hi

variable (hbad : (chOf st s ch).bad = false) (hok : preInstallOk st s ch (epochAn (chOf st s ch)) = true)
  (hway : preInstalling st s ch = false) (hrun : st.glb.halted = false) (hhold : st.glb.holdup = false)
  (hgood : ∀ r, node? st (chOf st s ch).parent.toNat = some r → r.bad = false)
include hbad hok hway hrun hhold hgood

theorem exec_preInstall_of_leaf_refused
    (hleaf : leafReason (chOf st s ch) (node? st (chOf st s ch).parent.toNat) ≠ 0) :
    exec (.preInstall s ch) st = .next (preFail s ch (epochAn (chOf st s ch))
      (leafReason (chOf st s ch) (node? st (chOf st s ch).parent.toNat)) st) := by
  refine congrArg Host.Outcome.next ?_
  simp [preInstall, chanCheck_of_good hbad, hok, hway, hrun, hhold, nodeCheck_of_good hgood, hleaf]

/-- With a PARENT that gives the leaf and room in the share, the installation is asked for with the leaf as its key. -/
theorem exec_preInstall_of_leaf {r : Node} (hnode : node? st (chOf st s ch).parent.toNat = some r)
    (hleaf : leafReason (chOf st s ch) (some r) = 0)
    (hshare : assocsOf st s (chOf st s ch).inst < (inst st (chOf st s ch).inst).shares[s].assocs) :
    exec (.preInstall s ch) st =
      .next (startInstall (countN st (Reg.ktrCnt 0) (if isXpn (chOf st s ch).suite then 2 else 1)) 1 2 s ch
        (epochAn (chOf st s ch)) (kdf r.key (epochMordant (chOf st s ch).epoch 0) (r.depth.val + 1))
        (BitVec.ofNat 96 (beVal ((kdf r.key (epochMordant (chOf st s ch).epoch 1) (r.depth.val + 1)).take 12)))
        ((chOf st s ch).sci.setWidth 16 |>.setWidth 32) 1 true true (chOf st s ch).parent.toNat id
        (preFail s ch (epochAn (chOf st s ch)) 4)) := by
  have hroom := Nat.not_le_of_lt hshare
  refine congrArg Host.Outcome.next ?_
  simp only [preInstall, chanCheck_of_good hbad, hok, hway, hrun, hhold, nodeCheck_of_good hgood, hnode, hleaf,
    if_neg hroom, Option.getD_some, Bool.not_true, Bool.or_self, Bool.false_eq_true, ne_eq, not_true_eq_false, if_false]

end PreInstall

/-- Settles O17: each clause is the equation above of its command's outcome; the receive fire is its own definition. -/
theorem switchTimersArmFireAndEpochsPreinstall : Obligations.SwitchTimersArmFireAndEpochsPreinstall := by
  intro st s t
  refine ⟨?strobes, rfl, exec_timerFired_of_due, ?preinstall⟩
  case strobes =>
    intro hopen lead done time
    simp only [exec_timerArm_of_atOnce hopen, exec_timerDisarm_of_atOnce hopen]
    refine ⟨congrArg _ timerStrobe_both, congrArg _ timerStrobe_both, fun harmed => ?armed, fun hfree => ?free⟩
    case armed => exact ⟨congrArg _ (timerStrobe_arm_of_armed harmed), congrArg _ (timerStrobe_disarm_of_armed harmed)⟩
    case free =>
      refine ⟨congrArg _ (timerStrobe_disarm_of_not_armed hfree), ?_⟩
      rw [timerStrobe_arm_of_not_armed hfree]
      exact apply_ite Host.Outcome.next _ _ _
  case preinstall =>
    intro ch c an n hv hbad hecc hep herr hx hi hway hrun hhold hgood
    have hok := preInstallOk_of_empty hv hecc hep herr hx hi
    exact ⟨exec_preInstall_of_leaf_refused hbad hok hway hrun hhold hgood,
      fun _ => exec_preInstall_of_leaf hbad hok hway hrun hhold hgood⟩

end Sys2Proof.Machine
end

section
/-!
PROOFS. The start rule of 09: what an accepted installation says of the journal and of the held record, and O22 put together
from it.
-/
namespace Sys2Proof.Machine

/-! ### What the start rule has checked when it accepts (09 R353) -/

section StartRule
variable {st : State} {kind last req start res : Nat} {fp : Bytes} {ev : Option (Nat × JRec)}

theorem blockOf_pos (st : State) (kind : Nat) : 0 < blockOf st kind := Nat.two_pow_pos _

theorem of_ite_error_eq_ok {ε α : Type} {c : Prop} [Decidable c] {e : ε} {x : Except ε α} {y : α}
    (h : (if c then .error e else x) = .ok y) : ¬ c ∧ x = .ok y := by
  split at h
  case isTrue => cases h
  case isFalse hc => exact ⟨hc, h⟩

/-- Every accepted start, from a held record or from none: the journal serves, no installation of the fingerprint is on its
way, and the reservation is one block, cut at the last position. -/
theorem startRule_ok (h : startRule st kind last fp req = .ok (start, res, ev)) :
    pnjNotReady st = false ∧ (st.jnl.damaged = true → st.jnl.acked = true) ∧ jnlInstalling st fp = false ∧
    res = min (start + blockOf st kind - 1) last ∧
    ((∃ p r, heldRecord st fp = some (p, r) ∧ jnlLive st p = false ∧ r.value < last ∧ start = max req (r.value + 1) ∧
        ev = none) ∨
      (heldRecord st fp = none ∧ start = req)) := by
  unfold startRule at h
  obtain ⟨hserves, h⟩ := of_ite_error_eq_ok h
  obtain ⟨hinst, h⟩ := of_ite_error_eq_ok h
  obtain ⟨hready, hdam⟩ : st.jnl.ready = true ∧ (st.jnl.damaged = true → st.jnl.acked = true) := by
    simpa using hserves
  have hidle : jnlInstalling st fp = false := by simpa using hinst
  have hopen (hc : ¬ st.jnl.closed = true) : pnjNotReady st = false := by simp [pnjNotReady, hready, hc]
  split at h
  next p r hheld =>
    obtain ⟨hlive, h⟩ := of_ite_error_eq_ok h
    obtain ⟨hvalue, h⟩ := of_ite_error_eq_ok h
    obtain ⟨hclosed, h⟩ := of_ite_error_eq_ok h
    obtain ⟨rfl, rfl, rfl⟩ : _ ∧ _ ∧ _ := by simpa using h
    exact ⟨hopen hclosed, hdam, hidle, rfl,
      .inl ⟨p, r, hheld, by simpa using hlive, Nat.lt_of_not_le hvalue, rfl, rfl⟩⟩
  next hnone =>
    split at h
    case isTrue =>
      split at h
      next => cases h
      next p _ =>
        obtain ⟨hclosed, h⟩ := of_ite_error_eq_ok h
        obtain ⟨rfl, rfl, -⟩ : _ ∧ _ ∧ _ := by simpa using h
        exact ⟨hopen hclosed, hdam, hidle, rfl, .inr ⟨hnone, rfl⟩⟩
    case isFalse =>
      obtain ⟨hclosed, h⟩ := of_ite_error_eq_ok h
      obtain ⟨rfl, rfl, -⟩ : _ ∧ _ ∧ _ := by simpa using h
      exact ⟨hopen hclosed, hdam, hidle, rfl, .inr ⟨hnone, rfl⟩⟩

end StartRule

/-- Settles O22: the start is the requested one or the one above the held record's VALUE, and in both cases it lies at or
below the last position, so that one block from it, cut there, does not end below it. -/
theorem startRuleNeverReusesAPosition : Obligations.StartRuleNeverReusesAPosition := by
  intro st kind last fp req start res ev hreq h
  obtain ⟨hopen, hdam, hidle, hres, hstart⟩ := startRule_ok h
  have hblock := blockOf_pos st kind
  rcases hstart with ⟨p, r, hheld, hlive, hvalue, hs, hev⟩ | ⟨hnone, hs⟩
  case inl =>
    refine ⟨by omega, by omega, by omega, by omega, ?_, hidle, hopen, hdam⟩
    intro p' r' hheld'
    obtain ⟨rfl, rfl⟩ : p = p' ∧ r = r' := by simpa [hheld] using hheld'
    exact ⟨by omega, hlive, hev⟩
  case inr =>
    refine ⟨by omega, by omega, by omega, by omega, ?_, hidle, hopen, hdam⟩
    simp [hnone]

end Sys2Proof.Machine
end

section
/-!
PROOFS. The index that the scan of 09 builds: what one more valid record does to it, the invariant that the records found so far
keep, and O23 put together from it.
-/
namespace Sys2Proof.Machine

/-! ### Entries of a well-formed store after a record is put or taken away -/

section StoreEntries
variable {α : Type} {m : NMap α} {k : Nat} {v : α}

theorem NMap.mem_put_iff (hm : m.wf = true) (q : Nat × α) : q ∈ m.put k v ↔ q = (k, v) ∨ (q ∈ m ∧ q.1 ≠ k) := by
  obtain ⟨j, w⟩ := q
  rw [← NMap.get?_eq_some_iff_mem (NMap.put_wf m k v hm), ← NMap.get?_eq_some_iff_mem hm]
  by_cases hj : j = k
  · subst hj
    simp [eq_comm]
  · simp [NMap.get?_put_ne _ _ _ _ hj, hj]

theorem NMap.mem_del_iff (q : Nat × α) : q ∈ m.del k ↔ q ∈ m ∧ q.1 ≠ k := by
  simp [NMap.del]

theorem NMap.del_wf (hm : m.wf = true) : (m.del k).wf = true :=
  NMap.wf_iff_pairwise.mpr ((NMap.wf_iff_pairwise.mp hm).filter _)

theorem NMap.eq_of_key_eq (hm : m.wf = true) {p q : Nat × α} (hp : p ∈ m) (hq : q ∈ m) (h : p.1 = q.1) : p = q := by
  have hpv := (NMap.get?_eq_some_iff_mem hm).mpr hp
  rw [h, (NMap.get?_eq_some_iff_mem hm).mpr hq] at hpv
  exact Prod.ext h (Option.some.inj hpv).symm

end StoreEntries

/-! ### The records found so far and the index (09 R366, R371) -/

/-- `a` is a record of at least the age of `b` that the scan keeps: higher SEQ, or equal SEQ and a VALUE not lower. -/
def JRec.covers (a b : JRec) : Prop := b.seq < a.seq ∨ (b.seq = a.seq ∧ b.value ≤ a.value)

theorem JRec.covers_refl (a : JRec) : a.covers a := .inr ⟨rfl, Nat.le_refl _⟩

theorem JRec.covers_trans {a b c : JRec} (hab : a.covers b) (hbc : b.covers c) : a.covers c := by
  rcases hab with hab | ⟨hab, hv⟩ <;> rcases hbc with hbc | ⟨hbc, hw⟩
  · exact .inl (BitVec.lt_trans hbc hab)
  · exact .inl (hbc ▸ hab)
  · exact .inl (hab ▸ hbc)
  · exact .inr ⟨hbc.trans hab, Nat.le_trans hw hv⟩

/-- The scan's test whether a record takes the place of the one in the index. -/
theorem JRec.covers_of_newer {a b : JRec} (h : b.seq < a.seq ∨ (b.seq = a.seq ∧ b.value < a.value)) : a.covers b :=
  h.imp_right fun ⟨hs, hv⟩ => ⟨hs, Nat.le_of_lt hv⟩

theorem JRec.covers_of_not_newer {a b : JRec} (h : ¬ (b.seq < a.seq ∨ (b.seq = a.seq ∧ b.value < a.value))) :
    b.covers a := by
  rw [not_or, not_and, BitVec.not_lt, Nat.not_lt] at h
  obtain ⟨hs, hv⟩ := h
  by_cases heq : a.seq = b.seq
  · exact .inr ⟨heq, hv heq.symm⟩
  · exact .inl (BitVec.lt_of_le_ne hs heq)

/-- What the index says of the valid records found so far. -/
structure ScanIndex (found : List (Nat × JRec)) (m : NMap JRec) : Prop where
  wf : m.wf = true
  found_of_held : ∀ p ∈ m, p ∈ found
  one_of_fp : ∀ p ∈ m, ∀ q ∈ m, p.2.fp = q.2.fp → p = q
  covered : ∀ p ∈ found, ∃ q ∈ m, q.2.fp = p.2.fp ∧ q.2.covers p.2

theorem ScanIndex.nil : ScanIndex [] [] :=
  ⟨rfl, by simp, by simp, by simp⟩

section OneMore
variable {found : List (Nat × JRec)} {m : NMap JRec} {x y : Nat × JRec}

/-- A fingerprint that the index does not hold takes a place of its own. -/
theorem ScanIndex.put (h : ScanIndex found m) (hpos : ∀ p ∈ found, p.1 < x.1) (hnew : ∀ q ∈ m, q.2.fp ≠ x.2.fp) :
    ScanIndex (found ++ [x]) (m.put x.1 x.2) := by
  have hmem (q : Nat × JRec) : q ∈ m.put x.1 x.2 ↔ q = x ∨ q ∈ m := by
    rw [NMap.mem_put_iff h.wf]
    exact or_congr_right (and_iff_left_of_imp fun hq => Nat.ne_of_lt (hpos q (h.found_of_held q hq)))
  refine ⟨NMap.put_wf _ _ _ h.wf, ?held, ?one, ?covered⟩
  case held =>
    intro q hq
    rcases (hmem q).mp hq with rfl | hq
    · simp
    · exact List.mem_append_left _ (h.found_of_held q hq)
  case one =>
    intro p hp q hq hfp
    rcases (hmem p).mp hp with rfl | hpm <;> rcases (hmem q).mp hq with rfl | hqm
    · rfl
    · exact absurd hfp.symm (hnew q hqm)
    · exact absurd hfp (hnew p hpm)
    · exact h.one_of_fp p hpm q hqm hfp
  case covered =>
    intro p hp
    rcases List.mem_append.mp hp with hp | hp
    · obtain ⟨q, hq, hcov⟩ := h.covered p hp
      exact ⟨q, (hmem q).mpr (.inr hq), hcov⟩
    · obtain rfl := List.mem_singleton.mp hp
      exact ⟨p, (hmem p).mpr (.inl rfl), rfl, p.2.covers_refl⟩

/-- A newer record takes the place of the one in the index. -/
theorem ScanIndex.replace (h : ScanIndex found m) (hpos : ∀ p ∈ found, p.1 < x.1) (hy : y ∈ m) (hfp : y.2.fp = x.2.fp)
    (hnewer : x.2.covers y.2) : ScanIndex (found ++ [x]) ((m.del y.1).put x.1 x.2) := by
  have hmem (q : Nat × JRec) : q ∈ (m.del y.1).put x.1 x.2 ↔ q = x ∨ (q ∈ m ∧ q.1 ≠ y.1) := by
    rw [NMap.mem_put_iff (NMap.del_wf h.wf), NMap.mem_del_iff]
    exact or_congr_right (and_iff_left_of_imp fun hq => Nat.ne_of_lt (hpos q (h.found_of_held q hq.1)))
  -- an entry of another position than `y` is of another fingerprint
  have hother (q : Nat × JRec) (hq : q ∈ m ∧ q.1 ≠ y.1) : q.2.fp ≠ x.2.fp := fun e =>
    hq.2 (congrArg Prod.fst (h.one_of_fp q hq.1 y hy (e.trans hfp.symm)))
  refine ⟨NMap.put_wf _ _ _ (NMap.del_wf h.wf), ?held, ?one, ?covered⟩
  case held =>
    intro q hq
    rcases (hmem q).mp hq with rfl | ⟨hq, -⟩
    · simp
    · exact List.mem_append_left _ (h.found_of_held q hq)
  case one =>
    intro p hp q hq hpq
    rcases (hmem p).mp hp with rfl | hpm <;> rcases (hmem q).mp hq with rfl | hqm
    · rfl
    · exact absurd hpq.symm (hother q hqm)
    · exact absurd hpq (hother p hpm)
    · exact h.one_of_fp p hpm.1 q hqm.1 hpq
  case covered =>
    intro p hp
    rcases List.mem_append.mp hp with hp | hp
    · obtain ⟨q, hq, hqfp, hcov⟩ := h.covered p hp
      by_cases hqy : q.1 = y.1
      · obtain rfl := NMap.eq_of_key_eq h.wf hq hy hqy
        exact ⟨x, (hmem x).mpr (.inl rfl), hfp.symm.trans hqfp, JRec.covers_trans hnewer hcov⟩
      · exact ⟨q, (hmem q).mpr (.inr ⟨hq, hqy⟩), hqfp, hcov⟩
    · obtain rfl := List.mem_singleton.mp hp
      exact ⟨p, (hmem p).mpr (.inl rfl), rfl, p.2.covers_refl⟩

/-- A record that is no newer than the one in the index is passed over. -/
theorem ScanIndex.pass (h : ScanIndex found m) (hy : y ∈ m) (hfp : y.2.fp = x.2.fp) (hold : y.2.covers x.2) :
    ScanIndex (found ++ [x]) m := by
  refine ⟨h.wf, fun q hq => List.mem_append_left _ (h.found_of_held q hq), h.one_of_fp, ?_⟩
  intro p hp
  rcases List.mem_append.mp hp with hp | hp
  · exact h.covered p hp
  · obtain rfl := List.mem_singleton.mp hp
    exact ⟨y, hy, hfp, hold⟩

/-- One more valid record, at a position above those before it. -/
theorem ScanIndex.indexAdd (h : ScanIndex found m) (hpos : ∀ p ∈ found, p.1 < x.1) :
    ScanIndex (found ++ [x]) (indexAdd m x) := by
  unfold Machine.indexAdd
  split
  case h_1 hnone =>
    exact h.put hpos fun q hq => by simpa using List.find?_eq_none.mp hnone q hq
  case h_2 y hy =>
    have hmem := List.mem_of_find?_eq_some hy
    have hfp : y.2.fp = x.2.fp := by simpa using List.find?_some hy
    split
    case isTrue hnewer => exact h.replace hpos hmem hfp (JRec.covers_of_newer hnewer)
    case isFalse hold => exact h.pass hmem hfp (JRec.covers_of_not_newer hold)

end OneMore

theorem scanIndex_append {found rest index : List (Nat × JRec)} (h : ScanIndex found index)
    (hrising : (found ++ rest).Pairwise (fun p q => p.1 < q.1)) :
    ScanIndex (found ++ rest) (rest.foldl indexAdd index) := by
  induction rest generalizing found index with
  | nil =>
    rw [List.append_nil]
    exact h
  | cons x rest ih =>
    obtain ⟨-, -, hpos⟩ := List.pairwise_append.mp hrising
    rw [List.append_cons] at hrising ⊢
    exact ih (h.indexAdd fun p hp => hpos p hp x List.mem_cons_self) hrising

theorem scanIndex_of_rising (good : List (Nat × JRec)) (hgood : good.Pairwise (fun p q => p.1 < q.1)) :
    ScanIndex good (good.foldl indexAdd []) :=
  scanIndex_append ScanIndex.nil hgood

/-- Settles O23: the invariant of the scan holds of all the records that it found. -/
theorem scanKeepsTheNewestRecordOfEachFingerprint : Obligations.ScanKeepsTheNewestRecordOfEachFingerprint := by
  intro good hgood
  obtain ⟨hwf, hfound, hone, hcov⟩ := scanIndex_of_rising good hgood
  exact ⟨hwf, hfound, hone, hcov⟩

end Sys2Proof.Machine
end

section
/-!
PROOFS. The commands of PNJ_CMD of 09: one equation per outcome of each, and O20 put together from them.
-/
namespace Sys2Proof.Machine

/-! ### The command word (09 R378) -/

theorem getF_pnjWord_index (op : Nat) (ix : BitVec 18) : getF (pnjWord op ix.toNat) Fld.pnjCmd_INDEX = ix.toNat := by
  simp (disch := decide) only [pnjWord, word, List.foldl_cons, List.foldl_nil, getF_putF_self]
  exact Nat.mod_eq_of_lt ix.isLt

/-! ### The data words of READ are no part of the journal -/

/-- PNJ_RDATA loaded with the 32 bytes `b`. -/
def recShown (st : State) (b : Bytes) : State :=
  (List.range 8).foldl (fun st i => wr st (Reg.pnjRdata i) (BitVec.ofNat 32 (leVal (sub b (4 * i) 4)))) st

theorem jnlLive_wr (st : State) (a : Nat) (w : Word) (p : Nat) : jnlLive (wr st a w) p = jnlLive st p := rfl

theorem jnlLive_recShown (st : State) (b : Bytes) (p : Nat) : jnlLive (recShown st b) p = jnlLive st p :=
  List.foldlRecOn (motive := fun t => jnlLive t p = jnlLive st p) (List.range 8) _ rfl
    fun t ht _ _ => (jnlLive_wr t _ _ p).trans ht

/-! ### Making a record a tombstone (09 R360) -/

/-- The request of a manager's command for the tombstone of a held record. -/
def tombRequest (r : JRec) (fp : Bytes) (u : JUse) : JReq :=
  { cls := 1, kind := r.kind, tomb := true, fp := fp, value := r.value, use := u }

theorem tombCode_cmdBusy (st : State) (a : Nat) (o : Field) (w : Word) (fp : Bytes) :
    tombCode (cmdBusy st a o w) fp = tombCode st fp := rfl

/-- TOMB_DORMANT goes on while a request of it waits. -/
theorem tombEnd_of_waiting {st : State} {r : JReq} (hr : r ∈ st.jnl.reqs) (hu : r.use = .tombDormant) : tombEnd st = st := by
  have hany : st.jnl.reqs.any (fun r => r.use == .tombDormant) = true := List.any_eq_true.mpr ⟨r, hr, by simp [hu]⟩
  simp only [tombEnd, tombLeft, hany, Bool.true_or, if_true]

section Commands
variable {st : State} (hopen : cmdOpen st Reg.pnjCmd = true)
include hopen

/-! ### READ (09 R369, R378) -/

theorem exec_pnjRead_of_open (ix : BitVec 18) :
    exec (.pnjRead ix) st = .next (pnjDone (pnjWord 1 ix.toNat) 0
      (wr (recShown st (match st.jnl.index.get? ix.toNat with | some r => recBytes r | none => ringRead st ix.toNat))
        Reg.pnjRstat
        (word [(Fld.pnjRstat_HELD, b2n (st.jnl.index.get? ix.toNat).isSome),
          (Fld.pnjRstat_LIVE, b2n ((st.jnl.index.get? ix.toNat).isSome && jnlLive st ix.toNat))]))) := by
  refine congrArg Host.Outcome.next ((cmdPF_open _ _ _ _ _ hopen).trans ?_)
  simp only [pnjRead, getF_pnjWord_index]
  rw [← recShown, jnlLive_recShown] <;> rfl

/-! ### Refused before the journal is READY, or once it is closed (09 R378, R376) -/

theorem exec_journal_of_not_ready (h : pnjNotReady st = true) :
    exec .find st = .next (pnjDone (pnjWord 2 0) 8 st) ∧ exec .destroy st = .next (pnjDone (pnjWord 3 0) 8 st) ∧
    exec .tombDormant st = .next (pnjDone (pnjWord 4 0) 8 st) ∧ exec .ackDamage st = .next (pnjDone (pnjWord 5 0) 8 st) :=
  ⟨congrArg Host.Outcome.next ((cmdPF_open _ _ _ _ _ hopen).trans (if_pos h)),
    congrArg Host.Outcome.next ((cmdPF_open _ _ _ _ _ hopen).trans (if_pos h)),
    congrArg Host.Outcome.next ((cmdPF_open _ _ _ _ _ hopen).trans (if_pos h)),
    congrArg Host.Outcome.next ((cmdPF_open _ _ _ _ _ hopen).trans (if_pos h))⟩

section Ready
variable (hready : pnjNotReady st = false)
include hready

/-! ### FIND and DESTROY (09 R360, R378) -/

theorem exec_find_of_held {p : Nat} {r : JRec} (hheld : heldRecord st (pnjFp st) = some (p, r)) :
    exec .find st = .next (pnjDone (putF (pnjWord 2 0) Fld.pnjCmd_INDEX p) 0 st) := by
  refine congrArg Host.Outcome.next ((cmdPF_open _ _ _ _ _ hopen).trans ?_)
  simp [pnjFind, hready, hheld]

theorem exec_find_of_not_held (hheld : heldRecord st (pnjFp st) = none) :
    exec .find st = .next (pnjDone (pnjWord 2 0) 3 st) := by
  refine congrArg Host.Outcome.next ((cmdPF_open _ _ _ _ _ hopen).trans ?_)
  simp [pnjFind, hready, hheld]

theorem exec_destroy_of_dormant {p : Nat} {r : JRec} (hheld : heldRecord st (pnjFp st) = some (p, r))
    (hcode : tombCode st (pnjFp st) = 0) :
    exec .destroy st = .next (jnlRequest (cmdBusy st Reg.pnjCmd Fld.pnjCmd_OP (pnjWord 3 0))
      (tombRequest r (pnjFp st) .destroy)) := by
  refine congrArg Host.Outcome.next ((cmdPF_open _ _ _ _ _ hopen).trans ?_)
  simp [pnjDestroy, hready, hheld, hcode, tombRequest]

theorem exec_destroy_of_refused {p : Nat} {r : JRec} (hheld : heldRecord st (pnjFp st) = some (p, r))
    (hcode : tombCode st (pnjFp st) ≠ 0) :
    exec .destroy st = .next (pnjDone (pnjWord 3 0) (tombCode st (pnjFp st)) st) := by
  refine congrArg Host.Outcome.next ((cmdPF_open _ _ _ _ _ hopen).trans ?_)
  simp [pnjDestroy, hready, hheld, hcode]

theorem exec_destroy_of_not_held (hheld : heldRecord st (pnjFp st) = none) :
    exec .destroy st = .next (pnjDone (pnjWord 3 0) 3 st) := by
  refine congrArg Host.Outcome.next ((cmdPF_open _ _ _ _ _ hopen).trans ?_)
  simp [pnjDestroy, hready, hheld]

/-! ### TOMB_DORMANT and ACK_DAMAGE (09 R360, R368) -/

/-- The first of the requests keeps the command BUSY. -/
theorem exec_tombDormant_of_dormant {q : Nat × JRec} {qs : List (Nat × JRec)}
    (hdormant : st.jnl.index.filter (fun p => tombCode st p.2.fp == 0) = q :: qs) :
    exec .tombDormant st = .next (modJnl (cmdBusy st Reg.pnjCmd Fld.pnjCmd_OP (pnjWord 4 0)) (fun j => { j with
      tombFail := false, reqs := j.reqs ++ (q :: qs).map (fun p => tombRequest p.2 p.2.fp .tombDormant) })) := by
  refine congrArg Host.Outcome.next ((cmdPF_open _ _ _ _ _ hopen).trans ?_)
  have hbusy : (cmdBusy st Reg.pnjCmd Fld.pnjCmd_OP (pnjWord 4 0)).jnl = st.jnl := rfl
  simp only [pnjTombDormant, hready, tombCode_cmdBusy, hbusy, hdormant, Bool.false_eq_true, if_false]
  exact tombEnd_of_waiting (r := tombRequest q.2 q.2.fp .tombDormant) (by simp [tombRequest]) rfl

theorem exec_ackDamage_of_damaged (hdam : st.jnl.damaged = true) (hack : st.jnl.acked = false) :
    exec .ackDamage st = .next (pnjDone (pnjWord 5 0) 0 (modJnl st (fun j => { j with acked := true }))) := by
  refine congrArg Host.Outcome.next ((cmdPF_open _ _ _ _ _ hopen).trans ?_)
  simp [pnjAckDamage, hready, hdam, hack]

theorem exec_ackDamage_of_no_damage (h : st.jnl.damaged = false ∨ st.jnl.acked = true) :
    exec .ackDamage st = .next (pnjDone (pnjWord 5 0) 7 st) := by
  refine congrArg Host.Outcome.next ((cmdPF_open _ _ _ _ _ hopen).trans ?_)
  simp [pnjAckDamage, hready, h]

end Ready

end Commands

/-- Settles O20: each clause is the equation above of its command's outcome. -/
theorem journalCommandsReadFindAndDestroy : Obligations.JournalCommandsReadFindAndDestroy := by
  intro st hopen
  refine ⟨exec_pnjRead_of_open hopen, exec_journal_of_not_ready hopen, fun hready => ⟨?held, ?notHeld, ?tomb, ?ack⟩⟩
  case held =>
    exact fun p r hheld => ⟨exec_find_of_held hopen hready hheld, exec_destroy_of_dormant hopen hready hheld,
      exec_destroy_of_refused hopen hready hheld⟩
  case notHeld => exact fun hheld => ⟨exec_find_of_not_held hopen hready hheld, exec_destroy_of_not_held hopen hready hheld⟩
  case tomb => exact fun q qs => exec_tombDormant_of_dormant hopen hready
  case ack => exact ⟨exec_ackDamage_of_damaged hopen hready, exec_ackDamage_of_no_damage hopen hready⟩

end Sys2Proof.Machine
end

section
/-!
PROOFS. The operations that leave the MRAM die alone, one lemma for each, in the order of the model. `(rfl)` in
parentheses keeps such a lemma from being one that `simp` uses by unfolding: a proof cites it, and the kernel need not
find the fact again.
-/
namespace Sys2Proof.Machine

@[simp] theorem ite_mram (c : Prop) [Decidable c] (a b : State) :
    (if c then a else b).mram = if c then a.mram else b.mram :=
  apply_ite ..

@[simp] theorem foldl_mram {α : Type} {f : State → α → State} (hf : ∀ st x, (f st x).mram = st.mram) (l : List α)
    (st : State) : (l.foldl f st).mram = st.mram :=
  List.foldlRecOn (motive := fun t => t.mram = st.mram) l _ rfl fun t ht x _ => (hf t x).trans ht

theorem foldl_snd_mram {α β : Type} {f : β × State → α → β × State} (hf : ∀ a x, (f a x).2.mram = a.2.mram)
    (l : List α) (a : β × State) : (l.foldl f a).2.mram = a.2.mram :=
  List.foldlRecOn (motive := fun p => p.2.mram = a.2.mram) l _ rfl fun p hp x _ => (hf p x).trans hp

@[simp] theorem foldl_wr_mram {α : Type} (a : α → Nat) (w : State → α → Word) (l : List α) (st : State) :
    (l.foldl (fun st x => wr st (a x) (w st x)) st).mram = st.mram :=
  foldl_mram (f := fun st x => wr st (a x) (w st x)) (fun _ _ => rfl) l st

/-! ### Shared operations (18, 20) -/

@[simp] theorem modCtf_mram (st : State) (s : SliceId) (f : CtfSt → CtfSt) : (modCtf st s f).mram = st.mram := (rfl)

@[simp] theorem modPort_mram (st : State) (d : Side) (s : SliceId) (k : PortIx) (f : PortSt → PortSt) :
    (modPort st d s k f).mram = st.mram :=
  (rfl)

@[simp] theorem modLane_mram (st : State) (l : LaneId) (f : LaneSt → LaneSt) : (modLane st l f).mram = st.mram := by
  unfold modLane
  split <;> rfl

@[simp] theorem setF_mram (st : State) (a : Nat) (f : Field) (v : Nat) : (setF st a f v).mram = st.mram := (rfl)

@[simp] theorem storePlain_mram (a : Nat) (v : Word) (st : State) : (storePlain a v st).mram = st.mram := by
  unfold storePlain
  split <;> rfl

@[simp] theorem countN_mram (st : State) (a n : Nat) : (countN st a n).mram = st.mram := (rfl)

@[simp] theorem count_mram (st : State) (a : Nat) : (count st a).mram = st.mram := (rfl)

@[simp] theorem draw_mram (st : State) : (draw st).2.mram = st.mram := (rfl)

@[simp] theorem drawFree_mram (st : State) : (drawFree st).2.mram = st.mram := (rfl)

@[simp] theorem dma_mram (st : State) (addr : Nat) (bs : Bytes) : (dma st addr bs).mram = st.mram := (rfl)

@[simp] theorem fireEvt_mram (st : State) (j : Fin 4) : (fireEvt st j).mram = st.mram := by
  simp only [fireEvt, emit_mram, ite_mram, ite_self]

@[simp] theorem evtPut_mram (st : State) (j : Fin 4) (e : Event) : (evtPut st j e).mram = st.mram := by
  simp only [evtPut, dma_mram, fireEvt_mram]

@[simp] theorem raise_mram (st : State) (e : Event) : (raise st e).mram = st.mram := by
  simp only [raise, evtPut_mram, ite_mram, ite_self]

@[simp] theorem evtRecover_mram (st : State) (j : Fin 4) : (evtRecover st j).mram = st.mram := by
  simp only [evtRecover, evtPut_mram, ite_mram, ite_self]

@[simp] theorem versionRetire_mram (st : State) (s : SliceId) : (versionRetire st s).mram = st.mram := (rfl)

@[simp] theorem discardAll_mram (st : State) : (discardAll st).mram = st.mram := (rfl)

@[simp] theorem ppsSettle_mram (st : State) : (ppsSettle st).mram = st.mram := by
  simp only [ppsSettle, modTsu_mram, ite_mram, ite_self]

@[simp] theorem releaseOwn_mram (st : State) : (releaseOwn st).mram = st.mram := by
  simp only [releaseOwn, modTsu_mram, modTwin_mram, ite_mram, ite_self]

@[simp] theorem enterUmber_mram (st : State) : (enterUmber st).mram = st.mram := by
  simp only [enterUmber, countN_mram, discardAll_mram, releaseOwn_mram]

@[simp] theorem haltCore_mram (st : State) (cause : Fin 16) (code slice ix : Nat) :
    (haltCore st cause code slice ix).mram = st.mram := by
  simp only [haltCore, countN_mram, discardAll_mram, releaseOwn_mram, modGlb_mram, modTwin_mram, count_mram,
    modTsu_mram]

@[simp] theorem haltEvent_mram (st : State) (cause : Fin 16) : (haltEvent st cause).mram = st.mram := by
  simp only [haltEvent, raise_mram, ite_mram, ite_self]

@[simp] theorem sramUncorr_mram (st : State) : (sramUncorr st).mram = st.mram := (rfl)

@[simp] theorem sramUe_mram (st : State) (code slice entry : Nat) : (sramUe st code slice entry).mram = st.mram := by
  simp only [sramUe, raise_mram, sramUncorr_mram, count_mram]

@[simp] theorem pfDiscard_mram (st : State) : (pfDiscard st).mram = st.mram := by
  simp only [pfDiscard, raise_mram, count_mram]

@[simp] theorem sendPart_mram (type : Nat) (st : State) (body : Bytes) : (sendPart type st body).mram = st.mram :=
  (rfl)

@[simp] theorem sendMsg_mram (st : State) (type : Nat) (items : List Nat) :
    (sendMsg st type items).mram = st.mram := by
  unfold sendMsg
  split
  · rfl
  · exact foldl_mram (sendPart_mram type) _ st

@[simp] theorem forwardOp_mram (st : State) (op : MirOp) : (forwardOp st op).mram = st.mram := by
  simp only [forwardOp, sendMsg_mram, modTwin_mram]

@[simp] theorem forward_mram (st : State) (a : Nat) (w : Word) : (forward st a w).mram = st.mram :=
  forwardOp_mram ..

@[simp] theorem viaPF_mram (a : Nat) (w : Word) (eff : State → State) (st : State)
    (heff : (eff st).mram = st.mram) : (viaPF a w eff st).mram = st.mram := by
  simp only [viaPF, pfDiscard_mram, forward_mram, heff, ite_mram, ite_self]

@[simp] theorem cmdEarly_mram (st : State) (a : Nat) (res : Field) (w : Word) :
    (cmdEarly st a res w).mram = st.mram :=
  (rfl)

@[simp] theorem cmdPF_mram (a : Nat) (res : Field) (w : Word) (eff : State → State) (st : State)
    (heff : (eff st).mram = st.mram) : (cmdPF a res w eff st).mram = st.mram := by
  simp only [cmdPF, pfDiscard_mram, cmdEarly_mram, setF_mram, forward_mram, heff, ite_mram, ite_self]

@[simp] theorem cmdDone_mram (st : State) (a : Nat) (res : Field) (op : Field) (w : Word) (code : Nat) :
    (cmdDone st a res op w code).mram = st.mram :=
  (rfl)

@[simp] theorem cmdBusy_mram (st : State) (a : Nat) (op : Field) (w : Word) :
    (cmdBusy st a op w).mram = st.mram :=
  (rfl)

@[simp] theorem lastRef_mram (st : State) (reason block slice : Nat) (i : InstId) :
    (lastRef st reason block slice i).mram = st.mram :=
  (rfl)

@[simp] theorem bumpCh_mram (st : State) (s : SliceId) (ch : ChIx) (j n : Nat) :
    (bumpCh st s ch j n).mram = st.mram :=
  (rfl)

@[simp] theorem bumpSlot_mram (st : State) (s : SliceId) (ch : ChIx) (an : An) (j n : Nat) :
    (bumpSlot st s ch an j n).mram = st.mram :=
  (rfl)

@[simp] theorem bumpLp_mram (st : State) (s : SliceId) (k : PortIx) (j : Nat) :
    (bumpLp st s k j).mram = st.mram :=
  (rfl)

@[simp] theorem bumpCp_mram (st : State) (s : SliceId) (k : PortIx) : (bumpCp st s k).mram = st.mram := (rfl)

@[simp] theorem pcEvent_mram (st : State) (s : SliceId) (ev n : Nat) : (pcEvent st s ev n).mram = st.mram := by
  simp only [pcEvent, modPmu_mram, ite_mram, ite_self]

@[simp] theorem bwAdvance_mram (st : State) : (bwAdvance st).mram = st.mram := by
  simp only [bwAdvance, modPmu_mram, countN_mram, ite_mram, ite_self]

@[simp] theorem bwFrame_mram (st : State) (d : Side) (s : SliceId) (k : PortIx) (tx : Bool) (len : Nat) :
    (bwFrame st d s k tx len).mram = st.mram := by
  simp only [bwFrame, pcEvent_mram, bwAdvance_mram, modPmu_mram, ite_mram, ite_self]

/-! ### The Indigo link and the running digests (12) -/

@[simp] theorem twnDone_mram (w : Word) (code : Nat) (st : State) : (twnDone w code st).mram = st.mram := (rfl)

@[simp] theorem twnEnd_mram (code : Nat) (st : State) : (twnEnd code st).mram = st.mram := (rfl)

@[simp] theorem dropSwitch_mram (st : State) : (dropSwitch st).mram = st.mram := by
  simp only [dropSwitch, twnEnd_mram, modTwin_mram, ite_mram, ite_self]

@[simp] theorem toStart_mram (st : State) : (toStart st).mram = st.mram := by
  simp only [toStart, modTwin_mram, dropSwitch_mram]

@[simp] theorem twinSquelch_mram (st : State) : (twinSquelch st).mram = st.mram := by
  simp only [twinSquelch, modTwin_mram, toStart_mram, twnEnd_mram, ite_mram, ite_self]

@[simp] theorem endSession_mram (st : State) : (endSession st).mram = st.mram := (rfl)

@[simp] theorem twinLinkDown_mram (st : State) : (twinLinkDown st).mram = st.mram := by
  simp only [twinLinkDown, endSession_mram, twnEnd_mram, modTwin_mram, toStart_mram, ite_mram, ite_self]

@[simp] theorem hostOut_mram (st : State) (o : Output) : (hostOut st o).mram = st.mram := by
  simp only [hostOut, emit_mram, ite_mram, ite_self]

@[simp] theorem digPort_mram (st : State) (d : Side) (s : SliceId) (k : PortIx) (bs : Bytes) :
    (digPort st d s k bs).mram = st.mram := by
  simp only [digPort, modTwin_mram, ite_mram, ite_self]

@[simp] theorem digHost_mram (st : State) (s : SliceId) (bs : Bytes) : (digHost st s bs).mram = st.mram := by
  simp only [digHost, modTwin_mram, ite_mram, ite_self]

/-! ### Lanes, ports and flow control (02) -/

@[simp] theorem enablePorts_mram (st : State) : (enablePorts st).mram = st.mram := by
  simp only [enablePorts, modPort_mram, foldl_mram, implies_true, ite_mram, ite_self]

@[simp] theorem sendPort_mram (st : State) (d : Side) (s : SliceId) (k : PortIx) (bs : Bytes) (o : Output) :
    (sendPort st d s k bs o).mram = st.mram := by
  simp only [sendPort, digPort_mram, emit_mram, ite_mram, ite_self]

@[simp] theorem freezeLoops_mram (st : State) (l : LaneId) : (freezeLoops st l).mram = st.mram := modLane_mram ..

@[simp] theorem setStage_mram (g : LaneStage) (st : State) (l : LaneId) : (setStage g st l).mram = st.mram :=
  modLane_mram ..

@[simp] theorem startLanes_mram (st : State) (s : SliceId) : (startLanes st s).mram = st.mram := by
  simp only [startLanes, setStage_mram, foldl_mram, implies_true, ite_mram, ite_self]

@[simp] theorem portLost_mram (st : State) (y : LaneId) : (portLost st y).mram = st.mram := by
  unfold portLost
  repeat' split
  all_goals simp only [twinLinkDown_mram, modPort_mram]

@[simp] theorem fecLocked_mram (l : LaneId) (r : LockRuns) (st : State) : (fecLocked l r st).mram = st.mram := by
  unfold fecLocked
  split <;> simp only [setStage_mram, modLane_mram, raise_mram, ite_mram, ite_self]

@[simp] theorem pcsLocked_mram (l : LaneId) (st : State) : (pcsLocked l st).mram = st.mram := by
  simp only [pcsLocked, ite_mram]
  repeat' split
  all_goals simp only [freezeLoops_mram, modLane_mram, setStage_mram, modCtf_mram, modPort_mram, enablePorts_mram,
    foldl_mram, implies_true, ite_mram, ite_self]

@[simp] theorem laneTimedOut_mram (st : State) (l : LaneId) : (laneTimedOut st l).mram = st.mram := by
  simp only [laneTimedOut, modLane_mram, setStage_mram, raise_mram, ite_mram, ite_self]

@[simp] theorem ctfLof_mram (st : State) (y : LaneId) : (ctfLof st y).mram = st.mram := by
  unfold ctfLof
  split <;> simp only [modCtf_mram, ite_mram, ite_self]

@[simp] theorem noteHiBer_mram (st : State) (y : LaneId) : (noteHiBer st y).mram = st.mram := by
  unfold noteHiBer
  repeat' split
  all_goals simp only [modPort_mram]

@[simp] theorem laneBack_mram (st : State) (l : LaneId) (g : LaneStage) : (laneBack st l g).mram = st.mram := by
  simp only [laneBack, ctfLof_mram, portLost_mram, setStage_mram, ite_mram, ite_self]

@[simp] theorem laneLost_mram (st : State) (l : LaneId) (c : LockLoss) : (laneLost st l c).mram = st.mram := by
  unfold laneLost
  split <;> simp only [laneBack_mram, noteHiBer_mram, foldl_mram, implies_true, ite_mram, ite_self]

@[simp] theorem keepHeadroom_mram (st : State) (s : SliceId) (k : PortIx) :
    (keepHeadroom st s k).mram = st.mram :=
  (rfl)

@[simp] theorem sendControl_mram (st : State) (s : SliceId) (k : PortIx) (body : Bytes) :
    (sendControl st s k body).mram = st.mram := by
  simp only [sendControl, drawFree_mram, bwFrame_mram, sendPort_mram, ite_mram, ite_self]

@[simp] theorem fcUpdate_mram (st : State) (s : SliceId) (k : PortIx) : (fcUpdate st s k).mram = st.mram := by
  simp only [fcUpdate, modPort_mram, sendControl_mram, ite_mram, ite_self]

@[simp] theorem fcUpdateAll_mram (st : State) (s : SliceId) : (fcUpdateAll st s).mram = st.mram := by
  simp only [fcUpdateAll, fcUpdate_mram, foldl_mram, implies_true]

@[simp] theorem takePause_mram (d : Side) (s : SliceId) (k : PortIx) (bs : Bytes) (st : State) :
    (takePause d s k bs st).mram = st.mram := by
  simp only [takePause, modPort_mram, ite_mram, ite_self]

@[simp] theorem macDrop_mram (d : Side) (s : SliceId) (k : PortIx) (st : State) :
    (macDrop d s k st).mram = st.mram :=
  (rfl)

/-! ### Instance map, key profiles and rule tables (03, 04) -/

@[simp] theorem imapDone_mram (s : SliceId) (w : Word) (code : Nat) (st : State) :
    (imapDone s w code st).mram = st.mram :=
  (rfl)

@[simp] theorem imapCmd_mram (s : SliceId) (w : Word) (st : State) : (imapCmd s w st).mram = st.mram := by
  unfold imapCmd
  split <;> simp only [imapDone_mram, modSl_mram, ite_mram, ite_self]

@[simp] theorem modRules_mram (st : State) (s : SliceId) (d : Side) (f : NMap RuleEnt → NMap RuleEnt) :
    (modRules st s d f).mram = st.mram :=
  (rfl)

@[simp] theorem kprofWrite_mram (s : SliceId) (d : Side) (e : Nat) (v : Word) (st : State) :
    (kprofWrite s d e v st).mram = st.mram := by
  simp only [kprofWrite, wr_mram, ite_mram, ite_self]

@[simp] theorem ruleDone_mram (s : SliceId) (d : Side) (w : Word) (code : Nat) (st : State) :
    (ruleDone s d w code st).mram = st.mram :=
  (rfl)

@[simp] theorem ruleRecord_mram (s : SliceId) (code : Nat) (i : InstId) (st : State) :
    (ruleRecord s code i st).mram = st.mram := by
  simp only [ruleRecord, lastRef_mram, ite_mram, ite_self]

@[simp] theorem ruleRead_mram (s : SliceId) (d : Side) (ix : Nat) (w : Word) (st : State) :
    (ruleRead s d ix w st).mram = st.mram := by
  simp only [ruleRead, ruleDone_mram, foldl_wr_mram]

@[simp] theorem ruleWrite_mram (s : SliceId) (d : Side) (ix : Nat) (w : Word) (st : State) :
    (ruleWrite s d ix w st).mram = st.mram := by
  simp only [ruleWrite, modRules_mram, ruleRecord_mram, ruleDone_mram, ite_mram, ite_self]

@[simp] theorem ruleRetire_mram (s : SliceId) (d : Side) (ix : Nat) (w : Word) (st : State) :
    (ruleRetire s d ix w st).mram = st.mram := by
  unfold ruleRetire
  split <;> simp only [ruleDone_mram, ruleRecord_mram, modRules_mram, ite_mram, ite_self]

@[simp] theorem ruleCancel_mram (s : SliceId) (d : Side) (ix : Nat) (w : Word) (st : State) :
    (ruleCancel s d ix w st).mram = st.mram := by
  unfold ruleCancel
  split <;> simp only [ruleDone_mram, ruleRecord_mram, modRules_mram, ite_mram, ite_self]

@[simp] theorem ruleCmd_mram (s : SliceId) (d : Side) (w : Word) (st : State) :
    (ruleCmd s d w st).mram = st.mram := by
  unfold ruleCmd
  split <;> simp only [ruleRead_mram, ruleWrite_mram, ruleRetire_mram, ruleCancel_mram, ruleDone_mram]

@[simp] theorem commitStrobe_mram (s : SliceId) (w : Word) (st : State) : (commitStrobe s w st).mram = st.mram := by
  simp only [commitStrobe, wr_mram, modSl_mram, ite_mram, ite_self]

@[simp] theorem commitPF_mram (s : SliceId) (w : Word) (st : State) : (commitPF s w st).mram = st.mram := by
  simp only [commitPF, viaPF_mram, commitStrobe_mram, wr_mram, ite_mram, ite_self]

/-! ### Peer tables and learning (05) -/

@[simp] theorem modMac_mram (st : State) (s : SliceId) (f : NMap MacEnt → NMap MacEnt) :
    (modMac st s f).mram = st.mram :=
  (rfl)

@[simp] theorem modLpm_mram (st : State) (s : SliceId) (f : NMap LpmEnt → NMap LpmEnt) :
    (modLpm st s f).mram = st.mram :=
  (rfl)

@[simp] theorem parityError_mram (st : State) (s : SliceId) (t : Tbl) (ix : Nat) :
    (parityError st s t ix).mram = st.mram := by
  unfold parityError
  split <;> simp only [modMac_mram, modLpm_mram, raise_mram, count_mram]

@[simp] theorem macLookup_mram (st : State) (s : SliceId) (k : MacKey) : (macLookup st s k).2.mram = st.mram := by
  unfold macLookup
  repeat' split
  all_goals simp only [parityError_mram]

@[simp] theorem lpmLookup_mram (st : State) (s : SliceId) (i : InstId) (v4 : Bool) (addr : BitVec 128) :
    (lpmLookup st s i v4 addr).2.mram = st.mram := by
  unfold lpmLookup
  repeat' split
  all_goals simp only [parityError_mram]

@[simp] theorem macApply_mram (st : State) (s : SliceId) (c : MacChange) : (macApply st s c).mram = st.mram := by
  unfold macApply
  split <;> simp only [modMac_mram, ite_mram, ite_self]

@[simp] theorem macChange_mram (st : State) (s : SliceId) (c : MacChange) : (macChange st s c).mram = st.mram := by
  simp only [macChange, sendMsg_mram, modTwin_mram, macApply_mram, ite_mram, ite_self]

@[simp] theorem queueLearn_mram (st : State) (s : SliceId) (q : Learn) (sa : Bytes) :
    (queueLearn st s q sa).mram = st.mram := by
  simp only [queueLearn, macLookup_mram, count_mram, pcEvent_mram, modSl_mram, ite_mram, ite_self]

@[simp] theorem learnOne_mram (st : State) (s : SliceId) (q : Learn) : (learnOne st s q).mram = st.mram := by
  unfold learnOne
  repeat' split
  all_goals simp only [count_mram, macChange_mram, modMac_mram, raise_mram, ite_mram, ite_self]

@[simp] theorem restartMs_mram (st : State) : (restartMs st).mram = st.mram := (rfl)

@[simp] theorem startAges_mram (st : State) (s : SliceId) : (startAges st s).mram = st.mram := (rfl)

@[simp] theorem sweepEntry_mram (st : State) (s : SliceId) (ix : Nat) (e : MacEnt) :
    (sweepEntry st s ix e).mram = st.mram := by
  simp only [sweepEntry, parityError_mram, count_mram, macChange_mram, modMac_mram, ite_mram, ite_self]

@[simp] theorem putData_mram (st : State) (s : SliceId) (ws : List Word) : (putData st s ws).mram = st.mram :=
  foldl_wr_mram ..

@[simp] theorem tblDone_mram (s : SliceId) (w : Word) (code : Nat) (st : State) :
    (tblDone s w code st).mram = st.mram :=
  (rfl)

@[simp] theorem tblFound_mram (s : SliceId) (w : Word) (ix : Nat) (image : List Word) (st : State) :
    (tblFound s w ix image st).mram = st.mram := by
  simp only [tblFound, tblDone_mram, putData_mram]

@[simp] theorem tblRefuse_mram (s : SliceId) (w : Word) (code : Nat) (i : InstId) (st : State) :
    (tblRefuse s w code i st).mram = st.mram := by
  simp only [tblRefuse, tblDone_mram, lastRef_mram, ite_mram, ite_self]

@[simp] theorem tblRead_mram (s : SliceId) (t : Tbl) (ix : Nat) (w : Word) (st : State) :
    (tblRead s t ix w st).mram = st.mram := by
  unfold tblRead
  repeat' split
  all_goals simp only [tblDone_mram, putData_mram, parityError_mram]

@[simp] theorem lpmByKey_mram (st : State) (s : SliceId) (e : LpmEnt) : (lpmByKey st s e).2.mram = st.mram := by
  unfold lpmByKey
  repeat' split
  all_goals simp only [parityError_mram]

@[simp] theorem tblWrite_mram (s : SliceId) (t : Tbl) (w : Word) (st : State) :
    (tblWrite s t w st).mram = st.mram := by
  simp only [tblWrite]
  repeat' split
  all_goals simp only [tblRefuse_mram, macLookup_mram, tblDone_mram, modMac_mram, lpmByKey_mram, modLpm_mram]

@[simp] theorem tblInsert_mram (s : SliceId) (t : Tbl) (w : Word) (st : State) :
    (tblInsert s t w st).mram = st.mram := by
  simp only [tblInsert]
  repeat' split
  all_goals simp only [tblRefuse_mram, macLookup_mram, tblDone_mram, modMac_mram, lpmByKey_mram, drawFree_mram,
    modLpm_mram]

@[simp] theorem tblDelete_mram (s : SliceId) (t : Tbl) (w : Word) (st : State) :
    (tblDelete s t w st).mram = st.mram := by
  simp only [tblDelete]
  repeat' split
  all_goals simp only [tblRefuse_mram, macLookup_mram, tblDone_mram, modMac_mram, lpmByKey_mram, modLpm_mram]

@[simp] theorem tblLookup_mram (s : SliceId) (t : Tbl) (w : Word) (st : State) :
    (tblLookup s t w st).mram = st.mram := by
  simp only [tblLookup]
  repeat' split
  all_goals simp only [tblDone_mram, macLookup_mram, tblFound_mram, parityError_mram]

@[simp] theorem searchRun_mram (s : SliceId) (t : Tbl) (w : Word) (data mask : List Word) (from_ : Nat)
    (st : State) : (searchRun s t w data mask from_ st).mram = st.mram := by
  simp only [searchRun]
  split <;> simp only [parityError_mram, modSl_mram, tblFound_mram, tblDone_mram, foldl_mram, implies_true,
    ite_mram, ite_self]

@[simp] theorem tblSearch_mram (s : SliceId) (t : Tbl) (ix : Nat) (w : Word) (st : State) :
    (tblSearch s t ix w st).mram = st.mram := by
  simp only [tblSearch, tblDone_mram, searchRun_mram, ite_mram, ite_self]

@[simp] theorem tblNext_mram (s : SliceId) (t : Tbl) (w : Word) (st : State) :
    (tblNext s t w st).mram = st.mram := by
  unfold tblNext
  repeat' split
  all_goals simp only [tblDone_mram, searchRun_mram]

@[simp] theorem flushWhere_mram (s : SliceId) (t : Tbl) (static_ : Bool) (mp : MacEnt → Bool) (lp : LpmEnt → Bool)
    (w : Word) (st : State) : (flushWhere s t static_ mp lp w st).mram = st.mram := by
  unfold flushWhere
  split <;> rfl

@[simp] theorem tblFlushPort_mram (s : SliceId) (t : Tbl) (w : Word) (st : State) :
    (tblFlushPort s t w st).mram = st.mram := by
  simp only [tblFlushPort, tblDone_mram, flushWhere_mram, ite_mram, ite_self]

@[simp] theorem tblFlushInstance_mram (s : SliceId) (t : Tbl) (w : Word) (st : State) :
    (tblFlushInstance s t w st).mram = st.mram := by
  simp only [tblFlushInstance, tblDone_mram, tblRefuse_mram, flushWhere_mram, ite_mram, ite_self]

@[simp] theorem tblCmd_mram (s : SliceId) (w : Word) (st : State) : (tblCmd s w st).mram = st.mram := by
  unfold tblCmd
  split <;> simp only [tblRead_mram, tblWrite_mram, tblInsert_mram, tblDelete_mram, tblLookup_mram, tblSearch_mram,
    tblNext_mram, tblFlushPort_mram, tblFlushInstance_mram, tblDone_mram]

@[simp] theorem tblModeWrite_mram (s : SliceId) (w : Word) (st : State) : (tblModeWrite s w st).mram = st.mram :=
  (rfl)

/-! ### The journal's users and reservations (09) -/

@[simp] theorem modCh_mram (st : State) (s : SliceId) (ch : ChIx) (f : ChRec → ChRec) :
    (modCh st s ch f).mram = st.mram :=
  (rfl)

@[simp] theorem modSlot_mram (st : State) (s : SliceId) (ch : ChIx) (an : An) (f : Slot → Slot) :
    (modSlot st s ch an f).mram = st.mram :=
  (rfl)

@[simp] theorem evict_mram (st : State) (p : Nat × JRec) : (evict st p).mram = st.mram := by
  simp only [evict, raise_mram, count_mram, modJnl_mram]

@[simp] theorem jnlRequest_mram (st : State) (r : JReq) : (jnlRequest st r).mram = st.mram := (rfl)

@[simp] theorem jnlRefused_mram (st : State) (reason source : Nat) (s : SliceId) (an unit : Nat) :
    (jnlRefused st reason source s an unit).mram = st.mram :=
  (rfl)

@[simp] theorem dropUse_mram (gone : JUse → Bool) (st : State) : (dropUse gone st).mram = st.mram := (rfl)

@[simp] theorem leaveRecord_mram (st : State) (pos : Nat) (leaf force : Bool) :
    (leaveRecord st pos leaf force).mram = st.mram := by
  unfold leaveRecord
  split <;> simp only [jnlRequest_mram, ite_mram, ite_self]

@[simp] theorem slotLeaves_mram (st : State) (s : SliceId) (ch : ChIx) (an : An) (force : Bool) :
    (slotLeaves st s ch an force).mram = st.mram := by
  simp only [slotLeaves, dropUse_mram, leaveRecord_mram]

@[simp] theorem slotEmpty_mram (st : State) (s : SliceId) (ch : ChIx) (an : An) :
    (slotEmpty st s ch an).mram = st.mram := by
  simp only [slotEmpty, slotLeaves_mram, modSlot_mram, ite_mram, ite_self]

@[simp] theorem reserveSlot_mram (st : State) (s : SliceId) (ch : ChIx) (an : An) (req : Nat) :
    (reserveSlot st s ch an req).mram = st.mram :=
  (rfl)

@[simp] theorem checkReserve_mram (st : State) (s : SliceId) (ch : ChIx) (an : An) :
    (checkReserve st s ch an).mram = st.mram := by
  simp only [checkReserve, reserveSlot_mram, ite_mram, ite_self]

@[simp] theorem reserveAbove_mram (st : State) (s : SliceId) (ch : ChIx) (an : An) (pos : Nat) :
    (reserveAbove st s ch an pos).mram = st.mram := by
  simp only [reserveAbove, modSlot_mram, reserveSlot_mram, ite_mram, ite_self]

/-! ### Nodes of the key tree (07) -/

@[simp] theorem orphanUsers_mram (st : State) (t : List Nat) : (orphanUsers st t).mram = st.mram := by
  unfold orphanUsers
  simp only [modTwin_mram, modJnl_mram]
  exact foldl_mram (fun _ _ => modSl_mram ..) slices4 st

@[simp] theorem nodeEcc_mram (st : State) (n : Nat) : (nodeEcc st n).mram = st.mram := by
  simp only [nodeEcc, raise_mram, count_mram, sramUncorr_mram, orphanUsers_mram]

@[simp] theorem nodeCheck_mram (st : State) (n : Nat) : (nodeCheck st n).mram = st.mram := by
  unfold nodeCheck
  split <;> simp only [nodeEcc_mram, ite_mram, ite_self]

@[simp] theorem slotDrop_mram (st : State) (s : SliceId) (ch : ChIx) (an : An) :
    (slotDrop st s ch an).mram = st.mram := by
  unfold slotDrop
  split <;> simp only [raise_mram, modSlot_mram]

@[simp] theorem pickCode_mram (st : State) (causes : List (Bool × Nat)) : (pickCode st causes).2.mram = st.mram := by
  simp only [pickCode]
  repeat' split
  all_goals simp only [drawFree_mram]

@[simp] theorem stateRecord_mram (st : State) (code busy frozen block : Nat) (s : SliceId) (i : InstId) :
    (stateRecord st code busy frozen block s i).mram = st.mram := by
  simp only [stateRecord, lastRef_mram, ite_mram, ite_self]

/-! ### Secure channels and slots (06, 08) -/

@[simp] theorem chanEcc_mram (st : State) (s : SliceId) (ch : ChIx) : (chanEcc st s ch).mram = st.mram := by
  simp only [chanEcc, slotDrop_mram, modCh_mram, raise_mram, count_mram, sramUncorr_mram, foldl_mram, implies_true]

@[simp] theorem slotEcc_mram (st : State) (s : SliceId) (ch : ChIx) (an : An) :
    (slotEcc st s ch an).mram = st.mram := by
  simp only [slotEcc, slotDrop_mram, modSlot_mram, raise_mram, count_mram, sramUncorr_mram]

@[simp] theorem modHash_mram (st : State) (s : SliceId) (f : NMap SciEnt → NMap SciEnt) :
    (modHash st s f).mram = st.mram :=
  (rfl)

@[simp] theorem hashEcc_mram (st : State) (s : SliceId) (ix : Nat) : (hashEcc st s ix).mram = st.mram := by
  simp only [hashEcc, raise_mram, count_mram, sramUncorr_mram, modHash_mram]

@[simp] theorem chanCheck_mram (st : State) (s : SliceId) (ch : ChIx) : (chanCheck st s ch).mram = st.mram := by
  simp only [chanCheck, chanEcc_mram, ite_mram, ite_self]

@[simp] theorem slotCheck_mram (st : State) (s : SliceId) (ch : ChIx) (an : An) :
    (slotCheck st s ch an).mram = st.mram := by
  simp only [slotCheck, slotEcc_mram, ite_mram, ite_self]

@[simp] theorem enterGuard_mram (st : State) (s : SliceId) (ch : ChIx) (an : An) :
    (enterGuard st s ch an).mram = st.mram :=
  (rfl)

@[simp] theorem switchTo_mram (st : State) (s : SliceId) (ch : ChIx) (an : An) (start : Nat) :
    (switchTo st s ch an start).mram = st.mram := by
  simp only [switchTo, enterGuard_mram, modSlot_mram, modCh_mram, count_mram, foldl_mram, implies_true, ite_mram,
    ite_self]

@[simp] theorem switchMissed_mram (st : State) (s : SliceId) (ch : ChIx) (trigger : Nat) :
    (switchMissed st s ch trigger).mram = st.mram := by
  simp only [switchMissed, raise_mram, count_mram]

@[simp] theorem dueTransitions_mram (st : State) (s : SliceId) (ch : ChIx) :
    (dueTransitions st s ch).mram = st.mram := by
  unfold dueTransitions
  split
  · rfl
  · refine foldl_mram (fun st an => ?_) ans st
    dsimp only
    repeat' split
    all_goals simp only [enterGuard_mram, slotEmpty_mram]

@[simp] theorem timeSwitch_mram (st : State) (s : SliceId) (ch : ChIx) (start : Nat) :
    (timeSwitch st s ch start).2.mram = st.mram := by
  unfold timeSwitch
  repeat' split
  all_goals simp only [count_mram, switchTo_mram, switchMissed_mram]

@[simp] theorem thresholdSwitch_mram (st : State) (s : SliceId) (ch : ChIx) :
    (thresholdSwitch st s ch).2.mram = st.mram := by
  simp only [thresholdSwitch]
  repeat' split
  all_goals simp only [switchTo_mram, switchMissed_mram, modCh_mram]

@[simp] theorem applyChange_mram (s : SliceId) (ch : ChIx) (switched : Bool) (st : State) (q : SlotChange) :
    (applyChange s ch switched st q).mram = st.mram := by
  unfold applyChange
  repeat' split
  all_goals simp only [setF_mram, switchTo_mram, enterGuard_mram, slotEmpty_mram, modCh_mram]

@[simp] theorem pendingChanges_mram (st : State) (s : SliceId) (ch : ChIx) (switched : Bool) :
    (pendingChanges st s ch switched).mram = st.mram := by
  simp only [pendingChanges, applyChange_mram, modCh_mram, foldl_mram, implies_true, ite_mram, ite_self]

@[simp] theorem boundaryWith_mram (st : State) (s : SliceId) (ch : ChIx) (trigger : Option Nat) (test : Bool) :
    (boundaryWith st s ch trigger test).mram = st.mram := by
  simp only [boundaryWith, pendingChanges_mram, ite_mram]
  repeat' split
  all_goals simp only [dueTransitions_mram, chanCheck_mram, timeSwitch_mram, thresholdSwitch_mram]

@[simp] theorem boundary_mram (st : State) (s : SliceId) (ch : ChIx) (trigger : Option Nat) :
    (boundary st s ch trigger).mram = st.mram :=
  boundaryWith_mram ..

@[simp] theorem fireAll_mram (st : State) (s : SliceId) (t : Fin 8) (rx : Bool) :
    (fireAll st s t rx).mram = st.mram := by
  simp only [fireAll, boundary_mram, foldl_mram, implies_true]

@[simp] theorem modTimer_mram (st : State) (s : SliceId) (t : Fin 8) (f : SwTimer → SwTimer) :
    (modTimer st s t f).mram = st.mram :=
  (rfl)

@[simp] theorem doRxFire_mram (st : State) (s : SliceId) (t : Fin 8) : (doRxFire st s t).mram = st.mram := by
  simp only [doRxFire, fireAll_mram, modTimer_mram, ite_mram, ite_self]

@[simp] theorem timerStrobe_mram (s : SliceId) (t : Fin 8) (w : Word) (st : State) :
    (timerStrobe s t w st).mram = st.mram := by
  simp only [timerStrobe, wr_mram, modTimer_mram, setF_mram, ite_mram, ite_self]

@[simp] theorem sciRemove_mram (st : State) (s : SliceId) (ch : ChIx) : (sciRemove st s ch).mram = st.mram := (rfl)

@[simp] theorem saeDone_mram (s : SliceId) (w : Word) (code : Nat) (st : State) :
    (saeDone s w code st).mram = st.mram :=
  (rfl)

@[simp] theorem saeJudge_mram {s : SliceId} {w : Word} {i : InstId} {causes : List (Bool × Nat)}
    {ok : State → State} (hok : ∀ st, (ok st).mram = st.mram) (st : State) :
    (saeJudge s w i causes ok st).mram = st.mram := by
  simp only [saeJudge, hok, saeDone_mram, stateRecord_mram, pickCode_mram, ite_mram, ite_self]

@[simp] theorem chRead_mram (s : SliceId) (ch : ChIx) (w : Word) (st : State) :
    (chRead s ch w st).mram = st.mram := by
  simp only [chRead, chanCheck_mram, saeDone_mram, foldl_wr_mram]

@[simp] theorem chWrite_mram (s : SliceId) (ch : ChIx) (w : Word) (st : State) :
    (chWrite s ch w st).mram = st.mram := by
  unfold chWrite
  refine (saeJudge_mram (fun st => ?_) _).trans (boundary_mram ..)
  dsimp only
  repeat' split
  all_goals simp only [saeDone_mram, modCh_mram, modSl_mram, modHash_mram, sciRemove_mram]

@[simp] theorem chDelete_mram (s : SliceId) (ch : ChIx) (w : Word) (st : State) :
    (chDelete s ch w st).mram = st.mram := by
  unfold chDelete
  refine (saeJudge_mram (fun st => ?_) _).trans (boundary_mram ..)
  exact (saeDone_mram ..).trans ((modSl_mram ..).trans (sciRemove_mram ..))

@[simp] theorem saRead_mram (s : SliceId) (ch : ChIx) (an : An) (w : Word) (st : State) :
    (saRead s ch an w st).mram = st.mram := by
  simp only [saRead, slotCheck_mram, boundary_mram, saeJudge_mram, saeDone_mram, implies_true, foldl_wr_mram]

@[simp] theorem clearSaeKey_mram (st : State) (s : SliceId) : (clearSaeKey st s).mram = st.mram := (rfl)

theorem startInstall_mram {st : State} {src : Fin 4} {cls : Fin 3} {s : SliceId} {ch : ChIx} {an : An} {key : Bytes}
    {salt : BitVec 96} {ssci : Word} {req : Nat} {keySrc leaf : Bool} {node : Nat} {ok fail : State → State}
    (hok : ∀ st, (ok st).mram = st.mram) (hfail : ∀ st, (fail st).mram = st.mram) :
    (startInstall st src cls s ch an key salt ssci req keySrc leaf node ok fail).mram = st.mram := by
  unfold startInstall
  dsimp only
  repeat' split
  all_goals simp only [hok, hfail, jnlRefused_mram, jnlRequest_mram, evict_mram]

@[simp] theorem saLoad_mram (s : SliceId) (ch : ChIx) (an : An) (w : Word) (st : State) :
    (saLoad s ch an w st).mram = st.mram := by
  unfold saLoad
  refine (saeJudge_mram (fun st => ?_) _).trans ?_
  · exact startInstall_mram (fun _ => cmdBusy_mram ..) fun _ => saeDone_mram ..
  · simp only [ite_mram, nodeCheck_mram, clearSaeKey_mram, slotCheck_mram, boundary_mram, ite_self]

@[simp] theorem saChange_mram (s : SliceId) (ch : ChIx) (an : An) (w : Word) (allowed : ChRec → SlotState → Bool)
    (q : SlotChange) (st : State) : (saChange s ch an w allowed q st).mram = st.mram := by
  unfold saChange
  refine (saeJudge_mram (fun st => ?_) _).trans ((slotCheck_mram ..).trans (boundary_mram ..))
  exact (saeDone_mram ..).trans (modCh_mram ..)

@[simp] theorem saActivate_mram (s : SliceId) (ch : ChIx) (an : An) (w : Word) (st : State) :
    (saActivate s ch an w st).mram = st.mram := by
  simp only [saActivate, saChange_mram]

@[simp] theorem saRetire_mram (s : SliceId) (ch : ChIx) (an : An) (w : Word) (st : State) :
    (saRetire s ch an w st).mram = st.mram :=
  saChange_mram ..

@[simp] theorem saClear_mram (s : SliceId) (ch : ChIx) (an : An) (w : Word) (st : State) :
    (saClear s ch an w st).mram = st.mram :=
  saChange_mram ..

@[simp] theorem sciFindCmd_mram (s : SliceId) (w : Word) (st : State) : (sciFindCmd s w st).mram = st.mram := by
  unfold sciFindCmd
  split <;> simp only [saeDone_mram, hashEcc_mram, ite_mram, ite_self]

@[simp] theorem saeCmd_mram (s : SliceId) (w : Word) (st : State) : (saeCmd s w st).mram = st.mram := by
  unfold saeCmd
  split <;> simp only [chRead_mram, chWrite_mram, chDelete_mram, saRead_mram, saLoad_mram, saActivate_mram,
    saRetire_mram, saClear_mram, sciFindCmd_mram, setF_mram]

@[simp] theorem saePF_mram (s : SliceId) (w : Word) (st : State) : (saePF s w st).mram = st.mram := by
  simp only [saePF, cmdPF_mram, saeCmd_mram, clearSaeKey_mram, ite_mram, ite_self]

@[simp] theorem preFail_mram (s : SliceId) (ch : ChIx) (an : An) (reason : Nat) (st : State) :
    (preFail s ch an reason st).mram = st.mram := by
  simp only [preFail, raise_mram, count_mram, modCh_mram]

@[simp] theorem preInstall_mram (st : State) (s : SliceId) (ch : ChIx) : (preInstall st s ch).mram = st.mram := by
  have hinstall {st : State} {n req node : Nat} {src : Fin 4} {cls : Fin 3} {an : An} {key : Bytes} {salt : BitVec 96}
      {ssci : Word} {keySrc leaf : Bool} :
      (startInstall st src cls s ch an key salt ssci req keySrc leaf node id (preFail s ch an n)).mram = st.mram :=
    startInstall_mram (fun _ => rfl) fun _ => preFail_mram ..
  simp only [preInstall, hinstall, chanCheck_mram, nodeCheck_mram, preFail_mram, countN_mram, ite_mram, ite_self]

/-! ### Commands of the key tree (07) -/

@[simp] theorem ktrDone_mram (w : Word) (code : Nat) (st : State) : (ktrDone w code st).mram = st.mram := by
  simp only [ktrDone, cmdDone_mram, count_mram, ite_mram, ite_self]

@[simp] theorem putNode_mram (st : State) (n : Nat) (r : Node) : (putNode st n r).mram = st.mram := (rfl)

@[simp] theorem clearKtrKey_mram (st : State) : (clearKtrKey st).mram = st.mram := (rfl)

@[simp] theorem rootWrite_mram (w : Word) (st : State) : (rootWrite w st).mram = st.mram := by
  simp only [rootWrite, putNode_mram, clearKtrKey_mram, ktrDone_mram, ite_mram, ite_self]

@[simp] theorem derive_mram (w : Word) (st : State) : (derive w st).mram = st.mram := by
  simp only [derive, ktrDone_mram, stateRecord_mram]
  split <;> simp only [nodeCheck_mram, count_mram, putNode_mram, ite_mram, ite_self]

@[simp] theorem nodeRead_mram (w : Word) (st : State) : (nodeRead w st).mram = st.mram := by
  simp only [nodeRead, ktrDone_mram, nodeCheck_mram, foldl_wr_mram, ite_mram, ite_self]

@[simp] theorem revokeJobs_mram (st : State) (t : List Nat) : (revokeJobs st t).mram = st.mram := (rfl)

@[simp] theorem revokeUsers_mram (st : State) (t : List Nat) : (revokeUsers st t).mram = st.mram := by
  unfold revokeUsers
  refine (foldl_mram (fun st s => (modCtf_mram _ _ _).trans ?_) slices4 _).trans (revokeJobs_mram st t)
  refine foldl_mram (fun st p => foldl_mram (fun st an => ?_) ans st) _ st
  simp only [ite_mram, count_mram, slotDrop_mram, ite_self]

@[simp] theorem invalidate_mram (w : Word) (st : State) : (invalidate w st).mram = st.mram := by
  simp only [invalidate, nodeCheck_mram, orphanUsers_mram, revokeUsers_mram, ktrDone_mram, stateRecord_mram,
    ite_mram, ite_self]

@[simp] theorem ktrCmd_mram (w : Word) (st : State) : (ktrCmd w st).mram = st.mram := by
  unfold ktrCmd
  split <;> simp only [rootWrite_mram, derive_mram, nodeRead_mram, invalidate_mram, cmdDone_mram]

@[simp] theorem ktrPF_mram (w : Word) (st : State) : (ktrPF w st).mram = st.mram := by
  simp only [ktrPF, clearKtrKey_mram, count_mram, setF_mram, rootWrite_mram, cmdPF_mram, ktrCmd_mram, ite_mram,
    ite_self]

/-! ### Capsules (13) -/

@[simp] theorem instDiscard_mram (st : State) (i : InstId) : (instDiscard st i).mram = st.mram := by
  simp only [instDiscard, fcUpdateAll_mram, versionRetire_mram, foldl_mram, implies_true]

@[simp] theorem buildNode_mram (t : InstId) (st : State) (r : Bytes) : (buildNode t st r).mram = st.mram := by
  simp only [buildNode]
  repeat' split
  all_goals simp only [putNode_mram]

@[simp] theorem buildCh_mram (t : InstId) (st : State) (r : Bytes) : (buildCh t st r).mram = st.mram := by
  simp only [buildCh, modSl_mram, modCh_mram, ite_mram]
  repeat' split
  all_goals simp only [modSl_mram, modCh_mram, modHash_mram]

@[simp] theorem buildRule_mram (t : InstId) (st : State) (r : Bytes) : (buildRule t st r).mram = st.mram := (rfl)

@[simp] theorem buildMac_mram (t : InstId) (st : State) (r : Bytes) : (buildMac t st r).mram = st.mram := by
  simp only [buildMac]
  split <;> simp only [modMac_mram]

@[simp] theorem buildLpm_mram (t : InstId) (st : State) (r : Bytes) : (buildLpm t st r).mram = st.mram := by
  simp only [buildLpm]
  repeat' split
  all_goals simp only [drawFree_mram, modLpm_mram]

@[simp] theorem buildRcp_mram (t : InstId) (st : State) (r : Bytes) : (buildRcp t st r).mram = st.mram := (rfl)

@[simp] theorem buildCtrs_mram (st : State) (recs : List (Nat × Nat × Bytes)) :
    (buildCtrs st recs).mram = st.mram := by
  unfold buildCtrs
  exact foldl_mram (fun _ _ => modSl_mram _ _ _) _ st

@[simp] theorem slotPlaced_mram (st : State) (s : SliceId) (ch : ChIx) (an : An) :
    (slotPlaced st s ch an).mram = st.mram := by
  simp only [slotPlaced, raise_mram, ite_mram, ite_self]

@[simp] theorem restoreBuild_mram (st : State) (r : RestoreSt) : (restoreBuild st r).mram = st.mram := by
  unfold restoreBuild
  refine (modInst_mram _ _ _).trans ((buildCtrs_mram _ _).trans ((foldl_mram (fun st p => ?slot) _ _).trans
    (foldl_mram (fun st p => ?record) _ _)))
  case slot => exact (slotPlaced_mram ..).trans (modSlot_mram ..)
  case record =>
    split
    all_goals simp only [buildNode_mram, buildCh_mram, buildRule_mram, buildMac_mram, buildLpm_mram, buildRcp_mram]

/-! ### Tributaries (10) -/

@[simp] theorem modTrib_mram (st : State) (s : SliceId) (t : Nat) (f : TribSt → TribSt) :
    (modTrib st s t f).mram = st.mram :=
  (rfl)

@[simp] theorem modPos_mram (st : State) (s : SliceId) (t : Nat) (p : Fin 2) (f : KeyPos → KeyPos) :
    (modPos st s t p f).mram = st.mram :=
  (rfl)

@[simp] theorem modCtfLane_mram (st : State) (s : SliceId) (k : PortIx) (f : CtfLaneSt → CtfLaneSt) :
    (modCtfLane st s k f).mram = st.mram :=
  (rfl)

@[simp] theorem reserveTrib_mram (st : State) (s : SliceId) (t : Nat) (p : Fin 2) (tx : Bool) (req : Nat) :
    (reserveTrib st s t p tx req).mram = st.mram := by
  unfold reserveTrib
  split <;> simp only [modPos_mram, jnlRequest_mram, ite_mram, ite_self]

@[simp] theorem tribCheck_mram (st : State) (s : SliceId) (t : Nat) (p : Fin 2) (tx : Bool) (pos res : Nat)
    (pend : Bool) : (tribCheck st s t p tx pos res pend).mram = st.mram := by
  simp only [tribCheck, reserveTrib_mram, ite_mram, ite_self]

@[simp] theorem tribReserve_mram (st : State) (s : SliceId) (t : Nat) (fc : Nat) :
    (tribReserve st s t fc).mram = st.mram := by
  unfold tribReserve
  refine foldl_mram (fun st p => ?_) positions st
  split
  · rfl
  · simp only [ite_mram, tribCheck_mram, ite_self]

@[simp] theorem jumpDone_mram (st : State) (s : SliceId) (t : Nat) (p : Fin 2) :
    (jumpDone st s t p).mram = st.mram :=
  (rfl)

@[simp] theorem jumpReserved_mram (st : State) (s : SliceId) (t : Nat) (p : Fin 2) (res : Nat) :
    (jumpReserved st s t p res).mram = st.mram := by
  unfold jumpReserved
  split <;> simp only [jumpDone_mram, ite_mram, ite_self]

@[simp] theorem applyRes_mram (st : State) (u : JUse) : (applyRes st u).mram = st.mram := by
  unfold applyRes
  repeat' split
  all_goals simp only [modSlot_mram, reserveSlot_mram, modPos_mram, jumpReserved_mram, reserveTrib_mram, ite_mram,
    ite_self]

@[simp] theorem requestJump_mram (st : State) (s : SliceId) (t : Nat) (p : Fin 2) (start : Nat) :
    (requestJump st s t p start).mram = st.mram := by
  simp only [requestJump, reserveTrib_mram, modCtfLane_mram, foldl_mram, implies_true]

@[simp] theorem releasePos_mram (st : State) (s : SliceId) (t : Nat) (p : Fin 2) :
    (releasePos st s t p).mram = st.mram := by
  unfold releasePos
  split <;> simp only [dropUse_mram, modTrib_mram, jumpDone_mram, leaveRecord_mram]

@[simp] theorem tribDone_mram (s : SliceId) (w : Word) (code : Nat) (st : State) :
    (tribDone s w code st).mram = st.mram :=
  (rfl)

@[simp] theorem placePos_mram (st : State) (s : SliceId) (t : Nat) (p : Fin 2) (k : KeyPos) :
    (placePos st s t p k).mram = st.mram := by
  simp only [placePos, modTrib_mram, tribDone_mram, requestJump_mram, modPos_mram, ite_mram, ite_self]

@[simp] theorem installCommitted_mram (st : State) (s : SliceId) (t : Nat) (tx : Bool) (ix : Nat) :
    (installCommitted st s t tx ix).mram = st.mram := by
  unfold installCommitted
  repeat' split
  all_goals simp only [modTrib_mram, placePos_mram, ite_mram, ite_self]

@[simp] theorem installFailed_mram (st : State) (s : SliceId) (t : Nat) : (installFailed st s t).mram = st.mram :=
  (rfl)

@[simp] theorem markDefects_mram (st : State) (s : SliceId) : (markDefects st s).mram = st.mram := (rfl)

@[simp] theorem perfSecond_mram (st : State) : (perfSecond st).mram = st.mram := by
  simp only [perfSecond, markDefects_mram, modCtf_mram, foldl_mram, implies_true]

/-! ### The Cipher Transport Frame (10) -/

@[simp] theorem revokeLane_mram (st : State) (s : SliceId) (k : PortIx) : (revokeLane st s k).mram = st.mram :=
  (rfl)

@[simp] theorem moveTxPos_mram (st : State) (s : SliceId) (t : Nat) : (moveTxPos st s t).mram = st.mram := by
  unfold moveTxPos
  repeat' split
  all_goals simp only [modTrib_mram, releasePos_mram]

@[simp] theorem multiframe_mram (st : State) (s : SliceId) (k : PortIx) : (multiframe st s k).mram = st.mram := by
  unfold multiframe
  dsimp only
  split
  · rfl
  · generalize hmoved : (List.foldl _ _ _ : State) = st1
    have hst1 : st1.mram = st.mram := by
      rw [← hmoved]
      refine (foldl_mram (fun st p => ?_) _ _).trans ((modCtf_mram ..).trans ?_)
      · split
        · simp only [ite_mram, moveTxPos_mram, ite_self]
        · rfl
      · split
        · simp only [ite_mram, modCtfLane_mram, modCtf_mram, ite_self]
        · rfl
    split
    · simp only [ite_mram, count_mram, modCtfLane_mram, hst1, ite_self]
    · exact hst1

@[simp] theorem takeBlocks_mram (st : State) (s : SliceId) (t n : Nat) : (takeBlocks st s t n).2.mram = st.mram := by
  simp only [takeBlocks]
  repeat' split
  all_goals simp only [modCtf_mram, drawFree_mram]

@[simp] theorem sealTrib_mram (st : State) (s : SliceId) (k : PortIx) (i fc : Nat) (pt : Bytes) :
    (sealTrib st s k i fc pt).2.mram = st.mram := by
  simp only [sealTrib]
  repeat' split
  all_goals simp only [modTrib_mram, pcEvent_mram]

@[simp] theorem putTrib_mram (s : SliceId) (k : PortIx) (fc : Nat) (a : Bytes × State) (i : Nat) :
    (putTrib s k fc a i).2.mram = a.2.mram := by
  unfold putTrib
  dsimp only
  split
  · rfl
  · have hseal := sealTrib_mram (takeBlocks a.2 s (tribNo k i) (slotsOf (txPage a.2 s k) i).length).2 s k i fc
      (mapBlocks (slotsOf (txPage a.2 s k) i).length
        (takeBlocks a.2 s (tribNo k i) (slotsOf (txPage a.2 s k) i).length).1)
    rw [takeBlocks_mram] at hseal
    split
    all_goals
      next h =>
        rw [h] at hseal
        exact hseal

@[simp] theorem putTilora_mram (s : SliceId) (k : PortIx) (fc : Nat) (b : Bytes) (st : State) :
    (putTilora s k fc b st).2.mram = st.mram := by
  unfold putTilora
  dsimp only
  generalize hr : (laneTribs st s k).foldl _ (b, st) = r
  have hfold : r.2.mram = st.mram := by
    rw [← hr]
    refine foldl_snd_mram (fun a p => ?_) (laneTribs st s k) (b, st)
    simp only [apply_ite Prod.snd, ite_mram, takeBlocks_mram, ite_self]
  have hseal := (sealTrib_mram r.2 s k 0 fc (takeSlots true r.1 (List.range 120))).trans hfold
  split
  all_goals
    next h =>
      rw [h] at hseal
      exact hseal

@[simp] theorem ctfInject_mram (st : State) (s : SliceId) (k : PortIx) (b : Bytes) :
    (ctfInject st s k b).2.mram = st.mram := by
  simp only [ctfInject]
  repeat' split
  all_goals simp only [modCtfLane_mram]

@[simp] theorem reserveLane_mram (st : State) (s : SliceId) (k : PortIx) : (reserveLane st s k).mram = st.mram := by
  simp only [reserveLane, tribReserve_mram, foldl_mram, implies_true]

@[simp] theorem sendCtf_mram (s : SliceId) (st : State) (k : PortIx) : (sendCtf s st k).mram = st.mram := by
  have hput (st : State) (til : Bool) (fc : Nat) (b : Bytes) : (if til then putTilora s k fc b st
      else (laneTribs st s k).foldl (fun a p => putTrib s k fc a p.1) (b, st)).2.mram = st.mram := by
    split
    · exact putTilora_mram ..
    · refine foldl_snd_mram (fun a p => ?_) _ (b, st)
      exact putTrib_mram ..
  unfold sendCtf
  split
  · rfl
  · simp only [reserveLane_mram, ite_mram, emit_mram, digPort_mram, modCtfLane_mram, ctfInject_mram, hput,
    multiframe_mram, revokeLane_mram, ite_self]

@[simp] theorem faultFill_mram (st : State) (s : SliceId) (cp : PortIx) : (faultFill st s cp).2.mram = st.mram :=
  (rfl)

@[simp] theorem deliver_mram (s : SliceId) (t : Nat) (b : Option Bytes) (st : State) :
    (deliver s t b st).mram = st.mram := by
  simp only [deliver]
  repeat' split
  all_goals simp only [faultFill_mram, sendPort_mram]

@[simp] theorem slipRead_mram (s : SliceId) (st : State) (p : Nat × TribSt) : (slipRead s st p).mram = st.mram := by
  simp only [slipRead, deliver_mram, modTrib_mram, ite_mram]
  repeat' split
  all_goals simp only [deliver_mram, modTrib_mram, raise_mram]

@[simp] theorem addBlocks_mram (st : State) (s : SliceId) (bs : List (PortIx × List (Option (BitVec 66)))) :
    (addBlocks st s bs).mram = st.mram :=
  (rfl)

@[simp] theorem dropBlocks_mram (st : State) (s : SliceId) : (dropBlocks st s).mram = st.mram := (rfl)

@[simp] theorem slipPut_mram (st : State) (s : SliceId) (t : Nat) (b : Option Bytes) :
    (slipPut st s t b).mram = st.mram :=
  (rfl)

@[simp] theorem moveRxPos_mram (st : State) (s : SliceId) (t : Nat) (p : Fin 2) :
    (moveRxPos st s t p).mram = st.mram := by
  unfold moveRxPos
  repeat' split
  all_goals simp only [modTrib_mram, releasePos_mram]

@[simp] theorem openTrib_mram (st : State) (s : SliceId) (k : PortIx) (i fc : Nat) (an : An) (page : Bool)
    (ct tag : Bytes) : (openTrib st s k i fc an page ct tag).2.mram = st.mram := by
  simp only [openTrib]
  repeat' split
  all_goals simp only [modTrib_mram, pcEvent_mram, reserveTrib_mram, moveRxPos_mram, modPos_mram]

@[simp] theorem openLane_mram (st : State) (s : SliceId) (k : PortIx) (fc : Nat) (b : Bytes) :
    (openLane st s k fc b).mram = st.mram := by
  simp only [openLane, openTrib_mram, slipPut_mram, foldl_mram, implies_true, ite_mram, ite_self]

@[simp] theorem rxSwap_mram (st : State) (s : SliceId) (k : PortIx) : (rxSwap st s k).mram = st.mram := (rfl)

@[simp] theorem traceByte_mram (st : State) (s : SliceId) (k : PortIx) (b : Byte) :
    (traceByte st s k b).mram = st.mram := by
  simp only [traceByte]
  split <;> simp only [modCtfLane_mram, count_mram, ite_mram, ite_self]

@[simp] theorem labelRx_mram (st : State) (s : SliceId) (t fc : Nat) (l n : Byte) :
    (labelRx st s t fc l n).mram = st.mram :=
  (rfl)

@[simp] theorem ownerRx_mram (st : State) (s : SliceId) (k : PortIx) (j : Nat) (o : Byte) :
    (ownerRx st s k j o).mram = st.mram := by
  simp only [ownerRx, modCtfLane_mram, count_mram, ite_mram, ite_self]

@[simp] theorem fawRx_mram (st : State) (s : SliceId) (k : PortIx) (b : Bytes) :
    (fawRx st s k b).mram = st.mram := by
  simp only [fawRx, modCtfLane_mram, laneBack_mram, ite_mram, ite_self]

@[simp] theorem markerRx_mram (st : State) (s : SliceId) (k : PortIx) (m : Option Bool) :
    (markerRx st s k m).mram = st.mram := by
  unfold markerRx
  split <;> simp only [modCtfLane_mram, laneBack_mram, ite_mram, ite_self]

@[simp] theorem seekRx_mram (st : State) (s : SliceId) (k : PortIx) (b : Bytes) :
    (seekRx st s k b).mram = st.mram := by
  simp only [seekRx, modCtfLane_mram, pcsLocked_mram, ite_mram, ite_self]

@[simp] theorem bipRx_mram (st : State) (s : SliceId) (k : PortIx) (b : Bytes) :
    (bipRx st s k b).mram = st.mram := by
  simp only [bipRx, count_mram, modCtfLane_mram, ite_mram, ite_self]

@[simp] theorem fsyncApply_mram (s : SliceId) (off : Int) (st : State) : (fsyncApply s off st).mram = st.mram :=
  (rfl)

@[simp] theorem alignStrobe_mram (s : SliceId) (w : Word) (st : State) : (alignStrobe s w st).mram = st.mram := by
  simp only [alignStrobe, modCtf_mram, ite_mram, ite_self]

@[simp] theorem traceExpWrite_mram (s : SliceId) (k : PortIx) (w : Nat) (v : Word) (st : State) :
    (traceExpWrite s k w v st).mram = st.mram :=
  (rfl)

@[simp] theorem tribJudge_mram {s : SliceId} {w : Word} {i : InstId} {causes : List (Bool × Nat)}
    {ok : State → State} (hok : ∀ st, (ok st).mram = st.mram) (st : State) :
    (tribJudge s w i causes ok st).mram = st.mram := by
  simp only [tribJudge, hok, tribDone_mram, stateRecord_mram, pickCode_mram, ite_mram, ite_self]

@[simp] theorem tribRead_mram (s : SliceId) (k : PortIx) (i : Nat) (w : Word) (st : State) :
    (tribRead s k i w st).mram = st.mram := by
  simp only [tribRead, tribDone_mram, foldl_wr_mram, ite_mram, ite_self]

@[simp] theorem tribWrite_mram (s : SliceId) (k : PortIx) (i : Nat) (w : Word) (st : State) :
    (tribWrite s k i w st).mram = st.mram := by
  unfold tribWrite
  exact tribJudge_mram (fun _ => (tribDone_mram ..).trans (modCtf_mram ..)) st

theorem installRules_mram {st : State} {s : SliceId} {t : Nat} {p : Fin 2} {an : An} {x : TribSt} {n : Nat}
    {r : Node} {st' : State} (h : installRules st s t p an x n r = .ok st') : st'.mram = st.mram := by
  unfold installRules at h
  dsimp only at h
  split at h
  next => cases h
  next =>
    split at h
    next => cases h
    next =>
      cases h
      repeat' split
      all_goals simp only [modTrib_mram, jnlRequest_mram, evict_mram]

@[simp] theorem tribInstall_mram (s : SliceId) (k : PortIx) (i : Nat) (an : An) (w : Word) (st : State) :
    (tribInstall s k i an w st).mram = st.mram := by
  unfold tribInstall
  refine (tribJudge_mram (fun st => ?_) _).trans (nodeCheck_mram ..)
  split
  next =>
    split
    next => simp only [tribDone_mram, jnlRefused_mram]
    next h => exact (cmdBusy_mram ..).trans (installRules_mram h)
  next => exact tribDone_mram ..

@[simp] theorem tribSwitch_mram (s : SliceId) (k : PortIx) (i : Nat) (w : Word) (st : State) :
    (tribSwitch s k i w st).mram = st.mram := by
  unfold tribSwitch
  exact tribJudge_mram (fun _ => (tribDone_mram ..).trans (modTrib_mram ..)) st

@[simp] theorem tribClear_mram (s : SliceId) (k : PortIx) (i : Nat) (an : An) (w : Word) (st : State) :
    (tribClear s k i an w st).mram = st.mram := by
  unfold tribClear
  refine tribJudge_mram (fun st => (tribDone_mram ..).trans ?_) st
  split
  · exact releasePos_mram ..
  · rfl

@[simp] theorem tribDelete_mram (s : SliceId) (k : PortIx) (i : Nat) (w : Word) (st : State) :
    (tribDelete s k i w st).mram = st.mram := by
  unfold tribDelete
  exact tribJudge_mram (fun _ => (tribDone_mram ..).trans (modCtf_mram ..)) st

@[simp] theorem pmRead_mram (s : SliceId) (k : PortIx) (i : Nat) (w : Word) (st : State) :
    (pmRead s k i w st).mram = st.mram := by
  unfold pmRead
  repeat' split
  all_goals rfl

@[simp] theorem tribCmd_mram (s : SliceId) (w : Word) (st : State) : (tribCmd s w st).mram = st.mram := by
  unfold tribCmd
  split <;> simp only [tribRead_mram, tribWrite_mram, tribInstall_mram, tribSwitch_mram, tribClear_mram,
    tribDelete_mram, pmRead_mram, tribDone_mram]

@[simp] theorem pageDone_mram (s : SliceId) (w : Word) (code : Nat) (st : State) :
    (pageDone s w code st).mram = st.mram :=
  (rfl)

@[simp] theorem modTsi_mram (st : State) (s : SliceId) (d : Side) (k : PortIx) (f : TsiMem → TsiMem) :
    (modTsi st s d k f).mram = st.mram :=
  (rfl)

@[simp] theorem pageRead_mram (s : SliceId) (d : Side) (act : Bool) (k : PortIx) (slot : Nat) (w : Word)
    (st : State) : (pageRead s d act k slot w st).mram = st.mram := by
  simp only [pageRead, pageDone_mram, ite_mram, ite_self]

@[simp] theorem pageWrite_mram (s : SliceId) (d : Side) (k : PortIx) (slot i : Nat) (w : Word) (st : State) :
    (pageWrite s d k slot i w st).mram = st.mram := by
  simp only [pageWrite, pickCode_mram, pageDone_mram, modTsi_mram, ite_mram, ite_self]

@[simp] theorem pageCopy_mram (s : SliceId) (d : Side) (w : Word) (st : State) :
    (pageCopy s d w st).mram = st.mram := by
  simp only [pageCopy, pageDone_mram, modTsi_mram, foldl_mram, implies_true, ite_mram, ite_self]

@[simp] theorem pageSwap_mram (s : SliceId) (w : Word) (st : State) : (pageSwap s w st).mram = st.mram := by
  simp only [pageSwap, pickCode_mram, pageDone_mram, modCtfLane_mram, modCtf_mram, foldl_mram, implies_true,
    ite_mram, ite_self]

@[simp] theorem pageCmd_mram (s : SliceId) (w : Word) (st : State) : (pageCmd s w st).mram = st.mram := by
  unfold pageCmd
  split <;> simp only [pageRead_mram, pageWrite_mram, pageCopy_mram, pageSwap_mram, pageDone_mram]

/-! ### Lines and counters of external memory (14) -/

theorem cacheRoom_mram {st st' : State} (h : cacheRoom st = some st') : st'.mram = st.mram := by
  unfold cacheRoom at h
  split at h
  · cases h; rfl
  · obtain ⟨p, -, rfl⟩ := Option.map_eq_some_iff.mp h
    exact modMee_mram ..

theorem takeNode_mram {st st' : State} {l n : Nat} {b : Bytes} (h : takeNode st l n b = .ok st') :
    st'.mram = st.mram := by
  unfold takeNode at h
  dsimp only at h
  split at h
  · cases h
  · split at h
    next => cases h
    next hroom =>
      cases h
      exact (modMee_mram ..).trans ((cacheRoom_mram hroom).trans (count_mram ..))

theorem fetchNode_mram {f : Nat} {st st' : State} {l n : Nat} (h : fetchNode f st l n = .ok st') :
    st'.mram = st.mram := by
  induction f generalizing st st' l n with
  | zero => cases h; rfl
  | succ f ih =>
    unfold fetchNode at h
    split at h
    · cases h; rfl
    · split at h
      next => cases h
      next st1 hup =>
        refine (takeNode_mram h).trans ?_
        split at hup
        · cases hup; rfl
        · exact ih hup

theorem fetchCtr_mram {st st' : State} {l n : Nat} (h : fetchCtr st l n = .ok st') : st'.mram = st.mram := by
  unfold fetchCtr at h
  split at h
  · cases h; rfl
  · exact fetchNode_mram h

@[simp] theorem setCtr_mram (st : State) (l n v : Nat) : (setCtr st l n v).mram = st.mram := by
  simp only [setCtr, modMee_mram, ite_mram, ite_self]

@[simp] theorem meeWrite_mram (f : Nat) (st : State) (a : Nat) (bs : Bytes) :
    (meeWrite f st a bs).mram = st.mram := by
  induction f generalizing st a bs with
  | zero => rfl
  | succ f ih =>
    unfold meeWrite
    split
    · rfl
    · exact (ih ..).trans (modMee_mram ..)

@[simp] theorem arcPut_mram (st : State) (n : Nat) (e : ArcEnt) : (arcPut st n e).mram = st.mram :=
  (meeWrite_mram ..).trans (modMee_mram ..)

@[simp] theorem arcFree_mram (st : State) (n : Nat) : (arcFree st n).mram = st.mram :=
  (meeWrite_mram ..).trans (modMee_mram ..)

@[simp] theorem arcDrop_mram (st : State) (i : InstId) : (arcDrop st i).mram = st.mram := by
  simp only [arcDrop, arcFree_mram, foldl_mram, implies_true]

/-! ### The journal in service (09) -/

@[simp] theorem pnjDone_mram (w : Word) (code : Nat) (st : State) : (pnjDone w code st).mram = st.mram := (rfl)

@[simp] theorem pnjEnd_mram (st : State) (code : Nat) : (pnjEnd st code).mram = st.mram := (rfl)

@[simp] theorem tombEnd_mram (st : State) : (tombEnd st).mram = st.mram := by
  simp only [tombEnd, pnjEnd_mram, modJnl_mram, ite_mram, ite_self]

@[simp] theorem slotInstalled_mram (st : State) (src : Fin 4) (s : SliceId) (ch : ChIx) (an : An) (x : Slot)
    (ix : Nat) : (slotInstalled st src s ch an x ix).mram = st.mram := by
  unfold slotInstalled
  repeat' split
  all_goals simp only [count_mram, restoreBuild_mram, cmdDone_mram, modSlot_mram, modSl_mram, slotPlaced_mram,
    arcFree_mram, ite_mram, ite_self]

@[simp] theorem restoreFail_mram (st : State) (code sec : Nat) : (restoreFail st code sec).mram = st.mram := (rfl)

@[simp] theorem installRefused_mram (st : State) (u : JUse) : (installRefused st u).mram = st.mram := by
  unfold installRefused
  repeat' split
  all_goals simp only [jnlRefused_mram, cmdDone_mram, preFail_mram, setF_mram, restoreFail_mram, installFailed_mram]

@[simp] theorem committed_mram (st : State) (u : JUse) (ix : Nat) : (committed st u ix).mram = st.mram := by
  unfold committed
  split <;> simp only [count_mram, modJnl_mram, modSlot_mram, modPos_mram, jumpReserved_mram, slotInstalled_mram,
    installCommitted_mram, pnjEnd_mram, tombEnd_mram, ite_mram, ite_self]

@[simp] theorem jnlTake_mram (n : Nat) (st : State) : (jnlTake n st).2.mram = st.mram := by
  induction n generalizing st with
  | zero => rfl
  | succ n ih =>
    unfold jnlTake
    dsimp only
    split
    · rfl
    next r _ =>
      generalize (if r.tomb then _ else 0 : Nat) = code
      split
      · exact (modJnl_mram ..).trans (modJnl_mram ..)
      · refine (ih _).trans ?_
        split
        all_goals simp only [pnjEnd_mram, tombEnd_mram, modJnl_mram]

@[simp] theorem trimHeld_mram (n : Nat) (st : State) : (trimHeld n st).mram = st.mram := by
  induction n generalizing st with
  | zero => rfl
  | succ n ih =>
    unfold trimHeld
    split
    · rfl
    · split
      · rfl
      · exact (ih _).trans (evict_mram ..)

@[simp] theorem pnjRead_mram (w : Word) (st : State) : (pnjRead w st).mram = st.mram := (rfl)

@[simp] theorem pnjFind_mram (w : Word) (st : State) : (pnjFind w st).mram = st.mram := by
  unfold pnjFind
  repeat' split
  all_goals simp only [pnjDone_mram]

@[simp] theorem pnjDestroy_mram (w : Word) (st : State) : (pnjDestroy w st).mram = st.mram := by
  simp only [pnjDestroy, pnjDone_mram, ite_mram]
  repeat' split
  all_goals simp only [pnjDone_mram, jnlRequest_mram, cmdBusy_mram]

@[simp] theorem pnjTombDormant_mram (w : Word) (st : State) : (pnjTombDormant w st).mram = st.mram := by
  simp only [pnjTombDormant, pnjDone_mram, cmdBusy_mram, tombEnd_mram, modJnl_mram, ite_mram, ite_self]

@[simp] theorem pnjAckDamage_mram (w : Word) (st : State) : (pnjAckDamage w st).mram = st.mram := by
  simp only [pnjAckDamage, pnjDone_mram, modJnl_mram, ite_mram, ite_self]

@[simp] theorem pnjCmd_mram (w : Word) (st : State) : (pnjCmd w st).mram = st.mram := by
  unfold pnjCmd
  split <;> simp only [pnjDone_mram, pnjRead_mram, pnjFind_mram, pnjDestroy_mram, pnjTombDormant_mram,
    pnjAckDamage_mram, pickCode_mram]

/-! ### Statistics (19) -/

@[simp] theorem takeSnap_mram (st : State) : (takeSnap st).mram = st.mram := (rfl)

@[simp] theorem snapStrobe_mram (st : State) : (snapStrobe st).mram = st.mram := by
  simp only [snapStrobe, setF_mram, takeSnap_mram, ite_mram, ite_self]

@[simp] theorem scWrite_mram (st : State) (a : Nat) (vs : List (BitVec 64)) : (scWrite st a vs).mram = st.mram := by
  unfold scWrite
  exact foldl_mram (fun _ _ => (wr_mram ..).trans (wr_mram ..)) _ st

@[simp] theorem pmuScCmd_mram (w : Word) (st : State) : (pmuScCmd w st).mram = st.mram := by
  simp only [pmuScCmd, pickCode_mram, scWrite_mram, cmdDone_mram, ite_mram, ite_self]

@[simp] theorem vfScCmd_mram (i : InstId) (w : Word) (st : State) : (vfScCmd i w st).mram = st.mram := by
  simp only [vfScCmd, wr_mram, pickCode_mram, scWrite_mram, cmdDone_mram, ite_mram, ite_self]

@[simp] theorem bumpVf_mram (st : State) (i : InstId) (n : Fin 8) : (bumpVf st i n).mram = st.mram := (rfl)

@[simp] theorem bwRestart_mram (st : State) : (bwRestart st).mram = st.mram := (rfl)

@[simp] theorem modPc_mram (st : State) (s : SliceId) (f : PcSt → PcSt) : (modPc st s f).mram = st.mram := (rfl)

@[simp] theorem pcStrobe_mram (s : SliceId) (w : Word) (st : State) : (pcStrobe s w st).mram = st.mram := by
  unfold pcStrobe
  repeat' split
  all_goals simp only [modPc_mram]

@[simp] theorem pcClocks_mram (st : State) (s : SliceId) : (pcClocks st s).mram = st.mram := by
  simp only [pcClocks, modPc_mram, pcEvent_mram, foldl_mram, implies_true, ite_mram, ite_self]

/-! ### Virtual instances (13) -/

@[simp] theorem doorbell_mram (i : InstId) (st : State) : (doorbell i st).mram = st.mram := by
  simp only [doorbell, modInst_mram, raise_mram, count_mram, ite_mram, ite_self]

@[simp] theorem mbxDone_mram (w : Word) (code : Nat) (st : State) : (mbxDone w code st).mram = st.mram := (rfl)

@[simp] theorem mbxRead_mram (i : InstId) (w : Word) (st : State) : (mbxRead i w st).mram = st.mram := by
  simp only [mbxRead, mbxDone_mram, foldl_wr_mram, ite_mram, ite_self]

@[simp] theorem mbxRespond_mram (i : InstId) (w : Word) (st : State) : (mbxRespond i w st).mram = st.mram := by
  simp only [mbxRespond, mbxDone_mram, hostOut_mram, modInst_mram, foldl_wr_mram, ite_mram, ite_self]

@[simp] theorem mbxCmd_mram (w : Word) (st : State) : (mbxCmd w st).mram = st.mram := by
  unfold mbxCmd
  split <;> simp only [mbxRead_mram, mbxRespond_mram, mbxDone_mram]

@[simp] theorem vimDone_mram (w : Word) (code : Nat) (st : State) : (vimDone w code st).mram = st.mram := (rfl)

@[simp] theorem vimRefuse_mram (w : Word) (code : Nat) (i : InstId) (s : SliceId) (st : State) :
    (vimRefuse w code i s st).mram = st.mram := by
  simp only [vimRefuse, vimDone_mram, stateRecord_mram]

@[simp] theorem setInst_mram (st : State) (i : InstId) (q : InstState) : (setInst st i q).mram = st.mram := (rfl)

@[simp] theorem vimEnable_mram (i : InstId) (w : Word) (st : State) : (vimEnable i w st).mram = st.mram := by
  simp only [vimEnable, vimRefuse_mram, vimDone_mram, setInst_mram, ite_mram, ite_self]

@[simp] theorem startQuiesce_mram (st : State) (i : InstId) : (startQuiesce st i).mram = st.mram := (rfl)

@[simp] theorem vimQuiesce_mram (i : InstId) (w : Word) (st : State) : (vimQuiesce i w st).mram = st.mram := by
  simp only [vimQuiesce, vimRefuse_mram, vimDone_mram, startQuiesce_mram, ite_mram, ite_self]

@[simp] theorem vimFreeze_mram (i : InstId) (w : Word) (st : State) : (vimFreeze i w st).mram = st.mram := by
  simp only [vimFreeze, vimRefuse_mram, vimDone_mram, setInst_mram, ite_mram, ite_self]

@[simp] theorem thawSlots_mram (st : State) (i : InstId) : (thawSlots st i).mram = st.mram := by
  unfold thawSlots
  split
  · rfl
  · refine (modInst_mram ..).trans (foldl_mram (fun st s => foldl_mram (fun st c => ?_) _ st) slices4 st)
    exact foldl_mram (fun _ _ => modSlot_mram ..) ans st

@[simp] theorem vimThaw_mram (i : InstId) (w : Word) (st : State) : (vimThaw i w st).mram = st.mram := by
  simp only [vimThaw, vimRefuse_mram, vimDone_mram, setInst_mram, thawSlots_mram, ite_mram, ite_self]

@[simp] theorem dropChans_mram (i : InstId) (st : State) (s : SliceId) : (dropChans i st s).mram = st.mram := by
  simp only [dropChans, slotEmpty_mram, sciRemove_mram, modSl_mram, foldl_mram, implies_true]

@[simp] theorem dropRcps_mram (i : InstId) (st : State) (s : SliceId) : (dropRcps i st s).mram = st.mram := by
  unfold dropRcps
  exact foldl_mram (fun _ _ => (wrA_mram ..).trans (wr_mram ..)) _ st

@[simp] theorem dropTribs_mram (i : InstId) (st : State) (s : SliceId) : (dropTribs i st s).mram = st.mram := by
  simp only [dropTribs, modCtf_mram, releasePos_mram, foldl_mram, implies_true]

@[simp] theorem dropSlice_mram (i : InstId) (st : State) (s : SliceId) : (dropSlice i st s).mram = st.mram := by
  simp only [dropSlice, dropTribs_mram, dropRcps_mram, dropChans_mram, modRules_mram, modLpm_mram, modMac_mram]

@[simp] theorem dropNodes_mram (st : State) (i : InstId) : (dropNodes st i).mram = st.mram := revokeUsers_mram ..

@[simp] theorem clearVfPage_mram (st : State) (i : InstId) : (clearVfPage st i).mram = st.mram := by
  simp only [clearVfPage, ite_mram, ite_self]

@[simp] theorem instClear_mram (st : State) (i : InstId) (remove : Bool) :
    (instClear st i remove).mram = st.mram := by
  simp only [instClear, dropNodes_mram, dropSlice_mram, arcDrop_mram, clearVfPage_mram, modInst_mram, foldl_mram,
    implies_true]

@[simp] theorem vimReset_mram (i : InstId) (remove : Bool) (w : Word) (st : State) :
    (vimReset i remove w st).mram = st.mram := by
  simp only [vimReset, vimRefuse_mram, vimDone_mram, instClear_mram, ite_mram, ite_self]

@[simp] theorem quiesced_mram (st : State) (i : InstId) : (quiesced st i).mram = st.mram := by
  simp only [quiesced, raise_mram, modInst_mram, instClear_mram, ite_mram, ite_self]

@[simp] theorem flrRings_mram (st : State) (i : InstId) : (flrRings st i).mram = st.mram := by
  simp only [flrRings, modInst_mram, setF_mram, foldl_mram, implies_true]

@[simp] theorem vfFlr_mram (st : State) (i : InstId) : (vfFlr st i).mram = st.mram := by
  simp only [vfFlr, ite_mram]
  repeat' split
  all_goals simp only [flrRings_mram, modInst_mram, startQuiesce_mram, instClear_mram]

@[simp] theorem shareUpdate_mram (st : State) (s : SliceId) : (shareUpdate st s).mram = st.mram := by
  simp only [shareUpdate, raise_mram, modInst_mram, foldl_mram, implies_true, ite_mram, ite_self]

@[simp] theorem vimShareWrite_mram (i : InstId) (s : SliceId) (w : Word) (st : State) :
    (vimShareWrite i s w st).mram = st.mram := by
  unfold vimShareWrite
  split <;> simp only [pickCode_mram, vimRefuse_mram, modInst_mram, vimDone_mram, shareUpdate_mram, ite_mram,
    ite_self]

@[simp] theorem vimShareRead_mram (i : InstId) (s : SliceId) (w : Word) (st : State) :
    (vimShareRead i s w st).mram = st.mram := by
  simp only [vimShareRead, vimDone_mram, wr_mram, ite_mram, ite_self]

@[simp] theorem vimStateRead_mram (i : InstId) (w : Word) (st : State) : (vimStateRead i w st).mram = st.mram := by
  simp only [vimStateRead, vimDone_mram, setF_mram, ite_mram, ite_self]

@[simp] theorem capStage_mram (st : State) (bs : Bytes) : (capStage st bs).mram = st.mram := meeWrite_mram ..

@[simp] theorem exportSlots_mram (st : State) (i : InstId) : (exportSlots st i).mram = st.mram := by
  simp only [exportSlots, slotLeaves_mram, modCh_mram, modSlot_mram, foldl_mram, implies_true]

@[simp] theorem vimSave_mram (i : InstId) (w : Word) (st : State) : (vimSave i w st).mram = st.mram := by
  simp only [vimSave, nodeCheck_mram, vimRefuse_mram, ite_mram]
  repeat' split
  all_goals simp only [nodeCheck_mram, pickCode_mram, setF_mram, vimDone_mram, draw_mram, capStage_mram, dma_mram,
    arcDrop_mram, exportSlots_mram, count_mram]

theorem restoreSlot_mram {t : InstId} {st st' : State} {x : SliceId × ChIx × An × ChRec × Bytes × Slot}
    (h : restoreSlot t st x = .ok st') : st'.mram = st.mram := by
  unfold restoreSlot at h
  dsimp only at h
  split at h
  next => cases h
  next =>
    cases h
    split
    all_goals simp only [modInst_mram, jnlRequest_mram, evict_mram]

theorem restoreSlots_mram {t : InstId} {ck : Bytes} {recs : List (Nat × Nat × Bytes)} {rs : List (Nat × Bytes)}
    {st st' : State} (h : restoreSlots t ck recs rs st = .ok st') : st'.mram = st.mram := by
  induction rs generalizing st with
  | nil => cases h; rfl
  | cons r rs ih =>
    unfold restoreSlots at h
    split at h
    next => cases h
    next =>
      split at h
      next => cases h
      next hslot => exact (ih h).trans (restoreSlot_mram hslot)

@[simp] theorem vimRestore_mram (t : InstId) (w : Word) (st : State) : (vimRestore t w st).mram = st.mram := by
  unfold vimRestore
  dsimp only
  split
  · simp only [vimRefuse_mram, nodeCheck_mram]
  · split
    next => simp only [vimDone_mram, setF_mram, count_mram, nodeCheck_mram]
    next =>
      split
      next => simp only [vimDone_mram, setF_mram, count_mram, jnlRefused_mram, capStage_mram, nodeCheck_mram]
      next => simp only [vimDone_mram, setF_mram, count_mram, capStage_mram, nodeCheck_mram]
      next st' hslots =>
        have hst : st'.mram = st.mram := by
          rw [restoreSlots_mram hslots, capStage_mram, nodeCheck_mram]
        split
        · simp only [vimDone_mram, count_mram, restoreBuild_mram, hst]
        · exact (cmdBusy_mram ..).trans hst

@[simp] theorem vimCmd_mram (w : Word) (st : State) : (vimCmd w st).mram = st.mram := by
  unfold vimCmd
  split <;> simp only [vimEnable_mram, vimQuiesce_mram, vimFreeze_mram, vimThaw_mram, vimReset_mram, vimSave_mram,
    vimRestore_mram, vimShareWrite_mram, vimShareRead_mram, vimStateRead_mram, vimDone_mram]

/-! ### Punt and inject rings (18) -/

@[simp] theorem modRing_mram (st : State) (i : InstId) (r : Fin 16) (f : RingSt → RingSt) :
    (modRing st i r f).mram = st.mram :=
  (rfl)

@[simp] theorem ringAdvance_mram (st : State) (i : InstId) (r : Fin 16) : (ringAdvance st i r).mram = st.mram :=
  (rfl)

@[simp] theorem fireRing_mram (st : State) (i : InstId) (r : Fin 16) : (fireRing st i r).mram = st.mram := by
  simp only [fireRing, hostOut_mram, modRing_mram, ite_mram, ite_self]

@[simp] theorem ringModEnd_mram (st : State) (i : InstId) (r : Fin 16) : (ringModEnd st i r).mram = st.mram := by
  simp only [ringModEnd, fireRing_mram, ite_mram, ite_self]

@[simp] theorem punt_mram (st : State) (i : InstId) (q : Fin 8) (bs : Bytes) (n : PuntInfo) :
    (punt st i q bs n).mram = st.mram := by
  simp only [punt, digHost_mram, count_mram, bumpVf_mram, drawFree_mram, hostOut_mram, fireRing_mram,
    ringAdvance_mram, ite_mram, ite_self]

/-! ### A frame at a parser and classifier (03, 04) -/

@[simp] theorem prsCount_mram (st : State) (c : Pkt) (n : Nat) : (prsCount st c n).mram = st.mram := (rfl)

@[simp] theorem clsCount_mram (c : Pkt) (st : State) (n : Nat) : (clsCount c st n).mram = st.mram := (rfl)

@[simp] theorem arrive_mram (st : State) (s : SliceId) : (arrive st s).2.mram = st.mram := (rfl)

@[simp] theorem countParse_mram (st : State) (c : Pkt) (p : Parse) : (countParse st c p).mram = st.mram := by
  simp only [countParse, prsCount_mram, ite_mram, ite_self]

@[simp] theorem puntPkt_mram (st : State) (c : Pkt) (q : Fin 8) (reason code : Nat) (rule : Option Nat) :
    (puntPkt st c q reason code rule).mram = st.mram :=
  punt_mram ..

@[simp] theorem noteMal_mram (st : State) (c : Pkt) (f : Nat × Nat) : (noteMal st c f).mram = st.mram := (rfl)

@[simp] theorem malAction_mram (st : State) (c : Pkt) (f : Nat × Nat) (rule : Option Nat) :
    (malAction st c f rule).mram = st.mram := by
  simp only [malAction, puntPkt_mram, prsCount_mram, ite_mram, ite_self]

@[simp] theorem lookupRes_mram (st : State) (c : Pkt) (p : Parse) (ix : Nat) (r : RuleEnt) :
    (lookupRes st c p ix r).2.mram = st.mram := by
  simp only [lookupRes]
  repeat' split
  all_goals simp only [macLookup_mram, lpmLookup_mram]

@[simp] theorem ruleRes_mram (st : State) (c : Pkt) (p : Parse) (ix : Nat) (r : RuleEnt) :
    (ruleRes st c p ix r).2.mram = st.mram := by
  unfold ruleRes
  repeat' split
  all_goals simp only [lookupRes_mram]

@[simp] theorem matchRes_mram (st : State) (c : Pkt) (p : Parse) : (matchRes st c p).2.mram = st.mram := by
  simp only [matchRes]
  repeat' split
  all_goals simp only [sramUe_mram, modRules_mram, ruleRes_mram]

@[simp] theorem modFrags_mram (st : State) (s : SliceId) (f : List FragEnt → List FragEnt) :
    (modFrags st s f).mram = st.mram :=
  (rfl)

@[simp] theorem fragSweep_mram (st : State) (s : SliceId) : (fragSweep st s).mram = st.mram := by
  simp only [fragSweep, countN_mram, modFrags_mram, ite_mram, ite_self]

@[simp] theorem fragStore_mram (st : State) (c : Pkt) (p : Parse) (r : Res) :
    (fragStore st c p r).2.mram = st.mram := by
  simp only [fragStore]
  repeat' split
  all_goals simp only [modFrags_mram]

@[simp] theorem classifyLater_mram (st : State) (c : Pkt) (p : Parse) : (classifyLater st c p).2.mram = st.mram := by
  simp only [classifyLater]
  repeat' split
  all_goals simp only [matchRes_mram, sramUe_mram, modFrags_mram]

@[simp] theorem classifyPkt_mram (st : State) (c : Pkt) (p : Parse) : (classifyPkt st c p).2.mram = st.mram := by
  simp only [classifyPkt, clsCount_mram, foldl_mram, implies_true]
  repeat' split
  all_goals simp only [fragSweep_mram, classifyLater_mram, matchRes_mram, fragStore_mram]

/-! ### Sealing and opening a frame (06) -/

@[simp] theorem unreserved_mram (st : State) (s : SliceId) (ch : ChIx) (j : Nat) :
    (unreserved st s ch j).mram = st.mram := by
  simp only [unreserved, pcEvent_mram, bumpCh_mram]

@[simp] theorem takePn_mram (st : State) (s : SliceId) (ch : ChIx) : (takePn st s ch).2.mram = st.mram := by
  simp only [takePn]
  repeat' split
  all_goals simp only [count_mram, slotEcc_mram, bumpCh_mram, checkReserve_mram, unreserved_mram, modSlot_mram,
    raise_mram, pcEvent_mram]

@[simp] theorem protAccess_mram (st : State) (s : SliceId) (ch : ChIx) (src : Nat) (bs : Bytes) :
    (protAccess st s ch src bs).2.mram = st.mram := by
  unfold protAccess
  dsimp only
  split
  · simp only [count_mram, chanCheck_mram]
  · split
    · simp only [count_mram, chanCheck_mram]
    · split
      all_goals
        next h =>
          have htake := takePn_mram (boundaryWith (pcEvent (chanCheck st s ch) s 0x060 1) s ch none true) s ch
          rw [h] at htake
          exact htake.trans ((boundaryWith_mram ..).trans ((pcEvent_mram ..).trans (chanCheck_mram ..)))

@[simp] theorem protCount_mram (st : State) (s : SliceId) (p : Prot) (len : Nat) :
    (protCount st s p len).mram = st.mram := by
  simp only [protCount, pcEvent_mram, bumpSlot_mram, bumpCh_mram]

@[simp] theorem rxChannel_mram (st : State) (s : SliceId) (sci : BitVec 64) :
    (rxChannel st s sci).2.mram = st.mram := by
  simp only [rxChannel]
  repeat' split
  all_goals simp only [hashEcc_mram, chanCheck_mram]

@[simp] theorem notUsable_mram (st : State) (s : SliceId) (ch : ChIx) (an : An) (cBit : Bool) :
    (notUsable st s ch an cBit).mram = st.mram := by
  simp only [notUsable, bumpSlot_mram, bumpCh_mram, ite_mram, ite_self]

@[simp] theorem rxSelect_mram (st : State) (s : SliceId) (ch : ChIx) (c : Pkt) (t : SecTag) (sci : BitVec 64) :
    (rxSelect st s ch c t sci).2.mram = st.mram := by
  simp only [rxSelect]
  repeat' split
  all_goals simp only [bumpLp_mram, boundary_mram, pcEvent_mram, slotEcc_mram, bumpCh_mram, notUsable_mram]

@[simp] theorem icvFailed_mram (st : State) (s : SliceId) (v : VFrame) : (icvFailed st s v).mram = st.mram := by
  simp only [icvFailed, bumpSlot_mram, bumpCh_mram, ite_mram, ite_self]

@[simp] theorem rxOctets_mram (st : State) (s : SliceId) (v : VFrame) : (rxOctets st s v).mram = st.mram := (rfl)

@[simp] theorem rxPassed_mram (st : State) (s : SliceId) (v : VFrame) : (rxPassed st s v).mram = st.mram := by
  simp only [rxPassed, bumpCh_mram, bumpSlot_mram, ite_mram, ite_self]

@[simp] theorem commitFrame_mram (st : State) (s : SliceId) (v : VFrame) :
    (commitFrame st s v).2.mram = st.mram := by
  simp only [commitFrame]
  repeat' split
  all_goals simp only [boundary_mram, pcEvent_mram, slotEcc_mram, bumpCh_mram, rxOctets_mram, unreserved_mram,
    reserveAbove_mram, modSlot_mram, rxPassed_mram, checkReserve_mram]

@[simp] theorem rxCommit_mram (st : State) (s : SliceId) (v : VFrame) : (rxCommit st s v).2.mram = st.mram := by
  simp only [rxCommit, commitFrame_mram, boundaryWith_mram, ite_mram, ite_self]

/-! ### The way out (01, 02, 11) -/

@[simp] theorem cellUe_mram (st : State) (s : SliceId) : (cellUe st s).mram = st.mram := by
  simp only [cellUe, drawFree_mram, sramUe_mram]

@[simp] theorem settle_mram (st : State) (s : SliceId) : (settle st s).mram = st.mram := by
  simp only [settle, shareUpdate_mram, fcUpdateAll_mram, versionRetire_mram]

@[simp] theorem downDrop_mram (st : State) (d : Side) (s : SliceId) (k : PortIx) :
    (downDrop st d s k).mram = st.mram :=
  (rfl)

@[simp] theorem enqueue_mram (st : State) (d : Side) (s : SliceId) (k : PortIx) (f : EgrFrame) :
    (enqueue st d s k f).mram = st.mram := by
  simp only [enqueue, modPort_mram, downDrop_mram, ite_mram, ite_self]

@[simp] theorem dequeue_mram (st : State) (d : Side) (s : SliceId) (k : PortIx) (n : Nat) :
    (dequeue st d s k n).mram = st.mram :=
  (rfl)

@[simp] theorem sendOut_mram (st : State) (d : Side) (s : SliceId) (k : PortIx) (bs : Bytes) (fcsOk : Bool) :
    (sendOut st d s k bs fcsOk).mram = st.mram := by
  simp only [sendOut, bwFrame_mram, sendPort_mram]

@[simp] theorem untaggedOut_mram (st : State) (s : SliceId) (f : EgrFrame) :
    (untaggedOut st s f).mram = st.mram := by
  unfold untaggedOut
  split <;> simp only [bumpCp_mram, ite_mram, ite_self]

@[simp] theorem fiStep_mram (st : State) (s : SliceId) (k : PortIx) (rx : Bool) (bs : Bytes) :
    (fiStep st s k rx bs).2.mram = st.mram := by
  simp only [fiStep]
  repeat' split
  all_goals simp only [modPort_mram]

@[simp] theorem fiFurther_mram (st : State) (s : SliceId) (k : PortIx) (rx : Bool) :
    (fiFurther st s k rx).2.mram = st.mram :=
  (rfl)

@[simp] theorem fiHold_mram (st : State) (s : SliceId) (k : PortIx) (h : HeldFrame) (m : Nat) :
    (fiHold st s k h m).mram = st.mram :=
  (rfl)

@[simp] theorem tcCorrect_mram (st : State) (d : Side) (s : SliceId) (k : PortIx) (f : EgrFrame) :
    (tcCorrect st d s k f).2.mram = st.mram := by
  simp only [tcCorrect]
  repeat' split
  all_goals simp only [count_mram]

/-! ### Protect path and verify path (01) -/

@[simp] theorem instDrop_mram (st : State) (i : InstId) : (instDrop st i).mram = st.mram := (rfl)

@[simp] theorem shareDrop_mram (st : State) (i : InstId) : (shareDrop st i).mram = st.mram := (rfl)

@[simp] theorem admitInst_mram (st : State) (s : SliceId) (i : InstId) (bs : Bytes) :
    (admitInst st s i bs).2.mram = st.mram := by
  unfold admitInst
  repeat' split
  all_goals simp only [instDrop_mram, shareDrop_mram, pcEvent_mram]

@[simp] theorem parserEntry_mram (st : State) (c : Pkt) : (parserEntry st c).mram = st.mram := by
  simp only [parserEntry, pcEvent_mram, prsCount_mram, ite_mram, ite_self]

@[simp] theorem protectPkt_mram (st : State) (c : Pkt) (p : Parse) (ch : ChIx) (tc : Bool) :
    (protectPkt st c p ch tc).mram = st.mram := by
  have haccess := protAccess_mram st c.s ch (bindNo c) c.bytes
  unfold protectPkt
  split
  next h => rwa [h] at haccess
  next pr st1 h =>
    replace haccess : st1.mram = st.mram := by rwa [h] at haccess
    dsimp only
    split
    all_goals simp only [enqueue_mram, ite_mram, protCount_mram, ite_self, haccess]

@[simp] theorem doProtect_mram (st : State) (c : Pkt) (p : Parse) (r : Res) :
    (doProtect st c p r).mram = st.mram := by
  unfold doProtect
  repeat' split
  all_goals simp only [enqueue_mram, protectPkt_mram, puntPkt_mram]

@[simp] theorem waitPkt_mram (st : State) (c : Pkt) (p : Parse) (k : PortIx) (mal : Option (Nat × Nat)) (r : Res) :
    (waitPkt st c p k mal r).mram = st.mram :=
  (rfl)

@[simp] theorem protectParsed_mram (st : State) (c : Pkt) (p : Parse) : (protectParsed st c p).mram = st.mram := by
  simp only [protectParsed]
  repeat' split
  all_goals simp only [countParse_mram, waitPkt_mram, malAction_mram, noteMal_mram, classifyPkt_mram,
    protectPkt_mram, doProtect_mram]

@[simp] theorem fcDrop_mram (st : State) (s : SliceId) (k : PortIx) : (fcDrop st s k).mram = st.mram := (rfl)

@[simp] theorem clientPass_mram (st : State) (c : Pkt) (p : Parse) (k : PortIx) :
    (clientPass st c p k).mram = st.mram := by
  have hadmit := (admitInst_mram (parserEntry st c) c.s c.inst c.bytes).trans (parserEntry_mram st c)
  unfold clientPass
  split
  · exact fcDrop_mram ..
  · split
    · rfl
    · dsimp only
      split
      next h => rwa [h] at hadmit
      next h =>
        rw [h] at hadmit
        exact (protectParsed_mram ..).trans hadmit

@[simp] theorem clientIn_mram (st : State) (s : SliceId) (k : PortIx) (f : RxFrame) :
    (clientIn st s k f).mram = st.mram := by
  simp only [clientIn, arrive_mram, waitPkt_mram, clientPass_mram, ite_mram, ite_self]

@[simp] theorem countTrunc_mram (st : State) (c : Pkt) (f : EgrFrame) : (countTrunc st c f).mram = st.mram := by
  simp only [countTrunc, prsCount_mram, ite_mram, ite_self]

@[simp] theorem endWaiting_mram (st : State) (s : SliceId) (k : PortIx) (w : WaitFrame) (f : RxFrame) :
    (endWaiting st s k w f).mram = st.mram := by
  simp only [endWaiting]
  repeat' split
  all_goals simp only [macDrop_mram, clientPass_mram, countTrunc_mram, malAction_mram, noteMal_mram, clsCount_mram,
    doProtect_mram, foldl_mram, implies_true]

@[simp] theorem recirculate_mram (st : State) (c : Pkt) (rcp : Fin 16) : (recirculate st c rcp).mram = st.mram := by
  simp only [recirculate, count_mram, modSl_mram, ite_mram, ite_self]

@[simp] theorem doVerify_mram (st : State) (c : Pkt) (p : Parse) (r : Res) : (doVerify st c p r).mram = st.mram := by
  unfold doVerify
  repeat' split
  all_goals simp only [enqueue_mram, puntPkt_mram, recirculate_mram]

@[simp] theorem verifyParsed_mram (st : State) (c : Pkt) (p : Parse) : (verifyParsed st c p).mram = st.mram := by
  unfold verifyParsed
  split <;> simp only [countParse_mram, malAction_mram, noteMal_mram, classifyPkt_mram, doVerify_mram]

@[simp] theorem secTagIn_mram (st : State) (c : Pkt) (p : Parse) : (secTagIn st c p).mram = st.mram := by
  have hchan := rxChannel_mram st c.s (rxSci st c.s c.k (secTagAt p c.bytes) c.bytes)
  unfold secTagIn
  dsimp only
  split
  · exact bumpLp_mram ..
  · split
    next h =>
      rw [h] at hchan
      exact (bumpLp_mram ..).trans hchan
    next ch st1 h =>
      rw [h] at hchan
      have hadmit := admitInst_mram st1 c.s (chOf st1 c.s ch).inst c.bytes
      split
      next h =>
        rw [h] at hadmit
        exact hadmit.trans hchan
      next st2 h =>
        rw [h] at hadmit
        have hselect := rxSelect_mram st2 c.s ch { c with inst := (chOf st1 c.s ch).inst } (secTagAt p c.bytes)
          (rxSci st c.s c.k (secTagAt p c.bytes) c.bytes)
        split
        next h =>
          rw [h] at hselect
          exact hselect.trans (hadmit.trans hchan)
        next h =>
          rw [h] at hselect
          exact (modSl_mram ..).trans ((pcEvent_mram ..).trans (hselect.trans (hadmit.trans hchan)))

@[simp] theorem untaggedIn_mram (st : State) (c : Pkt) (p : Parse) : (untaggedIn st c p).mram = st.mram := by
  have hadmit := (admitInst_mram (bumpLp st c.s c.k (if portStrict st c.s c.k then 1 else 0)) c.s c.inst
    c.bytes).trans (bumpLp_mram ..)
  unfold untaggedIn
  dsimp only
  split
  next h => rwa [h] at hadmit
  next h =>
    rw [h] at hadmit
    exact (verifyParsed_mram ..).trans hadmit

@[simp] theorem lineIn_mram (st : State) (s : SliceId) (k : PortIx) (bs : Bytes) :
    (lineIn st s k bs).mram = st.mram := by
  simp only [lineIn, bumpLp_mram, arrive_mram, parserEntry_mram, secTagIn_mram, untaggedIn_mram, ite_mram, ite_self]

@[simp] theorem releaseRx_mram (s : SliceId) (k : PortIx) (st : State) (y : HeldFrame) :
    (releaseRx s k st y).mram = st.mram := by
  unfold releaseRx
  split <;> simp only [lineIn_mram, ite_mram, ite_self]

@[simp] theorem learnFrom_mram (st : State) (c : Pkt) (p : Parse) (ch : ChIx) :
    (learnFrom st c p ch).mram = st.mram := by
  unfold learnFrom
  split <;> simp only [queueLearn_mram, ite_mram, ite_self]

@[simp] theorem secondPass_mram (st : State) (s : SliceId) (v : VFrame) (bs : Bytes) :
    (secondPass st s v bs).mram = st.mram := by
  simp only [secondPass, verifyParsed_mram, learnFrom_mram, prsCount_mram]

/-! ### External memory in service (14) -/

@[simp] theorem suspect_mram (st : State) (p : Nat) (rank : Bool) (pos : Nat) :
    (suspect st p rank pos).mram = st.mram := by
  simp only [suspect, modMee_mram, raise_mram, count_mram, ite_mram, ite_self]

@[simp] theorem corrected_mram (p : Nat) (rank patrol : Bool) (st : State) (pos : Nat) :
    (corrected p rank patrol st pos).mram = st.mram := by
  simp only [corrected, count_mram, wr_mram, suspect_mram]

theorem readBurst_mram {st st' : State} {p : Nat} {rank patrol : Bool} {errs : List BeatErr} {b : Bytes}
    (h : readBurst st p rank patrol errs = .ok (b, st')) : st'.mram = st.mram := by
  unfold readBurst at h
  split at h
  next => cases h
  next =>
    cases h
    simp only [ite_mram, modMee_mram, ite_self]
    exact foldl_mram (corrected_mram p rank patrol) _ st

@[simp] theorem meeRelease_mram (st : State) (p : Nat) (bs : Bytes) : (meeRelease st p bs).mram = st.mram := by
  simp only [meeRelease, count_mram, modMee_mram, ite_mram, ite_self]

theorem tagsOk_mram {st st' : State} {k : Nat} {b : Bytes} (h : tagsOk st k b = .ok st') : st'.mram = st.mram := by
  unfold tagsOk at h
  split at h
  next => cases h
  next hctr =>
    split at h
    · cases h
      exact fetchCtr_mram hctr
    · cases h

theorem patrolCtr_mram {st st' : State} {p : Nat} (h : patrolCtr st p = .ok st') : st'.mram = st.mram := by
  unfold patrolCtr at h
  split at h
  next => exact fetchCtr_mram h
  next => exact fetchCtr_mram h
  next => cases h; rfl

@[simp] theorem dramWrite_mram (st : State) (p : Nat) (b : Bytes) : (dramWrite st p b).mram = st.mram := (rfl)

theorem writeData_mram {st st' : State} {i : Nat} {w : WbLine} (h : writeData st i w = .ok st') :
    st'.mram = st.mram := by
  unfold writeData at h
  split at h
  next => cases h
  next hctr =>
    dsimp only at h
    split at h
    · cases h
    · split at h
      next => cases h
      next =>
        cases h
        simp only [ite_mram, count_mram, modMee_mram, dramWrite_mram, setCtr_mram, fetchCtr_mram hctr, ite_self]

theorem writeNode_mram {st st' : State} {l n : Nat} {x : NodeLine} (h : writeNode st l n x = .ok st') :
    st'.mram = st.mram := by
  unfold writeNode at h
  split at h
  next => cases h
  next hctr =>
    dsimp only at h
    split at h
    · cases h
    · cases h
      simp only [modMee_mram, dramWrite_mram, setCtr_mram, fetchCtr_mram hctr]

@[simp] theorem arcDone_mram (w : Word) (code : Nat) (st : State) : (arcDone w code st).mram = st.mram := (rfl)

@[simp] theorem arcPark_mram (w : Word) (st : State) : (arcPark w st).mram = st.mram := by
  simp only [arcPark, slotCheck_mram, boundary_mram, pickCode_mram, arcDone_mram, arcPut_mram, count_mram,
    slotEmpty_mram, ite_mram, ite_self]

@[simp] theorem arcLoad_mram (w : Word) (st : State) : (arcLoad w st).mram = st.mram := by
  have hinstall {st : State} {s : SliceId} {ch : ChIx} {an : An} {key : Bytes} {salt : BitVec 96} {ssci : Word}
      {req : Nat} :
      (startInstall st 2 1 s ch an key salt ssci req false false 0
        (fun st => cmdBusy st Reg.meeArcCmd Fld.meeArcCmd_OP w)
        (fun st => arcDone w 6 (setF st Reg.meeArcStat Fld.meeArcStat_SAE_RESULT 12))).mram = st.mram :=
    startInstall_mram (fun _ => cmdBusy_mram ..) fun _ => (arcDone_mram ..).trans (setF_mram ..)
  unfold arcLoad
  extract_lets s ch an st0
  have hst0 : st0.mram = st.mram := by
    simp only [st0, ite_mram, slotCheck_mram, boundary_mram, ite_self]
  dsimp only
  split
  next => simp only [arcDone_mram, pickCode_mram, hst0]
  next => simp only [ite_mram, hinstall, arcDone_mram, stateRecord_mram, setF_mram, pickCode_mram, ite_self, hst0]

@[simp] theorem arcRead_mram (w : Word) (st : State) : (arcRead w st).mram = st.mram := by
  simp only [arcRead]
  split <;> simp only [pickCode_mram, arcDone_mram, wr_mram, ite_mram, ite_self]

@[simp] theorem arcDelete_mram (w : Word) (st : State) : (arcDelete w st).mram = st.mram := by
  simp only [arcDelete, pickCode_mram, arcDone_mram, arcFree_mram, ite_mram, ite_self]

@[simp] theorem arcCmd_mram (w : Word) (st : State) : (arcCmd w st).mram = st.mram := by
  unfold arcCmd
  split <;> simp only [arcPark_mram, arcLoad_mram, arcRead_mram, arcDelete_mram, arcDone_mram]

@[simp] theorem arcSelect_mram (s : SliceId) (ch : ChIx) (an : An) (st : State) :
    (arcSelect s ch an st).mram = st.mram :=
  viaPF_mram _ _ _ _ (wr_mram ..)

@[simp] theorem cellScrub_mram (st : State) (s : SliceId) (ix : Nat) : (cellScrub st s ix).mram = st.mram := by
  unfold cellScrub
  split <;> simp only [modSl_mram, sramUe_mram]

@[simp] theorem scrubCe_mram (code : Fin 14) (s : SliceId) (st : State) : (scrubCe code s st).mram = st.mram := by
  unfold scrubCe
  split <;> rfl

/-! ### Tamper unit and log (15) -/

@[simp] theorem modSrc_mram (st : State) (n : Fin 30) (f : TmpSrc → TmpSrc) : (modSrc st n f).mram = st.mram :=
  (rfl)

@[simp] theorem tripped_mram (st : State) (n : Fin 30) (resp : Fin 4) (items : List Nat) :
    (tripped st n resp items).2.mram = st.mram := by
  unfold tripped
  repeat' split
  all_goals simp only [count_mram, modSrc_mram]

@[simp] theorem rated_mram (st : State) (a : Alarm) : (rated st a).2.mram = st.mram := by
  simp only [rated]
  repeat' split
  all_goals simp only [count_mram, modSrc_mram]

@[simp] theorem squelch_mram (st : State) (g : List Alarm) : (squelch st g).mram = st.mram := by
  simp only [squelch, modSrc_mram, modTmp_mram, enterUmber_mram, twinSquelch_mram, foldl_mram, implies_true,
    ite_mram, ite_self]

@[simp] theorem tamperHalt_mram (st : State) (g : List Alarm) (zero : Bool) :
    (tamperHalt st g zero).mram = st.mram := by
  simp only [tamperHalt, haltCore_mram, modTmp_mram, ite_mram, ite_self]

@[simp] theorem trips_mram (st : State) (srcs : List (Fin 30 × Fin 4 × List Nat)) :
    (trips st srcs).2.mram = st.mram := by
  unfold trips
  refine foldl_snd_mram (fun p n => ?_) fins30 ([], st)
  split
  · rfl
  next x _ =>
    have htrip := tripped_mram p.2 n x.2.1 x.2.2
    split
    all_goals
      next h =>
        rw [h] at htrip
        exact htrip

@[simp] theorem detReport_mram (st : State) (n : Fin 30) (d : Fin 3) : (detReport st n d).mram = st.mram := by
  simp only [detReport, modSrc_mram, ite_mram, ite_self]

@[simp] theorem zeroKeys_mram (st : State) : (zeroKeys st).mram = st.mram := by
  unfold zeroKeys
  refine (modMee_mram ..).trans ((modTwin_mram ..).trans ((foldl_mram clearSaeKey_mram slices4 _).trans ?_))
  exact (foldl_mram (fun _ _ => (wr_mram ..).trans (wr_mram ..)) _ _).trans (modJnl_mram ..)

@[simp] theorem tmpRespSet_mram (hi : Bool) (v : Word) (st : State) : (tmpRespSet hi v st).mram = st.mram := (rfl)

@[simp] theorem tmpResult_mram (code : Nat) (st : State) : (tmpResult code st).mram = st.mram := (rfl)

@[simp] theorem evlDone_mram (w : Word) (code : Nat) (st : State) : (evlDone w code st).mram = st.mram := (rfl)

@[simp] theorem armRecorded_mram (st : State) (r : LogRec) : (armRecorded st r).mram = st.mram := by
  unfold armRecorded
  split <;> simp only [modCtfLane_mram, modPort_mram, ite_mram, ite_self]

@[simp] theorem evlRead_mram (w : Word) (st : State) : (evlRead w st).mram = st.mram := by
  simp only [evlRead, evlDone_mram, foldl_wr_mram, ite_mram, ite_self]

@[simp] theorem evlVerify_mram (w : Word) (st : State) : (evlVerify w st).mram = st.mram := by
  simp only [evlVerify, evlDone_mram, wr_mram, ite_mram, ite_self]

/-! ### Image, start-up and resets (16, 17) -/

@[simp] theorem drawSeeds_mram (st : State) : (drawSeeds st).mram = st.mram := by
  simp only [drawSeeds, draw_mram, modTmp_mram, foldl_mram, implies_true]

@[simp] theorem requestRails_mram (st : State) : (requestRails st).mram = st.mram := by
  simp only [requestRails, emit_mram, foldl_mram, implies_true, ite_mram, ite_self]

@[simp] theorem modImgSl_mram (st : State) (s : SliceId) (q : SliceState) : (modImgSl st s q).mram = st.mram :=
  (rfl)

@[simp] theorem startEngines_mram (st : State) (s : SliceId) : (startEngines st s).mram = st.mram := (rfl)

@[simp] theorem startSlice_mram (st : State) (s : SliceId) : (startSlice st s).mram = st.mram := by
  simp only [startSlice, startAges_mram, startEngines_mram, startLanes_mram]

@[simp] theorem loadImage_mram (src : Fin 4) (img : ImageSrc) (st : State) :
    (loadImage src img st).mram = st.mram := by
  simp only [loadImage, modImg_mram, modTmp_mram, startSlice_mram, modTwin_mram, foldl_mram, implies_true, ite_mram,
    ite_self]

@[simp] theorem sourceTry_mram (st : State) : (sourceTry st).mram = st.mram := by
  unfold sourceTry
  repeat' split
  all_goals simp only [modImg_mram, loadImage_mram, raise_mram, ite_mram, ite_self]

@[simp] theorem imgDone_mram (w : Word) (code : Nat) (st : State) : (imgDone w code st).mram = st.mram := (rfl)

@[simp] theorem imgChecked_mram (w : Word) (code check : Nat) (st : State) :
    (imgChecked w code check st).mram = st.mram :=
  (rfl)

@[simp] theorem imgDownload_mram (w : Word) (st : State) : (imgDownload w st).mram = st.mram := by
  simp only [imgDownload, pickCode_mram, imgDone_mram, modImg_mram, imgChecked_mram, loadImage_mram, ite_mram,
    ite_self]

@[simp] theorem mramCmd_mram (w : Word) (eff : State → State) (st : State) (heff : (eff st).mram = st.mram) :
    (mramCmd w eff st).mram = st.mram := by
  simp only [mramCmd, cmdBusy_mram, heff, ite_mram, ite_self]

@[simp] theorem imgStage_mram (w : Word) (st : State) : (imgStage w st).mram = st.mram := by
  simp only [imgStage, pickCode_mram, imgDone_mram, mramCmd_mram, imgChecked_mram, ite_mram, ite_self]

@[simp] theorem imgAdvance_mram (w : Word) (st : State) : (imgAdvance w st).mram = st.mram := (rfl)

@[simp] theorem imgAddKeys_mram (w : Word) (st : State) : (imgAddKeys w st).mram = st.mram := (rfl)

@[simp] theorem imgRevoke_mram (w : Word) (st : State) : (imgRevoke w st).mram = st.mram := by
  simp only [imgRevoke, imgDone_mram, ite_mram, ite_self]

@[simp] theorem putImage_mram (part : Bool) (img : ImageSrc) (st : State) :
    (putImage part img st).mram = st.mram :=
  (rfl)

@[simp] theorem withImage_mram (part : Bool) (img : ImageSrc) (st : State) :
    (withImage part img st).mram = st.mram := by
  simp only [withImage, putImage_mram, modTwin_mram, ite_mram, ite_self]

@[simp] theorem sliceDone_mram (w : Word) (code : Nat) (st : State) : (sliceDone w code st).mram = st.mram := (rfl)

@[simp] theorem flushSlice_mram (st : State) (s : SliceId) : (flushSlice st s).mram = st.mram := (rfl)

@[simp] theorem sliceDrain_mram (s : SliceId) (w : Word) (st : State) : (sliceDrain s w st).mram = st.mram := by
  simp only [sliceDrain, sliceDone_mram, modImg_mram, modImgSl_mram, flushSlice_mram, ite_mram, ite_self]

@[simp] theorem sliceDrained_mram (st : State) (s : SliceId) : (sliceDrained st s).mram = st.mram := by
  simp only [sliceDrained, modSl_mram, modImgSl_mram, ite_mram, ite_self]

@[simp] theorem sliceLoad_mram (s : SliceId) (w : Word) (st : State) : (sliceLoad s w st).mram = st.mram := by
  simp only [sliceLoad, pickCode_mram, sliceDone_mram, modImg_mram, cmdBusy_mram, ite_mram, ite_self]

@[simp] theorem dropSliceUses_mram (st : State) (s : SliceId) : (dropSliceUses st s).mram = st.mram := by
  unfold dropSliceUses
  refine (foldl_mram (fun st u => ?_) _ _).trans (dropUse_mram ..)
  split
  all_goals simp only [ite_mram, installRefused_mram, ite_self]

@[simp] theorem sliceReset_mram (st : State) (s : SliceId) : (sliceReset st s).mram = st.mram := by
  simp only [sliceReset, dropSliceUses_mram, slotEmpty_mram, releasePos_mram, modPmu_mram, modSl_mram, foldl_mram,
    implies_true]

@[simp] theorem sliceResume_mram (s : SliceId) (w : Word) (st : State) : (sliceResume s w st).mram = st.mram := by
  unfold sliceResume
  split <;> simp only [sliceDone_mram, enablePorts_mram, modImgSl_mram]

@[simp] theorem sliceCmd_mram (w : Word) (st : State) : (sliceCmd w st).mram = st.mram := by
  unfold sliceCmd
  split <;> simp only [sliceDrain_mram, sliceLoad_mram, sliceResume_mram, sliceDone_mram]

@[simp] theorem slicePF_mram (w : Word) (st : State) : (slicePF w st).mram = st.mram := by
  simp only [slicePF, cmdPF_mram, sliceCmd_mram]

/-! ### Fault injectors (02) -/

@[simp] theorem modFi_mram (st : State) (s : SliceId) (k : PortIx) (f : FiSt → FiSt) :
    (modFi st s k f).mram = st.mram :=
  (rfl)

@[simp] theorem disarmRelease_mram (s : SliceId) (k : PortIx) (st : State) (h : HeldFrame) :
    (disarmRelease s k st h).mram = st.mram := by
  unfold disarmRelease
  split <;> simp only [enqueue_mram, releaseRx_mram]

/-! ### The launch calendar (11) -/

@[simp] theorem safSet_mram (st : State) (n : Nat) (f : SafFrame) : (safSet st n f).mram = st.mram := (rfl)

@[simp] theorem safRemove_mram (st : State) (n : Nat) : (safRemove st n).mram = st.mram := (rfl)

@[simp] theorem safClassified_mram (st : State) (n : Nat) (f : SafFrame) (c : Pkt) (p : Parse) :
    (safClassified st n f c p).mram = st.mram := by
  have hcls := (classifyPkt_mram (countParse st c p) c p).trans (countParse_mram st c p)
  unfold safClassified
  extract_lets st0
  split
  next => exact (malAction_mram ..).trans ((noteMal_mram ..).trans ((safRemove_mram ..).trans (countParse_mram ..)))
  next =>
    change (classifyPkt st0 c p).2.mram = st.mram at hcls
    generalize classifyPkt st0 c p = q at hcls ⊢
    obtain ⟨r, st1⟩ := q
    dsimp only
    cases r.dec
    case channel => exact (safSet_mram ..).trans hcls
    case bypass =>
      cases c.outPort
      · exact (safRemove_mram ..).trans hcls
      · exact (safSet_mram ..).trans hcls
    case timestamp =>
      cases c.outPort
      · exact (safRemove_mram ..).trans hcls
      · exact (safSet_mram ..).trans hcls
    all_goals exact (doProtect_mram ..).trans ((safRemove_mram ..).trans hcls)

/-! ### Host interface (18) -/

@[simp] theorem modEvt_mram (st : State) (j : Fin 4) (f : EvtRing → EvtRing) : (modEvt st j f).mram = st.mram :=
  (rfl)

@[simp] theorem evtCfgWrite_mram (j : Fin 4) (v : Word) (st : State) : (evtCfgWrite j v st).mram = st.mram := by
  simp only [evtCfgWrite, modEvt_mram, wr_mram, evtRecover_mram, ite_mram, ite_self]

@[simp] theorem evtHeadWrite_mram (j : Fin 4) (v : Word) (st : State) : (evtHeadWrite j v st).mram = st.mram := by
  simp only [evtHeadWrite, evtRecover_mram, modEvt_mram]

@[simp] theorem ringStart_mram (i : InstId) (r : Fin 16) (st : State) : (ringStart i r st).mram = st.mram := by
  simp only [ringStart, modRing_mram, ite_mram, ite_self]

@[simp] theorem ringStop_mram (i : InstId) (r : Fin 16) (st : State) : (ringStop i r st).mram = st.mram := (rfl)

@[simp] theorem ringCtlWrite_mram (i : InstId) (r : Fin 16) (v : Word) (st : State) :
    (ringCtlWrite i r v st).mram = st.mram := by
  simp only [ringCtlWrite, ringStart_mram, ringStop_mram, ite_mram, ite_self]

@[simp] theorem viaFn_mram (i : InstId) (a : Nat) (v : Word) (eff : State → State) (st : State)
    (heff : (eff st).mram = st.mram) : (viaFn i a v eff st).mram = st.mram := by
  simp only [viaFn, viaPF_mram, heff, ite_mram, ite_self]

@[simp] theorem injComplete_mram (st : State) (i : InstId) (r : Fin 16) (x : InjDesc) (code : Nat) :
    (injComplete st i r x code).mram = st.mram := by
  simp only [injComplete, digHost_mram, bumpVf_mram, count_mram, fireRing_mram, ringAdvance_mram, dma_mram,
    ite_mram, ite_self]

@[simp] theorem setHand_mram (st : State) (i : InstId) (r : Fin 16) (h : Option InjHand) :
    (setHand st i r h).mram = st.mram :=
  (rfl)

@[simp] theorem injRefuse_mram (st : State) (i : InstId) (r : Fin 16) (x : InjDesc) (code : Nat) :
    (injRefuse st i r x code).mram = st.mram := by
  simp only [injRefuse, count_mram, injComplete_mram, setHand_mram, ite_mram, ite_self]

@[simp] theorem safStore_mram (st : State) (g : SafFrame) : (safStore st g).mram = st.mram := by
  unfold safStore
  exact (foldl_mram (fun _ _ => meeWrite_mram ..) _ _).trans (meeWrite_mram ..)

@[simp] theorem safAccept_mram (st : State) (i : InstId) (r : Fin 16) (x : InjDesc) (f : Bytes) :
    (safAccept st i r x f).mram = st.mram := by
  simp only [safAccept, injRefuse_mram, count_mram, safStore_mram, injComplete_mram, setHand_mram, ite_mram,
    ite_self]

@[simp] theorem injEnter_mram (st : State) (x : InjDesc) (f : Bytes) : (injEnter st x f).mram = st.mram := by
  simp only [injEnter, arrive_mram, fcDrop_mram, parserEntry_mram, instDrop_mram, settle_mram, protectParsed_mram,
    pcEvent_mram, ite_mram, ite_self]

@[simp] theorem injCopied_mram (st : State) (i : InstId) (r : Fin 16) (x : InjDesc) (f : Bytes) :
    (injCopied st i r x f).mram = st.mram := by
  simp only [injCopied, injEnter_mram, injComplete_mram, setHand_mram]

@[simp] theorem injJudge_mram (i : InstId) (r : Fin 16) (x : InjDesc) (f : Bytes) (ns : Word) (copy : Bool)
    (st : State) : (injJudge i r x f ns copy st).mram = st.mram := by
  simp only [injJudge, injRefuse_mram, setHand_mram, safAccept_mram, injCopied_mram, ite_mram, ite_self]

@[simp] theorem pfFlr_mram (st : State) : (pfFlr st).mram = st.mram := (rfl)

/-! ### The twin unit (12) -/

@[simp] theorem twnBusy_mram (w : Word) (st : State) : (twnBusy w st).mram = st.mram := (rfl)

@[simp] theorem toSyncing_mram (st : State) : (toSyncing st).mram = st.mram := (rfl)

@[simp] theorem toAlone_mram (st : State) : (toAlone st).mram = st.mram := by
  simp only [toAlone, modTwin_mram, dropSwitch_mram]

@[simp] theorem claim_mram (w : Word) (st : State) : (claim w st).mram = st.mram := by
  simp only [claim, pickCode_mram, twnDone_mram, twnBusy_mram, modTwin_mram, ite_mram, ite_self]

@[simp] theorem claimExpire_mram (st : State) : (claimExpire st).mram = st.mram := by
  unfold claimExpire
  split <;> simp only [twnEnd_mram, modTwin_mram, ite_mram, ite_self]

@[simp] theorem twinSwitch_mram (w : Word) (st : State) : (twinSwitch w st).mram = st.mram := by
  simp only [twinSwitch, pickCode_mram, twnDone_mram, twnBusy_mram, modTwin_mram, ite_mram, ite_self]

@[simp] theorem leave_mram (w : Word) (st : State) : (leave w st).mram = st.mram := by
  simp only [leave, pickCode_mram, twnDone_mram, toStart_mram, ite_mram, ite_self]

@[simp] theorem sendHello_mram (st : State) : (sendHello st).mram = st.mram := (rfl)

@[simp] theorem keySession_mram (st : State) (n : Node) (h : Hello) : (keySession st n h).mram = st.mram := (rfl)

@[simp] theorem freshRand_mram (st : State) : (freshRand st).mram = st.mram := (rfl)

@[simp] theorem join_mram (w : Word) (st : State) : (join w st).mram = st.mram := by
  simp only [join, nodeCheck_mram, pickCode_mram, modTwin_mram, twnDone_mram, ite_mram]
  repeat' split
  all_goals simp only [nodeCheck_mram, pickCode_mram, modTwin_mram, twnDone_mram, sendHello_mram, toSyncing_mram,
    keySession_mram, freshRand_mram, endSession_mram, twnBusy_mram]

@[simp] theorem joinExpire_mram (st : State) : (joinExpire st).mram = st.mram := by
  unfold joinExpire
  split <;> simp only [twnEnd_mram, modTwin_mram, ite_mram, ite_self]

@[simp] theorem twnCmd_mram (w : Word) (st : State) : (twnCmd w st).mram = st.mram := by
  unfold twnCmd
  split <;> simp only [claim_mram, join_mram, twinSwitch_mram, leave_mram, twnDone_mram]

@[simp] theorem twnPF_mram (op : Nat) (st : State) : (twnPF op st).mram = st.mram := by
  simp only [twnPF, cmdPF_mram, twnCmd_mram]

@[simp] theorem yieldTie_mram (st : State) : (yieldTie st).mram = st.mram := by
  simp only [yieldTie, raise_mram, toStart_mram, releaseOwn_mram, twnEnd_mram, ite_mram, ite_self]

@[simp] theorem beginSwitch_mram (st : State) : (beginSwitch st).mram = st.mram := (rfl)

@[simp] theorem ownReleased_mram (st : State) : (ownReleased st).mram = st.mram := by
  simp only [ownReleased, count_mram, beginSwitch_mram, modTwin_mram, ite_mram, ite_self]

@[simp] theorem restampAges_mram (st : State) : (restampAges st).mram = st.mram := (rfl)

@[simp] theorem takeOver_mram (st : State) : (takeOver st).mram = st.mram := (rfl)

@[simp] theorem linkLost_mram (st : State) : (linkLost st).mram = st.mram := raise_mram ..

@[simp] theorem handOver_mram (st : State) : (handOver st).mram = st.mram := by
  simp only [handOver, beginSwitch_mram, toStart_mram, releaseOwn_mram]

@[simp] theorem healthCheck_mram (st : State) : (healthCheck st).mram = st.mram := by
  unfold healthCheck
  split <;> simp only [toAlone_mram, raise_mram, handOver_mram, toSyncing_mram, ite_mram, ite_self]

/-! ### Power, clocks and hold-up (17) -/

@[simp] theorem modAvs_mram (st : State) (s : SliceId) (f : AvsSt → AvsSt) : (modAvs st s f).mram = st.mram := (rfl)

@[simp] theorem avsRequest_mram (st : State) (s : SliceId) (mv : Nat) (ack : Bool) :
    (avsRequest st s mv ack).mram = st.mram := by
  simp only [avsRequest, emit_mram, modAvs_mram, raise_mram, count_mram, ite_mram, ite_self]

@[simp] theorem modPool_mram (st : State) (s : SliceId) (d : Side) (f : PoolSt → PoolSt) :
    (modPool st s d f).mram = st.mram :=
  (rfl)

@[simp] theorem engFailed_mram (st : State) (s : SliceId) (d : Side) : (engFailed st s d).mram = st.mram := by
  simp only [engFailed, modPool_mram, raise_mram, modTwin_mram, ite_mram, ite_self]

@[simp] theorem rstDone_mram (w : Word) (code : Nat) (st : State) : (rstDone w code st).mram = st.mram := (rfl)

@[simp] theorem jnlClose_mram (st : State) : (jnlClose st).mram = st.mram := by
  unfold jnlClose
  refine (foldl_mram (fun st u => ?_) _ _).trans (modJnl_mram ..)
  split
  all_goals simp only [installRefused_mram, pnjEnd_mram]

/-! ### Indigo messages (12) -/

@[simp] theorem takeMsg_mram (type : Nat) (m : MsgHdr) (items : List Nat) (st : State) :
    (takeMsg type m items st).2.mram = st.mram := by
  simp only [takeMsg]
  repeat' split
  all_goals simp only [count_mram, modTwin_mram]

@[simp] theorem startStream_mram (st : State) : (startStream st).mram = st.mram := (rfl)

@[simp] theorem streamCut_mram (st : State) : (streamCut st).mram = st.mram := by
  simp only [streamCut, modTwin_mram, ite_mram, ite_self]

@[simp] theorem streamStage_mram (st : State) (items : List Nat) : (streamStage st items).mram = st.mram :=
  capStage_mram ..

@[simp] theorem streamMismatch_mram (st : State) : (streamMismatch st).mram = st.mram := by
  simp only [streamMismatch, modTwin_mram, toStart_mram]

@[simp] theorem streamNode_mram (st : State) (n : Nat) (r : Node) : (streamNode st n r).mram = st.mram := by
  simp only [streamNode]
  split <;> simp only [streamMismatch_mram, putNode_mram, ite_mram, ite_self]

@[simp] theorem streamSlot_mram (st : State) (s : SliceId) (ch : ChIx) (an : An) (r : Slot) (wrapped : Bytes) :
    (streamSlot st s ch an r wrapped).mram = st.mram := by
  unfold streamSlot
  split <;> rfl

@[simp] theorem streamSetTrib_mram (st : State) (s : SliceId) (t : Nat) (x : TribSt) (ws : List Bytes) :
    (streamSetTrib st s t x ws).mram = st.mram :=
  (rfl)

@[simp] theorem adoptRec_mram (st : State) (r : JReq) : (adoptRec st r).mram = st.mram := by
  unfold adoptRec
  repeat' split
  all_goals simp only [jnlRequest_mram, evict_mram, toStart_mram]

@[simp] theorem streamMark_mram (st : State) (s : SliceId) (m : MarkOf) (res want : Nat) :
    (streamMark st s m res want).mram = st.mram := by
  unfold streamMark
  repeat' split
  all_goals simp only [modSlot_mram, adoptRec_mram, reserveSlot_mram, modPos_mram, reserveTrib_mram]

@[simp] theorem adoptTime_mram (now : BitVec 64) (el : BitVec 96) (n : Nat) (st : State) :
    (adoptTime now el n st).mram = st.mram := by
  simp only [adoptTime, restartMs_mram, modTsu_mram, modTwin_mram, bwRestart_mram, modPmu_mram, modCtf_mram,
    foldl_mram, implies_true]

@[simp] theorem applyItem_mram (st : State) (y : CapItem) : (applyItem st y).mram = st.mram := by
  simp only [applyItem]
  repeat' split
  all_goals simp only [storePlain_mram, wrA_mram, modSl_mram, modInst_mram, modCtf_mram, modRules_mram, modCh_mram,
    modHash_mram, streamNode_mram, modMac_mram, modLpm_mram, arcPut_mram, modTwin_mram, streamSlot_mram,
    streamSetTrib_mram, streamMark_mram, modPort_mram, modTrib_mram, modCtfLane_mram, adoptTime_mram, modTmp_mram,
    modTimer_mram, modImg_mram, modPmu_mram, modGlb_mram, putImage_mram]

@[simp] theorem lateFor_mram (e : Nat) (st : State) : (lateFor e st).mram = st.mram := by
  simp only [lateFor, toSyncing_mram, ite_mram, ite_self]

@[simp] theorem capsule_mram (e : Nat) (xs : List CapItem) (st : State) : (capsule e xs st).mram = st.mram := by
  simp only [capsule, streamStage_mram, lateFor_mram, applyItem_mram, foldl_mram, implies_true, ite_mram, ite_self]

@[simp] theorem heartbeat_mram (e : Nat) (q : TwinState) (st : State) : (heartbeat e q st).mram = st.mram := by
  simp only [heartbeat]
  split <;> simp only [modTwin_mram, toAlone_mram, toStart_mram, startStream_mram, ite_mram, ite_self]

@[simp] theorem stepTicks_mram (n ticks : Nat) (st : State) : (stepTicks n ticks st).mram = st.mram := by
  simp only [stepTicks, modTwin_mram, modTsu_mram, ite_mram, ite_self]

@[simp] theorem learned_mram (e : Nat) (s : SliceId) (cs : List MacChange) (st : State) :
    (learned e s cs st).mram = st.mram := by
  simp only [learned, lateFor_mram, modTwin_mram, ite_mram, ite_self]

@[simp] theorem mirror_mram (ws : List MirWrite) (st : State) : (mirror ws st).mram = st.mram := by
  simp only [mirror, lateFor_mram, modTwin_mram, foldl_mram, implies_true, ite_mram, ite_self]

@[simp] theorem followTime_mram (now : BitVec 64) (st : State) : (followTime now st).mram = st.mram := by
  simp only [followTime, modTwin_mram, modTsu_mram, ite_mram, ite_self]

@[simp] theorem resend_mram (missing : List Nat) (st : State) : (resend missing st).mram = st.mram := by
  unfold resend
  refine foldl_mram (fun st n => ?_) missing st
  split
  · exact (count_mram ..).trans (emit_mram ..)
  · rfl

/-! ### Time base (11) -/

@[simp] theorem slewEnd_mram (st : State) : (slewEnd st).mram = st.mram := by
  simp only [slewEnd, raise_mram, modTsu_mram]

@[simp] theorem wrapped_mram (st : State) : (wrapped st).mram = st.mram := by
  simp only [wrapped, raise_mram, count_mram]

@[simp] theorem advanceNow_mram (st : State) (inc : BitVec 64) : (advanceNow st inc).mram = st.mram := by
  simp only [advanceNow, modTsu_mram, wrapped_mram, ite_mram, ite_self]

@[simp] theorem advanceElapsed_mram (st : State) : (advanceElapsed st).mram = st.mram := by
  unfold advanceElapsed
  exact modTsu_mram ..

@[simp] theorem tickNow_mram (st : State) : (tickNow st).mram = st.mram := by
  unfold tickNow
  split <;> simp only [slewEnd_mram, modTsu_mram, advanceNow_mram, ite_mram, ite_self]

@[simp] theorem ppsLatch_mram (st : State) : (ppsLatch st).mram = st.mram := by
  simp only [ppsLatch, raise_mram, modTsu_mram, ite_mram, ite_self]

@[simp] theorem tick_mram (st : State) : (tick st).mram = st.mram := by
  simp only [tick, pcClocks_mram, ppsLatch_mram, tickNow_mram, advanceElapsed_mram, foldl_mram, implies_true]

@[simp] theorem clearSchedule_mram (st : State) : (clearSchedule st).mram = st.mram := by
  simp only [clearSchedule, countN_mram, raise_mram, modTimer_mram, foldl_mram, implies_true, ite_mram, ite_self]

@[simp] theorem doStep_mram (mode force : Bool) (st : State) : (doStep mode force st).2.mram = st.mram := by
  unfold doStep
  split <;> simp only [clearSchedule_mram, modTsu_mram, ite_mram, ite_self]

@[simp] theorem doSlew_mram (st : State) : (doSlew st).2.mram = st.mram := by
  simp only [doSlew]
  repeat' split
  all_goals simp only [modTsu_mram]

@[simp] theorem doAbort_mram (st : State) : (doAbort st).2.mram = st.mram := by
  simp only [doAbort, modTsu_mram, ite_mram, ite_self]

@[simp] theorem tsuCmd_mram (w : Word) (st : State) : (tsuCmd w st).mram = st.mram := by
  unfold tsuCmd
  repeat' split
  all_goals simp only [wr_mram, doStep_mram, doSlew_mram, doAbort_mram]

@[simp] theorem tsuCmdPF_mram (w : Word) (st : State) : (tsuCmdPF w st).mram = st.mram := by
  simp only [tsuCmdPF, setF_mram, viaPF_mram, tsuCmd_mram, ite_mram, ite_self]

/-! ### The register file (18) -/

@[simp] theorem glbUpdateTake_mram (mask : Word) (st : State) : (glbUpdateTake mask st).mram = st.mram := by
  simp only [glbUpdateTake, setF_mram, modGlb_mram, ite_mram, ite_self]

@[simp] theorem rcpApply_mram (st : State) (s : SliceId) (p a : Nat) (v : Word) :
    (rcpApply st s p a v).mram = st.mram := by
  simp only [rcpApply, raise_mram, wrA_mram, ite_mram, ite_self]

@[simp] theorem applyReg_mram (st : State) (taken : NMap Word) (a : Nat) (v : Word) :
    (applyReg st taken a v).mram = st.mram := by
  unfold applyReg
  repeat' split
  all_goals simp only [wrA_mram, rcpApply_mram, modPc_mram]

@[simp] theorem afterUpdate_mram (old : State) (mask : Word) (st : State) :
    (afterUpdate old mask st).mram = st.mram := by
  simp only [afterUpdate, bwRestart_mram, modPmu_mram, ppsSettle_mram, freezeLoops_mram, settle_mram, foldl_mram,
    implies_true, ite_mram, ite_self]

@[simp] theorem updateApply_mram (st : State) : (updateApply st).mram = st.mram := by
  unfold updateApply
  split <;> simp only [modGlb_mram, keepHeadroom_mram, applyReg_mram, raise_mram, afterUpdate_mram, foldl_mram,
    implies_true, ite_mram, ite_self]

@[simp] theorem ringRegWrite_mram (i : InstId) (r : Fin 16) (a : Nat) (v : Word) (st : State) :
    (ringRegWrite i r a v st).mram = st.mram := by
  simp only [ringRegWrite, storePlain_mram, ite_mram, ite_self]

@[simp] theorem vfWrite_mram (i : InstId) (o : Nat) (v : Word) (st : State) : (vfWrite i o v st).mram = st.mram := by
  simp only [vfWrite, doorbell_mram, vfScCmd_mram, wr_mram, ite_mram, ite_self]
  repeat' split
  all_goals simp only [ringCtlWrite_mram, ringRegWrite_mram, storePlain_mram]

/-! ### The start of a step epoch (12) -/

@[simp] theorem applyReservations_mram (st : State) : (applyReservations st).mram = st.mram := by
  simp only [applyReservations, applyRes_mram, modJnl_mram, foldl_mram, implies_true]

@[simp] theorem releaseHeld_mram (st : State) : (releaseHeld st).mram = st.mram := (rfl)

@[simp] theorem switchNow_mram (st : State) : (switchNow st).mram = st.mram := by
  simp only [switchNow, twnEnd_mram, beginSwitch_mram, modTwin_mram, releaseOwn_mram, ite_mram, ite_self]

@[simp] theorem setOutcome_mram (st : State) (v : Nat) : (setOutcome st v).mram = st.mram := (rfl)

@[simp] theorem diverged_mram (n : Nat) (d : Nat × Nat × Bool) (st : State) : (diverged n d st).mram = st.mram := by
  simp only [diverged, modTwin_mram, count_mram, raise_mram, ite_mram, ite_self]

@[simp] theorem matched_mram (st : State) : (matched st).mram = st.mram := by
  simp only [matched, modTwin_mram, ite_mram]
  repeat' split
  all_goals simp only [modTwin_mram]

@[simp] theorem compareEpoch_mram (st : State) (n : Nat) : (compareEpoch st n).mram = st.mram := by
  simp only [compareEpoch]
  repeat' split
  all_goals simp only [modTwin_mram, diverged_mram, matched_mram]

@[simp] theorem syncFail_mram (st : State) : (syncFail st).mram = st.mram := by
  unfold syncFail
  split <;> simp only [raise_mram, count_mram, toStart_mram, ite_mram, ite_self]

@[simp] theorem nextEpoch_mram (st : State) : (nextEpoch st).mram = st.mram := (rfl)

@[simp] theorem epochMsgs_mram (st : State) : (epochMsgs st).mram = st.mram := by
  simp only [epochMsgs, sendMsg_mram]

@[simp] theorem trimSets_mram (st : State) : (trimSets st).mram = st.mram := (rfl)

@[simp] theorem overdue_mram (st : State) : (overdue st).mram = st.mram := by
  simp only [overdue, modTwin_mram, drawFree_mram, toSyncing_mram, ite_mram, ite_self]

end Sys2Proof.Machine
end

section
/-!
PROOFS. The operations that may write the MRAM die: persistent counts, journal records, log records and the image
preference, and what reaches one of them. Each keeps the canonical form (09 R363, 15 R586).
-/
namespace Sys2Proof.Machine

/-- The MRAM die of the state is in its canonical form. -/
def MramWf (st : State) : Prop := Memory.wf st.mram = true

theorem MramWf.of_mram {st t : State} (h : MramWf st) (hm : t.mram = st.mram) : MramWf t :=
  (congrArg Memory.wf hm).trans h

theorem MramWf.ite {c : Prop} [Decidable c] {st t : State} (hs : MramWf st) (ht : MramWf t) :
    MramWf (if c then st else t) := by
  split
  · exact hs
  · exact ht

theorem MramWf.foldl {α : Type} {f : State → α → State} (hf : ∀ {st} x, MramWf st → MramWf (f st x)) (l : List α)
    {st : State} (h : MramWf st) : MramWf (l.foldl f st) :=
  List.foldlRecOn (motive := MramWf) l _ h fun _ ht x _ => hf x ht

/-- The outcome keeps the canonical form of the MRAM die that `st` has. -/
def MramSafe (st : State) (o : Out) : Prop := MramWf st → ∀ t, o = .next t → MramWf t

theorem MramSafe.of_wf {st t : State} (h : MramWf st → MramWf t) : MramSafe st (.next t) := by
  rintro hst _ ⟨⟩
  exact h hst

theorem MramSafe.of_mram {st t : State} (h : t.mram = st.mram) : MramSafe st (.next t) :=
  .of_wf fun hst => hst.of_mram h

/-! ### What writes the die: counts, records of the journal and of the log, the preference (15, 16) -/

theorem MramWf.write {st t : State} (h : MramWf st) (a : Nat) (bs : Bytes) (ht : t.mram = memWrite st.mram a bs) :
    MramWf t :=
  (congrArg Memory.wf ht).trans (memWrite_wf _ a bs h)

theorem ringWrite_wf {st : State} {p : Nat} {b : Bytes} (h : MramWf st) : MramWf (ringWrite st p b) :=
  h.write _ _ rfl

theorem logWrite_wf {st : State} {p : Nat} {b : Bytes} (h : MramWf st) : MramWf (logWrite st p b) := h.write _ _ rfl

theorem setPrefSlot_wf {st : State} {v : Bool} (h : MramWf st) : MramWf (setPrefSlot st v) := memSet_wf _ _ _ h

theorem logPut_wf {st : State} {r : LogRec} (h : MramWf st) : MramWf (logPut st r) := .ite (mramCount_wf _ _ h) h

theorem fiRecord_wf {st : State} {n : Fin 256} {u : Nat} {s : SliceId} {k : PortIx} {cfg sel : Word}
    (h : MramWf st) : MramWf (fiRecord st n u s k cfg sel) :=
  logPut_wf h

theorem carmineHalt_wf {st : State} {c : Fin 16} {code slice ix : Nat} {n : Fin 256} {d : Bytes} (h : MramWf st) :
    MramWf (carmineHalt st c code slice ix n d) :=
  .ite (logRec_wf st n d 0 h)
    (MramWf.of_mram (logRec_wf (haltCore st c code slice ix) n d 0 (h.of_mram (haltCore_mram ..)))
      (haltEvent_mram ..))

theorem viaPF_wf {st : State} {a : Nat} {w : Word} {eff : State → State} (h : MramWf st) (heff : MramWf (eff st)) :
    MramWf (viaPF a w eff st) := by
  obtain hs | hs | hs | hs := viaPF_cases st a w eff <;> rw [hs]
  · exact h
  · exact h.of_mram (pfDiscard_mram ..)
  · exact h.of_mram (forward_mram ..)
  · exact heff

theorem cmdPF_wf {st : State} {a : Nat} {res : Field} {w : Word} {eff : State → State} (h : MramWf st)
    (heff : MramWf (eff st)) : MramWf (cmdPF a res w eff st) := by
  obtain hs | hs | hs | hs | hs | hs := cmdPF_cases st a res w eff <;> rw [hs]
  · exact h
  · exact h.of_mram (pfDiscard_mram ..)
  · exact h.of_mram (cmdEarly_mram ..)
  · exact h.of_mram (setF_mram ..)
  · exact h.of_mram ((setF_mram ..).trans (forward_mram ..))
  · exact heff

/-! ### Fault injectors, of the lines and of the constant-rate lanes -/

theorem ctfFiStrobe_wf {s : SliceId} {k : PortIx} {w : Word} {st : State} (h : MramWf st) :
    MramWf (ctfFiStrobe s k w st) := by
  unfold ctfFiStrobe
  dsimp only
  split
  · exact h
  · split
    · exact h.of_mram (by simp only [setF_mram, pickCode_mram])
    · split
      all_goals exact fiRecord_wf (h.of_mram (by simp only [setF_mram, modCtfLane_mram, pickCode_mram]))

theorem ctfFiReset_wf {s : SliceId} {k : PortIx} {st : State} (h : MramWf st) : MramWf (ctfFiReset st s k) :=
  .ite (fiRecord_wf (h.of_mram (modCtfLane_mram ..))) (h.of_mram (modCtfLane_mram ..))

theorem fiReset_wf {s : SliceId} {k : PortIx} {st : State} (h : MramWf st) : MramWf (fiReset st s k) :=
  have h := (ctfFiReset_wf h).of_mram (modPort_mram ..)
  .ite (fiRecord_wf h) h

theorem fiStrobe_wf {s : SliceId} {k : PortIx} {w : Word} {st : State} (h : MramWf st) :
    MramWf (fiStrobe s k w st) := by
  unfold fiStrobe
  dsimp only
  split
  · exact h
  · split
    · exact h.of_mram (by simp only [setF_mram, pickCode_mram])
    · split
      · exact fiRecord_wf (h.of_mram (by simp only [setF_mram, modFi_mram, pickCode_mram]))
      · refine MramWf.foldl (fun _ h => h.of_mram (disarmRelease_mram ..)) _ ?_
        exact fiRecord_wf (h.of_mram (by simp only [setF_mram, modPort_mram, pickCode_mram]))

theorem fiCmd_wf {s : SliceId} {k : PortIx} {w : Word} {st : State} (h : MramWf st) : MramWf (fiCmd s k w st) :=
  (fiStrobe_wf h).of_mram (settle_mram ..)

/-! ### The transmit path: a clear frame on a guarded port may halt the device -/

theorem guardTrip_wf {st : State} {s : SliceId} {k : PortIx} (h : MramWf st) : MramWf (guardTrip st s k) := by
  have hst : ∀ w e, MramWf (raise (count (wr st Reg.glbGuard w) (Reg.glbFltCnt 2)) e) := fun _ _ =>
    h.of_mram (by simp only [raise_mram, count_mram, wr_mram])
  exact .ite (carmineHalt_wf (hst ..)) ((hst ..).of_mram (modPort_mram ..))

theorem transmit_wf {st : State} {d : Side} {s : SliceId} {k : PortIx} {f : EgrFrame} (h : MramWf st) :
    MramWf (transmit st d s k f) := by
  unfold transmit
  split
  · exact h.of_mram (downDrop_mram ..)
  · cases d with
    | client => exact h.of_mram (sendOut_mram ..)
    | line =>
      refine .ite (guardTrip_wf (h.of_mram (sendOut_mram ..))) (h.of_mram ?_)
      simp only [sendOut_mram, untaggedOut_mram]

theorem releaseTx_wf {s : SliceId} {k : PortIx} {st : State} {f : HeldFrame} (h : MramWf st) :
    MramWf (releaseTx s k st f) := by
  cases f with
  | tx f => exact .ite (h.of_mram (modPort_mram ..)) (transmit_wf h)
  | rx _ => exact h

theorem injectTx_wf {st : State} {s : SliceId} {k : PortIx} {f : EgrFrame} (h : MramWf st) :
    MramWf (injectTx st s k f) := by
  unfold injectTx
  refine MramWf.foldl (fun _ h => releaseTx_wf h) _ ?_
  have hst : MramWf (fiStep (fiFurther st s k false).2 s k false f.bytes).2 :=
    h.of_mram (by simp only [fiStep_mram, fiFurther_mram])
  split
  · exact transmit_wf hst
  · exact hst
  · exact hst.of_mram (fiHold_mram ..)

theorem finish_wf {st : State} {d : Side} {s : SliceId} {k : PortIx} {f : EgrFrame} {fcs : Bool} (h : MramWf st) :
    MramWf (finish st d s k f fcs) := by
  refine .ite (transmit_wf h) ?_
  cases d with
  | client => exact transmit_wf h
  | line => exact injectTx_wf h

theorem grant_wf {st : State} {d : Side} {s : SliceId} {k : PortIx} {q : Fin 8} (h : MramWf st) :
    MramWf (grant st d s k q) := by
  unfold grant
  dsimp only
  split
  · exact h
  · split
    · exact h
    · split
      · exact h.of_mram (by simp only [downDrop_mram, dequeue_mram])
      · split
        · exact h
        · split
          · exact h.of_mram (by simp only [cellUe_mram, dequeue_mram])
          · refine .ite (finish_wf ?_) ?_
            all_goals exact h.of_mram (by simp only [dequeue_mram, modPort_mram, tcCorrect_mram])

theorem endQueued_wf {st : State} {s : SliceId} {k lp : PortIx} {g : EgrFrame} {n : Nat} {f : RxFrame}
    (h : MramWf st) : MramWf (endQueued st s k lp g n f) := by
  unfold endQueued
  extract_lets bs g' c bad late judged dropped taken counted sent
  clear_value late
  have hjudged : MramWf judged := by
    unfold judged
    split
    · exact h.of_mram (by simp only [prsCount_mram, noteMal_mram])
    · exact h.of_mram (countTrunc_mram ..)
  have hdropped : MramWf dropped := .ite (hjudged.of_mram (macDrop_mram ..)) hjudged
  have hcounted : MramWf counted := by
    unfold counted
    split
    · exact hdropped.of_mram (protCount_mram ..)
    · exact hdropped
  have htaken : MramWf taken := hdropped.of_mram (dequeue_mram ..)
  have hsent : MramWf sent := hcounted.of_mram (dequeue_mram ..)
  refine .ite (.ite (finish_wf htaken) htaken) (.ite (.ite (finish_wf ?_) (finish_wf hsent)) ?_)
  · exact hsent.of_mram (cellUe_mram ..)
  · exact hcounted.of_mram (modPort_mram ..)

theorem launchNow_wf {st : State} {n : Nat} {f : SafFrame} {k : PortIx} {e : EgrFrame} (h : MramWf st) :
    MramWf (launchNow st n f k e) := by
  unfold launchNow
  dsimp only
  refine .ite (h.of_mram (by simp only [downDrop_mram, safRemove_mram])) (finish_wf (h.of_mram ?_))
  simp only [modPort_mram, tcCorrect_mram, ite_mram, bumpVf_mram, count_mram, safRemove_mram, ite_self]

/-! ### The encrypted memory -/

theorem meeFail_wf {st : State} {cause region level p : Nat} (h : MramWf st) :
    MramWf (meeFail st cause region level p) :=
  (carmineHalt_wf (h.of_mram (modMee_mram ..))).of_mram (modMee_mram ..)

theorem meeEnd_wf {st : State} {r : Except (Nat × Nat) State} (h : MramWf st)
    (hr : ∀ {t}, r = .ok t → t.mram = st.mram) : MramWf (meeEnd st r) := by
  cases r with
  | ok t => exact h.of_mram (hr rfl)
  | error e => exact .ite h (meeFail_wf h)

theorem meeError_wf {st : State} {e : Nat × Nat} (h : MramWf st) : MramWf (meeEnd st (.error e)) :=
  meeEnd_wf h nofun

theorem dramTrained_wf {failed : BitVec 4} {st : State} (h : MramWf st) : MramWf (dramTrained failed st) := by
  unfold dramTrained
  dsimp only
  refine .ite h (.ite ?_ (.ite ?_ (carmineHalt_wf ?_)))
  · exact h.of_mram (by simp only [enablePorts_mram, modMee_mram, draw_mram])
  · exact h.of_mram (modMee_mram ..)
  · exact h.of_mram ((modMee_mram ..).trans (modMee_mram ..))

theorem meeReadDone_wf {p : Nat} {rank : Bool} {errs : List BeatErr} {st : State} (h : MramWf st) :
    MramWf (meeReadDone p rank errs st) := by
  unfold meeReadDone
  split
  · exact h
  · split
    case h_1 => exact h
    case h_2 i _ =>
      split
      next => exact meeError_wf h
      next st1 hctr =>
        have h1 := h.of_mram (fetchCtr_mram hctr)
        split
        · exact h1.of_mram (meeRelease_mram ..)
        · split
          next => exact meeError_wf h1
          next hread =>
            have h2 := h1.of_mram (readBurst_mram hread)
            split
            next => exact meeError_wf h2
            next => exact h2.of_mram (meeRelease_mram ..)
    case h_3 k _ =>
      split
      · exact h
      · split
        next => exact meeError_wf h
        next hread => exact meeEnd_wf (h.of_mram (readBurst_mram hread)) tagsOk_mram
    case h_4 l n _ =>
      split
      next => exact meeError_wf h
      next hctr =>
        have h1 := h.of_mram (fetchCtr_mram hctr)
        split
        · exact h1
        · split
          · exact meeEnd_wf h1 takeNode_mram
          · split
            next => exact meeError_wf h1
            next hread => exact meeEnd_wf (h1.of_mram (readBurst_mram hread)) takeNode_mram

theorem patrol_wf {p : Nat} {rank : Bool} {errs : List BeatErr} {st : State} (h : MramWf st) :
    MramWf (patrol p rank errs st) := by
  unfold patrol
  split
  · exact h
  · split
    next => exact meeError_wf h
    next hctr =>
      have h1 := h.of_mram (patrolCtr_mram hctr)
      split
      next => exact meeError_wf h1
      next hread => exact h1.of_mram ((readBurst_mram hread).trans (count_mram ..))

theorem meeWriteBack_wf {p : Nat} {st : State} (h : MramWf st) : MramWf (meeWriteBack p st) := by
  unfold meeWriteBack
  split
  · exact h
  · split
    next =>
      split
      next => exact h
      next =>
        split
        · exact h
        · split
          next hdata => exact h.of_mram (writeData_mram hdata)
          next => exact .ite h (meeFail_wf (h.of_mram (modMee_mram ..)))
    next =>
      split
      next => exact .ite (meeEnd_wf h writeNode_mram) h
      next => exact h
    next => exact h

theorem scrubUe_wf {code : Fin 14} {s : SliceId} {ix : Nat} {st : State} (h : MramWf st) :
    MramWf (scrubUe code s ix st) := by
  have huncorr : MramWf (sramUncorr st) := h.of_mram (sramUncorr_mram ..)
  unfold scrubUe
  split
  case h_12 => exact carmineHalt_wf huncorr
  case h_13 => exact .ite h (meeFail_wf huncorr)
  case h_14 => exact carmineHalt_wf huncorr
  all_goals
    refine h.of_mram ?_
    simp only [slotEcc_mram, chanEcc_mram, hashEcc_mram, nodeEcc_mram, parityError_mram, sramUncorr_mram,
      sramUe_mram, modRules_mram, modFrags_mram, cellScrub_mram, modSl_mram]

/-! ### The journal -/

theorem writeOk_wf {st : State} {r : JReq} {seq : BitVec 56} (h : MramWf st) : MramWf (writeOk st r seq) := by
  unfold writeOk
  extract_lets p x written old held
  have hwritten : MramWf written := ringWrite_wf h
  exact hwritten.of_mram (by simp only [committed_mram, count_mram, held, modJnl_mram])

theorem writeBad_wf {st : State} {r : JReq} {seq : BitVec 56} (h : MramWf st) : MramWf (writeBad st r seq) := by
  unfold writeBad
  dsimp only
  generalize hw : ringWrite _ _ _ = st1
  have h1 : MramWf st1 := by
    rw [← hw]
    exact ringWrite_wf (h.of_mram (draw_mram ..))
  repeat' split
  all_goals
    refine h1.of_mram ?_
    simp only [pnjEnd_mram, tombEnd_mram, installRefused_mram, raise_mram, count_mram, modJnl_mram]

theorem damagedRec_wf {st : State} {p : Nat} (h : MramWf st) : MramWf (damagedRec st p) :=
  logRec_wf _ _ _ _ (h.of_mram (by simp only [raise_mram, count_mram, modJnl_mram]))

/-! ### Tamper responses and the log -/

theorem groupRecords_wf {st : State} {g : List Alarm} {start : Bool} (h : MramWf st) :
    MramWf (groupRecords st g start) := by
  unfold groupRecords
  dsimp only
  generalize hr : g.foldl _ _ = r
  have hrated : r.2.mram = st.mram := by
    rw [← hr]
    refine foldl_snd_mram (fun p a => ?_) g ([], st)
    have hrate := rated_mram p.2 a
    split
    all_goals
      next h =>
        rw [h] at hrate
        exact hrate
  exact MramWf.foldl (fun _ h => logPut_wf h) _ (h.of_mram hrated)

theorem alarmGroup_wf {st : State} {g : List Alarm} {start : Bool} (h : MramWf st) :
    MramWf (alarmGroup st g start) := by
  unfold alarmGroup
  extract_lets r was answered inForce recorded
  clear_value r
  have hanswered : MramWf answered := by
    unfold answered
    split
    · exact h
    · exact h.of_mram (squelch_mram ..)
    all_goals exact h.of_mram (tamperHalt_mram ..)
  have hforce : MramWf inForce := .ite (hanswered.of_mram (modTmp_mram ..)) hanswered
  have hrecorded : MramWf recorded := .ite (hforce.of_mram (countN_mram ..)) (groupRecords_wf hforce)
  refine .ite h (.ite (.ite hrecorded (hrecorded.of_mram (haltEvent_mram ..))) ?_)
  exact MramWf.foldl (fun _ h => h.of_mram (raise_mram ..)) _ hrecorded

theorem tmpCmd_wf {w : Word} {st : State} (h : MramWf st) : MramWf (tmpCmd w st) := by
  have hlock : MramWf (tmpLock st) := by
    refine .ite (h.of_mram (tmpResult_mram ..)) (MramWf.of_mram ?_ (tmpResult_mram ..))
    exact logRec_wf _ _ _ _ (h.of_mram (modTmp_mram ..))
  have hack : MramWf (tmpAck st) := by
    refine .ite (h.of_mram (tmpResult_mram ..)) (.ite (h.of_mram (tmpResult_mram ..)) ?_)
    refine MramWf.of_mram ?_ (tmpResult_mram ..)
    exact logRec_wf _ _ _ _ (h.of_mram (modTmp_mram ..))
  unfold tmpCmd
  split
  · exact h.of_mram (tmpResult_mram ..)
  · exact hlock
  · exact hack
  · exact h

theorem logLose_wf {st : State} {r : LogRec} (h : MramWf st) : MramWf (logLose st r) :=
  have hlost : MramWf (mramCount st mramLostAddr) := mramCount_wf _ _ h
  .ite (hlost.of_mram (evlDone_mram ..)) hlost

theorem logAdvance_wf {st : State} (h : MramWf st) : MramWf (logAdvance st) := by
  unfold logAdvance
  extract_lets log moved told
  have htold : MramWf told := .ite (MramWf.of_mram h (raise_mram ..)) h
  exact .ite htold (MramWf.foldl (fun _ h => logLose_wf h) _ htold)

theorem logCommitted_wf {st : State} {r : LogRec} (h : MramWf st) : MramWf (logCommitted st r) := by
  unfold logCommitted
  refine logAdvance_wf (h.of_mram ?_)
  simp only [ite_mram, modTmp_mram, evlDone_mram, armRecorded_mram, modJnl_mram, ite_self]

theorem logFailed_wf {st : State} {r : LogRec} (h : MramWf st) : MramWf (logFailed st r) := by
  unfold logFailed
  dsimp only
  generalize hw : logWrite _ _ _ = written
  have hwritten : MramWf written := by
    rw [← hw]
    exact logWrite_wf (h.of_mram ((draw_mram ..).trans (draw_mram ..)))
  exact .ite (logAdvance_wf (MramWf.of_mram hwritten (count_mram ..))) hwritten

theorem logResult_wf {ok : Bool} {r : LogRec} {st : State} (h : MramWf st) : MramWf (logResult ok r st) :=
  .ite h (.ite (logCommitted_wf (logWrite_wf h)) (logFailed_wf h))

theorem evlCmd_wf {w : Word} {st : State} (h : MramWf st) : MramWf (evlCmd w st) := by
  unfold evlCmd
  split
  · exact h.of_mram (evlRead_mram ..)
  · refine .ite (h.of_mram (evlDone_mram ..)) (.ite (h.of_mram (evlDone_mram ..)) ?_)
    exact MramWf.of_mram (logRec_wf _ _ _ _ h) (cmdBusy_mram ..)
  · exact h.of_mram (evlVerify_mram ..)
  · exact h.of_mram (evlDone_mram ..)

theorem evlPF_wf {w : Word} {st : State} (h : MramWf st) : MramWf (evlPF w st) := by
  unfold evlPF
  refine .ite (.ite h (.ite ?_ (.ite (evlCmd_wf h) ?_))) (cmdPF_wf h (evlCmd_wf h))
  · exact h.of_mram (setF_mram ..)
  · exact h.of_mram (cmdEarly_mram ..)

/-! ### Resets, images and ports -/

theorem deviceReset_wf {st : State} {cause : Fin 4} {keys : KtrSt} {trng : Bool} (h : MramWf st) :
    MramWf (deviceReset st cause keys trng) := by
  unfold deviceReset
  extract_lets z tap cleared started
  have hcleared : MramWf cleared := h
  have hstarted : MramWf started :=
    MramWf.of_mram (mramCount_wf _ mramBootAddr hcleared) ((requestRails_mram ..).trans (drawSeeds_mram ..))
  exact .ite hstarted (carmineHalt_wf hstarted)

theorem powerReset_wf {cause : Fin 4} {primary debug trng : Bool} {st : State} (h : MramWf st) :
    MramWf (powerReset cause primary debug trng st) :=
  deviceReset_wf h

theorem softReset_wf {cause : Fin 4} {trng : Bool} {st : State} (h : MramWf st) :
    MramWf (softReset cause trng st) :=
  .ite h (deviceReset_wf h)

theorem imgCmd_wf {w : Word} {st : State} (h : MramWf st) : MramWf (imgCmd w st) := by
  unfold imgCmd
  split
  · exact h.of_mram (imgDownload_mram ..)
  · exact h.of_mram (imgStage_mram ..)
  · exact .ite (h.of_mram (cmdBusy_mram ..)) ((setPrefSlot_wf h).of_mram (imgDone_mram ..))
  · exact h.of_mram (imgAdvance_mram ..)
  · exact h.of_mram (imgAddKeys_mram ..)
  · exact h.of_mram (imgRevoke_mram ..)
  · exact h.of_mram (imgDone_mram ..)

theorem imgPF_wf {w : Word} {st : State} (h : MramWf st) : MramWf (imgPF w st) := by
  refine .ite h (.ite (.ite ?_ (.ite (imgCmd_wf h) ?_)) (cmdPF_wf h (imgCmd_wf h)))
  · exact h.of_mram (setF_mram ..)
  · exact h.of_mram (cmdEarly_mram ..)

theorem portDown_wf {st : State} {s : SliceId} {d : Side} {k : PortIx} (h : MramWf st) :
    MramWf (portDown st s d k) := by
  unfold portDown
  have hinj : MramWf (if d = .line then fiReset st s k else st) := .ite (fiReset_wf h) h
  generalize (if d = .line then fiReset st s k else st : State) = st1 at hinj ⊢
  dsimp only
  have hlanes : MramWf ((portLanes st1 d s k).foldl (fun st i =>
      modLane (setStage .sigWait (laneLost st (.lane d s i) .signal) (.lane d s i)) (.lane d s i) fun x =>
        { x with retries := 0, consec := 0 }) st1) :=
    MramWf.foldl (fun _ h => h.of_mram (by simp only [modLane_mram, setStage_mram, laneLost_mram])) _ hinj
  cases d
  all_goals
    exact hlanes.of_mram (by simp only [settle_mram, modPmu_mram, modSl_mram, wr_mram, modPort_mram])

theorem portRstCmd_wf {w : Word} {st : State} (h : MramWf st) : MramWf (portRstCmd w st) := by
  refine .ite (h.of_mram (rstDone_mram ..)) (.ite (h.of_mram (rstDone_mram ..)) ?_)
  exact (portDown_wf h).of_mram ((cmdBusy_mram ..).trans (modGlb_mram ..))

/-! ### A write to a register, directly or through the mirror (12, 18) -/

/-- What a write to a register of the kind does keeps the MRAM die in its canonical form. -/
def WrKind.KeepsMram : WrKind → Prop
  | .cmd _ _ core | .direct core => ∀ {st} v, MramWf st → MramWf (core v st)
  | .own _ pf core => (∀ {st} v, MramWf st → MramWf (pf v st)) ∧ ∀ {st} v, MramWf st → MramWf (core v st)
  | .plain => True

/-- A register, if the option has one, keeps the MRAM die in its canonical form. -/
def OptKeepsMram (o : Option WrKind) : Prop := ∀ x, o = some x → x.KeepsMram

theorem OptKeepsMram.or {o p : Option WrKind} (ho : OptKeepsMram o) (hp : OptKeepsMram p) :
    OptKeepsMram (o.or p) := by
  intro x hx
  obtain hx | ⟨-, hx⟩ := Option.or_eq_some_iff.mp hx
  · exact ho x hx
  · exact hp x hx

theorem OptKeepsMram.map {α : Type} {f : α → WrKind} (hf : ∀ e, (f e).KeepsMram) (o : Option α) :
    OptKeepsMram (o.map f) := by
  intro x hx
  obtain ⟨e, -, rfl⟩ := Option.map_eq_some_iff.mp hx
  exact hf e

theorem OptKeepsMram.findSome? {α : Type} {f : α → Option WrKind} (hf : ∀ e, OptKeepsMram (f e)) (l : List α) :
    OptKeepsMram (l.findSome? f) := by
  intro x hx
  obtain ⟨e, -, he⟩ := List.exists_of_findSome?_eq_some hx
  exact hf e x he

theorem OptKeepsMram.find? {l : List (Nat × WrKind)} (hl : ∀ p ∈ l, p.2.KeepsMram) {q : Nat × WrKind → Bool}
    {p : Nat × WrKind} (hp : l.find? q = some p) : p.2.KeepsMram :=
  hl p (List.mem_of_find?_eq_some hp)

theorem OptKeepsMram.getD {o : Option WrKind} (ho : OptKeepsMram o) : (o.getD .plain).KeepsMram := by
  cases o with
  | none => trivial
  | some x => exact ho x rfl

theorem sliceCmds_keepsMram (s : SliceId) : ∀ p ∈ sliceCmds s, p.2.KeepsMram := by
  simp only [sliceCmds, List.forall_mem_cons, WrKind.KeepsMram]
  refine ⟨?imap, ?ruleClient, ?ruleLine, ⟨?commitPF, ?commit⟩, ⟨?tblPF, ?tbl⟩, ?mode, ⟨?saePF, ?sae⟩, ?align, ?trib,
    ?page, nofun⟩
  case imap => exact fun _ h => h.of_mram (imapCmd_mram ..)
  case ruleClient => exact fun _ h => h.of_mram (ruleCmd_mram ..)
  case ruleLine => exact fun _ h => h.of_mram (ruleCmd_mram ..)
  case commitPF => exact fun _ h => h.of_mram (commitPF_mram ..)
  case commit => exact fun _ h => h.of_mram (commitStrobe_mram ..)
  case tblPF => exact fun _ h => cmdPF_wf h (h.of_mram (tblCmd_mram ..))
  case tbl => exact fun _ h => h.of_mram (tblCmd_mram ..)
  case mode => exact fun _ h => h.of_mram (tblModeWrite_mram ..)
  case saePF => exact fun _ h => h.of_mram (saePF_mram ..)
  case sae => exact fun _ h => h.of_mram (saeCmd_mram ..)
  case align => exact fun _ h => h.of_mram (alignStrobe_mram ..)
  case trib => exact fun _ h => h.of_mram (tribCmd_mram ..)
  case page => exact fun _ h => h.of_mram (pageCmd_mram ..)

theorem sliceKind_keepsMram (s : SliceId) (o : Nat) : (sliceKind s o).KeepsMram := by
  unfold sliceKind
  split
  next hp => exact OptKeepsMram.find? (sliceCmds_keepsMram s) hp
  next =>
    refine OptKeepsMram.getD (.or (.findSome? (fun d => .map (fun e => ?kprof) _) _) (.or (.map (fun t => ?timer) _)
      (.or (.map (fun k => ?inject) _) (.or (.map (fun k => ?lane) _)
        (.findSome? (fun k => .map (fun w => ?trace) _) _)))))
    case kprof => exact fun _ h => h.of_mram (kprofWrite_mram ..)
    case timer => exact fun _ h => h.of_mram (timerStrobe_mram ..)
    case inject => exact fun _ h => fiCmd_wf h
    case lane => exact fun _ h => ctfFiStrobe_wf h
    case trace => exact fun _ h => h.of_mram (traceExpWrite_mram ..)

theorem deviceCmds_keepsMram : ∀ p ∈ deviceCmds, p.2.KeepsMram := by
  have hreset {st : State} {v : Word} (h : MramWf st) :
      MramWf (if v.setWidth 8 = (0xD1 : Byte) then softReset 3 true st else st) := .ite (softReset_wf h) h
  simp only [deviceCmds, List.forall_mem_cons, WrKind.KeepsMram]
  refine ⟨?update, ⟨fun _ => hreset, fun _ => hreset⟩, ⟨fun _ => imgPF_wf, fun _ => imgCmd_wf⟩, ?slice,
    fun _ => portRstCmd_wf, ?vim, ?mbx, ?twn, ?resp0, ?resp1, fun _ => tmpCmd_wf,
    ⟨fun _ => evlPF_wf, fun _ => evlCmd_wf⟩, ⟨?ktrPF, ?ktr⟩, ?pnj, ?arc, ⟨?tsuPF, ?tsu⟩, ?snap, ?sc, nofun⟩
  case update => exact fun _ h => h.of_mram (glbUpdateTake_mram ..)
  case slice => exact fun _ h => h.of_mram (sliceCmd_mram ..)
  case vim => exact fun _ h => h.of_mram (vimCmd_mram ..)
  case mbx => exact fun _ h => h.of_mram (mbxCmd_mram ..)
  case twn => exact fun _ h => h.of_mram (twnCmd_mram ..)
  case resp0 => exact fun _ h => h.of_mram (tmpRespSet_mram ..)
  case resp1 => exact fun _ h => h.of_mram (tmpRespSet_mram ..)
  case ktrPF => exact fun _ h => h.of_mram (ktrPF_mram ..)
  case ktr => exact fun _ h => h.of_mram (ktrCmd_mram ..)
  case pnj => exact fun _ h => h.of_mram (pnjCmd_mram ..)
  case arc => exact fun _ h => h.of_mram (arcCmd_mram ..)
  case tsuPF => exact fun _ h => h.of_mram (tsuCmdPF_mram ..)
  case tsu => exact fun _ h => h.of_mram (tsuCmd_mram ..)
  case snap => exact fun _ h => .ite (h.of_mram (snapStrobe_mram ..)) h
  case sc => exact fun _ h => h.of_mram (pmuScCmd_mram ..)

theorem deviceArrays_keepsMram (a : Nat) : OptKeepsMram (deviceArrays a) := by
  refine .or (.map (fun j => ?cfg) _) (.or (.map (fun j => ?head) _) (.or (.map (fun r => ?ctl) _) (.or
    (.findSome? (fun b => .map (fun r => ?ring) _) _) (.map (fun s => ?pc) _))))
  case cfg => exact fun _ h => h.of_mram (evtCfgWrite_mram ..)
  case head => exact fun _ h => h.of_mram (evtHeadWrite_mram ..)
  case ctl => exact fun _ h => h.of_mram (ringCtlWrite_mram ..)
  case ring => exact fun _ h => h.of_mram (ringRegWrite_mram ..)
  case pc => exact fun _ h => h.of_mram (pcStrobe_mram ..)

theorem wrKind_keepsMram (a : Nat) : (wrKind a).KeepsMram := by
  unfold wrKind
  split
  next => exact sliceKind_keepsMram ..
  next =>
    split
    next hp => exact OptKeepsMram.find? deviceCmds_keepsMram hp
    next =>
      split
      · exact fun _ h => h.of_mram (wr_mram ..)
      · exact (deviceArrays_keepsMram a).getD

theorem applyWrite_wf {a : Nat} {v : Word} {st : State} (h : MramWf st) : MramWf (applyWrite a v st) := by
  have hkind := wrKind_keepsMram a
  unfold applyWrite
  split
  · exact h.of_mram (fsyncApply_mram ..)
  · refine .ite h ?_
    generalize wrKind a = kind at hkind
    cases kind with
    | cmd _ _ core => exact hkind v h
    | direct core => exact hkind v h
    | own _ _ core => exact hkind.2 v h
    | plain => exact h.of_mram (storePlain_mram ..)

theorem opNone_wf {a : Nat} {v : Word} {core : State → State} {st : State} (h : MramWf st)
    (hcore : MramWf (core st)) : MramWf (opNone a v core st) :=
  .ite h (viaPF_wf h hcore)

theorem pfWrite_wf {a : Nat} {v : Word} {st : State} (h : MramWf st) : MramWf (pfWrite a v st) := by
  have hkind := wrKind_keepsMram a
  unfold pfWrite
  refine .ite h ?_
  generalize wrKind a = kind at hkind
  cases kind with
  | cmd op res core => exact .ite (opNone_wf h (hkind v h)) (cmdPF_wf h (hkind v h))
  | direct core => exact viaPF_wf h (hkind v h)
  | own op pf core =>
    cases op with
    | none => exact hkind.1 v h
    | some op => exact .ite (opNone_wf h (hkind.2 v h)) (hkind.1 v h)
  | plain => exact viaPF_wf h (h.of_mram (storePlain_mram ..))

theorem applyMir_wf {st : State} {w : MirWrite} (h : MramWf st) : MramWf (applyMir st w) := by
  unfold applyMir
  split
  · exact .ite h (applyWrite_wf h)
  · exact h.of_mram ((injJudge_mram ..).trans (setHand_mram ..))

theorem applyDue_wf {st : State} (h : MramWf st) : MramWf (applyDue st) :=
  MramWf.foldl (fun _ h => h.of_mram (macApply_mram ..)) _
    (MramWf.foldl (fun _ h => applyMir_wf h) _ (h.of_mram (modTwin_mram ..)))

theorem epochStart_wf {st : State} (h : MramWf st) : MramWf (epochStart st) := by
  have hdue : MramWf (releaseHeld (applyDue (applyReservations (nextEpoch st)))) :=
    (applyDue_wf (h.of_mram ((applyReservations_mram ..).trans (nextEpoch_mram ..)))).of_mram (releaseHeld_mram ..)
  refine .ite hdue (hdue.of_mram ?_)
  simp only [trimSets_mram, syncFail_mram, healthCheck_mram, epochMsgs_mram, streamCut_mram, joinExpire_mram,
    claimExpire_mram, switchNow_mram, foldl_mram, compareEpoch_mram, overdue_mram, implies_true]

end Sys2Proof.Machine
end

section
/-!
PROOFS. Every command keeps the canonical form of the MRAM die, and O3 put together from them.
-/
namespace Sys2Proof.Machine

/-! ### Lanes, ports and flow control (02) -/

theorem execLaneSignalDetect_safe {l : LaneId} {st : State} : MramSafe st (execLaneSignalDetect l st) := by
  refine .of_mram ?_
  split <;> simp only [modLane_mram, setStage_mram]

theorem execLaneStepDone_safe {l : LaneId} {r : LockRuns} {st : State} : MramSafe st (execLaneStepDone l r st) := by
  refine .of_mram ?_
  split <;> simp only [setStage_mram, fecLocked_mram, pcsLocked_mram]

theorem execPrecoderTryTimeout_safe {l : LaneId} {st : State} : MramSafe st (execPrecoderTryTimeout l st) :=
  .of_mram (by simp only [modLane_mram, ite_mram, ite_self])

theorem execLaneTimeout_safe {l : LaneId} {st : State} : MramSafe st (execLaneTimeout l st) := by
  refine .of_mram ?_
  split <;> simp only [laneTimedOut_mram, foldl_mram, implies_true, ite_mram, ite_self]

theorem execLossOfLock_safe {l : LaneId} {c : LockLoss} {st : State} : MramSafe st (execLossOfLock l c st) :=
  .of_mram (by simp only [laneLost_mram, modLane_mram, ite_mram, ite_self])

theorem execEqAtLimit_safe {l : LaneId} {on : Bool} {st : State} : MramSafe st (execEqAtLimit l on st) :=
  .of_mram (by simp only [modLane_mram, ite_mram, ite_self])

theorem execLinkFaultSignallingRx_safe {d : Side} {s : SliceId} {k : PortIx} {lf rf : Bool} {st : State} :
    MramSafe st (execLinkFaultSignallingRx d s k lf rf st) :=
  .of_mram (by simp only [modPort_mram, ite_mram, ite_self])

theorem execPauseRepeat_safe {s : SliceId} {k : PortIx} {st : State} : MramSafe st (execPauseRepeat s k st) :=
  .of_mram (by simp only [modPort_mram, sendControl_mram, ite_mram, ite_self])

theorem execHeadroomMeasure_safe {s : SliceId} {k : PortIx} {ns : Nat} {st : State} :
    MramSafe st (execHeadroomMeasure s k ns st) :=
  .of_mram (by simp only [modPort_mram, fcUpdate_mram, keepHeadroom_mram, ite_mram, ite_self])

theorem execRxPauseFrame_safe {d : Side} {s : SliceId} {k : PortIx} {f : RxFrame} {st : State} :
    MramSafe st (execRxPauseFrame d s k f st) :=
  .of_mram (by simp only [bwFrame_mram, macDrop_mram, takePause_mram, ite_mram, ite_self])

theorem execPauseHoldEnd_safe {d : Side} {s : SliceId} {k : PortIx} {q : Fin 8} {st : State} :
    MramSafe st (execPauseHoldEnd d s k q st) :=
  .of_mram rfl

/-! ### Instance map, key profiles and rule tables (03, 04) -/

theorem execPrsImapRead_safe {s : SliceId} {d : Side} {k : PortIx} {vid : BitVec 12} {st : State} :
    MramSafe st (execPrsImapRead s d k vid st) :=
  .of_mram (by simp only [cmdPF_mram, imapCmd_mram])

theorem execPrsImapWrite_safe {s : SliceId} {d : Side} {k : PortIx} {vid : BitVec 12} {i : InstId} {st : State} :
    MramSafe st (execPrsImapWrite s d k vid i st) :=
  .of_mram (by simp only [cmdPF_mram, imapCmd_mram])

theorem execClsKprofWrite_safe {s : SliceId} {d : Side} {e : Fin 14} {v : Word} {st : State} :
    MramSafe st (execClsKprofWrite s d e v st) :=
  .of_mram (by simp only [viaPF_mram, kprofWrite_mram])

theorem ruleOp_safe {op : Nat} {s : SliceId} {d : Side} {ix : BitVec 13} {eff : Word → State → State} {st : State}
    (heff : ∀ w st, (eff w st).mram = st.mram) : MramSafe st (ruleOp op s d ix eff st) :=
  .of_mram (by simp only [cmdPF_mram, heff])

theorem execRuleRead_safe {s : SliceId} {d : Side} {ix : BitVec 13} {st : State} :
    MramSafe st (execRuleRead s d ix st) :=
  ruleOp_safe fun _ _ => ruleRead_mram ..

theorem execRuleWrite_safe {s : SliceId} {d : Side} {ix : BitVec 13} {st : State} :
    MramSafe st (execRuleWrite s d ix st) :=
  ruleOp_safe fun _ _ => ruleWrite_mram ..

theorem execRuleRetire_safe {s : SliceId} {d : Side} {ix : BitVec 13} {st : State} :
    MramSafe st (execRuleRetire s d ix st) :=
  ruleOp_safe fun _ _ => ruleRetire_mram ..

theorem execRuleCancel_safe {s : SliceId} {d : Side} {ix : BitVec 13} {st : State} :
    MramSafe st (execRuleCancel s d ix st) :=
  ruleOp_safe fun _ _ => ruleCancel_mram ..

theorem execCommit_safe {s : SliceId} {st : State} : MramSafe st (execCommit s st) := .of_mram (commitPF_mram ..)

theorem execCommitApply_safe {s : SliceId} {st : State} : MramSafe st (execCommitApply s st) :=
  .of_mram (by simp only [versionRetire_mram, modSl_mram, ite_mram, ite_self])

/-! ### Peer tables and learning (05) -/

theorem execLearn_safe {s : SliceId} {st : State} : MramSafe st (execLearn s st) := by
  refine .of_mram ?_
  split <;> simp only [modSl_mram, learnOne_mram, macLookup_mram, ite_mram, ite_self]

theorem execMsCounterAdvance_safe {s : SliceId} {st : State} : MramSafe st (execMsCounterAdvance s st) :=
  .of_mram (by simp only [modSl_mram, ite_mram, ite_self])

theorem execAgeTick_safe {s : SliceId} {st : State} : MramSafe st (execAgeTick s st) :=
  .of_mram (by simp only [modSl_mram, ite_mram, ite_self])

theorem execSweepVisit_safe {s : SliceId} {ix : BitVec 18} {st : State} : MramSafe st (execSweepVisit s ix st) := by
  refine .of_mram ?_
  split <;> simp only [sweepEntry_mram]

theorem execLpmScrub_safe {s : SliceId} {ix : BitVec 14} {keyBad : Bool} {st : State} :
    MramSafe st (execLpmScrub s ix keyBad st) := by
  refine .of_mram ?_
  split <;> simp only [parityError_mram, ite_mram, ite_self]

theorem tblOp_safe {s : SliceId} {w : Word} {eff : Word → State → State} {st : State}
    (heff : ∀ w st, (eff w st).mram = st.mram) : MramSafe st (tblOp s w eff st) :=
  .of_mram (by simp only [cmdPF_mram, heff])

theorem execTblRead_safe {s : SliceId} {t : Tbl} {ix : BitVec 18} {st : State} :
    MramSafe st (execTblRead s t ix st) :=
  tblOp_safe fun _ _ => tblRead_mram ..

theorem execTblWrite_safe {s : SliceId} {t : Tbl} {st : State} : MramSafe st (execTblWrite s t st) :=
  tblOp_safe fun _ _ => tblWrite_mram ..

theorem execTblInsert_safe {s : SliceId} {t : Tbl} {st : State} : MramSafe st (execTblInsert s t st) :=
  tblOp_safe fun _ _ => tblInsert_mram ..

theorem execTblDelete_safe {s : SliceId} {t : Tbl} {st : State} : MramSafe st (execTblDelete s t st) :=
  tblOp_safe fun _ _ => tblDelete_mram ..

theorem execTblLookup_safe {s : SliceId} {t : Tbl} {st : State} : MramSafe st (execTblLookup s t st) :=
  tblOp_safe fun _ _ => tblLookup_mram ..

theorem execSearch_safe {s : SliceId} {t : Tbl} {ix : BitVec 18} {st : State} :
    MramSafe st (execSearch s t ix st) :=
  tblOp_safe fun _ _ => tblSearch_mram ..

theorem execNext_safe {s : SliceId} {t : Tbl} {st : State} : MramSafe st (execNext s t st) :=
  tblOp_safe fun _ _ => tblNext_mram ..

theorem execFlushPort_safe {s : SliceId} {t : Tbl} {static_ : Bool} {st : State} :
    MramSafe st (execFlushPort s t static_ st) :=
  tblOp_safe fun _ _ => tblFlushPort_mram ..

theorem execFlushInstance_safe {s : SliceId} {t : Tbl} {static_ : Bool} {st : State} :
    MramSafe st (execFlushInstance s t static_ st) :=
  tblOp_safe fun _ _ => tblFlushInstance_mram ..

theorem execFwdTblModeWrite_safe {s : SliceId} {m l : Bool} {st : State} :
    MramSafe st (execFwdTblModeWrite s m l st) :=
  .of_mram (by simp only [viaPF_mram, tblModeWrite_mram])

theorem execMaintEnter_safe {s : SliceId} {t : Tbl} {st : State} : MramSafe st (execMaintEnter s t st) :=
  .of_mram (by simp only [modSl_mram, ite_mram, ite_self])

/-! ### Secure channels and slots (06, 08) -/

theorem execSlotChangeApply_safe {s : SliceId} {ch : ChIx} {st : State} :
    MramSafe st (execSlotChangeApply s ch st) :=
  .of_mram (boundary_mram ..)

theorem execLifecycleSweep_safe {s : SliceId} {ch : ChIx} {st : State} :
    MramSafe st (execLifecycleSweep s ch st) :=
  .of_mram (boundary_mram ..)

theorem execRxFire_safe {s : SliceId} {t : Fin 8} {st : State} : MramSafe st (execRxFire s t st) :=
  .of_mram (doRxFire_mram ..)

theorem execTimerFired_safe {s : SliceId} {t : Fin 8} {st : State} : MramSafe st (execTimerFired s t st) :=
  .of_mram (by simp only [doRxFire_mram, fireAll_mram, modTimer_mram, raise_mram, ite_mram, ite_self])

theorem execTimerArm_safe {s : SliceId} {t : Fin 8} {other : Bool} {lead : BitVec 16} {st : State} :
    MramSafe st (execTimerArm s t other lead st) :=
  .of_mram (by simp only [viaPF_mram, timerStrobe_mram])

theorem execTimerDisarm_safe {s : SliceId} {t : Fin 8} {other : Bool} {lead : BitVec 16} {st : State} :
    MramSafe st (execTimerDisarm s t other lead st) :=
  .of_mram (by simp only [viaPF_mram, timerStrobe_mram])

theorem saeOp_safe {s : SliceId} {w : Word} {eff : Word → State → State} {st : State}
    (heff : ∀ w st, (eff w st).mram = st.mram) : MramSafe st (saeOp s w eff st) :=
  .of_mram (by simp only [cmdPF_mram, heff])

theorem execChRead_safe {s : SliceId} {ch : ChIx} {st : State} : MramSafe st (execChRead s ch st) :=
  saeOp_safe fun _ _ => chRead_mram ..

theorem execChWrite_safe {s : SliceId} {ch : ChIx} {st : State} : MramSafe st (execChWrite s ch st) :=
  saeOp_safe fun _ _ => chWrite_mram ..

theorem execChDelete_safe {s : SliceId} {ch : ChIx} {st : State} : MramSafe st (execChDelete s ch st) :=
  saeOp_safe fun _ _ => chDelete_mram ..

theorem execSaRead_safe {s : SliceId} {ch : ChIx} {an : An} {st : State} : MramSafe st (execSaRead s ch an st) :=
  saeOp_safe fun _ _ => saRead_mram ..

theorem execSaActivate_safe {s : SliceId} {ch : ChIx} {an : An} {st : State} :
    MramSafe st (execSaActivate s ch an st) :=
  saeOp_safe fun _ _ => saActivate_mram ..

theorem execSaRetire_safe {s : SliceId} {ch : ChIx} {an : An} {st : State} :
    MramSafe st (execSaRetire s ch an st) :=
  saeOp_safe fun _ _ => saRetire_mram ..

theorem execSaClear_safe {s : SliceId} {ch : ChIx} {an : An} {st : State} :
    MramSafe st (execSaClear s ch an st) :=
  saeOp_safe fun _ _ => saClear_mram ..

theorem execSciFind_safe {s : SliceId} {st : State} : MramSafe st (execSciFind s st) :=
  saeOp_safe fun _ _ => sciFindCmd_mram ..

theorem execSaLoad_safe {s : SliceId} {ch : ChIx} {an : An} {st : State} : MramSafe st (execSaLoad s ch an st) :=
  .of_mram (saePF_mram ..)

theorem execPreInstall_safe {s : SliceId} {ch : ChIx} {st : State} : MramSafe st (execPreInstall s ch st) :=
  .of_mram (preInstall_mram ..)

/-! ### Commands of the key tree (07) -/

theorem execRootWrite_safe {n : BitVec 17} {st : State} : MramSafe st (execRootWrite n st) :=
  .of_mram (ktrPF_mram ..)

theorem execDerive_safe {n : BitVec 17} {st : State} : MramSafe st (execDerive n st) := .of_mram (ktrPF_mram ..)

theorem execNodeRead_safe {n : BitVec 17} {st : State} : MramSafe st (execNodeRead n st) := .of_mram (ktrPF_mram ..)

theorem execInvalidate_safe {n : BitVec 17} {force : Bool} {st : State} :
    MramSafe st (execInvalidate n force st) :=
  .of_mram (ktrPF_mram ..)

/-! ### Tributaries (10) -/

theorem execPerfSecond_safe {st : State} : MramSafe st (execPerfSecond st) :=
  .of_mram (by simp only [perfSecond_mram, ite_mram, ite_self])

theorem execPerfSecondClassify_safe {st : State} : MramSafe st (execPerfSecondClassify st) :=
  .of_mram (by simp only [modCtfLane_mram, countN_mram, modCtf_mram, foldl_mram, implies_true])

/-! ### The Cipher Transport Frame (10) -/

theorem execCtfFrameBoundary_safe {s : SliceId} {blocks : List (PortIx × List (Option (BitVec 66)))} {st : State} :
    MramSafe st (execCtfFrameBoundary s blocks st) :=
  .of_mram (by simp only [modCtf_mram, addBlocks_mram, dropBlocks_mram, sendCtf_mram, markDefects_mram,
    slipRead_mram, foldl_mram, implies_true, ite_mram, ite_self])

theorem execCtfFrameRx_safe {s : SliceId} {k : PortIx} {f : CtfRx} {st : State} :
    MramSafe st (execCtfFrameRx s k f st) :=
  .of_mram (by simp only [seekRx_mram, markerRx_mram, revokeLane_mram, fawRx_mram, markDefects_mram, bipRx_mram,
    modCtfLane_mram, rxSwap_mram, count_mram, ownerRx_mram, traceByte_mram, labelRx_mram, reserveLane_mram,
    openLane_mram, ite_mram, ite_self])

theorem execFsyncEdge_safe {s : SliceId} {off : Int} {st : State} : MramSafe st (execFsyncEdge s off st) :=
  .of_mram (by simp only [modCtf_mram, forward_mram, fsyncApply_mram, ite_mram, ite_self])

theorem execAlign_safe {s : SliceId} {st : State} : MramSafe st (execAlign s st) :=
  .of_mram (by simp only [viaPF_mram, alignStrobe_mram])

theorem execTraceExpWrite_safe {s : SliceId} {k : PortIx} {w : Fin 4} {v : Word} {st : State} :
    MramSafe st (execTraceExpWrite s k w v st) :=
  .of_mram (by simp only [viaPF_mram, traceExpWrite_mram])

theorem execCtfFcRead_safe {s : SliceId} {k : PortIx} {rx : Bool} {st : State} :
    MramSafe st (execCtfFcRead s k rx st) :=
  .of_mram (by simp only [modCtfLane_mram, ite_mram, ite_self])

theorem execCtfFiArm_safe {s : SliceId} {k : PortIx} {other : Bool} {st : State} :
    MramSafe st (execCtfFiArm s k other st) :=
  .of_wf fun h => viaPF_wf h (ctfFiStrobe_wf h)

theorem execCtfFiDisarm_safe {s : SliceId} {k : PortIx} {other : Bool} {st : State} :
    MramSafe st (execCtfFiDisarm s k other st) :=
  .of_wf fun h => viaPF_wf h (ctfFiStrobe_wf h)

theorem tribOp_safe {s : SliceId} {w : Word} {eff : Word → State → State} {st : State}
    (heff : ∀ w st, (eff w st).mram = st.mram) : MramSafe st (tribOp s w eff st) :=
  .of_mram (by simp only [cmdPF_mram, heff])

theorem execTribRead_safe {s : SliceId} {k : PortIx} {i : Byte} {st : State} :
    MramSafe st (execTribRead s k i st) :=
  tribOp_safe fun _ _ => tribRead_mram ..

theorem execTribWrite_safe {s : SliceId} {k : PortIx} {i : Byte} {st : State} :
    MramSafe st (execTribWrite s k i st) :=
  tribOp_safe fun _ _ => tribWrite_mram ..

theorem execInstall_safe {s : SliceId} {k : PortIx} {i : Byte} {an : An} {st : State} :
    MramSafe st (execInstall s k i an st) :=
  tribOp_safe fun _ _ => tribInstall_mram ..

theorem execTribSwitch_safe {s : SliceId} {k : PortIx} {i : Byte} {st : State} :
    MramSafe st (execTribSwitch s k i st) :=
  tribOp_safe fun _ _ => tribSwitch_mram ..

theorem execTribClear_safe {s : SliceId} {k : PortIx} {i : Byte} {an : An} {st : State} :
    MramSafe st (execTribClear s k i an st) :=
  tribOp_safe fun _ _ => tribClear_mram ..

theorem execTribDelete_safe {s : SliceId} {k : PortIx} {i : Byte} {st : State} :
    MramSafe st (execTribDelete s k i st) :=
  tribOp_safe fun _ _ => tribDelete_mram ..

theorem execPmRead_safe {s : SliceId} {k : PortIx} {i : Byte} {st : State} : MramSafe st (execPmRead s k i st) :=
  tribOp_safe fun _ _ => pmRead_mram ..

theorem pageOp_safe {s : SliceId} {w : Word} {eff : Word → State → State} {st : State}
    (heff : ∀ w st, (eff w st).mram = st.mram) : MramSafe st (pageOp s w eff st) :=
  .of_mram (by simp only [cmdPF_mram, heff])

theorem execPageRead_safe {s : SliceId} {d : Side} {act : Bool} {k : PortIx} {slot : Byte} {st : State} :
    MramSafe st (execPageRead s d act k slot st) :=
  pageOp_safe fun _ _ => pageRead_mram ..

theorem execPageWrite_safe {s : SliceId} {d : Side} {k : PortIx} {slot i : Byte} {st : State} :
    MramSafe st (execPageWrite s d k slot i st) :=
  pageOp_safe fun _ _ => pageWrite_mram ..

theorem execCopy_safe {s : SliceId} {d : Side} {st : State} : MramSafe st (execCopy s d st) :=
  pageOp_safe fun _ _ => pageCopy_mram ..

theorem execSwap_safe {s : SliceId} {st : State} : MramSafe st (execSwap s st) :=
  pageOp_safe fun _ _ => pageSwap_mram ..

/-! ### The journal in service (09) -/

theorem execJournalCommit_safe {ok : Bool} {st : State} : MramSafe st (execJournalCommit ok st) := by
  unfold execJournalCommit
  refine .of_wf fun h => .ite h ?_
  extract_lets marked taken
  have htaken : MramWf taken.2 := by
    unfold taken
    split
    · exact h.of_mram (modJnl_mram ..)
    · exact h.of_mram ((jnlTake_mram ..).trans (modJnl_mram ..))
  clear_value taken
  obtain ⟨w, st1⟩ := taken
  cases w with
  | none => exact htaken
  | some w => exact .ite (writeOk_wf htaken) (writeBad_wf htaken)

theorem execJournalHaltTimeout_safe {st : State} : MramSafe st (execJournalHaltTimeout st) := by
  refine .of_wf fun h => ?_
  split
  · exact .ite (carmineHalt_wf h) h
  · exact h

theorem execJournalScanDone_safe {bad : List Nat} {st : State} : MramSafe st (execJournalScanDone bad st) := by
  unfold execJournalScanDone
  refine .of_wf fun h => .ite h ?_
  extract_lets ps good index newest p torn scanned fail
  have hscanned : MramWf scanned := h.of_mram (modJnl_mram ..)
  clear_value scanned fail
  have hreported : MramWf (fail.foldl damagedRec scanned) := MramWf.foldl (fun _ h => damagedRec_wf h) _ hscanned
  exact hreported.of_mram ((enablePorts_mram ..).trans (trimHeld_mram ..))

theorem pnjOp_safe {w : Word} {eff : Word → State → State} {st : State} (heff : ∀ w st, (eff w st).mram = st.mram) :
    MramSafe st (pnjOp w eff st) :=
  .of_mram (by simp only [cmdPF_mram, heff])

theorem execPnjRead_safe {ix : BitVec 18} {st : State} : MramSafe st (execPnjRead ix st) := pnjOp_safe pnjRead_mram

theorem execFind_safe {st : State} : MramSafe st (execFind st) := pnjOp_safe pnjFind_mram

theorem execDestroy_safe {st : State} : MramSafe st (execDestroy st) := pnjOp_safe pnjDestroy_mram

theorem execTombDormant_safe {st : State} : MramSafe st (execTombDormant st) := pnjOp_safe pnjTombDormant_mram

theorem execAckDamage_safe {st : State} : MramSafe st (execAckDamage st) := pnjOp_safe pnjAckDamage_mram

/-! ### Statistics (19) -/

theorem execSnapshot_safe {st : State} : MramSafe st (execSnapshot st) :=
  .of_mram (by simp only [takeSnap_mram, modPmu_mram, ite_mram, ite_self])

theorem execSnap_safe {st : State} : MramSafe st (execSnap st) :=
  .of_mram (by simp only [viaPF_mram, snapStrobe_mram])

theorem execSnapshotVisible_safe {st : State} : MramSafe st (execSnapshotVisible st) := by
  refine .of_mram ?_
  split <;> simp only [modPmu_mram, wr_mram, count_mram]

theorem execCounterFlush_safe {kind : Fin 4} {s : SliceId} {key : Nat} {st : State} :
    MramSafe st (execCounterFlush kind s key st) :=
  .of_mram (by simp only [meeWrite_mram, modSl_mram, ite_mram, ite_self])

theorem execScRead_safe {kind : Fin 4} {s : SliceId} {ch : ChIx} {an : An} {st : State} :
    MramSafe st (execScRead kind s ch an st) :=
  .of_mram (by simp only [cmdPF_mram, pmuScCmd_mram])

theorem execVfScRead_safe {i : InstId} {kind : Fin 4} {s : SliceId} {ch : ChIx} {an : An} {st : State} :
    MramSafe st (execVfScRead i kind s ch an st) :=
  .of_mram (vfScCmd_mram ..)

theorem execVfStatRead_safe {i : InstId} {n : Fin 8} {st : State} : MramSafe st (execVfStatRead i n st) :=
  .of_mram (by simp only [modInst_mram, ite_mram, ite_self])

theorem execBwWindowEnd_safe {st : State} : MramSafe st (execBwWindowEnd st) := .of_mram (bwAdvance_mram ..)

theorem execPcStart_safe {s : SliceId} {other : Bool} {st : State} : MramSafe st (execPcStart s other st) :=
  .of_mram (by simp only [viaPF_mram, pcStrobe_mram])

theorem execPcStop_safe {s : SliceId} {other : Bool} {st : State} : MramSafe st (execPcStop s other st) :=
  .of_mram (by simp only [viaPF_mram, pcStrobe_mram])

theorem execPcClear_safe {s : SliceId} {other : Bool} {st : State} : MramSafe st (execPcClear s other st) :=
  .of_mram (by simp only [viaPF_mram, pcStrobe_mram])

theorem execPcWrap_safe {s : SliceId} {i : Fin 8} {st : State} : MramSafe st (execPcWrap s i st) :=
  .of_mram (by simp only [modPc_mram, ite_mram, ite_self])

theorem execPmuCounterRead_safe {s : SliceId} {i : Option (Fin 8)} {st : State} :
    MramSafe st (execPmuCounterRead s i st) := by
  refine .of_mram ?_
  repeat' split
  all_goals simp only [modPc_mram]

/-! ### Virtual instances (13) -/

theorem execDoorbell_safe {i : InstId} {st : State} : MramSafe st (execDoorbell i st) := .of_mram (doorbell_mram ..)

theorem execVfMbxCtlRead_safe {i : InstId} {st : State} : MramSafe st (execVfMbxCtlRead i st) :=
  .of_mram (by simp only [modInst_mram, ite_mram, ite_self])

theorem execMbxRead_safe {i : InstId} {st : State} : MramSafe st (execMbxRead i st) :=
  .of_mram (by simp only [cmdPF_mram, mbxRead_mram])

theorem execRespond_safe {i : InstId} {st : State} : MramSafe st (execRespond i st) :=
  .of_mram (by simp only [cmdPF_mram, mbxRespond_mram])

theorem execQuiesceDone_safe {i : InstId} {st : State} : MramSafe st (execQuiesceDone i st) :=
  .of_mram (by simp only [quiesced_mram, ite_mram, ite_self])

theorem execQuiesceTimeout_safe {i : InstId} {st : State} : MramSafe st (execQuiesceTimeout i st) :=
  .of_mram (by simp only [quiesced_mram, countN_mram, instDiscard_mram, ite_mram, ite_self])

theorem execVfFlr_safe {i : InstId} {st : State} : MramSafe st (execVfFlr i st) := .of_mram (vfFlr_mram ..)

theorem execVfEnableClear_safe {st : State} : MramSafe st (execVfEnableClear st) :=
  .of_mram (by simp only [vfFlr_mram, foldl_mram, implies_true])

theorem vimOp_safe {w : Word} {eff : Word → State → State} {st : State} (heff : ∀ w st, (eff w st).mram = st.mram) :
    MramSafe st (vimOp w eff st) :=
  .of_mram (by simp only [cmdPF_mram, heff])

theorem execEnable_safe {i : InstId} {st : State} : MramSafe st (execEnable i st) :=
  vimOp_safe fun _ _ => vimEnable_mram ..

theorem execQuiesce_safe {i : InstId} {st : State} : MramSafe st (execQuiesce i st) :=
  vimOp_safe fun _ _ => vimQuiesce_mram ..

theorem execFreeze_safe {i : InstId} {st : State} : MramSafe st (execFreeze i st) :=
  vimOp_safe fun _ _ => vimFreeze_mram ..

theorem execThaw_safe {i : InstId} {st : State} : MramSafe st (execThaw i st) :=
  vimOp_safe fun _ _ => vimThaw_mram ..

theorem execInstanceReset_safe {i : InstId} {st : State} : MramSafe st (execInstanceReset i st) :=
  vimOp_safe fun _ _ => vimReset_mram ..

theorem execRemove_safe {i : InstId} {st : State} : MramSafe st (execRemove i st) :=
  vimOp_safe fun _ _ => vimReset_mram ..

theorem execSave_safe {i : InstId} {st : State} : MramSafe st (execSave i st) :=
  vimOp_safe fun _ _ => vimSave_mram ..

theorem execShareWrite_safe {i : InstId} {s : SliceId} {st : State} : MramSafe st (execShareWrite i s st) :=
  vimOp_safe fun _ _ => vimShareWrite_mram ..

theorem execShareRead_safe {i : InstId} {s : SliceId} {st : State} : MramSafe st (execShareRead i s st) :=
  vimOp_safe fun _ _ => vimShareRead_mram ..

theorem execStateRead_safe {i : InstId} {st : State} : MramSafe st (execStateRead i st) :=
  vimOp_safe fun _ _ => vimStateRead_mram ..

theorem execRestore_safe {i : InstId} {cap : Bytes} {st : State} : MramSafe st (execRestore i cap st) := by
  refine .of_mram ?_
  simp only [cmdPF_mram, vimRestore_mram, modTwin_mram, ite_mram, ite_self]

/-! ### A frame at a parser and classifier (03, 04) -/

theorem execFragAged_safe {s : SliceId} {ix : Nat} {st : State} : MramSafe st (execFragAged s ix st) := by
  refine .of_mram ?_
  split <;> simp only [count_mram, modFrags_mram, ite_mram, ite_self]

/-! ### The way out (01, 02, 11) -/

theorem execFrameEgressGrant_safe {d : Side} {s : SliceId} {k : PortIx} {q : Fin 8} {st : State} :
    MramSafe st (execFrameEgressGrant d s k q st) :=
  .of_wf fun h => .ite ((grant_wf h).of_mram (settle_mram ..)) h

/-! ### Protect path and verify path (01) -/

theorem execClientFrameRx_safe {s : SliceId} {k : PortIx} {f : RxFrame} {st : State} :
    MramSafe st (execClientFrameRx s k f st) :=
  .of_mram (by simp only [bwFrame_mram, macDrop_mram, takePause_mram, settle_mram, clientIn_mram, ite_mram,
    ite_self])

theorem execProtectFrameEnd_safe {s : SliceId} {k : PortIx} {f : RxFrame} {st : State} :
    MramSafe st (execProtectFrameEnd s k f st) := by
  unfold execProtectFrameEnd
  refine .of_wf fun h => ?_
  have hbw : MramWf (if rxOn st .client s k then bwFrame st .client s k false (f.bytes.length + 4) else st) :=
    .ite (h.of_mram (bwFrame_mram ..)) h
  generalize (if rxOn st .client s k then bwFrame st .client s k false (f.bytes.length + 4) else st : State) = counted
    at hbw
  dsimp only
  split
  · exact hbw.of_mram (by simp only [settle_mram, endWaiting_mram, modSl_mram])
  · split
    · exact hbw
    · split
      · exact hbw
      · exact (endQueued_wf hbw).of_mram (settle_mram ..)

theorem execLineFrameRx_safe {s : SliceId} {k : PortIx} {f : RxFrame} {st : State} :
    MramSafe st (execLineFrameRx s k f st) := by
  unfold execLineFrameRx
  dsimp only
  refine .of_mram ?_
  repeat' split
  all_goals simp only [bwFrame_mram, macDrop_mram, takePause_mram, fiFurther_mram, fiStep_mram, lineIn_mram,
    fiHold_mram, settle_mram, releaseRx_mram, foldl_mram, implies_true]

theorem execFinalReplayCommit_safe {s : SliceId} {ch : ChIx} {st : State} :
    MramSafe st (execFinalReplayCommit s ch st) := by
  refine .of_mram ?_
  split
  · rfl
  next v _ =>
    refine (settle_mram ..).trans ?_
    have hcommit := (rxCommit_mram
      (modSl st s fun x => { x with engine := x.engine.eraseP (fun v => v.ch == ch) }) s v).trans
      (modSl_mram st s fun x => { x with engine := x.engine.eraseP (fun v => v.ch == ch) })
    split
    · exact (cellUe_mram ..).trans (modSl_mram ..)
    · split
      · exact (icvFailed_mram ..).trans (modSl_mram ..)
      · split
        next h => rwa [h] at hcommit
        next h =>
          rw [h] at hcommit
          exact (secondPass_mram ..).trans hcommit

theorem execRecircEntry_safe {s : SliceId} {st : State} : MramSafe st (execRecircEntry s st) := by
  refine .of_mram ?_
  split <;> simp only [modSl_mram, settle_mram, protectParsed_mram, parserEntry_mram]

/-! ### External memory in service (14) -/

theorem execDramTrained_safe {failed : BitVec 4} {st : State} : MramSafe st (execDramTrained failed st) :=
  .of_wf dramTrained_wf

theorem execDqsRetrain_safe {st : State} : MramSafe st (execDqsRetrain st) :=
  .of_mram (by simp only [count_mram, modMee_mram, ite_mram, ite_self])

theorem execMr4TemperatureReport_safe {c : Fin 4} {rank hot : Bool} {st : State} :
    MramSafe st (execMr4TemperatureReport c rank hot st) :=
  .of_mram (by simp only [modMee_mram, ite_mram, ite_self])

theorem execMeeReadDone_safe {p : Nat} {rank : Bool} {errs : List BeatErr} {st : State} :
    MramSafe st (execMeeReadDone p rank errs st) :=
  .of_wf meeReadDone_wf

theorem execPatrolScrub_safe {p : Nat} {rank : Bool} {errs : List BeatErr} {st : State} :
    MramSafe st (execPatrolScrub p rank errs st) :=
  .of_wf patrol_wf

theorem execMeeWriteBack_safe {p : Nat} {st : State} : MramSafe st (execMeeWriteBack p st) := .of_wf meeWriteBack_wf

theorem arcOp_safe {op : Nat} {e : BitVec 20} {eff : Word → State → State} {st : State}
    (heff : ∀ w st, (eff w st).mram = st.mram) : MramSafe st (arcOp op e eff st) :=
  .of_mram (by simp only [cmdPF_mram, heff])

theorem execPark_safe {e : BitVec 20} {s : SliceId} {ch : ChIx} {an : An} {st : State} :
    MramSafe st (execPark e s ch an st) :=
  .of_mram ((cmdPF_mram _ _ _ _ _ (arcPark_mram ..)).trans (arcSelect_mram ..))

theorem execArcLoad_safe {e : BitVec 20} {s : SliceId} {ch : ChIx} {an : An} {st : State} :
    MramSafe st (execArcLoad e s ch an st) :=
  .of_mram ((cmdPF_mram _ _ _ _ _ (arcLoad_mram ..)).trans (arcSelect_mram ..))

theorem execArcRead_safe {e : BitVec 20} {st : State} : MramSafe st (execArcRead e st) := arcOp_safe arcRead_mram

theorem execArcDelete_safe {e : BitVec 20} {st : State} : MramSafe st (execArcDelete e st) :=
  arcOp_safe arcDelete_mram

theorem execSramScrub_safe {code : Fin 14} {s : SliceId} {ix : Nat} {ue : Bool} {st : State} :
    MramSafe st (execSramScrub code s ix ue st) :=
  .of_wf fun h => .ite h (.ite (scrubUe_wf h) (.ite h (h.of_mram (scrubCe_mram ..))))

/-! ### Tamper unit and log (15) -/

theorem execTamperTrip_safe {srcs : List (Fin 30 × Fin 3)} {st : State} : MramSafe st (execTamperTrip srcs st) := by
  unfold execTamperTrip
  dsimp only
  refine .of_wf fun h => alarmGroup_wf (h.of_mram ((trips_mram ..).trans ?_))
  exact foldl_mram (fun _ _ => detReport_mram ..) _ _

theorem execMonitor_safe {n : Fin 30} {det : Fin 3} {st : State} : MramSafe st (execMonitor n det st) := by
  unfold execMonitor
  dsimp only
  refine .of_wf fun h => .ite (alarmGroup_wf (h.of_mram ?_)) h
  simp only [trips_mram, count_mram, modSrc_mram]

theorem execCauseCleared_safe {n : Fin 30} {st : State} : MramSafe st (execCauseCleared n st) :=
  .of_mram (modSrc_mram ..)

theorem execZeroiseDone_safe {st : State} : MramSafe st (execZeroiseDone st) :=
  .of_mram (by simp only [modGlb_mram, modTmp_mram, zeroKeys_mram, ite_mram, ite_self])

theorem execStartupCheckDone_safe {causes : BitVec 30} {delays : Vector (BitVec 8) 16} {st : State} :
    MramSafe st (execStartupCheckDone causes delays st) := by
  unfold execStartupCheckDone
  dsimp only
  refine .of_wf fun h => .ite h (alarmGroup_wf (h.of_mram ?_))
  simp only [trips_mram, modTmp_mram]

theorem execTmpRespWrite_safe {hi : Bool} {v : Word} {st : State} : MramSafe st (execTmpRespWrite hi v st) :=
  .of_mram (by simp only [viaPF_mram, tmpRespSet_mram])

theorem execLock_safe {other : Bool} {st : State} : MramSafe st (execLock other st) :=
  .of_wf fun h => viaPF_wf h (tmpCmd_wf h)

theorem execTamperAck_safe {other : Bool} {st : State} : MramSafe st (execTamperAck other st) :=
  .of_wf fun h => viaPF_wf h (tmpCmd_wf h)

theorem execEvlRecordCommit_safe {ok : Bool} {st : State} : MramSafe st (execEvlRecordCommit ok st) := by
  refine .of_wf fun h => ?_
  split
  · exact h
  · exact logResult_wf h

theorem execTamperRecordCommit_safe {ok : Bool} {st : State} : MramSafe st (execTamperRecordCommit ok st) := by
  refine .of_wf fun h => ?_
  split
  · exact h
  · exact .ite (logResult_wf h) h

theorem execEvlScanDone_safe {st : State} : MramSafe st (execEvlScanDone st) :=
  .of_wf fun h => .ite h (.ite h (MramWf.foldl (fun _ h => logLose_wf h) _ h))

theorem execLogRead_safe {ix : BitVec 16} {st : State} : MramSafe st (execLogRead ix st) := .of_wf evlPF_wf

theorem execAppend_safe {st : State} : MramSafe st (execAppend st) := .of_wf evlPF_wf

theorem execVerify_safe {ix : BitVec 16} {st : State} : MramSafe st (execVerify ix st) := .of_wf evlPF_wf

/-! ### Image, start-up and resets (16, 17) -/

theorem execPowerOnReset_safe {primary debug trng : Bool} {st : State} :
    MramSafe st (execPowerOnReset primary debug trng st) :=
  .of_wf powerReset_wf

theorem execSupplyMonitorReset_safe {trng : Bool} {st : State} : MramSafe st (execSupplyMonitorReset trng st) :=
  .of_wf powerReset_wf

theorem execDeviceReset_safe {trng : Bool} {st : State} : MramSafe st (execDeviceReset trng st) :=
  .of_wf softReset_wf

theorem execGlbReset_safe {key : Byte} {trng : Bool} {st : State} : MramSafe st (execGlbReset key trng st) :=
  .of_wf fun h => .ite (softReset_wf h) h

theorem execImageSourceTry_safe {st : State} : MramSafe st (execImageSourceTry st) := .of_mram (sourceTry_mram ..)

theorem execBootDone_safe {st : State} : MramSafe st (execBootDone st) :=
  .of_mram (by simp only [enablePorts_mram, raise_mram, modImg_mram, ite_mram, ite_self])

theorem execDownload_safe {img : ImageSrc} {st : State} : MramSafe st (execDownload img st) :=
  .of_wf fun h => imgPF_wf (h.of_mram (withImage_mram ..))

theorem execStage_safe {slot : Bool} {img : ImageSrc} {st : State} : MramSafe st (execStage slot img st) :=
  .of_wf fun h => imgPF_wf (h.of_mram (withImage_mram ..))

theorem execSetPref_safe {slot : Bool} {st : State} : MramSafe st (execSetPref slot st) := .of_wf imgPF_wf

theorem execAdvanceSvn_safe {st : State} : MramSafe st (execAdvanceSvn st) := .of_wf imgPF_wf

theorem execAddKeys_safe {st : State} : MramSafe st (execAddKeys st) := .of_wf imgPF_wf

theorem execRevokeKey_safe {k : Fin 4} {st : State} : MramSafe st (execRevokeKey k st) := .of_wf imgPF_wf

theorem execDrainDone_safe {s : SliceId} {st : State} : MramSafe st (execDrainDone s st) :=
  .of_mram (by simp only [sliceDrained_mram, ite_mram, ite_self])

theorem execDrainTimeout_safe {s : SliceId} {st : State} : MramSafe st (execDrainTimeout s st) :=
  .of_mram (by simp only [modImg_mram, modSl_mram, sliceDrained_mram, settle_mram, ite_mram, ite_self])

theorem execSliceLoadChecked_safe {st : State} : MramSafe st (execSliceLoadChecked st) := by
  refine .of_mram ?_
  split <;> simp only [modImg_mram, setF_mram, sliceDone_mram, sliceReset_mram, startSlice_mram, modImgSl_mram,
    ite_mram, ite_self]

theorem execSliceRunning_safe {s : SliceId} {st : State} : MramSafe st (execSliceRunning s st) :=
  .of_mram (by simp only [enablePorts_mram, modImgSl_mram, ite_mram, ite_self])

theorem execDrain_safe {s : SliceId} {off : Bool} {st : State} : MramSafe st (execDrain s off st) :=
  .of_mram (slicePF_mram ..)

theorem execSliceLoad_safe {s : SliceId} {img : ImageSrc} {st : State} : MramSafe st (execSliceLoad s img st) :=
  .of_mram (by simp only [slicePF_mram, withImage_mram])

theorem execResume_safe {s : SliceId} {st : State} : MramSafe st (execResume s st) := .of_mram (slicePF_mram ..)

/-! ### Fault injectors (02) -/

theorem execFiArm_safe {s : SliceId} {k : PortIx} {other : Bool} {st : State} :
    MramSafe st (execFiArm s k other st) :=
  .of_wf fun h => viaPF_wf h (fiCmd_wf h)

theorem execFiDisarm_safe {s : SliceId} {k : PortIx} {other : Bool} {st : State} :
    MramSafe st (execFiDisarm s k other st) :=
  .of_wf fun h => viaPF_wf h (fiCmd_wf h)

theorem execFiHoldRelease_safe {s : SliceId} {k : PortIx} {st : State} : MramSafe st (execFiHoldRelease s k st) := by
  refine .of_wf fun h => ?_
  split
  · exact h
  · refine MramWf.of_mram ?_ (settle_mram ..)
    split
    · exact releaseTx_wf (h.of_mram (modPort_mram ..))
    · exact h.of_mram ((releaseRx_mram ..).trans (modPort_mram ..))

/-! ### The launch calendar (11) -/

theorem execSaffronStage_safe {s : SliceId} {st : State} : MramSafe st (execSaffronStage s st) := by
  unfold execSaffronStage
  dsimp only
  refine .of_mram ?_
  repeat' split
  all_goals simp only [safSet_mram]

theorem execSaffronParserEntry_safe {s : SliceId} {st : State} : MramSafe st (execSaffronParserEntry s st) := by
  refine .of_mram ?_
  split
  · rfl
  next f n _ =>
    split
    · refine (settle_mram ..).trans ?_
      split
      next h =>
        have hadmit := congrArg (fun r => r.2.mram) h
        dsimp only at hadmit
        rw [safRemove_mram, ← hadmit, admitInst_mram, parserEntry_mram]
      next h =>
        have hadmit := congrArg (fun r => r.2.mram) h
        dsimp only at hadmit
        rw [safClassified_mram, ← hadmit, admitInst_mram, parserEntry_mram]
    · rfl

theorem execSaffronSlotAccess_safe {s : SliceId} {st : State} : MramSafe st (execSaffronSlotAccess s st) := by
  refine .of_mram ?_
  split
  · rfl
  next f n _ =>
    split
    · extract_lets p c
      split
      · exact safRemove_mram ..
      next ch tc _ =>
        have haccess := protAccess_mram st s ch (bindNo (safPkt st f (parse (prsCfg st s) f.bytes))) f.bytes
        split
        next h =>
          rw [h] at haccess
          exact (safRemove_mram ..).trans haccess
        next h =>
          rw [h] at haccess
          split
          · exact (safSet_mram ..).trans ((protCount_mram ..).trans haccess)
          · exact (safRemove_mram ..).trans ((protCount_mram ..).trans haccess)
    · rfl

theorem execSaffronLaunch_safe {s : SliceId} {k : PortIx} {st : State} : MramSafe st (execSaffronLaunch s k st) := by
  refine .of_wf fun h => ?_
  split
  · exact h
  · split
    · exact h
    · exact .ite ((launchNow_wf h).of_mram (settle_mram ..)) h

theorem execLate_safe {n : Nat} {st : State} : MramSafe st (execLate n st) := by
  refine .of_mram ?_
  split
  · rfl
  next f _ =>
    split
    · rfl
    · dsimp only
      split
      · simp only [raise_mram, bumpVf_mram, count_mram, safRemove_mram]
      · split
        · simp only [settle_mram, protectPkt_mram, arrive_mram, count_mram, safRemove_mram]
        · split
          · simp only [arrive_mram, count_mram, safRemove_mram]
          · refine (settle_mram ..).trans ?_
            split
            next h =>
              have hadmit := congrArg (fun r => r.2.mram) h
              dsimp only at hadmit
              rw [← hadmit, admitInst_mram, parserEntry_mram, arrive_mram, count_mram, safRemove_mram]
            next h =>
              have hadmit := congrArg (fun r => r.2.mram) h
              dsimp only at hadmit
              rw [protectParsed_mram, ← hadmit, admitInst_mram, parserEntry_mram, arrive_mram, count_mram,
                safRemove_mram]

/-! ### Host interface (18) -/

theorem execEvtRingEnable_safe {j : Fin 4} {v : Word} {st : State} : MramSafe st (execEvtRingEnable j v st) :=
  .of_mram (by simp only [viaPF_mram, evtCfgWrite_mram])

theorem execEvtHeadWrite_safe {j : Fin 4} {h : BitVec 16} {st : State} : MramSafe st (execEvtHeadWrite j h st) :=
  .of_mram (by simp only [viaPF_mram, evtHeadWrite_mram])

theorem execMsixModerationEnd_safe {evt : Bool} {i : InstId} {r : Fin 16} {st : State} :
    MramSafe st (execMsixModerationEnd evt i r st) :=
  .of_mram (by simp only [fireEvt_mram, ringModEnd_mram, ite_mram, ite_self])

theorem execRingEnable_safe {i : InstId} {r : Fin 16} {st : State} : MramSafe st (execRingEnable i r st) :=
  .of_mram (by simp only [viaFn_mram, ringCtlWrite_mram])

theorem execRingDisable_safe {i : InstId} {r : Fin 16} {st : State} : MramSafe st (execRingDisable i r st) :=
  .of_mram (by simp only [viaFn_mram, ringCtlWrite_mram])

theorem execRingStopped_safe {i : InstId} {r : Fin 16} {st : State} : MramSafe st (execRingStopped i r st) :=
  .of_mram (by simp only [modRing_mram, ite_mram, ite_self])

theorem execRingCtlRead_safe {i : InstId} {r : Fin 16} {st : State} : MramSafe st (execRingCtlRead i r st) :=
  .of_mram (by simp only [modRing_mram, ite_mram, ite_self])

theorem execVfRingErrRead_safe {i : InstId} {st : State} : MramSafe st (execVfRingErrRead i st) :=
  .of_mram (by simp only [wr_mram, ite_mram, ite_self])

theorem execInjectDescriptorRead_safe {i : InstId} {r : Fin 16} {x : InjDesc} {f : Bytes} {st : State} :
    MramSafe st (execInjectDescriptorRead i r x f st) :=
  .of_mram (by simp only [modInst_mram, forwardOp_mram, setHand_mram, injJudge_mram, ite_mram, ite_self])

theorem execInjectFrameCopied_safe {i : InstId} {r : Fin 16} {f : Bytes} {st : State} :
    MramSafe st (execInjectFrameCopied i r f st) := by
  refine .of_mram ?_
  split <;> simp only [injCopied_mram, ite_mram, ite_self]

theorem execHeldDescriptorResume_safe {i : InstId} {r : Fin 16} {st : State} :
    MramSafe st (execHeldDescriptorResume i r st) := by
  refine .of_mram ?_
  split <;> simp only [safAccept_mram, injCopied_mram, setHand_mram, ite_mram, ite_self]

theorem execDmaErr_safe {i : InstId} {r : Fin 16} {st : State} : MramSafe st (execDmaErr i r st) := by
  refine .of_mram ?_
  repeat' split
  all_goals simp only [injRefuse_mram, setHand_mram, modRing_mram, wr_mram, raise_mram, count_mram]

theorem execPfFlr_safe {st : State} : MramSafe st (execPfFlr st) :=
  .of_mram (by simp only [pfFlr_mram, ite_mram, ite_self])

theorem execPciePerst_safe {st : State} : MramSafe st (execPciePerst st) :=
  .of_mram (by simp only [vfFlr_mram, pfFlr_mram, foldl_mram, implies_true, ite_mram, ite_self])

theorem execPcieLinkTraining_safe {up : Bool} {speed : Fin 8} {width : Fin 16} {st : State} :
    MramSafe st (execPcieLinkTraining up speed width st) :=
  .of_mram rfl

/-! ### The twin unit (12) -/

theorem execClaim_safe {st : State} : MramSafe st (execClaim st) := .of_mram (twnPF_mram ..)

theorem execJoin_safe {st : State} : MramSafe st (execJoin st) := .of_mram (twnPF_mram ..)

theorem execTwinSwitch_safe {st : State} : MramSafe st (execTwinSwitch st) := .of_mram (twnPF_mram ..)

theorem execLeave_safe {st : State} : MramSafe st (execLeave st) := .of_mram (twnPF_mram ..)

theorem execOwnLineChange_safe {on : Bool} {st : State} : MramSafe st (execOwnLineChange on st) :=
  .of_mram (by simp only [modTwin_mram, yieldTie_mram, ownReleased_mram, ite_mram, ite_self])

theorem execOwnAssert_safe {st : State} : MramSafe st (execOwnAssert st) := by
  refine .of_mram ?_
  repeat' split
  all_goals simp only [claimExpire_mram, twnEnd_mram, modTwin_mram, restampAges_mram, takeOver_mram]

theorem execOwnTxEnable_safe {st : State} : MramSafe st (execOwnTxEnable st) := by
  refine .of_mram ?_
  split <;> simp only [modTwin_mram, ite_mram, ite_self]

theorem execHbLost_safe {st : State} : MramSafe st (execHbLost st) := by
  refine .of_mram ?_
  repeat' split
  all_goals simp only [linkLost_mram, toAlone_mram, count_mram, modTwin_mram, toStart_mram, ownReleased_mram,
    ite_mram, ite_self]

theorem execCandidacyEnd_safe {st : State} : MramSafe st (execCandidacyEnd st) := by
  refine .of_mram ?_
  split <;> simp only [toStart_mram, ite_mram, ite_self]

/-! ### Power, clocks and hold-up (17) -/

theorem execAvsInterval_safe {s : SliceId} {slack : BitVec 5} {emerg ack : Bool} {mv : BitVec 10} {st : State} :
    MramSafe st (execAvsInterval s slack emerg ack mv st) :=
  .of_mram (by simp only [modAvs_mram, raise_mram, count_mram, avsRequest_mram, ite_mram, ite_self])

theorem execAvsEmergEnd_safe {s : SliceId} {st : State} : MramSafe st (execAvsEmergEnd s st) := by
  refine .of_mram ?_
  split <;> simp only [modAvs_mram, ite_mram, ite_self]

theorem execAvsHoldEnd_safe {s : SliceId} {st : State} : MramSafe st (execAvsHoldEnd s st) := by
  refine .of_mram ?_
  split <;> simp only [modAvs_mram, ite_mram, ite_self]

theorem execEngineLoopWindow_safe {s : SliceId} {d : Side} {load : BitVec 7} {st : State} :
    MramSafe st (execEngineLoopWindow s d load st) :=
  .of_mram (by simp only [modPool_mram, ite_mram, ite_self])

theorem execEngineDrainDone_safe {s : SliceId} {d : Side} {st : State} :
    MramSafe st (execEngineDrainDone s d st) :=
  .of_mram (by simp only [modPool_mram, ite_mram, ite_self])

theorem execEngineKatDone_safe {s : SliceId} {d : Side} {ok : Bool} {st : State} :
    MramSafe st (execEngineKatDone s d ok st) :=
  .of_mram (by simp only [engFailed_mram, modPool_mram, ite_mram, ite_self])

theorem execPortReset_safe {s : SliceId} {d : Side} {k : PortIx} {st : State} :
    MramSafe st (execPortReset s d k st) :=
  .of_wf fun h => cmdPF_wf h (portRstCmd_wf h)

theorem execPortResetDone_safe {st : State} : MramSafe st (execPortResetDone st) := by
  refine .of_mram ?_
  split <;> simp only [rstDone_mram, modGlb_mram]

theorem execPllUnlock_safe {pll : Nat} {lanes : Option (SliceId × Side)} {st : State} :
    MramSafe st (execPllUnlock pll lanes st) := by
  refine .of_wf fun h => ?_
  split
  · exact carmineHalt_wf h
  · refine h.of_mram ?_
    simp only [raise_mram, count_mram, foldl_mram, laneLost_mram, implies_true]

theorem execPwrfailNFall_safe {st : State} : MramSafe st (execPwrfailNFall st) :=
  .of_mram (by simp only [modGlb_mram, ite_mram, ite_self])

theorem execPwrfailGlitch_safe {st : State} : MramSafe st (execPwrfailGlitch st) :=
  .of_mram (by simp only [modGlb_mram, ite_mram, ite_self])

theorem execHoldUp_safe {st : State} : MramSafe st (execHoldUp st) := by
  refine .of_wf fun h => .ite (logRec_wf _ _ _ _ (h.of_mram ?_)) h
  simp only [jnlClose_mram, modTwin_mram, modGlb_mram, enterUmber_mram]

theorem execGlbUmberWrite_safe {d : Side} {mask : Word} {st : State} :
    MramSafe st (execGlbUmberWrite d mask st) :=
  .of_mram (viaPF_mram _ _ _ _ (wr_mram ..))

/-! ### Indigo messages (12) -/

theorem onMsg_safe {type : Nat} {m : MsgHdr} {items : List Nat} {eff : State → State} {st : State}
    (heff : ∀ st, (eff st).mram = st.mram) : MramSafe st (onMsg type m items eff st) := by
  have htake := takeMsg_mram type m items st
  refine .of_mram ?_
  split
  next h =>
    rw [h] at htake
    exact (heff _).trans htake
  next h => rwa [h] at htake

theorem execCapsuleStreamSend_safe {n : Nat} {st : State} : MramSafe st (execCapsuleStreamSend n st) :=
  .of_mram (by simp only [sendMsg_mram, streamStage_mram, modTwin_mram, ite_mram, ite_self])

theorem execCapsule_safe {m : MsgHdr} {xs : List CapItem} {st : State} : MramSafe st (execCapsule m xs st) :=
  onMsg_safe fun _ => capsule_mram ..

theorem execHello_safe {h : Hello} {st : State} : MramSafe st (execHello h st) := by
  unfold execHello
  dsimp only
  refine .of_mram ?_
  repeat' split
  all_goals simp only [modTwin_mram, join_mram, startStream_mram, keySession_mram, endSession_mram]

theorem execHeartbeat_safe {m : MsgHdr} {q : TwinState} {seen : Bool} {st : State} :
    MramSafe st (execHeartbeat m q seen st) :=
  onMsg_safe fun _ => heartbeat_mram ..

theorem execIndigoStep_safe {m : MsgHdr} {ticks : Nat} {st : State} : MramSafe st (execIndigoStep m ticks st) :=
  onMsg_safe fun _ => stepTicks_mram ..

theorem execDigest_safe {m : MsgHdr} {x : DigestSet} {st : State} : MramSafe st (execDigest m x st) :=
  onMsg_safe fun _ => modTwin_mram ..

theorem execHealth_safe {m : MsgHdr} {w : Word} {ready : BitVec 64} {st : State} :
    MramSafe st (execHealth m w ready st) :=
  onMsg_safe fun _ => modTwin_mram ..

theorem execLearnMessage_safe {m : MsgHdr} {s : SliceId} {cs : List MacChange} {st : State} :
    MramSafe st (execLearnMessage m s cs st) :=
  onMsg_safe fun _ => learned_mram ..

theorem execMirror_safe {m : MsgHdr} {ws : List MirWrite} {st : State} : MramSafe st (execMirror m ws st) :=
  onMsg_safe fun _ => mirror_mram ..

theorem execTimeMessage_safe {m : MsgHdr} {ns frac : Word} {st : State} :
    MramSafe st (execTimeMessage m ns frac st) :=
  onMsg_safe fun _ => followTime_mram ..

theorem execAckMessage_safe {m : MsgHdr} {high : BitVec 64} {missing : List Nat} {st : State} :
    MramSafe st (execAckMessage m high missing st) :=
  onMsg_safe fun _ => resend_mram ..

theorem execHelloSend_safe {st : State} : MramSafe st (execHelloSend st) :=
  .of_mram (by simp only [sendHello_mram, freshRand_mram, ite_mram, ite_self])

theorem everyUs_safe {last : TwinSt → Nat} {set : TwinSt → Nat → TwinSt} {type : Nat} {items : List Nat}
    {st : State} : MramSafe st (everyUs last set type items st) :=
  .of_mram (by simp only [sendMsg_mram, modTwin_mram, ite_mram, ite_self])

theorem execHeartbeatSend_safe {st : State} : MramSafe st (execHeartbeatSend st) := everyUs_safe

theorem execTimeSend_safe {st : State} : MramSafe st (execTimeSend st) := everyUs_safe

theorem execAckSend_safe {st : State} : MramSafe st (execAckSend st) := everyUs_safe

/-! ### Time base (11) -/

theorem execWrap_safe {st : State} : MramSafe st (execWrap st) :=
  .of_mram (by simp only [tick_mram, ite_mram, ite_self])

theorem execSlewDone_safe {st : State} : MramSafe st (execSlewDone st) :=
  .of_mram (by simp only [tick_mram, ite_mram, ite_self])

theorem execTsuNowRead_safe {st : State} : MramSafe st (execTsuNowRead st) := .of_mram rfl

theorem execStep_safe {mode force other : Bool} {st : State} : MramSafe st (execStep mode force other st) :=
  .of_mram (tsuCmdPF_mram ..)

theorem execSlew_safe {other : Bool} {st : State} : MramSafe st (execSlew other st) := .of_mram (tsuCmdPF_mram ..)

theorem execAbort_safe {other : Bool} {st : State} : MramSafe st (execAbort other st) := .of_mram (tsuCmdPF_mram ..)

theorem execPpsIn_safe {st : State} : MramSafe st (execPpsIn st) :=
  .of_mram (by simp only [modTsu_mram, perfSecond_mram, ite_mram, ite_self])

theorem execPpsOutRise_safe {st : State} : MramSafe st (execPpsOutRise st) :=
  .of_mram (by simp only [modTsu_mram, wr_mram, ite_mram, ite_self])

theorem execPpsOutFall_safe {st : State} : MramSafe st (execPpsOutFall st) :=
  .of_mram (by simp only [modTsu_mram, ite_mram, ite_self])

/-! ### The register file (18) -/

theorem execGlbUpdate_safe {mask : Word} {st : State} : MramSafe st (execGlbUpdate mask st) :=
  .of_mram (by simp only [viaPF_mram, glbUpdateTake_mram])

theorem execUpdateApply_safe {st : State} : MramSafe st (execUpdateApply st) :=
  .of_mram (by simp only [updateApply_mram, ite_mram, ite_self])

theorem execRegisterWrite_safe {fn : InstId} {a : Nat} {be : BitVec 4} {v : Word} {st : State} :
    MramSafe st (execRegisterWrite fn a be v st) :=
  .of_wf fun h => .ite (.ite h (h.of_mram (count_mram ..)))
    (.ite h (.ite (.ite (pfWrite_wf h) h) (h.of_mram (vfWrite_mram ..))))

/-! ### The start of a step epoch (12) -/

theorem execStepEpochBoundary_safe {st : State} : MramSafe st (execStepEpochBoundary st) :=
  .of_wf fun h => .ite (epochStart_wf h) h

theorem execDivergenceTestDone_safe {own partner : Bool} {st : State} :
    MramSafe st (execDivergenceTestDone own partner st) := by
  unfold execDivergenceTestDone
  dsimp only
  refine .of_mram ?_
  repeat' split
  all_goals simp only [modTwin_mram, setOutcome_mram, handOver_mram, toAlone_mram, raise_mram, toSyncing_mram]

/-! ### Management pins (21) -/

theorem execSmbusBlockRead_safe {cmd : Byte} {st : State} : MramSafe st (execSmbusBlockRead cmd st) := by
  refine .of_mram ?_
  split <;> simp only [emit_mram, ite_mram, ite_self]

theorem execAlertResponse_safe {st : State} : MramSafe st (execAlertResponse st) :=
  .of_mram (by simp only [emit_mram, ite_mram, ite_self])

theorem execJtagInstruction_safe {i : TapInstr} {rstLow : Bool} {data : Bytes} {st : State} :
    MramSafe st (execJtagInstruction i rstLow data st) := by
  unfold execJtagInstruction
  dsimp only
  split
  · rintro _ _ ⟨⟩
  · refine .of_mram ?_
    split <;> rfl

/-! ### One step -/

theorem exec_safe (c : Instr) (st : State) : MramSafe st (exec c st) := by
  cases c with
  | clientFrameRx => exact execClientFrameRx_safe
  | protectFrameEnd => exact execProtectFrameEnd_safe
  | frameEgressGrant => exact execFrameEgressGrant_safe
  | lineFrameRx => exact execLineFrameRx_safe
  | finalReplayCommit => exact execFinalReplayCommit_safe
  | recircEntry => exact execRecircEntry_safe
  | learn => exact execLearn_safe
  | rxPauseFrame => exact execRxPauseFrame_safe
  | pauseHoldEnd => exact execPauseHoldEnd_safe
  | pauseRepeat => exact execPauseRepeat_safe
  | headroomMeasure => exact execHeadroomMeasure_safe
  | fragAged => exact execFragAged_safe
  | fiHoldRelease => exact execFiHoldRelease_safe
  | fiArm => exact execFiArm_safe
  | fiDisarm => exact execFiDisarm_safe
  | laneSignalDetect => exact execLaneSignalDetect_safe
  | laneStepDone => exact execLaneStepDone_safe
  | precoderTryTimeout => exact execPrecoderTryTimeout_safe
  | laneTimeout => exact execLaneTimeout_safe
  | lossOfLock => exact execLossOfLock_safe
  | eqAtLimit => exact execEqAtLimit_safe
  | prsImapRead => exact execPrsImapRead_safe
  | prsImapWrite => exact execPrsImapWrite_safe
  | clsKprofWrite => exact execClsKprofWrite_safe
  | ruleRead => exact execRuleRead_safe
  | ruleWrite => exact execRuleWrite_safe
  | ruleRetire => exact execRuleRetire_safe
  | ruleCancel => exact execRuleCancel_safe
  | commit => exact execCommit_safe
  | commitApply => exact execCommitApply_safe
  | tblRead => exact execTblRead_safe
  | tblWrite => exact execTblWrite_safe
  | tblInsert => exact execTblInsert_safe
  | tblDelete => exact execTblDelete_safe
  | tblLookup => exact execTblLookup_safe
  | search => exact execSearch_safe
  | next => exact execNext_safe
  | flushPort => exact execFlushPort_safe
  | flushInstance => exact execFlushInstance_safe
  | fwdTblModeWrite => exact execFwdTblModeWrite_safe
  | maintEnter => exact execMaintEnter_safe
  | msCounterAdvance => exact execMsCounterAdvance_safe
  | ageTick => exact execAgeTick_safe
  | sweepVisit => exact execSweepVisit_safe
  | lpmScrub => exact execLpmScrub_safe
  | chRead => exact execChRead_safe
  | chWrite => exact execChWrite_safe
  | chDelete => exact execChDelete_safe
  | saRead => exact execSaRead_safe
  | saLoad => exact execSaLoad_safe
  | saActivate => exact execSaActivate_safe
  | saRetire => exact execSaRetire_safe
  | saClear => exact execSaClear_safe
  | sciFind => exact execSciFind_safe
  | slotChangeApply => exact execSlotChangeApply_safe
  | rootWrite => exact execRootWrite_safe
  | derive => exact execDerive_safe
  | nodeRead => exact execNodeRead_safe
  | invalidate => exact execInvalidate_safe
  | timerArm => exact execTimerArm_safe
  | timerDisarm => exact execTimerDisarm_safe
  | rxFire => exact execRxFire_safe
  | timerFired => exact execTimerFired_safe
  | lifecycleSweep => exact execLifecycleSweep_safe
  | preInstall => exact execPreInstall_safe
  | journalCommit => exact execJournalCommit_safe
  | journalHaltTimeout => exact execJournalHaltTimeout_safe
  | journalScanDone => exact execJournalScanDone_safe
  | pnjRead => exact execPnjRead_safe
  | find => exact execFind_safe
  | destroy => exact execDestroy_safe
  | tombDormant => exact execTombDormant_safe
  | ackDamage => exact execAckDamage_safe
  | ctfFrameBoundary => exact execCtfFrameBoundary_safe
  | ctfFrameRx => exact execCtfFrameRx_safe
  | fsyncEdge => exact execFsyncEdge_safe
  | align => exact execAlign_safe
  | perfSecond => exact execPerfSecond_safe
  | perfSecondClassify => exact execPerfSecondClassify_safe
  | traceExpWrite => exact execTraceExpWrite_safe
  | ctfFiArm => exact execCtfFiArm_safe
  | ctfFiDisarm => exact execCtfFiDisarm_safe
  | tribRead => exact execTribRead_safe
  | tribWrite => exact execTribWrite_safe
  | install => exact execInstall_safe
  | tribSwitch => exact execTribSwitch_safe
  | tribClear => exact execTribClear_safe
  | tribDelete => exact execTribDelete_safe
  | pmRead => exact execPmRead_safe
  | pageRead => exact execPageRead_safe
  | pageWrite => exact execPageWrite_safe
  | copy => exact execCopy_safe
  | swap => exact execSwap_safe
  | wrap => exact execWrap_safe
  | tsuNowRead => exact execTsuNowRead_safe
  | step => exact execStep_safe
  | slew => exact execSlew_safe
  | abort => exact execAbort_safe
  | slewDone => exact execSlewDone_safe
  | ppsIn => exact execPpsIn_safe
  | ppsOutRise => exact execPpsOutRise_safe
  | ppsOutFall => exact execPpsOutFall_safe
  | saffronStage => exact execSaffronStage_safe
  | saffronParserEntry => exact execSaffronParserEntry_safe
  | saffronSlotAccess => exact execSaffronSlotAccess_safe
  | saffronLaunch => exact execSaffronLaunch_safe
  | late => exact execLate_safe
  | claim => exact execClaim_safe
  | join => exact execJoin_safe
  | twinSwitch => exact execTwinSwitch_safe
  | leave => exact execLeave_safe
  | ownLineChange => exact execOwnLineChange_safe
  | ownAssert => exact execOwnAssert_safe
  | ownTxEnable => exact execOwnTxEnable_safe
  | stepEpochBoundary => exact execStepEpochBoundary_safe
  | divergenceTestDone => exact execDivergenceTestDone_safe
  | hello => exact execHello_safe
  | heartbeat => exact execHeartbeat_safe
  | indigoStep => exact execIndigoStep_safe
  | digest => exact execDigest_safe
  | health => exact execHealth_safe
  | mirror => exact execMirror_safe
  | learnMessage => exact execLearnMessage_safe
  | timeMessage => exact execTimeMessage_safe
  | capsule => exact execCapsule_safe
  | ackMessage => exact execAckMessage_safe
  | helloSend => exact execHelloSend_safe
  | heartbeatSend => exact execHeartbeatSend_safe
  | timeSend => exact execTimeSend_safe
  | ackSend => exact execAckSend_safe
  | capsuleStreamSend => exact execCapsuleStreamSend_safe
  | hbLost => exact execHbLost_safe
  | candidacyEnd => exact execCandidacyEnd_safe
  | doorbell => exact execDoorbell_safe
  | mbxRead => exact execMbxRead_safe
  | respond => exact execRespond_safe
  | vfMbxCtlRead => exact execVfMbxCtlRead_safe
  | enable => exact execEnable_safe
  | quiesce => exact execQuiesce_safe
  | quiesceDone => exact execQuiesceDone_safe
  | quiesceTimeout => exact execQuiesceTimeout_safe
  | freeze => exact execFreeze_safe
  | thaw => exact execThaw_safe
  | instanceReset => exact execInstanceReset_safe
  | remove => exact execRemove_safe
  | save => exact execSave_safe
  | restore => exact execRestore_safe
  | shareWrite => exact execShareWrite_safe
  | shareRead => exact execShareRead_safe
  | stateRead => exact execStateRead_safe
  | vfFlr => exact execVfFlr_safe
  | heldDescriptorResume => exact execHeldDescriptorResume_safe
  | park => exact execPark_safe
  | arcLoad => exact execArcLoad_safe
  | arcRead => exact execArcRead_safe
  | arcDelete => exact execArcDelete_safe
  | dramTrained => exact execDramTrained_safe
  | dqsRetrain => exact execDqsRetrain_safe
  | meeReadDone => exact execMeeReadDone_safe
  | patrolScrub => exact execPatrolScrub_safe
  | tamperTrip => exact execTamperTrip_safe
  | tamperRecordCommit => exact execTamperRecordCommit_safe
  | zeroiseDone => exact execZeroiseDone_safe
  | monitor => exact execMonitor_safe
  | causeCleared => exact execCauseCleared_safe
  | lock => exact execLock_safe
  | tamperAck => exact execTamperAck_safe
  | tmpRespWrite => exact execTmpRespWrite_safe
  | startupCheckDone => exact execStartupCheckDone_safe
  | logRead => exact execLogRead_safe
  | append => exact execAppend_safe
  | verify => exact execVerify_safe
  | evlRecordCommit => exact execEvlRecordCommit_safe
  | evlScanDone => exact execEvlScanDone_safe
  | powerOnReset => exact execPowerOnReset_safe
  | supplyMonitorReset => exact execSupplyMonitorReset_safe
  | deviceReset => exact execDeviceReset_safe
  | glbReset => exact execGlbReset_safe
  | imageSourceTry => exact execImageSourceTry_safe
  | bootDone => exact execBootDone_safe
  | download => exact execDownload_safe
  | stage => exact execStage_safe
  | setPref => exact execSetPref_safe
  | advanceSvn => exact execAdvanceSvn_safe
  | addKeys => exact execAddKeys_safe
  | revokeKey => exact execRevokeKey_safe
  | drain => exact execDrain_safe
  | drainDone => exact execDrainDone_safe
  | drainTimeout => exact execDrainTimeout_safe
  | sliceLoad => exact execSliceLoad_safe
  | sliceLoadChecked => exact execSliceLoadChecked_safe
  | sliceRunning => exact execSliceRunning_safe
  | resume => exact execResume_safe
  | avsInterval => exact execAvsInterval_safe
  | avsEmergEnd => exact execAvsEmergEnd_safe
  | avsHoldEnd => exact execAvsHoldEnd_safe
  | engineLoopWindow => exact execEngineLoopWindow_safe
  | engineDrainDone => exact execEngineDrainDone_safe
  | engineKatDone => exact execEngineKatDone_safe
  | portReset => exact execPortReset_safe
  | portResetDone => exact execPortResetDone_safe
  | pllUnlock => exact execPllUnlock_safe
  | pwrfailNFall => exact execPwrfailNFall_safe
  | pwrfailGlitch => exact execPwrfailGlitch_safe
  | holdUp => exact execHoldUp_safe
  | registerWrite => exact execRegisterWrite_safe
  | glbUpdate => exact execGlbUpdate_safe
  | updateApply => exact execUpdateApply_safe
  | evtRingEnable => exact execEvtRingEnable_safe
  | evtHeadWrite => exact execEvtHeadWrite_safe
  | msixModerationEnd => exact execMsixModerationEnd_safe
  | ringEnable => exact execRingEnable_safe
  | ringDisable => exact execRingDisable_safe
  | ringStopped => exact execRingStopped_safe
  | ringCtlRead => exact execRingCtlRead_safe
  | vfRingErrRead => exact execVfRingErrRead_safe
  | injectDescriptorRead => exact execInjectDescriptorRead_safe
  | injectFrameCopied => exact execInjectFrameCopied_safe
  | dmaErr => exact execDmaErr_safe
  | pfFlr => exact execPfFlr_safe
  | pciePerst => exact execPciePerst_safe
  | ctfFcRead => exact execCtfFcRead_safe
  | snapshot => exact execSnapshot_safe
  | snap => exact execSnap_safe
  | snapshotVisible => exact execSnapshotVisible_safe
  | counterFlush => exact execCounterFlush_safe
  | scRead => exact execScRead_safe
  | vfScRead => exact execVfScRead_safe
  | vfStatRead => exact execVfStatRead_safe
  | bwWindowEnd => exact execBwWindowEnd_safe
  | pcStart => exact execPcStart_safe
  | pcStop => exact execPcStop_safe
  | pcClear => exact execPcClear_safe
  | pcWrap => exact execPcWrap_safe
  | pmuCounterRead => exact execPmuCounterRead_safe
  | glbUmberWrite => exact execGlbUmberWrite_safe
  | sramScrub => exact execSramScrub_safe
  | smbusBlockRead => exact execSmbusBlockRead_safe
  | alertResponse => exact execAlertResponse_safe
  | jtagInstruction => exact execJtagInstruction_safe
  | meeWriteBack => exact execMeeWriteBack_safe
  | mr4TemperatureReport => exact execMr4TemperatureReport_safe
  | vfEnableClear => exact execVfEnableClear_safe
  | pcieLinkTraining => exact execPcieLinkTraining_safe
  | linkFaultSignallingRx => exact execLinkFaultSignallingRx_safe

/-- Settles O3: a command writes the MRAM die by its persistent counts, the journal's ring, the log and the image
preference alone, and each of these writes keeps the form. -/
theorem mramKeepsItsCanonicalForm : Obligations.MramKeepsItsCanonicalForm := by
  unfold Obligations.MramKeepsItsCanonicalForm
  intro s t hs ht
  unfold step at ht
  split at ht
  next =>
    cases ht
    exact MramWf.of_mram hs (tick_mram s)
  next c rest _ => exact exec_safe c { s with pending := rest } hs t ht

end Sys2Proof.Machine
end

section
/-!
PROOFS. The Ochre journal in service and its scan (09): what a record write does when its read-back matches and when it does
not, when nothing is written, the halt after 1 ms of failure, the scan of an empty ring, and O21 put together from them.
-/
namespace Sys2Proof.Machine

/-! ### The bytes of a ring position (09 R365) -/

@[simp] theorem length_memRead (m : Memory) (a n : Nat) : (memRead m a n).length = n := by
  induction n generalizing a with
  | zero => rfl
  | succ n ih => simp [memRead, ih]

/-- A write of at most 32 bytes at a ring position leaves every byte outside it. -/
theorem memByte_ringWrite_outside {st : State} {p a : Nat} {b : Bytes} (hb : b.length ≤ 32)
    (ha : a < ringBase + 32 * p ∨ ringBase + 32 * p + 32 ≤ a) : memByte (ringWrite st p b).mram a = memByte st.mram a :=
  memByte_memWrite_outside _ _ _ _ (by omega)

/-! ### What a record write leaves (09 R370, R371) -/

section Write
variable (st : State) (r : JReq) (seq : BitVec 56)

/-- The record that a request writes, under the SEQ it was given. -/
def recWritten : JRec := { seq := seq, tomb := r.tomb, kind := r.kind, fp := r.fp, value := valueOf st r }

/-- What a failed write leaves at its ring position: each bit of the old record or of the new one. -/
def tornBytes : Bytes :=
  ((ringRead st (nextPos st st.jnl.head)).zip ((recBytes (recWritten st r seq)).zip (draw st).1)).map
    (fun b => (b.1 &&& ~~~ b.2.2) ||| (b.2.1 &&& b.2.2))

theorem length_tornBytes_le : (tornBytes st r seq).length ≤ 32 := by
  rw [tornBytes, List.length_map, List.length_zip, ringRead, length_memRead]
  exact Nat.min_le_left _ _

/-- The state after a failed write of a record that is tried again, before the failure is counted and reported. -/
def writeTorn : State :=
  modJnl (ringWrite (draw st).2 (nextPos st st.jnl.head) (tornBytes st r seq)) (fun j => { j with
    badPos := j.badPos.put (nextPos st st.jnl.head) (j.badPos.getD (nextPos st st.jnl.head) 0 + 1)
    head := (nextPos st st.jnl.head + 1) % ringSize
    failingSince := j.failingSince.or (some (elNs st))
    writing := some ({ r with tries := r.tries + 1 }, seq) })

theorem ringWrite_slices (p : Nat) (b : Bytes) : (ringWrite st p b).slices = st.slices := rfl
theorem ringWrite_evl (p : Nat) (b : Bytes) : (ringWrite st p b).evl = st.evl := rfl
theorem draw_slices : (draw st).2.slices = st.slices := rfl
theorem draw_evl : (draw st).2.evl = st.evl := rfl
theorem count_slices (a : Nat) : (count st a).slices = st.slices := rfl
theorem count_evl (a : Nat) : (count st a).evl = st.evl := rfl

theorem writeTorn_slices : (writeTorn st r seq).slices = st.slices := by
  simp only [writeTorn, modJnl_slices, ringWrite_slices, draw_slices]

theorem writeTorn_evl : (writeTorn st r seq).evl = st.evl := by
  simp only [writeTorn, modJnl_evl, ringWrite_evl, draw_evl]

variable {r} in
theorem writeBad_of_forever (hu : forever r.use = true) :
    writeBad st r seq = raise (count (writeTorn st r seq) (Reg.pnjCnt 3))
      { block := 9, index := 2, ps := [nextPos st st.jnl.head] } := by
  simp only [writeBad, hu, Bool.true_or, if_true]
  rfl

end Write

section Raise
variable (st : State) (e : Event)

theorem raise_jnl : (raise st e).jnl = st.jnl := by rw [raise_only]
theorem raise_evl : (raise st e).evl = st.evl := by rw [raise_only]

end Raise

/-- Whether a tamper record has been passed is no matter of where the next record goes. -/
theorem nextPos_passed (st : State) (b : Bool) (p : Nat) : nextPos (modJnl st (fun j => { j with passed := b })) p = nextPos st p :=
  rfl

/-! ### The read-back (09 R370, R371, 15 R579) -/

section Commit
variable {st : State} {r : JReq} {seq : BitVec 56} (hserves : jnlWrites st = true)
  (hroom : (tamperWaits st && st.jnl.passed) = false) (hwriting : st.jnl.writing = some (r, seq))
include hserves hroom hwriting

/-- The record in writing is the one written, whatever else waits. -/
theorem exec_journalCommit_of_writing (ok : Bool) :
    exec (.journalCommit ok) st = .next
      (if ok then writeOk (modJnl st (fun j => { j with passed := tamperWaits st })) r seq
       else writeBad (modJnl st (fun j => { j with passed := tamperWaits st })) r seq) := by
  refine congrArg Host.Outcome.next ?_
  have hruns : ¬ (!jnlWrites st || (tamperWaits st && st.jnl.passed)) = true := by simp [hserves, hroom]
  have hw : (modJnl st (fun j => { j with passed := tamperWaits st })).jnl.writing = some (r, seq) := hwriting
  rw [if_neg hruns]
  simp only [hw]

theorem exec_journalCommit_of_match :
    exec (.journalCommit true) st = .next (committed (count (modJnl (ringWrite st (nextPos st st.jnl.head)
      (recBytes (recWritten st r seq))) (fun j => { j with
        index := (match heldRecord st r.fp with | some (q, _) => j.index.del q | none => j.index).put
          (nextPos st st.jnl.head) (recWritten st r seq)
        head := (nextPos st st.jnl.head + 1) % ringSize, writing := none, failingSince := none
        passed := tamperWaits st })) (Reg.pnjCnt 0)) r.use (nextPos st st.jnl.head)) :=
  (exec_journalCommit_of_writing hserves hroom hwriting true).trans rfl

theorem exec_journalCommit_of_failed (hu : forever r.use = true) :
    ∃ t, exec (.journalCommit false) st = .next t ∧
      t.jnl.writing = some ({ r with tries := r.tries + 1 }, seq) ∧
      t.jnl.head = (nextPos st st.jnl.head + 1) % ringSize ∧
      t.jnl.index = st.jnl.index ∧ t.jnl.failingSince = st.jnl.failingSince.or (some (elNs st)) ∧
      t.slices = st.slices ∧ t.evl = st.evl ∧
      ∀ a, (a < ringBase + 32 * nextPos st st.jnl.head ∨ ringBase + 32 * nextPos st st.jnl.head + 32 ≤ a) →
        memByte t.mram a = memByte st.mram a := by
  refine ⟨_, exec_journalCommit_of_writing hserves hroom hwriting false, ?_⟩
  have hpos : nextPos (modJnl st (fun j => { j with passed := tamperWaits st })) st.jnl.head = nextPos st st.jnl.head :=
    nextPos_passed st _ _
  generalize nextPos st st.jnl.head = p at hpos ⊢
  simp only [Bool.false_eq_true, if_false, writeBad_of_forever _ _ hu, raise_jnl, raise_mram, raise_slices, raise_evl,
    count_slices, count_evl, writeTorn_slices, writeTorn_evl]
  subst hpos
  exact ⟨rfl, rfl, rfl, rfl, modJnl_slices _ _, modJnl_evl _ _, fun a => memByte_ringWrite_outside (length_tornBytes_le _ r seq)⟩

end Commit

section Service
variable {st : State}

theorem exec_journalCommit_of_closed (h : jnlWrites st = false ∨ (tamperWaits st = true ∧ st.jnl.passed = true)) (ok : Bool) :
    exec (.journalCommit ok) st = .next st := by
  have hwaits : (!jnlWrites st || (tamperWaits st && st.jnl.passed)) = true := by simpa using h
  exact congrArg Host.Outcome.next (if_pos hwaits)

theorem exec_journalHaltTimeout_of_due {a : Nat} (ha : st.jnl.failingSince = some a) (hdue : a + 1000000 ≤ elNs st)
    (hrun : st.glb.halted = false) : exec .journalHaltTimeout st = .next (carmineHalt st 4 0 0 0 35 []) := by
  refine congrArg Host.Outcome.next ?_
  simp [ha, hdue, hrun]

/-- A ring of zero bytes has no record to index, to trim or to call damaged. -/
theorem exec_journalScanDone_of_empty (hready : st.jnl.ready = false) (hring : ringUsed st.mram = []) (bad : List Nat) :
    exec (.journalScanDone bad) st = .next (enablePorts (modJnl st (fun j => { j with
      ready := true, index := [], head := 0, nextSeq := 1 }))) := by
  have hwrap : (ringSize - 1 + 1) % ringSize = 0 := by decide
  refine congrArg Host.Outcome.next ?_
  simp only [hready, hring, Bool.false_eq_true, if_false, List.filterMap_nil, List.foldl_nil, List.filter_nil,
    List.length_nil, Nat.zero_sub, trimHeld, Option.map_none, Option.getD_none, hwrap]

end Service

/-- Settles O21: each clause is the equation above of its command's outcome. -/
theorem journalWritesCommitOrAreTriedAgain : Obligations.JournalWritesCommitOrAreTriedAgain := by
  intro st
  refine ⟨?writes, exec_journalCommit_of_closed, fun a => exec_journalHaltTimeout_of_due, exec_journalScanDone_of_empty⟩
  exact fun r seq hserves hroom hwriting =>
    ⟨exec_journalCommit_of_match hserves hroom hwriting, exec_journalCommit_of_failed hserves hroom hwriting⟩

end Sys2Proof.Machine
end

section
/-!
PROOFS. The frames and the performance seconds of 10: what an update of the constant-rate unit or of one of its lanes
does, what each step of a received frame leaves alone, one equation per outcome of each command, and O24 put together
from them.
-/
namespace Sys2Proof.Machine

/-! ### An update of the constant-rate unit or of a lane is what it does to the unit or lane as it stands -/

section Update
variable {st : State} {s : SliceId} {k : PortIx}

@[simp] theorem sl_modCtf_self (st : State) (s : SliceId) (f : CtfSt → CtfSt) :
    sl (modCtf st s f) s = { sl st s with ctf := f (sl st s).ctf } := by
  simp [modCtf]

@[simp] theorem ctfLane_modCtfLane_self (st : State) (s : SliceId) (k : PortIx) (f : CtfLaneSt → CtfLaneSt) :
    ctfLane (modCtfLane st s k f) s k = f (ctfLane st s k) := by
  simp [ctfLane, modCtfLane, upd]

theorem modCtfLane_congr {f g : CtfLaneSt → CtfLaneSt} (h : f (ctfLane st s k) = g (ctfLane st s k)) :
    modCtfLane st s k f = modCtfLane st s k g :=
  modSl_congr st s (congrArg (fun v => { sl st s with ctf := { (sl st s).ctf with lanes := v } }) (upd_congr h))

end Update

/-! ### Where registers and one slice alone may change -/

/-- From `st` to `t` registers and slice `s` alone may have changed. -/
structure CtfOnly (s : SliceId) (st t : State) : Prop where
  frame : t = { st with regs := t.regs, slices := t.slices }
  others : ∀ r : SliceId, r ≠ s → t.slices[r] = st.slices[r]

namespace CtfOnly
variable {s : SliceId} {st t u : State}

theorem refl (s : SliceId) (st : State) : CtfOnly s st st := ⟨rfl, fun _ _ => rfl⟩

theorem trans (h : CtfOnly s st t) (h' : CtfOnly s t u) : CtfOnly s st u :=
  ⟨by rw [h'.frame, h.frame], fun r hr => (h'.others r hr).trans (h.others r hr)⟩

theorem of_modCtf (st : State) (s : SliceId) (f : CtfSt → CtfSt) : CtfOnly s st (modCtf st s f) :=
  ⟨rfl, fun r hr => sl_modSl_ne st s r _ hr⟩

theorem of_countN (s : SliceId) (st : State) (a n : Nat) : CtfOnly s st (countN st a n) := ⟨rfl, fun _ _ => rfl⟩

/-- The image alone says which lanes are Tilora lanes (R416). -/
theorem isTilora_eq (h : CtfOnly s st t) (r : SliceId) (k : PortIx) : isTilora t r k = isTilora st r k := by
  rw [h.frame]; rfl

end CtfOnly

/-! ### What a step of a received frame leaves of its lane (10 R400, R406, R411-R414) -/

/-- What a received frame sets of its lane, the page phase and the lane's lock. -/
structure RxView where
  fc : BitVec 56
  farDefect : Bool
  bip : Word
  badFaw : Nat
  good : Nat
  phase : Bool
  lock : Bool

def rxView (x : CtfLaneSt) : RxView :=
  { fc := x.rxFc, farDefect := x.rdiRx, bip := x.bipRx, badFaw := x.badFaw, good := x.good, phase := x.rxPhase, lock := x.lock }

/-- A step of slice `s` that leaves what a frame has set of lane `k`, and adds no tributary to a slice without one. -/
structure RxKept (s : SliceId) (k : PortIx) (st t : State) : Prop where
  only : CtfOnly s st t
  view : rxView (ctfLane t s k) = rxView (ctfLane st s k)
  noTrib : (sl st s).ctf.trib = [] → (sl t s).ctf.trib = []

namespace RxKept
variable {s : SliceId} {k : PortIx} {st t u : State}

theorem refl (s : SliceId) (k : PortIx) (st : State) : RxKept s k st st := ⟨.refl s st, rfl, id⟩

theorem trans (h : RxKept s k st t) (h' : RxKept s k t u) : RxKept s k st u :=
  ⟨h.only.trans h'.only, h'.view.trans h.view, fun hn => h'.noTrib (h.noTrib hn)⟩

theorem of_modCtf {f : CtfSt → CtfSt} (hl : rxView (f (sl st s).ctf).lanes[k] = rxView (sl st s).ctf.lanes[k])
    (ht : (sl st s).ctf.trib = [] → (f (sl st s).ctf).trib = []) : RxKept s k st (modCtf st s f) :=
  ⟨.of_modCtf st s f, by simpa only [ctfLane, sl_modCtf_self] using hl, by simpa only [sl_modCtf_self] using ht⟩

theorem then_modCtfLane {f : CtfLaneSt → CtfLaneSt} (h : RxKept s k st t) (hf : ∀ x, rxView (f x) = rxView x) :
    RxKept s k st (modCtfLane t s k f) :=
  h.trans (of_modCtf (by simpa [upd] using hf _) id)

theorem then_count {a : Nat} (h : RxKept s k st t) : RxKept s k st (count t a) :=
  h.trans ⟨.of_countN s t a 1, rfl, id⟩

theorem badFaw (h : RxKept s k st t) : (ctfLane t s k).badFaw = (ctfLane st s k).badFaw := congrArg RxView.badFaw h.view
theorem good (h : RxKept s k st t) : (ctfLane t s k).good = (ctfLane st s k).good := congrArg RxView.good h.view
theorem phase (h : RxKept s k st t) : (ctfLane t s k).rxPhase = (ctfLane st s k).rxPhase := congrArg RxView.phase h.view
theorem lock (h : RxKept s k st t) : (ctfLane t s k).lock = (ctfLane st s k).lock := congrArg RxView.lock h.view

theorem of_revokeLane : RxKept s k st (revokeLane st s k) := of_modCtf rfl (by simp +contextual)

theorem of_markerRx {m : Option Bool} (hm : m ≠ some false) : RxKept s k st (markerRx st s k m) := by
  rcases m with _ | _ | _
  · exact refl s k st
  · exact absurd rfl hm
  · exact then_modCtfLane (refl s k st) fun _ => rfl

theorem of_traceByte (b : Byte) : RxKept s k st (traceByte st s k b) := by
  have hst := refl s k st
  unfold traceByte
  dsimp only
  split
  · exact hst
  · split
    · exact then_modCtfLane hst fun _ => rfl
    · split
      · exact then_count (then_modCtfLane hst fun _ => rfl)
      · exact then_modCtfLane (then_modCtfLane hst fun _ => rfl) fun _ => rfl

theorem of_ownerRx (j : Nat) (o : Byte) : RxKept s k st (ownerRx st s k j o) := by
  have hmis : RxKept s k st (modCtfLane st s k (fun x => { x with mapMis := x.mapMis - 1 })) :=
    then_modCtfLane (refl s k st) fun _ => rfl
  unfold ownerRx
  dsimp only
  split
  · exact hmis
  · exact then_count (then_modCtfLane hmis fun _ => rfl)

theorem of_labelRx (t fc : Nat) (l n : Byte) : RxKept s k st (labelRx st s t fc l n) := by
  unfold labelRx modTrib
  refine of_modCtf ?_ fun hn => ?_
  · split <;> rfl
  · simp only [hn, NMap.get?_nil]

theorem of_markDefects : RxKept s k st (markDefects st s) := by
  refine of_modCtf ?_ fun hn => ?_
  · simp only [Fin.getElem_fin, Vector.getElem_ofFn]
    split <;> rfl
  · simp only [hn, List.map_nil]

end RxKept

/-! ### A received frame, part by part (10 R400) -/

/-- BIP, frame count and far defect of the frame `b`. -/
def rxHeader (st : State) (s : SliceId) (k : PortIx) (b : Bytes) : State :=
  modCtfLane (bipRx st s k b) s k (fun x =>
    { x with rxFc := BitVec.ofNat 56 (beVal (sub b 6 7)), rdiRx := (byteAt b 13).getLsbD 6 })

/-- Its page phase against the last one, `phase`. -/
def rxPhased (st : State) (s : SliceId) (k : PortIx) (phase : Bool) (b : Bytes) : State :=
  if (byteAt b 13).getLsbD 7 = phase then st
  else if beVal (sub b 6 7) % 256 = 0 then rxSwap st s k else count st (Reg.ctfCnt s k 5)

/-- Its trace byte, slot owner and label; a Tilora lane has no labels. -/
def rxOverhead (st : State) (s : SliceId) (k : PortIx) (til : Bool) (b : Bytes) : State :=
  let fc := beVal (sub b 6 7)
  let st := ownerRx (traceByte st s k (byteAt b 14)) s k (fc % 256) (byteAt b 15)
  if til = true ∨ 240 ≤ fc % 256 then st else labelRx st s (tribNo k (fc % 256)) fc (byteAt b 20) (byteAt b 21)

/-- The whole frame `b`, its tributaries last. -/
def rxFrame (st : State) (s : SliceId) (k : PortIx) (til phase : Bool) (b : Bytes) : State :=
  markDefects (reserveLane (openLane (rxOverhead (rxPhased (rxHeader st s k b) s k phase b) s k til b) s k
    (beVal (sub b 6 7)) b) s k) s

section Frame
variable {st : State} {s : SliceId} {k : PortIx}

/-- The BIP and the number of frames are set last, after an errored block has counted. -/
theorem bipRx_eq (st : State) (s : SliceId) (k : PortIx) (b : Bytes) : ∃ t, RxKept s k st t ∧
    bipRx st s k b = modCtfLane t s k (fun x => { x with bipRx := bip32 b, good := x.good + 1 }) := by
  refine ⟨_, ?_, rfl⟩
  split
  · exact RxKept.then_count (RxKept.then_modCtfLane (.refl s k st) fun _ => rfl)
  · exact .refl s k st

theorem ctfOnly_rxHeader (st : State) (s : SliceId) (k : PortIx) (b : Bytes) : CtfOnly s st (rxHeader st s k b) := by
  obtain ⟨t, ht, hbip⟩ := bipRx_eq st s k b
  rw [rxHeader, hbip]
  exact ht.only.trans ((CtfOnly.of_modCtf t s _).trans (CtfOnly.of_modCtf _ s _))

theorem rxView_rxHeader (st : State) (s : SliceId) (k : PortIx) (b : Bytes) :
    rxView (ctfLane (rxHeader st s k b) s k) =
      { rxView (ctfLane st s k) with fc := BitVec.ofNat 56 (beVal (sub b 6 7)), farDefect := (byteAt b 13).getLsbD 6
                                     bip := bip32 b, good := (ctfLane st s k).good + 1 } := by
  obtain ⟨t, ht, hbip⟩ := bipRx_eq st s k b
  simp only [rxHeader, hbip, ctfLane_modCtfLane_self, rxView, ht.badFaw, ht.good, ht.phase, ht.lock]

theorem trib_rxHeader (hn : (sl st s).ctf.trib = []) (b : Bytes) : (sl (rxHeader st s k b) s).ctf.trib = [] := by
  obtain ⟨t, ht, hbip⟩ := bipRx_eq st s k b
  simpa only [rxHeader, hbip, modCtfLane, sl_modCtf_self] using ht.noTrib hn

theorem isTilora_rxHeader (st : State) (s : SliceId) (k : PortIx) (b : Bytes) :
    isTilora (rxHeader st s k b) s k = isTilora st s k :=
  (ctfOnly_rxHeader st s k b).isTilora_eq s k

theorem isTilora_rxPhased (st : State) (s : SliceId) (k : PortIx) (phase : Bool) (b : Bytes) :
    isTilora (rxPhased st s k phase b) s k = isTilora st s k := by
  simp only [rxPhased]
  split
  · rfl
  · split <;> rfl

theorem isTilora_traceByte (st : State) (s : SliceId) (k : PortIx) (b : Byte) :
    isTilora (traceByte st s k b) s k = isTilora st s k :=
  (RxKept.of_traceByte b).only.isTilora_eq s k

theorem isTilora_ownerRx (st : State) (s : SliceId) (k : PortIx) (j : Nat) (o : Byte) :
    isTilora (ownerRx st s k j o) s k = isTilora st s k :=
  (RxKept.of_ownerRx (k := k) j o).only.isTilora_eq s k

theorem RxKept.of_rxOverhead (til : Bool) (b : Bytes) : RxKept s k st (rxOverhead st s k til b) := by
  unfold rxOverhead
  have howner := (RxKept.of_traceByte (s := s) (k := k) (st := st) (byteAt b 14)).trans
    (.of_ownerRx (beVal (sub b 6 7) % 256) (byteAt b 15))
  dsimp only
  split
  · exact howner
  · exact howner.trans (.of_labelRx _ _ _ _)

theorem laneTribs_of_no_trib (k : PortIx) (hn : (sl st s).ctf.trib = []) : laneTribs st s k = [] := by
  simp [laneTribs, hn]

theorem openLane_of_no_trib {fc : Nat} {b : Bytes} (htil : isTilora st s k = false) (hnone : laneTribs st s k = []) :
    openLane st s k fc b = st := by
  simp [openLane, htil, hnone]

theorem reserveLane_of_no_trib (hnone : laneTribs st s k = []) : reserveLane st s k = st := by
  simp [reserveLane, hnone]

theorem laneCfg_of_isCtf (h : isCtf st s k = true) : (laneCfg st .line s k).ctf = true := by
  simp only [isCtf, Bool.and_eq_true] at h
  exact h.2

theorem portLost_img (d : Side) (st : State) : (portLost st (.lane d s k)).img = st.img := by
  simp only [portLost]
  split <;> rfl

/-- A CTF lane that goes back from READY loses its frame lock (R386). -/
theorem lock_laneBack {g : LaneStage} (hready : (laneOf st (.lane .line s k)).stage = .ready)
    (hcfg : (laneCfg st .line s k).ctf = true) : (ctfLane (laneBack st (.lane .line s k) g) s k).lock = false := by
  have himg : (portLost (setStage g st (.lane .line s k)) (.lane .line s k)).img = st.img :=
    (portLost_img .line _).trans (setStage_img g st _)
  have hctf : (laneCfg (portLost (setStage g st (.lane .line s k)) (.lane .line s k)) .line s k).ctf = true := by
    simpa only [laneCfg, himg] using hcfg
  simp [laneBack, hready, ctfLof, hctf, ctfLane, upd]

section Locked
variable (hctf : isCtf st s k = true) (hready : (laneOf st (.lane .line s k)).stage = .ready)
  (hlock : (ctfLane st s k).lock = true) (hrun : st.glb.halted = false)
include hctf hready hlock hrun

/-- A frame of a lane in frame lock is judged by its marker and its FAW, and taken where the lane keeps its lock. -/
theorem exec_ctfFrameRx_of_locked (m : Option Bool) (f : Bytes) :
    exec (.ctfFrameRx s k ⟨m, f⟩) st = .next
      (let st := markerRx (revokeLane st s k) s k m
       let st := if (ctfLane st s k).lock then fawRx st s k f else st
       if !(ctfLane st s k).lock then markDefects st s
       else rxFrame st s k (isTilora st s k) (ctfLane st s k).rxPhase (ctfScramble (padTo (ctfLen (isTilora st s k)) f))) := by
  refine congrArg Host.Outcome.next ?_
  rw [if_neg (by simp [hctf, hrun]), if_neg (by simp [hready]), if_neg (by simp [hready, hlock])]
  dsimp only
  generalize (if (ctfLane (markerRx (revokeLane st s k) s k m) s k).lock = true then
    fawRx (markerRx (revokeLane st s k) s k m) s k f else markerRx (revokeLane st s k) s k m) = u
  refine ite_congr rfl (fun _ => rfl) fun _ => ?_
  generalize ctfScramble (padTo (ctfLen (isTilora u s k)) f) = b
  have hphase : (ctfLane (rxHeader u s k b) s k).rxPhase = (ctfLane u s k).rxPhase :=
    congrArg RxView.phase (rxView_rxHeader u s k b)
  rw [← rxHeader, hphase, ← rxPhased]
  simp only [rxFrame, rxOverhead, isTilora_ownerRx, isTilora_traceByte, isTilora_rxPhased, isTilora_rxHeader,
    Bool.or_eq_true, decide_eq_true_eq]

/-- A frame with its FAW, at which no marker is missed, is taken whole. -/
theorem exec_ctfFrameRx_of_faw {m : Option Bool} {f : Bytes} (hm : m ≠ some false) (hfaw : f.take 6 = faw) :
    exec (.ctfFrameRx s k ⟨m, f⟩) st = .next
      (rxFrame (modCtfLane (markerRx (revokeLane st s k) s k m) s k (fun x => { x with badFaw := 0 })) s k
        (isTilora st s k) (ctfLane st s k).rxPhase (ctfScramble (padTo (ctfLen (isTilora st s k)) f))) := by
  have hkept : RxKept s k st (markerRx (revokeLane st s k) s k m) := RxKept.of_revokeLane.trans (.of_markerRx hm)
  have hfawRx (u : State) : fawRx u s k f = modCtfLane u s k (fun x => { x with badFaw := 0 }) := if_pos hfaw
  have htil : ∀ g, isTilora (modCtfLane (markerRx (revokeLane st s k) s k m) s k g) s k = isTilora st s k :=
    fun g => (hkept.only.trans (.of_modCtf _ s _)).isTilora_eq s k
  rw [exec_ctfFrameRx_of_locked hctf hready hlock hrun]
  simp only [hkept.lock, hlock, hfawRx, if_true, ctfLane_modCtfLane_self, hkept.phase, htil, Bool.not_true,
    Bool.false_eq_true, if_false]

/-- At the fifth frame in a row without the FAW the lane goes back to step 5 (R386). -/
theorem exec_ctfFrameRx_of_fifth_bad {f : Bytes} (hfaw : f.take 6 ≠ faw) (hbad : (ctfLane st s k).badFaw = 4) :
    exec (.ctfFrameRx s k ⟨none, f⟩) st = .next (markDefects
      (laneBack (modCtfLane (revokeLane st s k) s k (fun x => { x with badFaw := 5 })) (.lane .line s k) .pcsLock) s) := by
  have hkept : RxKept s k st (revokeLane st s k) := .of_revokeLane
  have hfive : modCtfLane (revokeLane st s k) s k (fun x => { x with badFaw := x.badFaw + 1 }) =
      modCtfLane (revokeLane st s k) s k (fun x => { x with badFaw := 5 }) :=
    modCtfLane_congr (by simp only [hkept.badFaw, hbad])
  have hback : fawRx (revokeLane st s k) s k f = laneBack (modCtfLane (revokeLane st s k) s k (fun x =>
      { x with badFaw := 5 })) (.lane .line s k) .pcsLock := by
    simp only [fawRx, if_neg hfaw, hfive, ctfLane_modCtfLane_self, Nat.lt_irrefl, if_false]
  have hlost := lock_laneBack (g := .pcsLock) (st := modCtfLane (revokeLane st s k) s k (fun x => { x with badFaw := 5 }))
    (by simpa [laneOf, modCtfLane, revokeLane] using hready) (laneCfg_of_isCtf hctf)
  rw [exec_ctfFrameRx_of_locked hctf hready hlock hrun]
  simp only [markerRx, hkept.lock, hlock, if_true, hback, hlost, Bool.not_false]

end Locked

/-- Without a tributary a frame's header and overhead are all that is taken of it. -/
theorem RxKept.of_rxFrame_of_no_trib {b : Bytes} (htil : isTilora st s k = false) (hn : (sl st s).ctf.trib = []) :
    RxKept s k (rxHeader st s k b) (rxFrame st s k false ((byteAt b 13).getLsbD 7) b) := by
  have hover : RxKept s k (rxHeader st s k b) (rxOverhead (rxHeader st s k b) s k false b) := .of_rxOverhead false b
  have htil' : isTilora (rxOverhead (rxHeader st s k b) s k false b) s k = false :=
    (hover.only.isTilora_eq s k).trans ((isTilora_rxHeader st s k b).trans htil)
  have hnone := laneTribs_of_no_trib k (hover.noTrib (trib_rxHeader hn b))
  rw [rxFrame, rxPhased, if_pos rfl, openLane_of_no_trib htil' hnone, reserveLane_of_no_trib hnone]
  exact hover.trans .of_markDefects

/-- A frame with its FAW, of a lane whose slice has no tributary, leaves its count, its far defect, its BIP and its number,
and registers and the slice alone change. -/
theorem rxFrame_of_no_trib {b : Bytes} (htil : isTilora st s k = false)
    (hn : (sl st s).ctf.trib = []) (hphase : (byteAt b 13).getLsbD 7 = (ctfLane st s k).rxPhase) {t : State}
    (ht : t = rxFrame (modCtfLane (revokeLane st s k) s k (fun x => { x with badFaw := 0 })) s k false
      (ctfLane st s k).rxPhase b) :
    CtfOnly s st t ∧ rxView (ctfLane t s k) =
      { rxView (ctfLane st s k) with fc := BitVec.ofNat 56 (beVal (sub b 6 7)), farDefect := (byteAt b 13).getLsbD 6
                                     bip := bip32 b, badFaw := 0, good := (ctfLane st s k).good + 1 } := by
  have hrevoke : RxKept s k st (revokeLane st s k) := .of_revokeLane
  have hu : CtfOnly s st (modCtfLane (revokeLane st s k) s k (fun x => { x with badFaw := 0 })) :=
    hrevoke.only.trans (.of_modCtf _ s _)
  have hnu : (sl (modCtfLane (revokeLane st s k) s k (fun x => { x with badFaw := 0 })) s).ctf.trib = [] := by
    simpa only [modCtfLane, sl_modCtf_self] using hrevoke.noTrib hn
  have hframe := RxKept.of_rxFrame_of_no_trib (b := b) ((hu.isTilora_eq s k).trans htil) hnu
  rw [hphase, ← ht] at hframe
  refine ⟨hu.trans ((ctfOnly_rxHeader _ s k b).trans hframe.only), hframe.view.trans ((rxView_rxHeader _ s k b).trans ?_)⟩
  simp only [ctfLane_modCtfLane_self, rxView, hrevoke.good, hrevoke.phase, hrevoke.lock]

theorem exec_ctfFrameRx_of_seeking {m : Option Bool} {f : Bytes} (hctf : isCtf st s k = true)
    (hstage : (laneOf st (.lane .line s k)).stage = .pcsLock) (hrun : st.glb.halted = false) :
    exec (.ctfFrameRx s k ⟨m, f⟩) st = .next (seekRx st s k f) := by
  refine congrArg Host.Outcome.next ?_
  rw [if_neg (by simp [hctf, hrun]), if_pos (by simp [hstage])]

theorem exec_ctfFrameRx_of_off {m : Option Bool} {f : Bytes} (h : isCtf st s k = false ∨ st.glb.halted = true) :
    exec (.ctfFrameRx s k ⟨m, f⟩) st = .next st :=
  congrArg Host.Outcome.next (if_pos (by simpa using h))

end Frame

/-! ### A frame boundary (10 R380, R410) -/

section Boundary
variable {st : State} {s : SliceId} (blocks : List (PortIx × List (Option (BitVec 66))))

theorem exec_ctfFrameBoundary_of_on (hon : sliceOn st s = true) (hrun : st.glb.halted = false) :
    exec (.ctfFrameBoundary s blocks) st =
      let sent := dropBlocks (ports8.foldl (sendCtf s) (modCtf (addBlocks st s blocks) s fsyncMove)) s
      .next (markDefects ((sl sent s).ctf.trib.foldl (slipRead s) sent) s) :=
  congrArg Host.Outcome.next (if_neg (by simp [hon, hrun]))

theorem exec_ctfFrameBoundary_of_off (h : sliceOn st s = false ∨ st.glb.halted = true) :
    exec (.ctfFrameBoundary s blocks) st = .next st :=
  congrArg Host.Outcome.next (if_pos (by simpa using h))

end Boundary

/-! ### Performance seconds (10 R418, R420) -/

theorem mem_slices4 : ∀ r : SliceId, r ∈ slices4 := by decide
theorem nodup_slices4 : slices4.Nodup := by decide

section Seconds
variable {st : State}

theorem exec_perfSecond_of_due (h : ∀ r : SliceId, (sl st r).ctf.secStart + 1000100000 ≤ elNs st) :
    exec .perfSecond st = .next (perfSecond st) :=
  congrArg Host.Outcome.next (if_pos (by simpa using fun r _ => h r))

theorem exec_perfSecond_of_early {r : SliceId} (h : elNs st < (sl st r).ctf.secStart + 1000100000) :
    exec .perfSecond st = .next st := by
  refine congrArg Host.Outcome.next (if_neg fun hall => ?_)
  have := List.all_eq_true.mp hall r (mem_slices4 r)
  exact absurd h (Nat.not_lt.mpr (by simpa using this))

end Seconds

/-! ### Classing the finished seconds (10 R420) -/

/-- A lane after the seconds that are known at instant `el` are classed. -/
def laneClassed (el : Nat) (x : CtfLaneSt) : CtfLaneSt := { x with perf := (perfClass el x.perf).1 }

/-- A tributary after that: its own counters count the classes. -/
def tribClassed (el : Nat) (x : TribSt) : TribSt :=
  let r := perfClass el x.perf
  { x with perf := { r.1 with es := r.1.es + BitVec.ofNat 32 r.2.1, ses := r.1.ses + BitVec.ofNat 32 r.2.2.1
                              uas := r.1.uas + BitVec.ofNat 32 r.2.2.2 } }

/-- A slice after that. -/
def sliceClassed (el : Nat) (x : SliceSt) : SliceSt :=
  { x with ctf := { x.ctf with lanes := x.ctf.lanes.map (laneClassed el)
                               trib := x.ctf.trib.map (fun p => (p.1, tribClassed el p.2)) } }

/-- One lane is classed, and its classes are counted. -/
def classLane (el : Nat) (s : SliceId) (st : State) (k : PortIx) : State :=
  let r := perfClass el (ctfLane st s k).perf
  countN (countN (countN (modCtfLane st s k (fun x => { x with perf := r.1 })) (Reg.ctfCnt s k 1) r.2.1)
    (Reg.ctfCnt s k 2) r.2.2.1) (Reg.ctfCnt s k 3) r.2.2.2

/-- One slice is classed, lane by lane, then its tributaries. -/
def classSlice (el : Nat) (st : State) (s : SliceId) : State :=
  modCtf (ports8.foldl (classLane el s) st) s (fun c => { c with trib := c.trib.map (fun p => (p.1, tribClassed el p.2)) })

theorem exec_perfSecondClassify_eq (st : State) :
    exec .perfSecondClassify st = .next (slices4.foldl (classSlice (elNs st)) st) := rfl

/-- A store whose values are mapped holds the mapped value where it held one. -/
theorem NMap.get?_map_val {α β : Type} (f : α → β) (m : NMap α) (n : Nat) :
    NMap.get? (m.map (fun p => (p.1, f p.2))) n = (m.get? n).map f := by
  induction m with
  | nil => rfl
  | cons p m ih =>
    simp only [List.map_cons, NMap.get?_cons, ih]
    split <;> rfl

section Classify
variable (el : Nat)

variable {el : Nat} {s : SliceId} {st : State}

theorem CtfOnly.of_classLane (k : PortIx) : CtfOnly s st (classLane el s st k) :=
  (CtfOnly.of_modCtf st s _).trans ((CtfOnly.of_countN s _ _ _).trans ((CtfOnly.of_countN s _ _ _).trans
    (CtfOnly.of_countN s _ _ _)))

theorem sl_classLane (k : PortIx) : sl (classLane el s st k) s =
    { sl st s with ctf := { (sl st s).ctf with lanes := upd (sl st s).ctf.lanes k (laneClassed el) } } := by
  have hlane : modCtfLane st s k (fun x => { x with perf := (perfClass el (ctfLane st s k).perf).1 }) =
      modCtfLane st s k (laneClassed el) := modCtfLane_congr rfl
  change sl (modCtfLane st s k (fun x => { x with perf := (perfClass el (ctfLane st s k).perf).1 })) s = _
  rw [hlane, modCtfLane, sl_modCtf_self]

theorem CtfOnly.of_classSlice : CtfOnly s st (classSlice el st s) :=
  (List.foldlRecOn (motive := CtfOnly s st) ports8 _ (.refl s st) fun _ h k _ => h.trans (.of_classLane k)).trans
    (.of_modCtf _ s _)

/-- The lanes are classed one after the other, each as it stood before. -/
theorem sl_foldl_classLane (l : List PortIx) (st : State) : sl (l.foldl (classLane el s) st) s =
    { sl st s with ctf := { (sl st s).ctf with
      lanes := l.foldl (fun v k => upd v k (laneClassed el)) (sl st s).ctf.lanes } } := by
  induction l generalizing st with
  | nil => rfl
  | cons k l ih => simp only [List.foldl_cons, ih, sl_classLane]

/-- An element whose index the list names is updated once, any other not at all. -/
theorem getElem_foldl_upd {α : Type} {n : Nat} (f : α → α) {l : List (Fin n)} (hl : l.Nodup) (v : Vector α n) (i : Fin n) :
    (l.foldl (fun v k => upd v k f) v)[i] = if i ∈ l then f v[i] else v[i] := by
  induction l generalizing v with
  | nil => rfl
  | cons k l ih =>
    obtain ⟨hk, hl⟩ := List.nodup_cons.mp hl
    rw [List.foldl_cons, ih hl]
    by_cases hi : i = k
    · subst hi
      have hself : (upd v i f)[i] = f v[i] := Vector.getElem_set_self _
      simp only [hk, if_false, List.mem_cons_self, if_true, hself]
    · simp only [upd_ne v f hi, List.mem_cons, hi, false_or]

theorem mem_ports8 : ∀ k : PortIx, k ∈ ports8 := by decide
theorem nodup_ports8 : ports8.Nodup := by decide

/-- An update of each of the eight lanes in turn is one of all. -/
theorem foldl_upd_ports8 {α : Type} (f : α → α) (v : Vector α 8) : ports8.foldl (fun v k => upd v k f) v = v.map f := by
  refine Vector.ext fun i hi => ?_
  have hone := getElem_foldl_upd f nodup_ports8 v ⟨i, hi⟩
  rw [if_pos (mem_ports8 _)] at hone
  rw [Vector.getElem_map]
  exact hone

theorem sl_classSlice : sl (classSlice el st s) s = sliceClassed el (sl st s) := by
  simp only [classSlice, sl_modCtf_self, sl_foldl_classLane, foldl_upd_ports8, sliceClassed]

/-- A slice of the list is classed once, any other not at all. -/
theorem sl_foldl_classSlice {l : List SliceId} (hl : l.Nodup) (st : State) (r : SliceId) :
    sl (l.foldl (classSlice el) st) r = if r ∈ l then sliceClassed el (sl st r) else sl st r := by
  induction l generalizing st with
  | nil => rfl
  | cons s l ih =>
    obtain ⟨hs, hl⟩ := List.nodup_cons.mp hl
    rw [List.foldl_cons, ih hl]
    by_cases hr : r = s
    · subst hr
      simp only [hs, if_false, List.mem_cons_self, if_true, sl_classSlice]
    · have hother : sl (classSlice el st s) r = sl st r := CtfOnly.of_classSlice.others r hr
      simp only [hother, List.mem_cons, hr, false_or]

theorem foldl_classSlice_frame (l : List SliceId) :
    l.foldl (classSlice el) st =
      { st with regs := (l.foldl (classSlice el) st).regs, slices := (l.foldl (classSlice el) st).slices } :=
  List.foldlRecOn (motive := fun t : State => t = { st with regs := t.regs, slices := t.slices }) l _ rfl
    fun t ht r _ => by
      have hstep := (CtfOnly.of_classSlice (el := el) (s := r) (st := t)).frame
      rw [hstep, ht]

theorem sl_perfSecondClassify (r : SliceId) :
    sl (slices4.foldl (classSlice el) st) r = sliceClassed el (sl st r) := by
  rw [sl_foldl_classSlice nodup_slices4, if_pos (mem_slices4 r)]

/-- Classing seconds leaves the counts of classes to its caller. -/
theorem es_classify (n : Nat) (p : PerfSt) (a : Nat × Nat × Nat) : (classify el n p a).1.es = p.es := by
  induction n generalizing p a with
  | zero => rfl
  | succ n ih =>
    simp only [classify]
    split
    · rfl
    · split
      · rfl
      · exact ih _ _

theorem es_tribClassed (x : TribSt) :
    (tribClassed el x).perf.es = x.perf.es + BitVec.ofNat 32 (perfClass el x.perf).2.1 :=
  congrArg (· + BitVec.ofNat 32 (perfClass el x.perf).2.1) (es_classify x.perf.hist.length x.perf (0, 0, 0))

end Classify

/-- Settles O24: each clause is the equation above of its command's outcome; what a frame of a lane without tributaries
leaves is told by what its header sets and every later step keeps. -/
theorem ctfFramesAreSentAndTakenAtTheirBoundaries : Obligations.CtfFramesAreSentAndTakenAtTheirBoundaries := by
  intro st s
  refine ⟨fun blocks => exec_ctfFrameBoundary_of_on blocks, fun blocks => exec_ctfFrameBoundary_of_off blocks, ?taken,
    ?noTrib, fun k f hctf hready hlock hrun => exec_ctfFrameRx_of_fifth_bad hctf hready hlock hrun,
    fun k m f => exec_ctfFrameRx_of_seeking, fun k m f => exec_ctfFrameRx_of_off, exec_perfSecond_of_due,
    fun r => exec_perfSecond_of_early, ?classed⟩
  case taken =>
    exact fun k m f hctf hready hlock hrun hfaw hm => exec_ctfFrameRx_of_faw hctf hready hlock hrun hm hfaw
  case noTrib =>
    intro k f hctf hready hlock hrun htil hfaw hn b fc hphase
    have hexec := exec_ctfFrameRx_of_faw hctf hready hlock hrun (m := none) (by decide) hfaw
    rw [htil] at hexec
    obtain ⟨honly, hview⟩ := rxFrame_of_no_trib htil hn hphase rfl
    simp only [rxView, RxView.mk.injEq] at hview
    obtain ⟨hfc, hrdi, hbip, hbad, hgood, -, -⟩ := hview
    exact ⟨_, hexec, hfc, hrdi, hbip, hbad, hgood, honly.frame, honly.others⟩
  case classed =>
    refine ⟨_, exec_perfSecondClassify_eq st, foldl_classSlice_frame slices4, fun r k => ?_, fun r n x hx => ?_⟩
    · simp only [ctfLane, sl_perfSecondClassify, sliceClassed, Fin.getElem_fin, Vector.getElem_map, laneClassed]
    · refine ⟨tribClassed (elNs st) x, ?_, rfl, es_tribClassed x⟩
      simp only [trib?, sl_perfSecondClassify, sliceClassed, NMap.get?_map_val] at hx ⊢
      rw [hx, Option.map_some]

end Sys2Proof.Machine
end

section
/-!
PROOFS. Frame timing, the expected trace, the frame counts and the lane injectors of 10: one equation per outcome of each
command, and O25 put together from them.
-/
namespace Sys2Proof.Machine

/-- A command that one cause alone refuses answers with its code. -/
theorem pickCode_of_one_cause (st : State) {causes : List (Bool × Nat)} {code : Nat}
    (h : causes.filter (fun c => c.1) = [(true, code)]) : pickCode st causes = (code, st) := by
  simp [pickCode, h]

/-! ### Frame synchronisation (10 R409, R410, R422) -/

section FrameSync
variable {st : State} {s : SliceId}

/-- An edge that a package in single operation with FSYNC_EN measures is ignored or applied, as the range says. -/
theorem exec_fsyncEdge_of_enabled (hon : sliceOn st s = true) (hrun : st.glb.halted = false) (htwin : st.twin.state = .off)
    (hen : flagA st (Reg.ctfFsyncCfg s) Fld.ctfFsyncCfg_FSYNC_EN = true) {off : Int} (hlo : -5000 < off) (hhi : off ≤ 5000) :
    exec (.fsyncEdge s off) st = .next
      (if !(sl st s).ctf.alignArmed && (decide (off < -1000) || decide (1000 < off)) then
        modCtf st s (fun c => { c with ignored := if c.ignored = BitVec.allOnes 16 then c.ignored else c.ignored + 1 })
       else fsyncApply s off st) := by
  have hstandby : twinStandby st = false := by simp [twinStandby, htwin]
  have howner : twinOwner st = false := by simp [twinOwner, htwin]
  refine congrArg Host.Outcome.next ?_
  simp only [hon, hrun, hstandby, howner, hen, decide_eq_false (Int.not_le.mpr hlo), decide_eq_false (Int.not_lt.mpr hhi),
    Bool.not_true, Bool.or_self, Bool.false_eq_true, if_false]

theorem exec_align_of_atOnce (hopen : atOnce st (Reg.ctfFsyncStat s) = true) :
    exec (.align s) st = .next (modCtf st s (fun c => { c with alignArmed := true })) := by
  have hstrobe : bitW (word [(Fld.ctfFsyncStat_ALIGN, 1)]) 31 = true := by decide
  refine congrArg Host.Outcome.next ((viaPF_atOnce _ _ _ _ hopen).trans ?_)
  simp only [alignStrobe, hstrobe, if_true]

end FrameSync

/-! ### Expected trace and frame counts (10 R415, R423) -/

section Counts
variable {st : State} {s : SliceId} {k : PortIx}

theorem exec_traceExpWrite_of_atOnce {w : Fin 4} {v : Word} (hopen : atOnce st (Reg.ctfTraceExp s k w) = true) :
    exec (.traceExpWrite s k w v) st = .next (modCtfLane (wr st (Reg.ctfTraceExp s k w) v) s k (fun x =>
      { x with traceAcc := none, traceCand := [], traceCount := 0 })) :=
  congrArg Host.Outcome.next (viaPF_atOnce _ _ _ _ hopen)

variable (hon : sliceOn st s = true)
include hon

theorem exec_ctfFcRead_received :
    exec (.ctfFcRead s k true) st = .next { modCtfLane st s k (fun x =>
      { x with rxLatch := ((ctfLane st s k).rxFc >>> 32).setWidth 32 }) with lastRead := (ctfLane st s k).rxFc.setWidth 32 } := by
  refine congrArg Host.Outcome.next ?_
  simp only [hon, Bool.not_true, Bool.false_eq_true, if_false, if_true]

theorem exec_ctfFcRead_sent :
    exec (.ctfFcRead s k false) st = .next { modCtfLane st s k (fun x =>
      { x with fcLatch := (txFcNow (ctfLane st s k) >>> 32).setWidth 32 }) with
        lastRead := (txFcNow (ctfLane st s k)).setWidth 32 } := by
  refine congrArg Host.Outcome.next ?_
  simp only [hon, Bool.not_true, Bool.false_eq_true, if_false]

end Counts

/-! ### The injector of a CTF lane (10 R421, Table 2-7) -/

/-- A write of the strobes of CTF_FI_CMD. -/
def ctfFiWord (arm dis : Bool) : Word := word [(Fld.ctfFiCmd_ARM, b2n arm), (Fld.ctfFiCmd_DISARM, b2n dis)]

/-- Bit 31 of the word is ARM, bit 30 DISARM. -/
theorem bitW_ctfFiWord_arm (arm dis : Bool) : bitW (ctfFiWord arm dis) 31 = arm := by
  cases arm <;> cases dis <;> decide
theorem bitW_ctfFiWord_disarm (arm dis : Bool) : bitW (ctfFiWord arm dis) 30 = dis := by
  cases arm <;> cases dis <;> decide

section Injector
variable {st : State} {s : SliceId} {k : PortIx}

section Command
variable (hopen : atOnce st (Reg.ctfFiCmd s k) = true) (other : Bool)
include hopen

theorem exec_ctfFiArm_of_atOnce :
    exec (.ctfFiArm s k other) st = .next (ctfFiStrobe s k (ctfFiWord true other) st) :=
  congrArg Host.Outcome.next (viaPF_atOnce _ _ _ _ hopen)

theorem exec_ctfFiDisarm_of_atOnce :
    exec (.ctfFiDisarm s k other) st = .next (ctfFiStrobe s k (ctfFiWord other true) st) :=
  congrArg Host.Outcome.next (viaPF_atOnce _ _ _ _ hopen)

end Command

variable (hctf : isCtf st s k = true)
include hctf

theorem ctfFiStrobe_arm (hlog : logFull st = false) (hun : (ctfLane st s k).fi.armed = false)
    (hset : getF (rdA st (Reg.ctfFiCfg s k)) Fld.ctfFiCfg_ACTION = 1 ∨
      (getF (rdA st (Reg.ctfFiCfg s k)) Fld.ctfFiCfg_ACTION = 0 ∧ getF (rdA st (Reg.ctfFiSel s k)) Fld.ctfFiSel_OFFSET < 4)) :
    ctfFiStrobe s k (ctfFiWord true false) st =
      let cfg := rdA st (Reg.ctfFiCfg s k)
      let sel := rdA st (Reg.ctfFiSel s k)
      fiRecord (setF (modCtfLane st s k (fun x => { x with fi := { armed := true, cfg := cfg, sel := sel } }))
        (Reg.ctfFiStat s k) Fld.ctfFiStat_RESULT 0) 33 2 s k cfg sel := by
  have hgood : (decide (2 ≤ getF (rdA st (Reg.ctfFiCfg s k)) Fld.ctfFiCfg_ACTION) ||
      (getF (rdA st (Reg.ctfFiCfg s k)) Fld.ctfFiCfg_ACTION == 0 &&
        decide (4 ≤ getF (rdA st (Reg.ctfFiSel s k)) Fld.ctfFiSel_OFFSET))) = false := by
    rcases hset with h | ⟨h, hoff⟩
    · simp [h]
    · simp [h, Nat.not_le.mpr hoff]
  simp only [ctfFiStrobe, bitW_ctfFiWord_arm, bitW_ctfFiWord_disarm, hgood]
  rw [pickCode_of_no_cause]
  · rfl
  · simp [hctf, hlog, hun]

theorem ctfFiStrobe_disarm (hlog : logFull st = false) (harm : (ctfLane st s k).fi.armed = true) :
    ctfFiStrobe s k (ctfFiWord false true) st =
      fiRecord (setF (modCtfLane st s k (fun x => { x with fi := { x.fi with armed := false } }))
        (Reg.ctfFiStat s k) Fld.ctfFiStat_RESULT 0) 34 2 s k (ctfLane st s k).fi.cfg (ctfLane st s k).fi.sel := by
  simp only [ctfFiStrobe, bitW_ctfFiWord_arm, bitW_ctfFiWord_disarm]
  rw [pickCode_of_no_cause]
  · rfl
  · simp [hctf, hlog, harm]

theorem ctfFiStrobe_both (hlog : logFull st = false) :
    ctfFiStrobe s k (ctfFiWord true true) st = setF st (Reg.ctfFiStat s k) Fld.ctfFiStat_RESULT 4 := by
  simp only [ctfFiStrobe, bitW_ctfFiWord_arm, bitW_ctfFiWord_disarm]
  rw [pickCode_of_one_cause (code := 4)]
  · rfl
  · simp [hctf, hlog]

theorem ctfFiStrobe_disarm_of_logFull (hlog : logFull st = true) (harm : (ctfLane st s k).fi.armed = true) :
    ctfFiStrobe s k (ctfFiWord false true) st = setF st (Reg.ctfFiStat s k) Fld.ctfFiStat_RESULT 3 := by
  simp only [ctfFiStrobe, bitW_ctfFiWord_arm, bitW_ctfFiWord_disarm]
  rw [pickCode_of_one_cause (code := 3)]
  · rfl
  · simp [hctf, hlog, harm]

end Injector

/-- Settles O25: each clause is the equation above of its command's outcome. -/
theorem frameSyncTraceAndInjectorsOfCtfLanes : Obligations.FrameSyncTraceAndInjectorsOfCtfLanes := by
  intro st s
  refine ⟨fun hon hrun htwin hen off => ⟨fun hrange => ?near, fun harm hrange hmore => ?far⟩, exec_align_of_atOnce,
    fun k w v => exec_traceExpWrite_of_atOnce, fun k hon => ⟨exec_ctfFcRead_received hon, exec_ctfFcRead_sent hon⟩,
    fun k hopen hctf => ⟨fun hlog hun hset => ?arm, fun hlog harm => ?disarm, fun hlog => ?both, fun hlog harm => ?full⟩⟩
  case near =>
    have hin : ((sl st s).ctf.alignArmed = true) ∨ (¬ off < -1000 ∧ ¬ 1000 < off) := by
      rcases hrange with ⟨h1, h2⟩ | ⟨h, -⟩
      · exact .inr ⟨by omega, by omega⟩
      · exact .inl h
    rw [exec_fsyncEdge_of_enabled hon hrun htwin hen (by omega) (by omega), if_neg]
    · rfl
    · rcases hin with h | ⟨h1, h2⟩
      · simp [h]
      · simp [h1, h2]
  case far =>
    have hout : (decide (off < -1000) || decide (1000 < off)) = true := by
      rcases hrange with ⟨-, h⟩ | ⟨h, -⟩
      · simp [h]
      · simp [h]
    rw [exec_fsyncEdge_of_enabled hon hrun htwin hen (by omega) (by omega), if_pos (by simp [harm, hout])]
    exact congrArg Host.Outcome.next (modSl_congr st s (by simp only [if_neg hmore]))
  case arm => rw [exec_ctfFiArm_of_atOnce hopen, ctfFiStrobe_arm hctf hlog hun hset]
  case disarm => rw [exec_ctfFiDisarm_of_atOnce hopen, ctfFiStrobe_disarm hctf hlog harm]
  case both => rw [exec_ctfFiArm_of_atOnce hopen, ctfFiStrobe_both hctf hlog]
  case full => rw [exec_ctfFiDisarm_of_atOnce hopen, ctfFiStrobe_disarm_of_logFull hctf hlog harm]

end Sys2Proof.Machine
end

section
/-!
PROOFS. The commands of tributaries and of the connection memory of 10: the judging of a command that no cause refuses, one
equation per outcome of each command, and O26 put together from them.
-/
namespace Sys2Proof.Machine

/-! ### The judging of a command (10 R424, 13 R515) -/

theorem stateCauses_none {st : State} {i : InstId} (h : instRefusal st i = 0) (busy frozen : Nat) :
    ∀ c ∈ stateCauses st i busy frozen, c.1 = false := by
  simp [stateCauses, h]

section Judge
variable {st : State} {s : SliceId} {w : Word}

theorem tribJudge_of_no_cause {i : InstId} {causes : List (Bool × Nat)} {ok : State → State}
    (h : ∀ c ∈ causes, c.1 = false) : tribJudge s w i causes ok st = ok st := by
  simp [tribJudge, pickCode_of_no_cause st h]

theorem tribOp_of_open {eff : Word → State → State} (h : cmdOpen st (Reg.tsiTribCmd s) = true) :
    tribOp s w eff st = .next (eff w st) :=
  congrArg Host.Outcome.next (cmdPF_open _ _ _ _ _ h)

theorem pageOp_of_open {eff : Word → State → State} (h : cmdOpen st (Reg.tsiPageCmd s) = true) :
    pageOp s w eff st = .next (eff w st) :=
  congrArg Host.Outcome.next (cmdPF_open _ _ _ _ _ h)

end Judge

/-! ### Tributary commands (10 R396, R399, R402, R424) -/

/-- The client port and the instance that TSI_TRIB_DATA names. -/
def describedPort (st : State) (s : SliceId) : PortIx := Fin.ofNat 8 (getF (tribData st s 0) Fld.tsiTribData_CPORT)
def describedInst (st : State) (s : SliceId) : InstId := Fin.ofNat 256 (getF (tribData st s 0) Fld.tsiTribData_INSTANCE)

/-- The tributary `x` as TSI_TRIB_DATA describes it (R424). -/
def tribDescribed (st : State) (s : SliceId) (x : TribSt) : TribSt :=
  { x with
    cport := describedPort st s
    inst := describedInst st s
    tribId := BitVec.ofNat 16 (getF (tribData st s 1) Fld.tsiTribData_TRIB_ID)
    salt := BitVec.ofNat 96 ((tribData st s 2).toNat + (tribData st s 3).toNat * 2 ^ 32 + (tribData st s 4).toNat * 2 ^ 64)
    txLabel := BitVec.ofNat 8 (getF (tribData st s 0) Fld.tsiTribData_TX_LABEL)
    expLabel := BitVec.ofNat 8 (getF (tribData st s 0) Fld.tsiTribData_EXP_LABEL)
    node := getF (tribData st s 5) Fld.tsiTribData_NODE }

section Tributary
variable {st : State} {s : SliceId} {k : PortIx} {i : Byte}

theorem tribLaneBad_of_exists (hk : isCtf st s k = true) (hi : i.toNat < 240) : tribLaneBad st s k i.toNat = false := by
  simp [tribLaneBad, hk, hi]

variable (hopen : cmdOpen st (Reg.tsiTribCmd s) = true) (hbad : tribLaneBad st s k i.toNat = false)
include hopen hbad

theorem exec_tribRead_of_open :
    exec (.tribRead s k i) st = .next (tribDone s (tribWord 1 k i 0) 0
      ((tribImage st s (tribNo k i.toNat)).zipIdx.foldl (fun st p => wr st (Reg.tsiTribData0 s + 4 * p.2) p.1) st)) := by
  refine (tribOp_of_open hopen).trans (congrArg Host.Outcome.next ?_)
  simp only [tribRead, hbad, Bool.false_eq_true, if_false]

theorem exec_tribWrite_of_no_key (hen : (portCfg st .client s (describedPort st s)).enabled = true)
    (hl1 : (portCfg st .client s (describedPort st s)).l1 = true) (hins : instExists st (describedInst st s) = true)
    (href : instRefusal st (describedInst st s) = 0)
    (hold : ∀ x, trib? st s (tribNo k i.toNat) = some x → instRefusal st x.inst = 0 ∧ posEmpty x = true) :
    exec (.tribWrite s k i) st = .next (tribDone s (tribWord 2 k i 0) 0 (modCtf st s (fun c => { c with
      trib := c.trib.put (tribNo k i.toNat) (tribDescribed st s ((trib? st s (tribNo k i.toNat)).getD {})) }))) := by
  refine (tribOp_of_open hopen).trans (congrArg Host.Outcome.next ?_)
  have hport : (tribLaneBad st s k i.toNat || !((portCfg st .client s (describedPort st s)).enabled &&
      (portCfg st .client s (describedPort st s)).l1)) = false := by
    rw [hbad, hen, hl1]; rfl
  have hinst : (!instExists st (describedInst st s)) = false := by rw [hins]; rfl
  have hdata {moves : Bool} (hstay : moves = false) :
      ∀ c ∈ [(tribLaneBad st s k i.toNat || !((portCfg st .client s (describedPort st s)).enabled &&
        (portCfg st .client s (describedPort st s)).l1), 3), (!instExists st (describedInst st s), 4), (moves, 2)],
        c.1 = false := by
    simp only [hport, hinst, hstay, List.mem_cons, List.not_mem_nil, or_false, forall_eq_or_imp, forall_eq, and_self]
  have hnew := stateCauses_none href 9 10
  simp only [tribWrite]
  rw [tribJudge_of_no_cause]
  · rfl
  · simp only [List.forall_mem_append]
    cases hx : trib? st s (tribNo k i.toNat) with
    | none => exact ⟨⟨hdata rfl, hnew⟩, hnew⟩
    | some x =>
      obtain ⟨hrefx, hempty⟩ := hold x hx
      exact ⟨⟨hdata (by simp only [hempty, Bool.not_true, Bool.false_and]), stateCauses_none hrefx 9 10⟩, hnew⟩

theorem exec_pmRead_of_open {x : TribSt} (hx : trib? st s (tribNo k i.toNat) = some x) :
    exec (.pmRead s k i) st = .next (tribDone s (tribWord 7 k i 0) 0
      ([x.perf.eb, x.perf.es, x.perf.ses, x.perf.uas, x.nSlip, x.nTagFail, x.nNoKey, x.nReplay, x.nUnres].zipIdx.foldl
        (fun st p => wr st (Reg.tsiTribPm s p.2) p.1) st)) := by
  refine (tribOp_of_open hopen).trans (congrArg Host.Outcome.next ?_)
  simp only [pmRead, hbad, hx, Bool.false_eq_true, if_false]

section Existing
variable {x : TribSt} (hx : trib? st s (tribNo k i.toNat) = some x) (href : instRefusal st x.inst = 0)
include hx href

theorem exec_tribSwitch_of_loaded (hloaded : x.pos.toList.any (fun p => p.state == .loaded) = true) :
    exec (.tribSwitch s k i) st = .next (tribDone s (tribWord 4 k i 0) 0 (modTrib st s (tribNo k i.toNat) (fun x =>
      { x with switchFc := x.switchFc.or (some ((ctfLane st s k).fc.toNat + 2)) }))) := by
  refine (tribOp_of_open hopen).trans (congrArg Host.Outcome.next ?_)
  simp only [tribSwitch, hx, hloaded]
  refine tribJudge_of_no_cause ?_
  simp [hbad, stateCauses, href]

theorem exec_tribClear_of_found {an : An} {p : Fin 2} (hp : positions.find? (fun p =>
      (x.pos[p].state == .loaded || x.pos[p].state == .revoked) && x.pos[p].an == an) = some p) :
    exec (.tribClear s k i an) st =
      .next (tribDone s (tribWord 5 k i an) 0 (releasePos st s (tribNo k i.toNat) p)) := by
  refine (tribOp_of_open hopen).trans (congrArg Host.Outcome.next ?_)
  simp only [tribClear, hx, hp]
  refine tribJudge_of_no_cause ?_
  simp [hbad, stateCauses, href]

theorem exec_tribDelete_of_unused (hempty : posEmpty x = true) (hpages : inPages st s k i.toNat = false) :
    exec (.tribDelete s k i) st =
      .next (tribDone s (tribWord 6 k i 0) 0 (modCtf st s (fun c => { c with trib := c.trib.del (tribNo k i.toNat) }))) := by
  refine (tribOp_of_open hopen).trans (congrArg Host.Outcome.next ?_)
  simp only [tribDelete, hx, hempty, hpages]
  refine tribJudge_of_no_cause ?_
  simp [hbad, stateCauses, href]

/-- Both start rules accept, so the command goes on until the journal has committed the two records. -/
theorem exec_install_of_accepted {an : An} {p : Fin 2} {r : Node} {u : State}
    (hp : positions.find? (fun p => x.pos[p].state == .empty) = some p)
    (hdup : ∀ q : Fin 2, x.pos[q].state ≠ .empty → x.pos[q].an ≠ an) (htil : isTilora st s k = false ∨ i = 0)
    (hnode : node? st (getF (tribData st s 5) Fld.tsiTribData_NODE) = some r) (hgood : r.bad = false)
    (htype : r.type = 3) (howner : r.owner = x.inst)
    (hrules : installRules st s (tribNo k i.toNat) p an x (getF (tribData st s 5) Fld.tsiTribData_NODE) r = .ok u) :
    exec (.install s k i an) st =
      .next (cmdBusy u (Reg.tsiTribCmd s) Fld.tsiTribCmd_OP (tribWord 3 k i an)) := by
  refine (tribOp_of_open hopen).trans (congrArg Host.Outcome.next ?_)
  have hnone : (x.pos.toList.any fun p => p.state != .empty && p.an == an) = false := by
    simp only [List.any_eq_false, Vector.mem_toList_iff, Vector.mem_iff_getElem]
    rintro _ ⟨q, hq, rfl⟩
    have := hdup ⟨q, hq⟩
    simpa using this
  have hfirst : (isTilora st s k && i.toNat != 0) = false := by
    rcases htil with h | rfl
    · simp [h]
    · simp
  have hcheck : nodeCheck st (getF (tribData st s 5) Fld.tsiTribData_NODE) = st := nodeCheck_of_good (by simp [hnode, hgood])
  simp only [tribInstall, hcheck, hx, hp, hnode]
  rw [tribJudge_of_no_cause]
  · simp only [hnode, hrules]
  · simp [hbad, hnone, hfirst, htype, howner, stateCauses, href]

end Existing

end Tributary

/-! ### Connection memory commands (10 R403, R404, R425) -/

section Page
variable {st : State} {s : SliceId}

/-- No swap pends that a command of direction `d` would meet. -/
theorem swapHolds_of_free {d : Side} (h : d = .line ∨ (sl st s).ctf.swapPend = false) :
    (d == .client && (sl st s).ctf.swapPend) = false := by
  rcases h with rfl | h
  · rfl
  · simp [h]

variable (hopen : cmdOpen st (Reg.tsiPageCmd s) = true)
include hopen

theorem exec_pageRead_of_slot {d : Side} {act : Bool} {k : PortIx} {slot : Byte}
    (hslot : slotBad st s k slot.toNat = false) :
    exec (.pageRead s d act k slot) st = .next (pageDone s (putF (pageWord 1 d act k slot.toNat 0) Fld.tsiPageCmd_TRIB
      ((if act then (tsiMem (sl st s).ctf d k).active else (tsiMem (sl st s).ctf d k).standby).getD slot.toNat 0xFF)) 0 st) := by
  refine (pageOp_of_open hopen).trans (congrArg Host.Outcome.next ?_)
  simp only [pageRead, hslot, Bool.false_eq_true, if_false]

theorem exec_pageRead_of_no_slot {d : Side} {act : Bool} {k : PortIx} {slot : Byte}
    (hslot : slotBad st s k slot.toNat = true) :
    exec (.pageRead s d act k slot) st = .next (pageDone s (pageWord 1 d act k slot.toNat 0) 2 st) := by
  refine (pageOp_of_open hopen).trans (congrArg Host.Outcome.next ?_)
  simp only [pageRead, hslot, if_true]

theorem exec_pageWrite_of_free {d : Side} {k : PortIx} {slot i : Byte} (hslot : slotBad st s k slot.toNat = false)
    (hi : i.toNat < 240 ∨ i = 0xFF) (hswap : d = .line ∨ (sl st s).ctf.swapPend = false) :
    exec (.pageWrite s d k slot i) st =
      .next (pageDone s (pageWord 2 d false k slot.toNat i.toNat) 0 (modTsi st s d k (fun m =>
        { m with standby := if i.toNat = 0xFF then m.standby.del slot.toNat else m.standby.put slot.toNat i.toNat }))) := by
  refine (pageOp_of_open hopen).trans (congrArg Host.Outcome.next ?_)
  have hindex : (decide (240 ≤ i.toNat) && i.toNat != 0xFF) = false := by
    rcases hi with h | rfl
    · simp only [decide_eq_false (Nat.not_le.mpr h), Bool.false_and]
    · rfl
  simp only [pageWrite]
  rw [pickCode_of_no_cause]
  · rfl
  · simp [hslot, hindex, swapHolds_of_free hswap]

theorem exec_copy_of_free {d : Side} (hswap : d = .line ∨ (sl st s).ctf.swapPend = false) :
    exec (.copy s d) st = .next (pageDone s (pageWord 3 d false 0 0 0) 0
      (ports8.foldl (fun st k => modTsi st s d k (fun m => { m with standby := m.active })) st)) := by
  refine (pageOp_of_open hopen).trans (congrArg Host.Outcome.next ?_)
  simp only [pageCopy, swapHolds_of_free hswap, Bool.false_eq_true, if_false]

theorem exec_copy_of_pending (hswap : (sl st s).ctf.swapPend = true) :
    exec (.copy s .client) st = .next (pageDone s (pageWord 3 .client false 0 0 0) 3 st) := by
  refine (pageOp_of_open hopen).trans (congrArg Host.Outcome.next ?_)
  simp only [pageCopy, hswap, BEq.rfl, Bool.and_self, if_true]

variable (hmap : badMap st s = false)
include hmap

theorem exec_swap_of_pending (hswap : (sl st s).ctf.swapPend = true) :
    exec (.swap s) st = .next (pageDone s (pageWord 4 .client false 0 0 0) 3 st) := by
  refine (pageOp_of_open hopen).trans (congrArg Host.Outcome.next ?_)
  simp only [pageSwap, pickCode_of_one_cause st (code := 3) (causes := [((sl st s).ctf.swapPend, 3), (badMap st s, 4)])
    (by simp [hswap, hmap])]
  rfl

/-- SWAP scheduled on every CTF lane, two frames ahead. -/
def swapScheduled (st : State) (s : SliceId) : State :=
  ports8.foldl (fun st k =>
    if isCtf st s k then modCtfLane st s k (fun x => { x with swapFc := some (x.fc.toNat + 2) }) else st) st

theorem exec_swap_of_free (hswap : (sl st s).ctf.swapPend = false) :
    exec (.swap s) st = .next (pageDone s (pageWord 4 .client false 0 0 0) 0
      (modCtf (swapScheduled st s) s (fun c => { c with swapPend := c.lanes.toList.any (fun x => x.swapFc.isSome) }))) := by
  refine (pageOp_of_open hopen).trans (congrArg Host.Outcome.next ?_)
  simp only [pageSwap]
  rw [pickCode_of_no_cause]
  · rfl
  · simp [hswap, hmap]

end Page

/-- Settles O26: each clause is the equation above of its command's outcome. -/
theorem tributaryAndConnectionCommandsDoTheirOp : Obligations.TributaryAndConnectionCommandsDoTheirOp := by
  refine ⟨fun st s k i hopen hk hi => ?tributary, fun st s hopen => ?page⟩
  case tributary =>
    have hbad := tribLaneBad_of_exists hk hi
    exact ⟨exec_tribRead_of_open hopen hbad, exec_tribWrite_of_no_key hopen hbad,
      fun an x p r u hx href => exec_install_of_accepted hopen hbad hx href,
      fun x => exec_tribSwitch_of_loaded hopen hbad, fun an x p hx href => exec_tribClear_of_found hopen hbad hx href,
      fun x => exec_tribDelete_of_unused hopen hbad, fun x => exec_pmRead_of_open hopen hbad⟩
  case page =>
    exact ⟨fun d act k slot => exec_pageRead_of_slot hopen, fun d act k slot => exec_pageRead_of_no_slot hopen,
      fun d k slot i => exec_pageWrite_of_free hopen, fun d => exec_copy_of_free hopen,
      fun hswap => ⟨exec_copy_of_pending hopen hswap, fun hmap => exec_swap_of_pending hopen hmap hswap⟩,
      fun hswap hmap => exec_swap_of_free hopen hmap hswap⟩

end Sys2Proof.Machine
end

section
/-!
PROOFS. A step of the block, and the time base of 11: what each command of TSU_CMD answers, what one tick does to the time base,
and the edges of PPS; O1 and O28 put together from them.
-/
namespace Sys2Proof.Machine

/-- Settles O1: both clauses are the two cases of `step`, by what waits in the queue. -/
theorem stepRunsTheCommandAtTheFront : Obligations.StepRunsTheCommandAtTheFront :=
  ⟨fun _ _ _ => rfl, fun st hempty => by simp only [step, hempty]⟩

/-! ### The commands of TSU_CMD (11 R432-R434, R460) -/

/-- What a word sets in TSU_CMD: the strobes STEP, SLEW and ABORT, and MODE and FORCE. -/
def tsuBits (w : Word) : Bool × Bool × Bool × Bool × Bool := (bitW w 31, bitW w 30, bitW w 29, bitW w 28, bitW w 27)

theorem tsuBits_step : ∀ mode force other : Bool,
    tsuBits (word [(Fld.tsuCmd_STEP, 1), (Fld.tsuCmd_SLEW, b2n other), (Fld.tsuCmd_MODE, b2n mode),
      (Fld.tsuCmd_FORCE, b2n force)]) = (true, other, false, mode, force) := by decide
theorem tsuBits_slew : ∀ other : Bool,
    tsuBits (word [(Fld.tsuCmd_SLEW, 1), (Fld.tsuCmd_ABORT, b2n other)]) = (false, true, other, false, false) := by decide
theorem tsuBits_abort : ∀ other : Bool,
    tsuBits (word [(Fld.tsuCmd_ABORT, 1), (Fld.tsuCmd_STEP, b2n other)]) = (other, false, true, false, false) := by decide

/-- TSU_CMD after a strobe: MODE and FORCE as written, and the result. -/
def tsuAnswered (mode force : Bool) (st : State) (code : Nat) : State :=
  wr st Reg.tsuCmd (word [(Fld.tsuCmd_MODE, b2n mode), (Fld.tsuCmd_FORCE, b2n force), (Fld.tsuCmd_RESULT, code)])

section Judged
variable {st : State} {w : Word} {mode force : Bool}

theorem doStep_of_idle (hsaf : st.saf = []) (hidle : anyArmed st = false) :
    doStep mode false st = (0, modTsu st (fun t => { t with stepPend := some (mode, tsuAdj st) })) := by
  simp [doStep, hsaf, hidle]

theorem doStep_of_scheduled (hheld : st.saf ≠ [] ∨ anyArmed st = true) : doStep mode false st = (3, st) := by
  have hbusy : (!st.saf.isEmpty || anyArmed st) = true := by simpa using hheld
  simp [doStep, hbusy]

theorem doStep_forced : doStep mode true st =
    (0, modTsu (clearSchedule st) (fun t => { t with stepPend := some (mode, tsuAdj (clearSchedule st)) })) := by
  simp [doStep]

theorem doSlew_of_running (hrun : st.tsu.slewLeft ≠ 0) : doSlew st = (1, st) := by
  simp [doSlew, hrun]

theorem doSlew_of_bad (hidle : st.tsu.slewLeft = 0)
    (hbad : slewWord st < 2 ^ 32 ∨ 3 * 2 ^ 31 < slewWord st ∨ (rd st Reg.tsuSlewTicks).toNat = 0) : doSlew st = (2, st) := by
  simp only [doSlew, hidle, ne_eq, not_true_eq_false, if_false, if_pos hbad]

theorem doSlew_of_good (hidle : st.tsu.slewLeft = 0) (hown : twinStandby st = false)
    (hgood : ¬ (slewWord st < 2 ^ 32 ∨ 3 * 2 ^ 31 < slewWord st ∨ (rd st Reg.tsuSlewTicks).toNat = 0)) :
    doSlew st = (0, modTsu st (fun t =>
      { t with slewLeft := (rd st Reg.tsuSlewTicks).toNat, slewInc := BitVec.ofNat 64 (slewWord st) })) := by
  simp only [doSlew, hidle, hown, ne_eq, not_true_eq_false, if_false, if_neg hgood, Bool.false_eq_true]

variable {step slew abort : Bool} (h : tsuBits w = (step, slew, abort, mode, force))
include h

theorem tsuCmd_of_two_strobes (htwo : 1 < b2n step + b2n slew + b2n abort) : tsuCmd w st = tsuAnswered mode force st 2 := by
  simp only [tsuBits, Prod.mk.injEq] at h
  obtain ⟨rfl, rfl, rfl, rfl, rfl⟩ := h
  exact (if_neg (Nat.ne_zero_of_lt htwo)).trans (if_pos htwo)

theorem tsuCmd_of_one_strobe (hone : b2n step + b2n slew + b2n abort = 1) :
    tsuCmd w st =
      let r := if step then doStep mode force st
        else if slew then (if twinStandby st then (0, st) else doSlew st) else doAbort st
      tsuAnswered mode force r.2 r.1 := by
  simp only [tsuBits, Prod.mk.injEq] at h
  obtain ⟨rfl, rfl, rfl, rfl, rfl⟩ := h
  exact (if_neg (by rw [tsuStrobes, hone]; decide)).trans (if_neg (by rw [tsuStrobes, hone]; decide))

end Judged

section Commands
variable {st : State} (hopen : atOnce st Reg.tsuCmd = true)
include hopen

/-- TSU_CMD is forwarded by the mirror, so that it acts at once in a package that is no part of a pair alone. -/
theorem not_standby_of_tsuCmd_atOnce : twinStandby st = false := by
  have hfwd : notForwarded Reg.tsuCmd = false := by decide
  simp only [atOnce, hfwd, Bool.false_or, Bool.and_eq_true, Bool.not_eq_true'] at hopen
  exact hopen.2.1

variable (hboot : booted st = true) (mode force : Bool)
include hboot

theorem tsuCmdPF_of_atOnce (w : Word) : tsuCmdPF w st = tsuCmd w st := by
  simp only [tsuCmdPF, not_standby_of_tsuCmd_atOnce hopen, hboot, Bool.not_true, Bool.false_and, Bool.false_eq_true, if_false,
    viaPF_atOnce _ _ _ _ hopen]

theorem exec_step_alone :
    exec (.step mode force false) st = .next (tsuAnswered mode force (doStep mode force st).2 (doStep mode force st).1) :=
  congrArg Host.Outcome.next ((tsuCmdPF_of_atOnce hopen hboot _).trans (tsuCmd_of_one_strobe (tsuBits_step ..) rfl))

theorem exec_step_with_slew : exec (.step mode force true) st = .next (tsuAnswered mode force st 2) :=
  congrArg Host.Outcome.next ((tsuCmdPF_of_atOnce hopen hboot _).trans (tsuCmd_of_two_strobes (tsuBits_step ..) (by decide)))

theorem exec_slew_alone : exec (.slew false) st = .next (tsuAnswered false false (doSlew st).2 (doSlew st).1) := by
  refine congrArg Host.Outcome.next ((tsuCmdPF_of_atOnce hopen hboot _).trans ?_)
  rw [tsuCmd_of_one_strobe (tsuBits_slew false) rfl]
  simp only [Bool.false_eq_true, if_false, if_true, not_standby_of_tsuCmd_atOnce hopen]

theorem exec_slew_with_abort : exec (.slew true) st = .next (tsuAnswered false false st 2) :=
  congrArg Host.Outcome.next ((tsuCmdPF_of_atOnce hopen hboot _).trans (tsuCmd_of_two_strobes (tsuBits_slew true) (by decide)))

theorem exec_abort_alone : exec (.abort false) st = .next (tsuAnswered false false (doAbort st).2 (doAbort st).1) :=
  congrArg Host.Outcome.next ((tsuCmdPF_of_atOnce hopen hboot _).trans (tsuCmd_of_one_strobe (tsuBits_abort false) rfl))

theorem exec_abort_with_step : exec (.abort true) st = .next (tsuAnswered false false st 2) :=
  congrArg Host.Outcome.next ((tsuCmdPF_of_atOnce hopen hboot _).trans (tsuCmd_of_two_strobes (tsuBits_abort true) (by decide)))

end Commands

/-! ### One tick of the TSU clock (11 R426, R433, R435, R438) -/

@[simp] theorem raise_tsu (st : State) (e : Event) : (raise st e).tsu = st.tsu := by rw [raise_only]
@[simp] theorem count_tsu (st : State) (a : Nat) : (count st a).tsu = st.tsu := rfl

theorem slewEnd_tsu (st : State) : (slewEnd st).tsu = { st.tsu with slewLeft := 0, abort := false } := raise_tsu _ _

theorem advanceNow_tsu (st : State) (inc : BitVec 64) : (advanceNow st inc).tsu = { st.tsu with now := st.tsu.now + inc } := by
  unfold advanceNow
  extract_lets carry t
  split
  · exact raise_tsu _ _
  · rfl

/-- What NOW takes at a tick without a STEP: the increment in force, or that of a slew that nothing stops. -/
def tickInc (st : State) : BitVec 64 := if st.tsu.slewLeft = 0 ∨ slewStops st = true then nowInc st else st.tsu.slewInc

theorem tickNow_tsu {st : State} (hstep : st.tsu.stepPend = none) :
    (tickNow st).tsu = { st.tsu with
      now := st.tsu.now + tickInc st
      slewLeft := if slewStops st then 0 else st.tsu.slewLeft - 1
      abort := (tickNow st).tsu.abort } := by
  simp only [tickNow, hstep, tickInc]
  by_cases hidle : st.tsu.slewLeft = 0
  · simp [hidle, hstep, advanceNow_tsu]
  by_cases hstop : slewStops st = true
  · simp [hidle, hstop, advanceNow_tsu, slewEnd_tsu, hstep]
  by_cases hlast : st.tsu.slewLeft = 1
  · simp [hlast, hstop, hstep, advanceNow_tsu, slewEnd_tsu]
  · simp [hidle, hstop, hlast, hstep, advanceNow_tsu]

/-- The time base after the latch of an edge of PPS_IN that waits. -/
def ppsLatched (t : TsuSt) : TsuSt :=
  if t.ppsPend then { t with
    ppsPend := false, ppsCapNs := (t.now >>> 32).setWidth 32, ppsCapFrac := t.now.setWidth 32, ppsEdges := t.ppsEdges + 1 }
  else t

theorem ppsLatch_tsu (st : State) : (ppsLatch st).tsu = ppsLatched st.tsu := by
  cases hpend : st.tsu.ppsPend <;> simp [ppsLatch, ppsLatched, hpend, nowNs]

theorem pcEvent_tsu (st : State) (s : SliceId) (ev n : Nat) : (pcEvent st s ev n).tsu = st.tsu := by rw [pcEvent_only]

theorem foldl_pcEvent_tsu (s : SliceId) (es : List (Nat × Nat)) : ∀ st : State,
    (es.foldl (fun st e => pcEvent st s e.1 (2 * e.2)) st).tsu = st.tsu := by
  induction es with
  | nil => exact fun _ => rfl
  | cons e es ih => exact fun st => (ih _).trans (pcEvent_tsu ..)

theorem pcClocks_tsu (st : State) (s : SliceId) : (pcClocks st s).tsu = st.tsu := by
  unfold pcClocks
  split
  · rfl
  · exact foldl_pcEvent_tsu s _ _

theorem foldl_pcClocks_tsu (l : List SliceId) : ∀ st : State, (l.foldl pcClocks st).tsu = st.tsu := by
  induction l with
  | nil => exact fun _ => rfl
  | cons s l ih => exact fun st => (ih _).trans (pcClocks_tsu st s)

theorem nowInc_modTsu (st : State) (f : TsuSt → TsuSt) : nowInc (modTsu st f) = nowInc st := rfl
theorem twinStandby_modTsu (st : State) (f : TsuSt → TsuSt) : twinStandby (modTsu st f) = twinStandby st := rfl

theorem slewStops_modTsu {st : State} {f : TsuSt → TsuSt} (habort : (f st.tsu).abort = st.tsu.abort) :
    slewStops (modTsu st f) = slewStops st := by
  rw [slewStops, slewStops, twinStandby_modTsu, modTsu_tsu, habort]

theorem tickInc_modTsu {st : State} {f : TsuSt → TsuSt} (habort : (f st.tsu).abort = st.tsu.abort)
    (hleft : (f st.tsu).slewLeft = st.tsu.slewLeft) (hinc : (f st.tsu).slewInc = st.tsu.slewInc) :
    tickInc (modTsu st f) = tickInc st :=
  if_congr (by rw [slewStops_modTsu habort, modTsu_tsu, hleft]) (nowInc_modTsu st f) hinc

theorem slewStops_advanceElapsed (st : State) : slewStops (advanceElapsed st) = slewStops st := by
  rw [advanceElapsed, slewStops_modTsu]; rfl

theorem tickInc_advanceElapsed (st : State) : tickInc (advanceElapsed st) = tickInc st := by
  rw [advanceElapsed, tickInc_modTsu] <;> rfl

theorem advanceElapsed_tsu (st : State) : (advanceElapsed st).tsu =
    { st.tsu with elapsed := st.tsu.elapsed + (tsuInc st).setWidth 96, ticks := st.tsu.ticks + 1 } := rfl

/-- The time base after a tick without a STEP. -/
theorem tick_tsu {st : State} (hstep : st.tsu.stepPend = none) :
    (tick st).tsu = ppsLatched { st.tsu with
      elapsed := st.tsu.elapsed + (tsuInc st).setWidth 96
      ticks := st.tsu.ticks + 1
      now := st.tsu.now + tickInc st
      slewLeft := if slewStops st then 0 else st.tsu.slewLeft - 1
      abort := (tickNow (advanceElapsed st)).tsu.abort } := by
  rw [tick, foldl_pcClocks_tsu, ppsLatch_tsu, tickNow_tsu (by rw [advanceElapsed_tsu]; exact hstep), tickInc_advanceElapsed,
    slewStops_advanceElapsed, advanceElapsed_tsu]

section Latched
variable (t : TsuSt)

@[simp] theorem ppsLatched_elapsed : (ppsLatched t).elapsed = t.elapsed := by unfold ppsLatched; split <;> rfl
@[simp] theorem ppsLatched_ticks : (ppsLatched t).ticks = t.ticks := by unfold ppsLatched; split <;> rfl
@[simp] theorem ppsLatched_now : (ppsLatched t).now = t.now := by unfold ppsLatched; split <;> rfl
@[simp] theorem ppsLatched_slewLeft : (ppsLatched t).slewLeft = t.slewLeft := by unfold ppsLatched; split <;> rfl

end Latched

/-! ### The ticks that are commands, and the edges of PPS (11 R429, R433, R438-R440) -/

section Edges
variable {st : State}

theorem exec_wrap_eq : exec .wrap st = .next (if st.tsu.stepPend = none ∧ 2 ^ 64 ≤ st.tsu.now.toNat + (tickInc st).toNat
    then tick st else st) := by
  refine congrArg Host.Outcome.next (if_congr ?_ rfl rfl)
  simp only [Bool.and_eq_true, Option.isNone_iff_eq_none, decide_eq_true_eq, tickInc]

/-- The tick is the last of a running slew, or the one that cuts it short. -/
def slewEnds (st : State) : Prop := st.tsu.slewLeft = 1 ∨ (st.tsu.slewLeft ≠ 0 ∧ slewStops st = true)

theorem exec_slewDone_of_ends (hstep : st.tsu.stepPend = none) (hends : slewEnds st) : exec .slewDone st = .next (tick st) :=
  congrArg Host.Outcome.next (if_pos ⟨hends, hstep⟩)

theorem exec_slewDone_of_not_ends (h : st.tsu.stepPend ≠ none ∨ ¬ slewEnds st) : exec .slewDone st = .next st :=
  congrArg Host.Outcome.next (if_neg (fun ⟨hends, hstep⟩ => h.elim (· hstep) (· hends)))

theorem exec_ppsIn_of_off (hoff : flagA st Reg.tsuCfg Fld.tsuCfg_PPS_IN_EN = false) : exec .ppsIn st = .next st :=
  congrArg Host.Outcome.next (if_pos (by rw [hoff]; rfl))

section Enabled
variable (hen : flagA st Reg.tsuCfg Fld.tsuCfg_PPS_IN_EN = true)
include hen

theorem exec_ppsIn_of_early {a : Nat} (hlast : st.tsu.ppsLast = some a) (hearly : elNs st < a + 500000000)
    (hroom : st.tsu.ppsIgnored ≠ BitVec.allOnes 16) :
    exec .ppsIn st = .next (modTsu st (fun t => { t with ppsIgnored := t.ppsIgnored + 1 })) := by
  refine congrArg Host.Outcome.next ?_
  simp only [hen, hlast, hearly, Bool.not_true, Bool.false_eq_true, if_false, decide_true, if_true, modTsu, if_neg hroom]

theorem exec_ppsIn_of_accepted (hlate : ∀ a, st.tsu.ppsLast = some a → a + 500000000 ≤ elNs st) :
    exec .ppsIn st = .next (modTsu (perfSecond st) (fun t => { t with ppsPend := true, ppsLast := some (elNs st) })) := by
  refine congrArg Host.Outcome.next ?_
  simp only [hen, Bool.not_true, Bool.false_eq_true, if_false]
  cases hlast : st.tsu.ppsLast with
  | none => rfl
  | some a => exact if_neg (by simpa using hlate a hlast)

end Enabled

theorem exec_ppsOutRise_of_due (hon : ppsOn st = true) (hlow : st.tsu.ppsOutHigh = false)
    (hdue : nsLe (rd st Reg.tsuPpsoTime) (nowNs st) = true) :
    exec .ppsOutRise st = .next (modTsu (wr st Reg.tsuPpsoTime (rd st Reg.tsuPpsoTime + 1000000000)) (fun t => { t with
      ppsOutHigh := true
      ppsFallAt := elNs st + 1000 * max 1 (min 1000 (fldA st Reg.tsuCfg Fld.tsuCfg_WIDTH_US)) })) :=
  congrArg Host.Outcome.next (if_pos (by rw [hon, hlow, hdue]; rfl))

theorem exec_ppsOutFall_eq :
    exec .ppsOutFall st = .next (if st.tsu.ppsOutHigh = true ∧ (st.tsu.ppsFallAt ≤ elNs st ∨ ppsOn st = false)
      then modTsu st (fun t => { t with ppsOutHigh := false }) else st) := by
  refine congrArg Host.Outcome.next (if_congr ?_ rfl rfl)
  simp only [Bool.and_eq_true, Bool.or_eq_true, decide_eq_true_eq, Bool.not_eq_true']

end Edges

/-- Settles O28: a command of TSU_CMD is what its judging answers, a tick is told by the time base that it leaves, and each
other clause is the equation above of its command's outcome. -/
theorem timeCommandsTicksAndPps : Obligations.TimeCommandsTicksAndPps := by
  refine ⟨fun st => ⟨rfl, fun hopen hboot => ?commands⟩,
    fun st => ⟨fun hstep => ?ticks, exec_wrap_eq, exec_slewDone_of_ends, fun h => ?goesOn, exec_ppsIn_of_off,
      fun hen => ⟨fun a => exec_ppsIn_of_early hen, exec_ppsIn_of_accepted hen⟩,
      exec_ppsOutRise_of_due, exec_ppsOutFall_eq⟩⟩
  case commands =>
    refine ⟨fun m f => ⟨fun ⟨hsaf, hidle⟩ => ?_, fun hheld => ?_, ?_, exec_step_with_slew hopen hboot m f⟩,
      fun hrun => ⟨?_, ?_⟩, fun hidle => ⟨?_, ?_⟩, exec_slew_with_abort hopen hboot, exec_abort_with_step hopen hboot⟩
    · rw [exec_step_alone hopen hboot, doStep_of_idle hsaf hidle]; rfl
    · rw [exec_step_alone hopen hboot, doStep_of_scheduled hheld]; rfl
    · rw [exec_step_alone hopen hboot, doStep_forced]; rfl
    · rw [exec_slew_alone hopen hboot, doSlew_of_running hrun]; rfl
    · rw [exec_abort_alone hopen hboot, doAbort, if_neg hrun]; rfl
    · rw [exec_abort_alone hopen hboot, doAbort, if_pos hidle]; rfl
    · rw [exec_slew_alone hopen hboot]
      split
      next hbad => rw [doSlew_of_bad hidle hbad]; rfl
      next hgood => rw [doSlew_of_good hidle (not_standby_of_tsuCmd_atOnce hopen) hgood]; rfl
  case ticks =>
    have htick := tick_tsu hstep
    refine ⟨?_, ?_, ?_, ?_, fun hpend => ?_⟩
    · rw [htick, ppsLatched_elapsed]
    · rw [htick, ppsLatched_ticks]
    · rw [htick, ppsLatched_now, tickInc]
    · rw [htick, ppsLatched_slewLeft]
    · simp [nowNs, htick, ppsLatched, hpend]
  case goesOn =>
    refine exec_slewDone_of_not_ends (h.imp_right fun hidle hends => ?_)
    rcases hidle with hzero | ⟨hmore, hfree⟩
    · rcases hends with hone | ⟨hrun, -⟩
      · omega
      · exact hrun hzero
    · rcases hends with hone | ⟨-, hstop⟩
      · omega
      · simp [hfree] at hstop

end Sys2Proof.Machine
end

section
/-!
PROOFS. The Saffron launch calendar of 11: one equation per outcome of each row, for the first frame of the stage concerned, and
O29 put together from them.
-/
namespace Sys2Proof.Machine

section Calendar
variable {st t : State} {s : SliceId} {f : SafFrame} {n : Nat}

/-! ### Staging (11 R449) -/

section Staging
variable (hfirst : safFirst st s (fun f => f.stage == .dram) = some (f, n))
include hfirst

theorem exec_saffronStage_of_due (hreached : within st 100 f.launch = true) (hnotPast : past st 10 f.launch = false)
    (hroom : countP (fun f => f.s == s && f.stage != .dram) st.saf < 4096) :
    exec (.saffronStage s) st = .next (safSet st n { f with stage := .staged }) := by
  refine congrArg Host.Outcome.next ?_
  simp only [hfirst, hreached, hnotPast, hroom, decide_true, Bool.not_false, Bool.and_self, if_true]

theorem exec_saffronStage_of_early (hearly : within st 100 f.launch = false) : exec (.saffronStage s) st = .next st := by
  refine congrArg Host.Outcome.next ?_
  simp only [hfirst, hearly, Bool.false_and, Bool.false_eq_true, if_false]

end Staging

/-! ### Parser entry (11 R450) -/

section ParserEntry
variable (hfirst : safFirst st s (fun f => f.stage == .staged) = some (f, n)) (hreached : within st 8 f.launch = true)
  (hnotPast : past st 5 f.launch = false) (hadmits : admits st s = true)
include hfirst hreached hnotPast hadmits

theorem exec_saffronParserEntry_of_admitted {p : Parse} {c : Pkt} (hp : parse (prsCfg st s) f.bytes = p) (hc : safPkt st f p = c)
    (hadm : admitInst (parserEntry st c) s c.inst f.bytes = (true, t)) :
    exec (.saffronParserEntry s) st = .next (settle (safClassified t n f c p) s) := by
  refine congrArg Host.Outcome.next ?_
  simp only [hfirst, hreached, hnotPast, hadmits, Bool.not_false, Bool.and_self, if_true, hp, hc, hadm]

theorem exec_saffronParserEntry_of_refused {p : Parse} {c : Pkt} (hp : parse (prsCfg st s) f.bytes = p) (hc : safPkt st f p = c)
    (hadm : admitInst (parserEntry st c) s c.inst f.bytes = (false, t)) :
    exec (.saffronParserEntry s) st = .next (settle (safRemove t n) s) := by
  refine congrArg Host.Outcome.next ?_
  simp only [hfirst, hreached, hnotPast, hadmits, Bool.not_false, Bool.and_self, if_true, hp, hc, hadm]

end ParserEntry

/-! ### Slot access (11 R450) -/

section SlotAccess
variable {ch : ChIx} {tc : Bool} {p : Parse} {c : Pkt} (hfirst : safFirst st s (fun f => f.stage == .parsed) = some (f, n))
  (hchan : f.chan = some (ch, tc)) (hreached : within st 5 f.launch = true) (hnotPast : past st 2 f.launch = false)
  (hadmits : admits st s = true) (hp : parse (prsCfg st s) f.bytes = p) (hc : safPkt st f p = c)
include hfirst hchan hreached hnotPast hadmits hp hc

theorem exec_saffronSlotAccess_of_access {pr : Prot} {k : PortIx}
    (hacc : protAccess st s ch (bindNo c) f.bytes = (some pr, t)) (hport : c.outPort = some k) :
    exec (.saffronSlotAccess s) st = .next (safSet (protCount t s pr f.bytes.length) n { f with
      stage := .accessed
      out := some (k, { egrOf { c with inst := f.inst } p (some pr) false tc with inst := f.inst }) }) := by
  refine congrArg Host.Outcome.next ?_
  simp only [hfirst, hreached, hnotPast, hadmits, Bool.not_false, Bool.and_self, if_true, hchan, hp, hc, hacc, hport]

theorem exec_saffronSlotAccess_of_no_access (hacc : protAccess st s ch (bindNo c) f.bytes = (none, t)) :
    exec (.saffronSlotAccess s) st = .next (safRemove t n) := by
  refine congrArg Host.Outcome.next ?_
  simp only [hfirst, hreached, hnotPast, hadmits, Bool.not_false, Bool.and_self, if_true, hchan, hp, hc, hacc]

end SlotAccess

/-! ### Launch (11 R451) -/

/-- A frame that has had its slot access and leaves at line port `k`. -/
def waitsAt (k : PortIx) (f : SafFrame) : Bool :=
  match f.out with | some (j, _) => j == k && f.stage == .accessed | none => false

theorem exec_saffronLaunch_of_due {k : PortIx} {e : EgrFrame} (hfirst : safFirst st s (waitsAt k) = some (f, n))
    (hout : f.out = some (k, e)) (hdue : reached st 0 (launchAt st s k f.launch) = true)
    (hheld : outputHeld st .line s k e.prio = false) (hwire : wireBusy st s k = false)
    (hstarted : (port st .line s k).queue.any (fun g => g.started) = false) :
    exec (.saffronLaunch s k) st = .next (settle (launchNow st n f k e) s) := by
  refine (congrArg Host.Outcome.next ?_ : execSaffronLaunch s k st = _)
  change (match safFirst st s (waitsAt k) with | none => st | some (f, n) => _) = _
  simp only [hfirst, hout, hdue, hheld, hwire, hstarted, Bool.not_false, Bool.and_self, if_true]

/-! ### Late frames (11 R453) -/

section Late
variable (hat : st.saf[n]? = some f)
include hat

theorem exec_late_of_not_late (hlate : isLate st f = false) : exec (.late n) st = .next st := by
  refine congrArg Host.Outcome.next ?_
  simp only [hat, hlate, Bool.not_false, if_true]

variable (hlate : isLate st f = true)
include hlate

theorem exec_late_of_dropped (hdrop : f.sendLate = false) :
    exec (.late n) st = .next (raise (bumpVf (count (safRemove st n) (Reg.safCnt 4)) f.inst 7)
      { block := 12, index := 4, ps := [f.inst.val, f.launch.toNat] }) := by
  refine congrArg Host.Outcome.next ?_
  simp only [hat, hlate, hdrop, Bool.not_true, Bool.not_false, Bool.false_eq_true, if_false, if_true]

theorem exec_late_of_protected {ch : ChIx} {tc : Bool} (hsend : f.sendLate = true) (hchan : f.chan = some (ch, tc)) :
    exec (.late n) st =
      let st1 := count (safRemove st n) (Reg.safCnt 5)
      let p := parse (prsCfg st1 f.s) f.bytes
      .next (settle (protectPkt (arrive st1 f.s).2 { safPkt st1 f p with inst := f.inst } p ch tc) f.s) := by
  refine congrArg Host.Outcome.next ?_
  simp only [hat, hlate, hsend, hchan, Bool.not_true, Bool.false_eq_true, if_false]

end Late

end Calendar

/-- Settles O29: each clause is the equation above of its row's outcome. -/
theorem saffronFramesMoveThroughTheCalendar : Obligations.SaffronFramesMoveThroughTheCalendar := by
  intro st s
  exact ⟨fun f n hfirst => ⟨exec_saffronStage_of_due hfirst, exec_saffronStage_of_early hfirst⟩,
    fun f n hfirst hreached hnotPast hadmits =>
      ⟨fun t => exec_saffronParserEntry_of_admitted hfirst hreached hnotPast hadmits rfl rfl,
        fun t => exec_saffronParserEntry_of_refused hfirst hreached hnotPast hadmits rfl rfl⟩,
    fun f n ch tc hfirst hchan hreached hnotPast hadmits =>
      ⟨fun pr t k => exec_saffronSlotAccess_of_access hfirst hchan hreached hnotPast hadmits rfl rfl,
        fun t => exec_saffronSlotAccess_of_no_access hfirst hchan hreached hnotPast hadmits rfl rfl⟩,
    fun k f n e => exec_saffronLaunch_of_due,
    fun n f hat => ⟨exec_late_of_not_late hat, exec_late_of_dropped hat,
      fun ch tc hlate hsend hchan => exec_late_of_protected hat hlate hsend hchan⟩⟩

end Sys2Proof.Machine
end

section
/-!
PROOFS. Indigo messages as they are received, of 12: what a message does once it has been taken or not, what a HELLO does, and O33
put together from them.
-/
namespace Sys2Proof.Machine

/-! ### Messages of a session (12 R471, R474) -/

section OnMsg
variable {st st1 : State} {type : Nat} {m : MsgHdr} {items : List Nat}

theorem takeMsg_of_bad_tag (hrun : st.glb.halted = false) (hkeyed : st.twin.keyed = true) (hlink : twinLinkUp st = true)
    (htag : m.tag ≠ partnerTag st type m items) : takeMsg type m items st = (false, count st (Reg.twnCnt 3)) := by
  simp only [takeMsg, hrun, hkeyed, hlink, Bool.not_true, Bool.or_self, Bool.false_eq_true, if_false, if_pos htag]

theorem onMsg_of_taken {eff : State → State} (h : takeMsg type m items st = (true, st1)) :
    onMsg type m items eff st = .next (eff st1) := by
  simp only [onMsg, h]

theorem onMsg_of_not_taken {eff : State → State} (h : takeMsg type m items st = (false, st1)) :
    onMsg type m items eff st = .next st1 := by
  simp only [onMsg, h]

end OnMsg

/-! ### What a message carries for a standby (12 R456, R479, 05 R219) -/

section Standby
variable {st : State}

theorem lateFor_of_in_time {e : Nat} (h : st.twin.epoch < e) : lateFor e st = st :=
  if_neg (fun hlate => Nat.not_le.mpr h hlate.2)

theorem foldl_lateFor_of_in_time {ws : List MirWrite} (h : ∀ w ∈ ws, st.twin.epoch < w.epoch) :
    ws.foldl (fun st w => lateFor w.epoch st) st = st := by
  induction ws with
  | nil => rfl
  | cons w ws ih =>
    obtain ⟨hw, hws⟩ := List.forall_mem_cons.mp h
    rw [List.foldl_cons, lateFor_of_in_time hw, ih hws]

theorem mirror_of_in_time {ws : List MirWrite} (hstandby : twinStandby st = true) (h : ∀ w ∈ ws, st.twin.epoch < w.epoch) :
    mirror ws st = modTwin st (fun t => { t with mirrorQ := t.mirrorQ ++ ws }) := by
  rw [mirror, hstandby]
  exact foldl_lateFor_of_in_time h

theorem learned_of_in_time {e : Nat} {s : SliceId} {cs : List MacChange} (hstandby : twinStandby st = true)
    (h : st.twin.epoch < e + 2) :
    learned e s cs st = modTwin st (fun t => { t with learnQ := t.learnQ ++ cs.map (fun c => (e + 2, s, c)) }) := by
  rw [learned, hstandby]
  exact lateFor_of_in_time h

variable (hnot : twinStandby st = false)
include hnot

theorem mirror_of_not_standby (ws : List MirWrite) : mirror ws st = st := if_pos (by rw [hnot]; rfl)
theorem learned_of_not_standby (e : Nat) (s : SliceId) (cs : List MacChange) : learned e s cs st = st :=
  if_pos (by rw [hnot]; rfl)
theorem followTime_of_not_standby (now : BitVec 64) : followTime now st = st := if_pos (by rw [hnot]; rfl)

end Standby

/-- Since when NOW of a TIME message has been more than 10 ns from the own NOW. -/
def offSinceAt (now : BitVec 64) (st : State) : Option Nat :=
  if 10 * 2 ^ 32 < (now - st.tsu.now).toInt.natAbs then st.twin.offSince.or (some (elNs st)) else none

/-- NOW follows the message, and an offset that has stood for 1 ms shows. -/
def timeFollowed (now : BitVec 64) (since : Option Nat) (st : State) : State :=
  modTwin (modTsu st (fun t => { t with now := now })) (fun t => { t with
    offSince := since, tsuOffset := match since with | some a => decide (a + 1000000 ≤ elNs st) | none => false })

theorem followTime_of_standby {st : State} (hstandby : twinStandby st = true) (now : BitVec 64) :
    followTime now st = timeFollowed now (offSinceAt now st) st :=
  (if_neg (by simp [hstandby])).trans
    (congrArg (timeFollowed now · st) (if_congr decide_eq_true_iff rfl rfl))

/-! ### Items of the stream (12 R491) -/

/-- What the device writes to its protected memory waits in the write-back cache; the twin unit stays as it was. -/
theorem meeWrite_twin (f : Nat) (st : State) (a : Nat) (bs : Bytes) : (meeWrite f st a bs).twin = st.twin := by
  induction f generalizing st a bs with
  | zero => rfl
  | succ f ih =>
    unfold meeWrite
    split
    · rfl
    · exact ih ..

theorem streamStage_twin (st : State) (items : List Nat) : (streamStage st items).twin = st.twin := meeWrite_twin ..

/-- An item that comes in SYNCING is in time, whatever its epoch, and is applied. -/
theorem capsule_singleton_of_syncing {st : State} (hsync : st.twin.state = .syncing) (e : Nat) (x : CapItem) :
    capsule e [x] st = applyItem (streamStage st (capNats x)) x := by
  have hintime : lateFor (e + 2) st = st := if_neg (by simp [hsync])
  simp only [capsule, hintime, ite_self, List.flatMap_singleton, List.foldl_cons, List.foldl_nil]
  exact if_pos (.inl (by rw [streamStage_twin, hsync]))

/-! ### HELLO (12 R472, R491) -/

/-- The HELLO is kept as the partner's, with its state. -/
def helloKept (st : State) (h : Hello) : State :=
  modTwin st (fun t => { t with partner := some h, partnerState := h.twinState })

section Heard
variable {st : State} {h : Hello} (hlink : twinLinkUp st = true) (hrun : st.glb.halted = false)
include hlink hrun

/-- What a HELLO that is heard leads to, once it is kept. -/
theorem exec_hello_of_heard (hpair : st.twin.state ≠ .off) :
    exec (.hello h) st = .next
      (if st.twin.joinUntil.isSome && st.twin.state == .start then join (rd st Reg.twnCmd) (helloKept st h)
      else if st.twin.state == .alone && h.twinState == .syncing then
        match linkNode st with
        | some n => startStream (modTwin (keySession (helloKept st h) n h) (fun t => { t with rand := [] }))
        | none => helloKept st h
      else if st.twin.state == .alone && h.twinState == .start && st.twin.keyed then
        modTwin (endSession (helloKept st h)) (fun t =>
          { t with partner := some h, streaming := false, stream := [], cutEpoch := none })
      else helloKept st h) := by
  refine congrArg Host.Outcome.next (if_neg ?_)
  simp [hlink, hrun, hpair]

theorem exec_hello_of_start (hstart : st.twin.state = .start) :
    exec (.hello h) st = .next
      (if st.twin.joinUntil.isSome then join (rd st Reg.twnCmd) (helloKept st h) else helloKept st h) := by
  rw [exec_hello_of_heard hlink hrun (by simp [hstart])]
  simp [hstart]

section Owner
variable (halone : st.twin.state = .alone)
include halone

theorem exec_hello_of_syncing_partner (hsync : h.twinState = .syncing) {n : Node} (hnode : linkNode st = some n) :
    exec (.hello h) st = .next (startStream (modTwin (keySession (helloKept st h) n h) (fun t => { t with rand := [] }))) := by
  rw [exec_hello_of_heard hlink hrun (by simp [halone])]
  simp [halone, hsync, hnode]

theorem exec_hello_of_no_link_node (hsync : h.twinState = .syncing) (hnode : linkNode st = none) :
    exec (.hello h) st = .next (helloKept st h) := by
  rw [exec_hello_of_heard hlink hrun (by simp [halone])]
  simp [halone, hsync, hnode]

theorem exec_hello_of_partner_back_in_start (hback : h.twinState = .start) (hkeyed : st.twin.keyed = true) :
    exec (.hello h) st = .next (modTwin (endSession (helloKept st h)) (fun t =>
      { t with partner := some h, streaming := false, stream := [], cutEpoch := none })) := by
  rw [exec_hello_of_heard hlink hrun (by simp [halone])]
  simp [halone, hback, hkeyed]

end Owner

theorem exec_hello_of_kept_alone (hpair : st.twin.state ≠ .off) (hstart : st.twin.state ≠ .start)
    (hother : st.twin.state = .alone → h.twinState ≠ .syncing ∧ (h.twinState = .start → st.twin.keyed = false)) :
    exec (.hello h) st = .next (helloKept st h) := by
  rw [exec_hello_of_heard hlink hrun hpair]
  by_cases halone : st.twin.state = .alone
  · obtain ⟨hsync, hkeyed⟩ := hother halone
    have hsession : ¬ (h.twinState = .start ∧ st.twin.keyed = true) := fun ⟨hback, hk⟩ => by simp [hkeyed hback] at hk
    simp [halone, hsync, hsession]
  · simp [hstart, halone]

end Heard

/-- Settles O33: a message of a session is taken or not, and one that is taken does what its effect does, which is simpler in a
package that is no standby, and in a standby that has it in time; a HELLO is what it leads to once it is kept. -/
theorem indigoMessagesAreTakenAndActOnTheirPart : Obligations.IndigoMessagesAreTakenAndActOnTheirPart := by
  intro st st1 m
  refine ⟨fun type items => takeMsg_of_bad_tag, fun q seen => ⟨onMsg_of_taken, onMsg_of_not_taken⟩,
    fun ticks => ⟨onMsg_of_taken, onMsg_of_not_taken⟩, fun x => ⟨onMsg_of_taken, onMsg_of_not_taken⟩,
    fun w ready => ⟨onMsg_of_taken, onMsg_of_not_taken⟩, fun ws => ⟨fun htaken => ?mirror, onMsg_of_not_taken⟩,
    fun s cs => ⟨fun htaken => ?learn, onMsg_of_not_taken⟩, fun ns frac => ⟨fun htaken => ?time, onMsg_of_not_taken⟩,
    fun xs => ⟨fun htaken => ?capsule, onMsg_of_not_taken⟩, fun high missing => ⟨onMsg_of_taken, onMsg_of_not_taken⟩,
    fun h hlink hrun hpair => ?hello⟩
  case mirror =>
    have hexec : exec (.mirror m ws) st = .next (mirror ws st1) := onMsg_of_taken htaken
    exact ⟨fun hstandby hintime => by rw [hexec, mirror_of_in_time hstandby hintime],
      fun hnot => by rw [hexec, mirror_of_not_standby hnot]⟩
  case learn =>
    have hexec : exec (.learnMessage m s cs) st = .next (learned (epochOf st1 m.epoch) s cs st1) := onMsg_of_taken htaken
    exact ⟨fun hstandby hintime => by rw [hexec, learned_of_in_time hstandby hintime],
      fun hnot => by rw [hexec, learned_of_not_standby hnot]⟩
  case time =>
    have hexec : exec (.timeMessage m ns frac) st = .next (followTime (ns ++ frac) st1) := onMsg_of_taken htaken
    exact ⟨fun hstandby => hexec.trans (congrArg Host.Outcome.next (followTime_of_standby hstandby _)),
      fun hnot => by rw [hexec, followTime_of_not_standby hnot]⟩
  case capsule =>
    have hexec : exec (.capsule m xs) st = .next (capsule (epochOf st1 m.epoch) xs st1) := onMsg_of_taken htaken
    refine ⟨hexec, fun x hx hsync => ?_⟩
    rw [hexec, hx, capsule_singleton_of_syncing hsync]
  case hello =>
    exact ⟨exec_hello_of_start hlink hrun, fun halone hsync =>
        ⟨fun n => exec_hello_of_syncing_partner hlink hrun halone hsync, exec_hello_of_no_link_node hlink hrun halone hsync⟩,
      exec_hello_of_partner_back_in_start hlink hrun, exec_hello_of_kept_alone hlink hrun hpair⟩

end Sys2Proof.Machine
end

section
/-!
PROOFS. A message of the Indigo session is taken once (12 R471, R474): the two ways in which one is taken, and O35 put together
from them.
-/
namespace Sys2Proof.Machine

/-- Every sequence that is missing lies at or below the highest one received. -/
def missingBelow (t : TwinSt) : Prop := ∀ x ∈ t.missing, x.1 ≤ t.rxSeq

/-- What a receiver knows of a sequence that has come: it lies at or below the highest received, and is not missing. -/
def seqSeen (t : TwinSt) (n : Nat) : Prop := n ≤ t.rxSeq ∧ n ∉ t.missing.map Prod.fst

section Once
variable {st st1 : State} {type : Nat} {m : MsgHdr} {items : List Nat}

/-- The last sequence of a message and of those that continue it. -/
def lastSeq (type : Nat) (m : MsgHdr) (items : List Nat) : Nat := m.seq.toNat + ((msgParts type items).length - 1)

theorem le_lastSeq (type : Nat) (m : MsgHdr) (items : List Nat) : m.seq.toNat ≤ lastSeq type m items := Nat.le_add_right ..

/-- The twin unit after a message above every sequence received: those passed over are missing. -/
def seqAhead (type : Nat) (m : MsgHdr) (items : List Nat) (st : State) : TwinSt :=
  { st.twin with
    rxSeq := lastSeq type m items
    missing := st.twin.missing ++ (List.range (m.seq.toNat - st.twin.rxSeq - 1)).map (fun i =>
      (st.twin.rxSeq + 1 + i, some (epochOf st m.epoch))) }

/-- The twin unit after a message that was missing: it, and those that continue it, are so no longer. -/
def seqFilled (type : Nat) (m : MsgHdr) (items : List Nat) (st : State) : TwinSt :=
  { st.twin with missing := st.twin.missing.filter (fun x =>
      decide (x.1 < m.seq.toNat) || decide (lastSeq type m items < x.1)) }

theorem takeMsg_taken_cases (h : takeMsg type m items st = (true, st1)) :
    (st.twin.rxSeq < m.seq.toNat ∧ st1 = { st with twin := seqAhead type m items st }) ∨
    (m.seq.toNat ≤ st.twin.rxSeq ∧ st1 = { st with twin := seqFilled type m items st }) := by
  unfold takeMsg at h
  dsimp only at h
  split at h
  · simp at h
  · split at h
    · simp at h
    · split at h
      next hahead => exact .inl ⟨hahead, (Prod.mk.inj h).2.symm⟩
      next hbelow =>
        split at h
        · exact .inr ⟨Nat.not_lt.mp hbelow, (Prod.mk.inj h).2.symm⟩
        · simp at h

theorem seqSeen_seqAhead (hinv : missingBelow st.twin) (hahead : st.twin.rxSeq < m.seq.toNat) :
    missingBelow (seqAhead type m items st) ∧ seqSeen (seqAhead type m items st) m.seq.toNat := by
  simp only [missingBelow, seqSeen, seqAhead, List.mem_append, List.mem_map, List.mem_range, not_exists, not_and]
  have hle := le_lastSeq type m items
  refine ⟨?below, hle, ?notMissing⟩
  case below =>
    rintro x (hold | ⟨i, hi, rfl⟩)
    · have := hinv x hold; omega
    · dsimp only; omega
  case notMissing =>
    rintro x (hold | ⟨i, hi, rfl⟩)
    · have := hinv x hold; omega
    · dsimp only; omega

theorem seqSeen_seqFilled (hinv : missingBelow st.twin) (hbelow : m.seq.toNat ≤ st.twin.rxSeq) :
    missingBelow (seqFilled type m items st) ∧ seqSeen (seqFilled type m items st) m.seq.toNat := by
  simp only [missingBelow, seqSeen, seqFilled, List.mem_filter, List.mem_map, not_exists, Bool.or_eq_true,
    decide_eq_true_eq]
  refine ⟨fun x ⟨hold, _⟩ => hinv x hold, hbelow, ?notMissing⟩
  rintro x ⟨⟨_, hout⟩, hx⟩
  have := le_lastSeq type m items
  omega

theorem takeMsg_fst_of_seen (h : seqSeen st.twin m.seq.toNat) : (takeMsg type m items st).1 = false := by
  obtain ⟨hle, hnot⟩ := h
  have hany : st.twin.missing.any (fun x => x.1 == m.seq.toNat) = false :=
    List.any_eq_false.mpr fun x hx heq => hnot (List.mem_map.mpr ⟨x, hx, beq_iff_eq.mp heq⟩)
  unfold takeMsg
  dsimp only
  rw [hany, if_neg (Nat.not_lt.mpr hle)]
  split
  · rfl
  · split <;> rfl

end Once

/-- Settles O35: whichever of the two ways a message is taken, its sequence has been seen in the state it leaves, and a sequence
that has been seen is not taken. -/
theorem messageIsTakenOnceOnly : Obligations.MessageIsTakenOnceOnly := by
  intro st st1 type m items hinv htaken
  obtain ⟨hahead, rfl⟩ | ⟨hbelow, rfl⟩ := takeMsg_taken_cases htaken
  · obtain ⟨hkept, hseen⟩ := seqSeen_seqAhead (type := type) (items := items) hinv hahead
    exact ⟨rfl, hkept, hseen.1, hseen.2, fun type' items' => takeMsg_fst_of_seen hseen⟩
  · obtain ⟨hkept, hseen⟩ := seqSeen_seqFilled (type := type) (items := items) hinv hbelow
    exact ⟨rfl, hkept, hseen.1, hseen.2, fun type' items' => takeMsg_fst_of_seen hseen⟩

end Sys2Proof.Machine
end

section
/-!
PROOFS. The commands of TWN_CMD (12 R472, R473, R487, R494, Table 12-9): what each does by the state of the twin unit, and O30 put
together from them.
-/
namespace Sys2Proof.Machine

section TwnCmd
variable {st : State} (hopen : cmdOpen st Reg.twnCmd = true)
include hopen

theorem exec_claim_of_open : exec .claim st = .next (claim (word [(Fld.twnCmd_OP, 1)]) st) :=
  congrArg Host.Outcome.next (cmdPF_open st _ _ _ _ hopen)
theorem exec_join_of_open : exec .join st = .next (join (word [(Fld.twnCmd_OP, 2)]) st) :=
  congrArg Host.Outcome.next (cmdPF_open st _ _ _ _ hopen)
theorem exec_twinSwitch_of_open : exec .twinSwitch st = .next (twinSwitch (word [(Fld.twnCmd_OP, 3)]) st) :=
  congrArg Host.Outcome.next (cmdPF_open st _ _ _ _ hopen)
theorem exec_leave_of_open : exec .leave st = .next (leave (word [(Fld.twnCmd_OP, 4)]) st) :=
  congrArg Host.Outcome.next (cmdPF_open st _ _ _ _ hopen)

end TwnCmd

section Judged
variable {st : State} {w : Word}

theorem claim_of_start (hstart : st.twin.state = .start) (hports : devicePortsReady st = true) :
    claim w st = twnBusy w (modTwin st (fun t => { t with claimUntil := some (elNs st + 1000000) })) := by
  rw [claim, pickCode_of_no_cause st (by simp [hstart, hports])]
  rfl

theorem claim_of_bad_state (hpair : st.twin.state ≠ .off) (hstart : st.twin.state ≠ .start)
    (hports : devicePortsReady st = true) : claim w st = twnDone w 3 st := by
  rw [claim, pickCode_of_one_cause st (code := 3) (by simp [hpair, hstart, hports])]
  rfl

theorem twinSwitch_of_active (hactive : st.twin.state = .active) (htest : st.twin.testing = false) :
    twinSwitch w st = twnBusy w (modTwin st (fun t => { t with switchAt := some (t.epoch + 2) })) := by
  rw [twinSwitch, pickCode_of_no_cause st (by simp [hactive, htest])]
  rfl

theorem twinSwitch_of_bad_state (hpair : st.twin.state ≠ .off) (hactive : st.twin.state ≠ .active)
    (htest : st.twin.testing = false) : twinSwitch w st = twnDone w 3 st := by
  rw [twinSwitch, pickCode_of_one_cause st (code := 3) (by simp [hpair, hactive, htest])]
  rfl

theorem leave_of_standby (h : st.twin.state = .standby ∨ st.twin.state = .syncing) :
    leave w st = twnDone w 0 (toStart st) := by
  rw [leave, pickCode_of_no_cause st (by rcases h with h | h <;> simp [h])]
  rfl

theorem leave_of_bad_state (hpair : st.twin.state ≠ .off) (hstandby : st.twin.state ≠ .standby)
    (hsync : st.twin.state ≠ .syncing) : leave w st = twnDone w 3 st := by
  rw [leave, pickCode_of_one_cause st (code := 3) (by simp [hpair, hstandby, hsync])]
  rfl

end Judged

section Join
variable {st : State} {w : Word} {n : Node} (hnode : linkNode st = some n) (hgood : n.bad = false)
  (hstart : st.twin.state = .start) (hports : devicePortsReady st = true) (hlink : twinLinkUp st = true)
  (hdebug : st.debug = false)

include hnode hgood in
/-- A LINK node in order is taken without an error of its memory. -/
theorem nodeCheck_linkIx : nodeCheck st (linkIx st) = st := by
  obtain ⟨hget, -⟩ := Option.filter_eq_some_iff.mp hnode
  simp [nodeCheck, hget, hgood]

include hnode hgood hstart hports hlink hdebug

theorem join_of_no_partner (hnone : st.twin.partner = none) :
    join w st = twnBusy w (modTwin (if st.twin.keyed then endSession st else st)
      (fun t => { t with joinUntil := st.twin.joinUntil.or (some (elNs st + 50000000)) })) := by
  rw [join, nodeCheck_linkIx hnode hgood]
  dsimp only
  rw [pickCode_of_no_cause st (by simp [hstart, hports, hlink, hdebug, hnode, hnone])]
  simp only [hnone, ne_eq, not_true_eq_false, if_false]
  cases hkeyed : st.twin.keyed <;> simp [hkeyed, modTwin, endSession, elNs]

theorem join_of_partner {h : Hello} (hsome : st.twin.partner = some h) (halone : h.twinState = .alone)
    (hnodebug : h.debug = false) (hmatch : helloMismatch st h = 0) :
    join w st = modTwin (twnDone w 0 (sendHello (toSyncing (keySession
      (freshRand (modTwin st (fun t => { t with joinUntil := none }))) n h)))) (fun t => { t with rand := [] }) := by
  have hnode' : linkNode (modTwin st (fun t => { t with joinUntil := none })) = some n := hnode
  rw [join, nodeCheck_linkIx hnode hgood]
  dsimp only
  rw [pickCode_of_no_cause st (by simp [hstart, hports, hlink, hdebug, hnode, hsome, halone, hnodebug, hmatch])]
  simp only [hsome, hnode', ne_eq, not_true_eq_false, if_false]

end Join

/-- Settles O30: with TWN_CMD open each command is judged by the causes of Table 12-9, of which none, or BAD_STATE alone, applies
in the states named. -/
theorem twinCommandsAreJudgedByState : Obligations.TwinCommandsAreJudgedByState := by
  intro st hopen
  rw [exec_claim_of_open hopen, exec_join_of_open hopen, exec_twinSwitch_of_open hopen, exec_leave_of_open hopen]
  exact ⟨fun hstart hports => ⟨congrArg _ (claim_of_start hstart hports), fun n hnode hgood hlink hdebug =>
      ⟨fun hnone => congrArg _ (join_of_no_partner hnode hgood hstart hports hlink hdebug hnone),
        fun h hsome halone hnodebug hmatch =>
          congrArg _ (join_of_partner hnode hgood hstart hports hlink hdebug hsome halone hnodebug hmatch)⟩⟩,
    fun hactive htest => congrArg _ (twinSwitch_of_active hactive htest),
    fun h => congrArg _ (leave_of_standby h),
    fun hpair => ⟨fun hstart hports => congrArg _ (claim_of_bad_state hpair hstart hports),
      fun hactive htest => congrArg _ (twinSwitch_of_bad_state hpair hactive htest),
      fun hstandby hsync => congrArg _ (leave_of_bad_state hpair hstandby hsync)⟩⟩

end Sys2Proof.Machine
end

section
/-!
PROOFS. The ownership interlock and the loss of heartbeats (12 R465, R466, R475, R486, R490): one equation per outcome of each
command, and O31 put together from them.
-/
namespace Sys2Proof.Machine

/-! ### The partner's line (12 R466, R486) -/

section OwnLine
variable {st : State}

/-- The partner's line is kept with the instant of its release. -/
def lineKept (on : Bool) (st : State) : State :=
  modTwin st (fun t => { t with
    partnerOwn := on, partnerSince := if t.partnerOwn && !on then elNs st else t.partnerSince })

theorem exec_ownLineChange (on : Bool) (st : State) :
    exec (.ownLineChange on) st =
      .next (yieldTie (if st.twin.partnerOwn && !on then ownReleased (lineKept on st) else lineKept on st)) :=
  rfl

theorem yieldTie_of_no_tie (h : ¬ (st.twin.own = true ∧ st.twin.partnerOwn = true ∧ st.primary = true)) : yieldTie st = st :=
  if_pos (by rw [Bool.not_eq_true', Bool.eq_false_iff]; simpa using h)

theorem yieldTie_of_tie (hown : st.twin.own = true) (hpartner : st.twin.partnerOwn = true) (hstrap : st.primary = true) :
    yieldTie st = if st.twin.claimUntil.isSome then twnEnd 6 (raise (toStart (releaseOwn st)) { block := 5, index := 0 })
      else raise (toStart (releaseOwn st)) { block := 5, index := 0 } :=
  if_neg (by simp [hown, hpartner, hstrap])

theorem ownReleased_of_not_standby (h : st.twin.state ≠ .standby) : ownReleased st = st := if_pos h

theorem ownReleased_of_standby (h : st.twin.state = .standby) (hswitch : switching st = false) :
    ownReleased st = beginSwitch (modTwin st (fun t => { t with takingOver := true })) := by
  simp [ownReleased, h, hswitch]

theorem ownReleased_of_switching (h : st.twin.state = .standby) (hswitch : switching st = true) :
    ownReleased st = count st (Reg.twnCnt 0) := by
  simp [ownReleased, h, hswitch]

theorem exec_ownLineChange_of_kept {on : Bool} (h : on = true ∨ st.twin.partnerOwn = false ∨ st.twin.state ≠ .standby)
    (htie : ¬ (st.twin.own = true ∧ on = true ∧ st.primary = true)) :
    exec (.ownLineChange on) st = .next (lineKept on st) := by
  rw [exec_ownLineChange]
  have hkept : (if st.twin.partnerOwn && !on then ownReleased (lineKept on st) else lineKept on st) = lineKept on st := by
    rcases h with h | h | h
    · simp [h]
    · simp [h]
    · simp [ownReleased_of_not_standby (st := lineKept on st) h]
  rw [hkept, yieldTie_of_no_tie (st := lineKept on st) htie]

theorem exec_ownLineChange_of_release {on : Bool} (hoff : on = false) (hwas : st.twin.partnerOwn = true)
    (hstandby : st.twin.state = .standby) (hswitch : switching st = false) :
    exec (.ownLineChange on) st = .next (beginSwitch (modTwin (lineKept on st) (fun t => { t with takingOver := true }))) := by
  rw [exec_ownLineChange, hwas, hoff, if_pos (by rfl), ownReleased_of_standby (st := lineKept false st) hstandby hswitch,
    yieldTie_of_no_tie (by simp [beginSwitch, lineKept])]

theorem exec_ownLineChange_of_release_counted {on : Bool} (hoff : on = false) (hwas : st.twin.partnerOwn = true)
    (hstandby : st.twin.state = .standby) (hswitch : switching st = true) :
    exec (.ownLineChange on) st = .next (count (lineKept on st) (Reg.twnCnt 0)) := by
  rw [exec_ownLineChange, hwas, hoff, if_pos (by rfl), ownReleased_of_switching (st := lineKept false st) hstandby hswitch,
    yieldTie_of_no_tie (by simp [count, countN, lineKept])]

theorem exec_ownLineChange_of_tie {on : Bool} (hown : st.twin.own = true) (hon : on = true) (hstrap : st.primary = true) :
    exec (.ownLineChange on) st = .next (if st.twin.claimUntil.isSome
      then twnEnd 6 (raise (toStart (releaseOwn (lineKept on st))) { block := 5, index := 0 })
      else raise (toStart (releaseOwn (lineKept on st))) { block := 5, index := 0 }) := by
  rw [exec_ownLineChange, if_neg (by simp [hon]), yieldTie_of_tie (st := lineKept on st) hown hon hstrap]
  rfl

end OwnLine

/-! ### Assertion, and the transmitters 2 µs after it (12 R465) -/

section Assertion
variable {st : State}

/-- TWN_OWN_N_O is asserted now. -/
def ownAsserted (t : State) : State := modTwin t (fun x => { x with own := true, assertedAt := some (elNs t) })

theorem exec_ownAssert_of_start (hmay : mayAssert st = true) (hstart : st.twin.state = .start) : exec .ownAssert st =
    .next (ownAsserted (twnEnd 0 (modTwin (restampAges st) (fun t => { t with state := .alone })))) := by
  simp only [exec, execOwnAssert, hmay, hstart]
  rfl

theorem exec_ownAssert_of_standby (hmay : mayAssert st = true) (hstandby : st.twin.state = .standby) :
    exec .ownAssert st = .next (ownAsserted (takeOver st)) := by
  simp only [exec, execOwnAssert, hmay, hstandby]
  rfl

theorem exec_ownAssert_of_alone (hmay : mayAssert st = true) (h : st.twin.state = .alone ∨ st.twin.state = .active) :
    exec .ownAssert st = .next (ownAsserted st) := by
  rcases h with h | h <;> simp only [exec, execOwnAssert, hmay, h] <;> rfl

theorem exec_ownAssert_of_may_not (hmay : mayAssert st = false) : exec .ownAssert st = .next (claimExpire st) := by
  simp only [exec, execOwnAssert, hmay]
  rfl

variable {a : Nat} (hat : st.twin.assertedAt = some a)
include hat

theorem exec_ownTxEnable_of_due (hdue : a + 2000 ≤ elNs st) (hown : st.twin.own = true) (hrun : st.glb.halted = false) :
    exec .ownTxEnable st = .next (modTwin st (fun t =>
      { t with txEn := true, sel := true, assertedAt := none, claimUntil := none })) := by
  simp [exec, execOwnTxEnable, hat, hdue, hown, hrun]

theorem exec_ownTxEnable_of_early (hearly : elNs st < a + 2000) : exec .ownTxEnable st = .next st := by
  simp [exec, execOwnTxEnable, hat, Nat.not_le.mpr hearly]

end Assertion

/-! ### Loss of heartbeats (12 R475, R490) -/

section HbLost
variable {st : State}

theorem exec_hbLost_of_early (h : elNs st < st.twin.lastHb + 16000) : exec .hbLost st = .next st := by
  simp [exec, execHbLost, h]

variable (hnew : st.twin.hbLost = false) (hlate : st.twin.lastHb + 16000 ≤ elNs st)
include hnew hlate

theorem exec_hbLost_of_late : exec .hbLost st = .next (match st.twin.state with
    | .active => linkLost (toAlone (count (modTwin st (fun t => { t with hbLost := true })) (Reg.twnCnt 2)))
    | .syncing => linkLost (toStart (count (modTwin st (fun t => { t with hbLost := true })) (Reg.twnCnt 2)))
    | .standby =>
      if switching st then count (modTwin st (fun t => { t with lastHb := elNs st })) (Reg.twnCnt 2)
      else
        let st := linkLost (count (modTwin st (fun t => { t with
          hbLost := true, candidateUntil := some (elNs st + 1000000) })) (Reg.twnCnt 2))
        if st.twin.partnerOwn || st.twin.takingOver then st else ownReleased st
    | .off | .start | .alone | .halted => st) :=
  congrArg Host.Outcome.next (if_neg (by simp [hnew, hlate]))

/-- A standby that has heard no HEARTBEAT for sixteen periods is a candidate for 1 ms. -/
def candidate (st : State) : State :=
  linkLost (count (modTwin st (fun t => { t with hbLost := true, candidateUntil := some (elNs st + 1000000) })) (Reg.twnCnt 2))

omit hnew hlate in
theorem candidate_twin (st : State) :
    (candidate st).twin = { st.twin with hbLost := true, candidateUntil := some (elNs st + 1000000) } := by
  rw [candidate, linkLost, raise_only]
  rfl

omit hnew hlate in
theorem switching_candidate (st : State) : switching (candidate st) = switching st := by
  rw [switching, candidate_twin, candidate, linkLost, raise_only]
  rfl

theorem exec_hbLost_of_standby (hstandby : st.twin.state = .standby) (hswitch : switching st = false) :
    exec .hbLost st = .next (if st.twin.partnerOwn || st.twin.takingOver then candidate st
      else beginSwitch (modTwin (candidate st) (fun t => { t with takingOver := true }))) := by
  have hcand : (candidate st).twin.state = .standby := by rw [candidate_twin]; exact hstandby
  have hbegin := ownReleased_of_standby hcand ((switching_candidate st).trans hswitch)
  have hexec : exec .hbLost st = .next (if (candidate st).twin.partnerOwn || (candidate st).twin.takingOver
      then candidate st else ownReleased (candidate st)) := by
    rw [exec_hbLost_of_late hnew hlate]
    simp only [hstandby, hswitch]
    rfl
  rw [hexec, hbegin, candidate_twin]

theorem exec_hbLost_of_switching (hstandby : st.twin.state = .standby) (hswitch : switching st = true) :
    exec .hbLost st = .next (count (modTwin st (fun t => { t with lastHb := elNs st })) (Reg.twnCnt 2)) := by
  rw [exec_hbLost_of_late hnew hlate]
  simp only [hstandby, hswitch, if_true]

theorem exec_hbLost_of_active (h : st.twin.state = .active) : exec .hbLost st = .next
    (linkLost (toAlone (count (modTwin st (fun t => { t with hbLost := true })) (Reg.twnCnt 2)))) := by
  rw [exec_hbLost_of_late hnew hlate]
  simp only [h]

theorem exec_hbLost_of_syncing (h : st.twin.state = .syncing) : exec .hbLost st = .next
    (linkLost (toStart (count (modTwin st (fun t => { t with hbLost := true })) (Reg.twnCnt 2)))) := by
  rw [exec_hbLost_of_late hnew hlate]
  simp only [h]

end HbLost

section Candidacy
variable {st : State} {u : Nat} (hcand : st.twin.candidateUntil = some u)
include hcand

theorem exec_candidacyEnd_of_over (hover : u ≤ elNs st) (hstandby : st.twin.state = .standby) :
    exec .candidacyEnd st = .next (toStart st) := by
  simp [exec, execCandidacyEnd, hcand, hover, hstandby]

theorem exec_candidacyEnd_of_kept (h : elNs st < u ∨ st.twin.state ≠ .standby) : exec .candidacyEnd st = .next st := by
  have hnot : ¬ (u ≤ elNs st ∧ st.twin.state = .standby) := fun ⟨hover, hstandby⟩ =>
    h.elim (fun hearly => Nat.not_le.mpr hearly hover) (fun hother => hother hstandby)
  simp [exec, execCandidacyEnd, hcand, hnot]

end Candidacy

/-- Settles O31: a change of the partner's line, an assertion, the transmitters, the loss of heartbeats and the end of a candidacy
each do what the state of the twin unit and the instant say. -/
theorem ownershipIsAssertedWhenThePartnerHasReleased : Obligations.OwnershipIsAssertedWhenThePartnerHasReleased := by
  intro st
  exact ⟨fun on => ⟨exec_ownLineChange_of_kept,
      fun hoff hwas hstandby => ⟨exec_ownLineChange_of_release hoff hwas hstandby,
        exec_ownLineChange_of_release_counted hoff hwas hstandby⟩,
      exec_ownLineChange_of_tie⟩,
    fun hmay => ⟨exec_ownAssert_of_start hmay, exec_ownAssert_of_standby hmay, exec_ownAssert_of_alone hmay⟩,
    exec_ownAssert_of_may_not,
    fun a hat => exec_ownTxEnable_of_due hat, fun a hat => exec_ownTxEnable_of_early hat,
    fun hnew hlate => ⟨exec_hbLost_of_active hnew hlate, exec_hbLost_of_syncing hnew hlate,
      exec_hbLost_of_switching hnew hlate, exec_hbLost_of_standby hnew hlate⟩,
    exec_hbLost_of_early,
    fun u hcand => ⟨exec_candidacyEnd_of_over hcand, exec_candidacyEnd_of_kept hcand⟩⟩

end Sys2Proof.Machine
end

section
/-!
PROOFS. The start of a step epoch and the end of a divergence test (12 R476, R481, R484, R485): one equation per outcome, and O32 put
together from them.
-/
namespace Sys2Proof.Machine

/-! ### The start of an epoch (12 R476) -/

section Epoch
variable {st : State}

theorem exec_stepEpochBoundary_of_early (h : elNs st < 8192 * (st.twin.epoch + 1)) :
    exec .stepEpochBoundary st = .next st :=
  congrArg Host.Outcome.next (if_neg (Nat.not_le.mpr h))

theorem exec_stepEpochBoundary_of_due (h : 8192 * (st.twin.epoch + 1) ≤ elNs st) :
    exec .stepEpochBoundary st = .next (epochStart st) :=
  congrArg Host.Outcome.next (if_pos h)

/-- What every package does at the start of an epoch, in the order of R476. -/
def epochApplied (st : State) : State := releaseHeld (applyDue (applyReservations (nextEpoch st)))

theorem epochStart_of_no_pair (h : (epochApplied st).twin.state = .off ∨ (epochApplied st).twin.state = .halted) :
    epochStart st = epochApplied st :=
  if_pos h

theorem epochStart_of_pair (hpair : (epochApplied st).twin.state ≠ .off) (hrun : (epochApplied st).twin.state ≠ .halted) :
    epochStart st = trimSets (syncFail (healthCheck (epochMsgs (streamCut (joinExpire (claimExpire
      (switchNow (((epochApplied st).twin.ownDig.map Prod.fst).foldl compareEpoch (overdue (epochApplied st))))))))))  :=
  if_neg (not_or.mpr ⟨hpair, hrun⟩)

theorem applyReservations_of_none (h : st.jnl.applies = []) : applyReservations st = st := by
  rw [applyReservations, h, List.foldl_nil, modJnl, ← h]

theorem applyDue_of_none (hmir : st.twin.mirrorQ = []) (hlearn : st.twin.learnQ = []) : applyDue st = st := by
  have hsame : { st.twin with mirrorQ := [], learnQ := [] } = st.twin := by rw [← hmir, ← hlearn]
  simp [applyDue, hmir, hlearn, modTwin, hsame]

theorem epochApplied_of_nothing_due (hmir : st.twin.mirrorQ = []) (hlearn : st.twin.learnQ = []) (hres : st.jnl.applies = []) :
    epochApplied st = releaseHeld (nextEpoch st) := by
  rw [epochApplied, applyReservations_of_none (st := nextEpoch st) hres, applyDue_of_none (st := nextEpoch st) hmir hlearn]

end Epoch

/-! ### The end of a divergence test (12 R484, R485) -/

section Divergence
variable {st : State} {own partner : Bool}

theorem exec_divergenceTestDone_of_none (h : st.twin.testing = false ∨ st.glb.halted = true) :
    exec (.divergenceTestDone own partner) st = .next st :=
  congrArg Host.Outcome.next (if_pos (by rcases h with h | h <;> simp [h]))

/-- The findings of both packages are kept. -/
def findingsKept (own partner : Bool) (st : State) : State :=
  modTwin st (fun t => { t with testing := false, finding := own, partnerFinding := partner })

/-- The divergences of the last 3,600 s that no package has explained. -/
def unexplainedNow (st : State) : List Nat :=
  (st.twin.unexplained ++ [elNs st]).filter (fun t => decide (elNs st - 3600000000000 ≤ t))

theorem elNs_dropSwitch (st : State) : elNs (dropSwitch st) = elNs st := by
  unfold dropSwitch
  split <;> rfl

theorem unexplained_dropSwitch (st : State) : (dropSwitch st).twin.unexplained = st.twin.unexplained := by
  unfold dropSwitch
  split <;> rfl

variable (htest : st.twin.testing = true) (hrun : st.glb.halted = false)
include htest hrun

theorem exec_divergenceTestDone_of_test : exec (.divergenceTestDone own partner) st = .next
    (match st.twin.state with
      | .active =>
        if own then setOutcome (handOver (findingsKept own partner st)) 1
        else
          let st := toAlone (setOutcome (findingsKept own partner st) 2)
          if partner then st
          else
            let st1 := modTwin st (fun t => { t with unexplained := unexplainedNow st })
            if 3 ≤ (unexplainedNow st).length then raise st1 { block := 5, index := 3 } else st1
      | .standby => if partner then findingsKept own partner st else toSyncing (findingsKept own partner st)
      | _ => findingsKept own partner st) := by
  refine (congrArg Host.Outcome.next (if_neg (by simp [htest, hrun]))).trans (congrArg Host.Outcome.next ?_)
  cases hstate : st.twin.state <;> simp only [modTwin_twin, hstate] <;> rfl

theorem exec_divergenceTestDone_of_handover (hactive : st.twin.state = .active) (hown : own = true) :
    exec (.divergenceTestDone own partner) st = .next (setOutcome (handOver (findingsKept own partner st)) 1) := by
  rw [exec_divergenceTestDone_of_test htest hrun]
  simp only [hactive, hown, if_true]

theorem exec_divergenceTestDone_of_partner_found (hactive : st.twin.state = .active) (hown : own = false)
    (hpartner : partner = true) : exec (.divergenceTestDone own partner) st =
      .next (toAlone (setOutcome (findingsKept own partner st) 2)) := by
  rw [exec_divergenceTestDone_of_test htest hrun]
  simp only [hactive, hown, hpartner, if_true, Bool.false_eq_true, if_false]

theorem exec_divergenceTestDone_of_unexplained (hactive : st.twin.state = .active) (hown : own = false)
    (hpartner : partner = false) : exec (.divergenceTestDone own partner) st =
      .next (if 3 ≤ (unexplainedNow st).length
        then raise (modTwin (toAlone (setOutcome (findingsKept own partner st) 2))
          (fun t => { t with unexplained := unexplainedNow st })) { block := 5, index := 3 }
        else modTwin (toAlone (setOutcome (findingsKept own partner st) 2))
          (fun t => { t with unexplained := unexplainedNow st })) := by
  have hlist : unexplainedNow (toAlone (setOutcome (findingsKept own partner st) 2)) = unexplainedNow st := by
    have hel : elNs (toAlone (setOutcome (findingsKept own partner st) 2)) = elNs st := elNs_dropSwitch _
    have hun : (toAlone (setOutcome (findingsKept own partner st) 2)).twin.unexplained = st.twin.unexplained :=
      unexplained_dropSwitch _
    simp only [unexplainedNow, hel, hun]
  rw [exec_divergenceTestDone_of_test htest hrun]
  subst hown hpartner
  simp only [hactive, Bool.false_eq_true, if_false, hlist]

theorem exec_divergenceTestDone_of_standby (hstandby : st.twin.state = .standby) :
    exec (.divergenceTestDone own partner) st =
      .next (if partner then findingsKept own partner st else toSyncing (findingsKept own partner st)) := by
  rw [exec_divergenceTestDone_of_test htest hrun]
  simp only [hstandby]

theorem exec_divergenceTestDone_of_other (hactive : st.twin.state ≠ .active) (hstandby : st.twin.state ≠ .standby) :
    exec (.divergenceTestDone own partner) st = .next (findingsKept own partner st) := by
  rw [exec_divergenceTestDone_of_test htest hrun]
  cases hstate : st.twin.state with
  | active => exact absurd hstate hactive
  | standby => exact absurd hstate hstandby
  | _ => rfl

end Divergence

/-- Settles O32: an epoch begins in the order of R476, and a package outside a pair, or halted, does its first part alone; a
divergence test ends by the state of the package and the findings. -/
theorem epochsBeginAndDivergenceIsSettled : Obligations.EpochsBeginAndDivergenceIsSettled := by
  intro st
  refine ⟨exec_stepEpochBoundary_of_early, fun hdue => ?epoch, fun own partner => exec_divergenceTestDone_of_none,
    fun own partner htest hrun => ⟨exec_divergenceTestDone_of_handover htest hrun,
      exec_divergenceTestDone_of_partner_found htest hrun, exec_divergenceTestDone_of_unexplained htest hrun,
      exec_divergenceTestDone_of_standby htest hrun, exec_divergenceTestDone_of_other htest hrun⟩⟩
  case epoch =>
    rw [exec_stepEpochBoundary_of_due hdue]
    refine ⟨fun h => congrArg _ (epochStart_of_no_pair h), fun hpair hrun => congrArg _ (epochStart_of_pair hpair hrun),
      fun hoff hmir hlearn hres => ?_⟩
    have happlied := epochApplied_of_nothing_due hmir hlearn hres
    rw [epochStart_of_no_pair (.inl (by rw [happlied]; exact hoff)), happlied]

end Sys2Proof.Machine
end

section
/-!
PROOFS. Indigo messages as they leave (12 R470, R472, R474, R491): HELLO, the messages of every microsecond, the stream, and O34 put
together from them.
-/
namespace Sys2Proof.Machine

section Hello
variable {st : State}

theorem exec_helloSend_of_due (hpair : st.twin.state ≠ .off) (hrun : st.glb.halted = false) (hfree : st.twin.keyed = false)
    (hlink : twinLinkUp st = true) (hdue : st.twin.lastHello + 1000000 ≤ elNs st) :
    exec .helloSend st = .next (sendHello (if st.twin.rand.isEmpty then freshRand st else st)) :=
  congrArg Host.Outcome.next (if_neg (by simp [hpair, hrun, hfree, hlink, hdue]))

theorem exec_helloSend_of_none (h : elNs st < st.twin.lastHello + 1000000 ∨ st.glb.halted = true ∨ st.twin.keyed = true ∨
    twinLinkUp st = false) : exec .helloSend st = .next st :=
  congrArg Host.Outcome.next (if_pos (by rcases h with h | h | h | h <;> simp [h]))

end Hello

section EveryUs
variable {st : State} {last : TwinSt → Nat} {set : TwinSt → Nat → TwinSt} {type : Nat} {items : List Nat}

theorem everyUs_of_due (hrun : st.glb.halted = false) (hkeyed : st.twin.keyed = true) (hdue : last st.twin + 1000 ≤ elNs st) :
    everyUs last set type items st = .next (sendMsg (modTwin st (fun t => set t (elNs st))) type items) :=
  congrArg Host.Outcome.next (if_neg (by simp [hrun, hkeyed, hdue]))

theorem everyUs_of_early (h : elNs st < last st.twin + 1000) : everyUs last set type items st = .next st :=
  congrArg Host.Outcome.next (if_pos (by simp [h]))

theorem everyUs_of_no_session (h : st.twin.keyed = false ∨ st.glb.halted = true) : everyUs last set type items st = .next st :=
  congrArg Host.Outcome.next (if_pos (by rcases h with h | h <;> simp [h]))

theorem exec_heartbeatSend_eq (st : State) : exec .heartbeatSend st =
    everyUs (fun t => t.lastHbSent) (fun t n => { t with lastHbSent := n }) 2 [twinStateNum st.twin.state, b2n st.twin.own] st :=
  rfl
theorem exec_timeSend_eq (st : State) : exec .timeSend st =
    everyUs (fun t => t.lastTime) (fun t n => { t with lastTime := n }) 8 [st.tsu.now.toNat] st :=
  rfl
theorem exec_ackSend_eq (st : State) : exec .ackSend st =
    everyUs (fun t => t.lastAck) (fun t n => { t with lastAck := n }) 10 (st.twin.rxSeq :: st.twin.missing.map Prod.fst) st :=
  rfl

end EveryUs

section Stream
variable {st : State}

theorem sendParts_twin (type : Nat) (bodies : List Bytes) (st : State) :
    ∃ q, (bodies.foldl (sendPart type) st).twin = { st.twin with txSeq := q } := by
  induction bodies generalizing st with
  | nil => exact ⟨_, rfl⟩
  | cons b bs ih =>
    obtain ⟨q, hq⟩ := ih (sendPart type st b)
    exact ⟨q, by rw [List.foldl_cons, hq]; rfl⟩

/-- A message moves the sequence alone in the twin unit. -/
theorem sendMsg_twin (st : State) (type : Nat) (items : List Nat) :
    ∃ q, (sendMsg st type items).twin = { st.twin with txSeq := q } := by
  unfold sendMsg
  split
  · exact ⟨_, rfl⟩
  · exact sendParts_twin ..

/-- The items that leave next, as they leave. -/
def streamItems (n : Nat) (st : State) : List Nat := (st.twin.stream.take n).flatMap (fun x => capNats (freshItem st x))

/-- The next `n` items of the stream leave in one message, if there are any. -/
def streamSent (n : Nat) (st : State) : State :=
  if (st.twin.stream.take n).isEmpty then st
  else sendMsg (streamStage (modTwin st (fun t => { t with stream := t.stream.drop n })) (streamItems n st)) 9 (streamItems n st)

theorem streamSent_twin (n : Nat) (st : State) :
    ∃ q, (streamSent n st).twin = { st.twin with stream := st.twin.stream.drop n, txSeq := q } := by
  unfold streamSent
  split
  next hnone =>
    have hdrop : st.twin.stream.drop n = st.twin.stream := by
      simpa [List.isEmpty_iff.mp hnone] using List.take_append_drop n st.twin.stream
    exact ⟨st.twin.txSeq, by rw [hdrop]⟩
  next =>
    obtain ⟨q, hq⟩ := sendMsg_twin (streamStage (modTwin st (fun t => { t with stream := t.stream.drop n }))
      (streamItems n st)) 9 (streamItems n st)
    exact ⟨q, by rw [hq, streamStage_twin]; rfl⟩

/-- The last item of steps 1 to 3 has left, and no cut epoch is named. -/
def streamEnds (n : Nat) (st : State) : Prop :=
  st.twin.streaming = true ∧ st.twin.stream.drop n = [] ∧ st.twin.cutEpoch = none

theorem exec_capsuleStreamSend_of_none (n : Nat) (h : st.twin.keyed = false ∨ st.glb.halted = true) :
    exec (.capsuleStreamSend n) st = .next st :=
  congrArg Host.Outcome.next (if_pos (by rcases h with h | h <;> simp [h]))

section Session
variable (hrun : st.glb.halted = false) (hkeyed : st.twin.keyed = true) (n : Nat)
include hrun hkeyed

theorem exec_capsuleStreamSend_of_session : exec (.capsuleStreamSend n) st = .next
    (if (streamSent n st).twin.streaming && (streamSent n st).twin.stream.isEmpty && (streamSent n st).twin.cutEpoch.isNone
      then modTwin (streamSent n st) (fun t => { t with cutEpoch := some (t.epoch + 1), stream := [.cut (t.epoch + 1)] })
      else streamSent n st) :=
  congrArg Host.Outcome.next (if_neg (by simp [hrun, hkeyed]))

theorem exec_capsuleStreamSend_of_more (h : ¬ streamEnds n st) :
    exec (.capsuleStreamSend n) st = .next (streamSent n st) := by
  obtain ⟨q, hq⟩ := streamSent_twin n st
  rw [exec_capsuleStreamSend_of_session hrun hkeyed n, if_neg]
  simpa [hq, streamEnds, and_assoc] using h

theorem exec_capsuleStreamSend_of_end (h : streamEnds n st) : exec (.capsuleStreamSend n) st =
    .next (modTwin (streamSent n st) (fun t => { t with cutEpoch := some (t.epoch + 1), stream := [.cut (t.epoch + 1)] })) := by
  obtain ⟨q, hq⟩ := streamSent_twin n st
  rw [exec_capsuleStreamSend_of_session hrun hkeyed n, if_pos]
  simpa [hq, streamEnds, and_assoc] using h

end Session
end Stream

/-- Settles O34: each message leaves when it is due and the state of the session allows it, and not otherwise; the stream names its
cut once the last item has left. -/
theorem indigoMessagesLeaveInTime : Obligations.IndigoMessagesLeaveInTime := by
  intro st
  rw [exec_heartbeatSend_eq, exec_timeSend_eq, exec_ackSend_eq]
  exact ⟨exec_helloSend_of_due, exec_helloSend_of_none,
    fun hrun hkeyed => ⟨everyUs_of_due hrun hkeyed, everyUs_of_due hrun hkeyed, everyUs_of_due hrun hkeyed,
      fun n => ⟨exec_capsuleStreamSend_of_more hrun hkeyed n, exec_capsuleStreamSend_of_end hrun hkeyed n⟩⟩,
    everyUs_of_early, everyUs_of_early, everyUs_of_early,
    fun h => ⟨everyUs_of_no_session h, everyUs_of_no_session h, everyUs_of_no_session h,
      fun n => exec_capsuleStreamSend_of_none n h⟩⟩

end Sys2Proof.Machine
end

section
/-!
PROOFS. The mailboxes between a tenant and the manager (13 R499 to R502), and O36 put together from what each access does.
-/
namespace Sys2Proof.Machine

/-! ### The tenant's side -/

section Tenant
variable {st : State} {i : InstId}

theorem exec_doorbell_of_none (h : hasVf st i = false ∨ st.glb.halted = true ∨ (inst st i).state = .disabled) :
    exec (.doorbell i) st = .next st :=
  congrArg Host.Outcome.next (if_pos (by rcases h with h | h | h <;> simp [h]))

theorem exec_vfMbxCtlRead_of_vf (hvf : hasVf st i = true) : exec (.vfMbxCtlRead i) st =
    .next { modInst st i (fun x => { x with respReady := false, overrun := false }) with lastRead := mbxCtl (inst st i) } :=
  congrArg Host.Outcome.next (if_neg (by simp [hvf]))

section Doorbell
variable (hvf : hasVf st i = true) (hrun : st.glb.halted = false) (hstate : (inst st i).state ≠ .disabled)
include hvf hrun hstate

theorem exec_doorbell_of_pending (hpend : (inst st i).pending = true) :
    exec (.doorbell i) st = .next (modInst st i (fun x => { x with overrun := true })) :=
  congrArg Host.Outcome.next ((if_neg (by simp [hvf, hrun, hstate])).trans (if_pos hpend))

theorem exec_doorbell_of_free (hpend : (inst st i).pending = false) : exec (.doorbell i) st =
    .next (raise (count (modInst st i (fun x => { x with mbox := vfRequest st i, pending := true })) (Reg.vimCnt 4))
      { block := 4, index := 0, ps := [i.val] }) :=
  congrArg Host.Outcome.next ((if_neg (by simp [hvf, hrun, hstate])).trans (if_neg (by simp [hpend])))

end Doorbell
end Tenant

/-! ### The manager's side -/

section Manager
variable {st : State} {i : InstId} {w : Word}

theorem exec_mbxRead_of_open (hopen : cmdOpen st Reg.vimMbxCmd = true) :
    exec (.mbxRead i) st = .next (mbxRead i (mbxWord 1 i) st) :=
  congrArg Host.Outcome.next (cmdPF_open st _ _ _ _ hopen)
theorem exec_respond_of_open (hopen : cmdOpen st Reg.vimMbxCmd = true) :
    exec (.respond i) st = .next (mbxRespond i (mbxWord 2 i) st) :=
  congrArg Host.Outcome.next (cmdPF_open st _ _ _ _ hopen)

theorem mbxRead_of_no_vf (h : hasVf st i = false) : mbxRead i w st = mbxDone w 3 st := if_pos (by rw [h]; rfl)
theorem mbxRespond_of_no_vf (h : hasVf st i = false) : mbxRespond i w st = mbxDone w 3 st := if_pos (by rw [h]; rfl)

variable (hvf : hasVf st i = true)
include hvf

theorem mbxRead_of_vf :
    mbxRead i w st = mbxDone w 0 ((inst st i).mbox.zipIdx.foldl (fun st p => wr st (Reg.vimMbxData p.2) p.1) st) :=
  if_neg (by simp [hvf])

theorem mbxRespond_of_none (hpend : (inst st i).pending = false) : mbxRespond i w st = mbxDone w 2 st :=
  (if_neg (by simp [hvf])).trans (if_pos (by simp [hpend]))

theorem mbxRespond_of_pending (hpend : (inst st i).pending = true) : mbxRespond i w st = mbxDone w 0 (hostOut (modInst
    ((List.range 16).foldl (fun st n => wr st (Reg.vfMbxResp (vfIx i) n) (rd st (Reg.vimMbxData n))) st) i
    (fun x => { x with pending := false, respReady := true })) (.msix i 0)) :=
  (if_neg (by simp [hvf])).trans (if_neg (by simp [hpend]))

end Manager

/-- Settles O36: a doorbell, a read of VF_MBX_CTL and the two commands of VIM_MBX_CMD each do what the function and its flags say. -/
theorem mailboxesCarryRequestsAndResponses : Obligations.MailboxesCarryRequestsAndResponses := by
  intro st i
  refine ⟨fun hvf hrun hstate => ⟨exec_doorbell_of_pending hvf hrun hstate, exec_doorbell_of_free hvf hrun hstate⟩,
    exec_doorbell_of_none, exec_vfMbxCtlRead_of_vf, fun hopen => ?_⟩
  rw [exec_mbxRead_of_open hopen, exec_respond_of_open hopen]
  exact ⟨fun hno => ⟨congrArg _ (mbxRead_of_no_vf hno), congrArg _ (mbxRespond_of_no_vf hno)⟩,
    fun hvf => ⟨congrArg _ (mbxRead_of_vf hvf), fun hpend => congrArg _ (mbxRespond_of_none hvf hpend),
      fun hpend => congrArg _ (mbxRespond_of_pending hvf hpend)⟩⟩

end Sys2Proof.Machine
end

section
/-!
PROOFS. The state commands of an instance and the end of its quiescing (13 R513 to R519): how a command is judged, what follows
QUIESCING, and O37 put together from them.
-/
namespace Sys2Proof.Machine

theorem exec_vimOp_of_open {st : State} {w : Word} {eff : Word → State → State} (hopen : cmdOpen st Reg.vimCmd = true) :
    vimOp w eff st = .next (eff w st) :=
  congrArg Host.Outcome.next (cmdPF_open st _ _ _ _ hopen)

section Judged
variable {st : State} {i : InstId} {shutdown : Bool} {allowed : InstState → Bool}

/-- A refusal other than by QUIESCING is not kept in VIM_LAST_REF. -/
theorem vimRefuse_of_unrecorded {w : Word} {code : Nat} {s : SliceId} (h : code ≠ 4) (h' : code ≠ 15) :
    vimRefuse w code i s st = vimDone w code st := by
  simp [vimRefuse, stateRecord, h, h']

theorem vimRefuse_of_quiescing (w : Word) (s : SliceId) (st : State) :
    vimRefuse w 4 i s st = vimDone w 4 (lastRef st 1 5 s i) := by
  simp [vimRefuse, stateRecord]

variable (hex : instExists st i = true) (htenant : i ≠ 0)
include hex htenant

theorem stateCode_of_allowed (hq : shutdown = true → (inst st i).state ≠ .quiescing) (h : allowed (inst st i).state = true) :
    stateCode st i shutdown allowed = 0 := by
  cases shutdown <;> simp_all [stateCode]

theorem stateCode_of_not_allowed (hq : shutdown = true → (inst st i).state ≠ .quiescing) (h : allowed (inst st i).state = false) :
    stateCode st i shutdown allowed = 3 := by
  cases shutdown <;> simp_all [stateCode]

theorem stateCode_of_quiescing (h : (inst st i).state = .quiescing) : stateCode st i true allowed = 4 := by
  simp [stateCode, hex, htenant, h]

end Judged

section StateCommands
variable {st : State} {i : InstId} {w : Word} (hex : instExists st i = true) (htenant : i ≠ 0)
include hex htenant

/-! What one command does in the states that allow it, in those that do not, and while QUIESCING. -/

theorem vimEnable_of_allowed (h : (inst st i).state = .disabled ∨ (inst st i).state = .quiesced) :
    vimEnable i w st = vimDone w 0 (setInst st i .enabled) := by
  rw [vimEnable, stateCode_of_allowed hex htenant (by rcases h with h | h <;> simp [h]) (by rcases h with h | h <;> simp [h])]
  rfl

theorem vimEnable_of_bad_state (h : (inst st i).state = .enabled ∨ (inst st i).state = .frozen) :
    vimEnable i w st = vimDone w 3 st := by
  rw [vimEnable, stateCode_of_not_allowed hex htenant (by rcases h with h | h <;> simp [h]) (by rcases h with h | h <;> simp [h])]
  exact vimRefuse_of_unrecorded (by decide) (by decide)

theorem vimEnable_of_quiescing (h : (inst st i).state = .quiescing) : vimEnable i w st = vimDone w 4 (lastRef st 1 5 0 i) := by
  rw [vimEnable, stateCode_of_quiescing hex htenant h]
  exact vimRefuse_of_quiescing ..

theorem vimQuiesce_of_enabled (h : (inst st i).state = .enabled) : vimQuiesce i w st = vimDone w 0 (startQuiesce st i) := by
  rw [vimQuiesce, stateCode_of_allowed hex htenant (by simp [h]) (by simp [h])]
  rfl

theorem vimQuiesce_of_bad_state (h : (inst st i).state = .disabled ∨ (inst st i).state = .quiesced ∨ (inst st i).state = .frozen) :
    vimQuiesce i w st = vimDone w 3 st := by
  rw [vimQuiesce, stateCode_of_not_allowed hex htenant (by rcases h with h | h | h <;> simp [h])
    (by rcases h with h | h | h <;> simp [h])]
  exact vimRefuse_of_unrecorded (by decide) (by decide)

theorem vimQuiesce_of_quiescing (h : (inst st i).state = .quiescing) : vimQuiesce i w st = vimDone w 4 (lastRef st 1 5 0 i) := by
  rw [vimQuiesce, stateCode_of_quiescing hex htenant h]
  exact vimRefuse_of_quiescing ..

theorem vimFreeze_of_quiesced (h : (inst st i).state = .quiesced) : vimFreeze i w st = vimDone w 0 (setInst st i .frozen) := by
  rw [vimFreeze, stateCode_of_allowed hex htenant (by simp [h]) (by simp [h])]
  rfl

theorem vimFreeze_of_bad_state (h : (inst st i).state = .disabled ∨ (inst st i).state = .enabled ∨ (inst st i).state = .frozen) :
    vimFreeze i w st = vimDone w 3 st := by
  rw [vimFreeze, stateCode_of_not_allowed hex htenant (by rcases h with h | h | h <;> simp [h])
    (by rcases h with h | h | h <;> simp [h])]
  exact vimRefuse_of_unrecorded (by decide) (by decide)

theorem vimFreeze_of_quiescing (h : (inst st i).state = .quiescing) : vimFreeze i w st = vimDone w 4 (lastRef st 1 5 0 i) := by
  rw [vimFreeze, stateCode_of_quiescing hex htenant h]
  exact vimRefuse_of_quiescing ..

theorem vimThaw_of_frozen (h : (inst st i).state = .frozen) :
    vimThaw i w st = vimDone w 0 (setInst (thawSlots st i) i .quiesced) := by
  rw [vimThaw, stateCode_of_allowed hex htenant (by simp) (by simp [h])]
  rfl

theorem vimThaw_of_bad_state (h : (inst st i).state ≠ .frozen) : vimThaw i w st = vimDone w 3 st := by
  rw [vimThaw, stateCode_of_not_allowed hex htenant (by simp) (by simp [h])]
  exact vimRefuse_of_unrecorded (by decide) (by decide)

theorem vimReset_of_clear {remove : Bool} (h : (inst st i).state = .quiesced) (hpage : tribInPage st i = false) :
    vimReset i remove w st = vimDone w 0 (instClear st i remove) := by
  rw [vimReset, stateCode_of_allowed hex htenant (by simp) (by simp [h]), hpage]
  rfl

theorem vimReset_of_page {remove : Bool} (h : (inst st i).state = .quiesced) (hpage : tribInPage st i = true) :
    vimReset i remove w st = vimDone w 6 st := by
  rw [vimReset, stateCode_of_allowed hex htenant (by simp) (by simp [h]), hpage]
  rfl

theorem vimReset_of_bad_state {remove : Bool} (h : (inst st i).state ≠ .quiesced) :
    vimReset i remove w st = vimDone w 3 st := by
  rw [vimReset, stateCode_of_not_allowed hex htenant (by simp) (by simp [h])]
  exact vimRefuse_of_unrecorded (by decide) (by decide)

omit htenant in
theorem vimStateRead_of_exists :
    vimStateRead i w st = vimDone w 0 (setF st Reg.vimCmd Fld.vimCmd_STATE (instStateNum (inst st i).state)) :=
  if_neg (by simp [hex])

end StateCommands

/-! ### The end of QUIESCING (13 R514, R519) -/

section Quiescing
variable {st : State} {i : InstId}

/-- The instance is QUIESCED, and the event says so. -/
def quiescedNow (i : InstId) (st : State) : State :=
  raise (modInst st i (fun x => { x with state := .quiesced, flrPend := false })) { block := 4, index := 2, ps := [i.val] }

theorem quiesced_of_no_flr (h : (inst st i).flrPend = false) : quiesced st i = quiescedNow i st := if_neg (by simp [h])

theorem quiesced_of_flr (h : (inst st i).flrPend = true) (hpage : tribInPage (quiescedNow i st) i = false) :
    quiesced st i = instClear (quiescedNow i st) i false := by
  unfold quiescedNow at hpage ⊢
  exact if_pos (by simp [h, hpage])

theorem exec_quiesceDone_of_empty (hq : (inst st i).state = .quiescing) (h : instFrames st i = 0) :
    exec (.quiesceDone i) st = .next (quiesced st i) :=
  congrArg Host.Outcome.next (if_pos ⟨hq, h⟩)

theorem exec_quiesceDone_of_none (h : ¬ ((inst st i).state = .quiescing ∧ instFrames st i = 0)) :
    exec (.quiesceDone i) st = .next st :=
  congrArg Host.Outcome.next (if_neg h)

theorem exec_quiesceTimeout_of_over (hq : (inst st i).state = .quiescing) (h : (inst st i).quiesceUntil ≤ elNs st) :
    exec (.quiesceTimeout i) st = .next (quiesced (countN (instDiscard st i) (Reg.vimCnt 3) (instFrames st i)) i) :=
  congrArg Host.Outcome.next (if_pos ⟨hq, h⟩)

theorem exec_quiesceTimeout_of_none (h : ¬ ((inst st i).state = .quiescing ∧ (inst st i).quiesceUntil ≤ elNs st)) :
    exec (.quiesceTimeout i) st = .next st :=
  congrArg Host.Outcome.next (if_neg h)

end Quiescing

/-- Settles O37: each command of an instance that exists is judged by its state, and QUIESCING ends when no frame is held or its
time is over. -/
theorem instanceStatesChangeAsCommanded : Obligations.InstanceStatesChangeAsCommanded := by
  intro st i hex htenant q w
  refine ⟨fun hopen => ?commands, fun hq => ⟨fun hflr hnone => ?_, fun hflr hnone hpage => ?_, fun hsome => ?_,
    fun hflr hover => ?_, fun hearly => ?_⟩, fun hq => ⟨?_, ?_⟩⟩
  case commands =>
    have hcmd {op : Nat} {eff : Word → State → State} {t : State} (h : eff (w op) st = t) : vimOp (w op) eff st = .next t :=
      (exec_vimOp_of_open hopen).trans (congrArg _ h)
    exact ⟨fun h => hcmd (vimEnable_of_allowed hex htenant h), fun h => hcmd (vimEnable_of_bad_state hex htenant h),
      fun h => hcmd (vimQuiesce_of_enabled hex htenant h), fun h => hcmd (vimQuiesce_of_bad_state hex htenant h),
      fun h => hcmd (vimFreeze_of_quiesced hex htenant h), fun h => hcmd (vimFreeze_of_bad_state hex htenant h),
      fun h => ⟨hcmd (vimEnable_of_quiescing hex htenant h), hcmd (vimQuiesce_of_quiescing hex htenant h),
        hcmd (vimFreeze_of_quiescing hex htenant h)⟩,
      fun h => hcmd (vimThaw_of_frozen hex htenant h), fun h => hcmd (vimThaw_of_bad_state hex htenant h),
      fun h hpage => ⟨hcmd (vimReset_of_clear hex htenant h hpage), hcmd (vimReset_of_clear hex htenant h hpage)⟩,
      fun h hpage => ⟨hcmd (vimReset_of_page hex htenant h hpage), hcmd (vimReset_of_page hex htenant h hpage)⟩,
      fun h => ⟨hcmd (vimReset_of_bad_state hex htenant h), hcmd (vimReset_of_bad_state hex htenant h)⟩,
      hcmd (vimStateRead_of_exists hex)⟩
  · exact (exec_quiesceDone_of_empty hq hnone).trans (congrArg _ (quiesced_of_no_flr hflr))
  · exact (exec_quiesceDone_of_empty hq hnone).trans (congrArg _ (quiesced_of_flr hflr hpage))
  · exact exec_quiesceDone_of_none fun ⟨_, hnone⟩ => hsome hnone
  · exact (exec_quiesceTimeout_of_over hq hover).trans (congrArg _ (quiesced_of_no_flr hflr))
  · exact exec_quiesceTimeout_of_none fun ⟨_, hover⟩ => Nat.not_le.mpr hearly hover
  · exact exec_quiesceDone_of_none fun ⟨hquiescing, _⟩ => hq hquiescing
  · exact exec_quiesceTimeout_of_none fun ⟨hquiescing, _⟩ => hq hquiescing

end Sys2Proof.Machine
end

section
/-!
PROOFS. Shares, capsules and function-level resets (13 R505, R506, R510, R519, R521, R524, R525): what each command does under the
conditions named, and O38 put together from them.
-/
namespace Sys2Proof.Machine

/-! ### Shares (13 R505, R506, R510) -/

section Shares
variable {st : State} {i : InstId} {s : SliceId} {w : Word}

/-- The instance holds the shares and calendar entries that the registers ask for; SHRINKING where it holds more cells. -/
def sharesTaken (st : State) (i : InstId) (s : SliceId) : State :=
  modInst st i (fun x => { x with
    shares := x.shares.set s (shareAsked st), calendar := calendarAsked st
    shrinking := x.shrinking.set s (x.shrinking[s] || decide ((shareAsked st).cells < instCells (sl st s) i)) })

theorem vimShareWrite_of_fit (hex : instExists st i = true) (hquiescing : (inst st i).state ≠ .quiescing)
    (hfrozen : (inst st i).state ≠ .frozen) (hslice : sliceEnabled st s = true) (hweight : (shareAsked st).weight ≠ 0)
    (hfit : sharesFit st s i (shareAsked st) (calendarAsked st) = true) :
    vimShareWrite i s w st = vimDone w 0 (shareUpdate (sharesTaken st i s) s) := by
  have hnot : ¬ (!instExists st i) = true := by simp [hex]
  unfold vimShareWrite
  dsimp only
  rw [if_neg hnot, pickCode_of_no_cause st (by simp [hquiescing, hfrozen, hslice, hweight, hfit])]
  rfl

/-- The registers of SHARE_READ: the shares, and what of them is in use. -/
def shareShown (st : State) (i : InstId) (s : SliceId) : State :=
  let x := inst st i
  let q := x.shares[s]
  let st := wr st Reg.vimShare0 (word [(Fld.vimShare_WEIGHT, q.weight), (Fld.vimShare_CELLS, q.cells)])
  let st := wr st Reg.vimShare1 (word [(Fld.vimShare_ASSOCS, q.assocs), (Fld.vimShare_CHANNELS, q.channels)])
  let st := wr st Reg.vimShare2 (word [(Fld.vimShare_RULES, q.rules)])
  let st := wr st Reg.vimShare3 (word [(Fld.vimShare_CALENDAR, x.calendar)])
  let st := wr st (Reg.vimUse 0) (word [(⟨31, 31⟩, b2n x.shrinking[s]), (Fld.vimShare_CELLS, instCells (sl st s) i)])
  let st := wr st (Reg.vimUse 1) (word [(Fld.vimShare_ASSOCS, assocsOf st s i), (Fld.vimShare_CHANNELS, channelsOf st s i)])
  let st := wr st (Reg.vimUse 2) (word [(⟨29, 16⟩, rulesOf st s .line i.val), (⟨13, 0⟩, rulesOf st s .client i.val)])
  wr st (Reg.vimUse 3) (word [(Fld.vimShare_CALENDAR, countP (fun f => f.inst == i) st.saf)])

theorem regsOnly_wr {st t : State} {a : Nat} {w : Word} (h : ∃ m, t = { st with regs := m }) :
    ∃ m, wr t a w = { st with regs := m } := by
  obtain ⟨m, rfl⟩ := h
  exact ⟨_, rfl⟩

theorem shareShown_only (st : State) (i : InstId) (s : SliceId) : ∃ m, shareShown st i s = { st with regs := m } := by
  unfold shareShown
  dsimp only
  iterate 8 apply regsOnly_wr
  exact ⟨st.regs, rfl⟩

theorem vimShareRead_of_enabled (hex : instExists st i = true) (hslice : sliceEnabled st s = true) :
    vimShareRead i s w st = vimDone w 0 (shareShown st i s) :=
  (if_neg (by simp [hex])).trans (if_neg (by simp [hslice]))

theorem rd_vimDone_ne {a : Nat} (h : a ≠ Reg.vimCmd) (code : Nat) : rd (vimDone w code st) a = rd st a := rd_wr_ne _ _ _ _ h

theorem rd_shareShown_share0 : rd (shareShown st i s) Reg.vimShare0 =
    word [(Fld.vimShare_WEIGHT, (inst st i).shares[s].weight), (Fld.vimShare_CELLS, (inst st i).shares[s].cells)] := by
  unfold shareShown
  dsimp only
  iterate 7 rw [rd_wr_ne _ _ _ _ (by decide)]
  exact rd_wr_self ..

theorem rd_shareShown_share1 : rd (shareShown st i s) Reg.vimShare1 =
    word [(Fld.vimShare_ASSOCS, (inst st i).shares[s].assocs), (Fld.vimShare_CHANNELS, (inst st i).shares[s].channels)] := by
  unfold shareShown
  dsimp only
  iterate 6 rw [rd_wr_ne _ _ _ _ (by decide)]
  exact rd_wr_self ..

theorem rd_shareShown_share2 : rd (shareShown st i s) Reg.vimShare2 = word [(Fld.vimShare_RULES, (inst st i).shares[s].rules)] := by
  unfold shareShown
  dsimp only
  iterate 5 rw [rd_wr_ne _ _ _ _ (by decide)]
  exact rd_wr_self ..

theorem rd_shareShown_share3 : rd (shareShown st i s) Reg.vimShare3 = word [(Fld.vimShare_CALENDAR, (inst st i).calendar)] := by
  unfold shareShown
  dsimp only
  iterate 4 rw [rd_wr_ne _ _ _ _ (by decide)]
  exact rd_wr_self ..

theorem rd_shareShown_use3 : rd (shareShown st i s) (Reg.vimUse 3) =
    word [(Fld.vimShare_CALENDAR, countP (fun f => f.inst == i) st.saf)] := rd_wr_self ..

end Shares

/-! ### SAVE (13 R521) -/

section Save
variable {st : State} {i : InstId} {w : Word} {n : Node}

theorem vimSave_of_frozen (hex : instExists st i = true) (htenant : i ≠ 0) (hfrozen : (inst st i).state = .frozen)
    (hstandby : twinStandby st = false) (hnode : wrapNode st i = some n) (hgood : n.bad = false)
    (htribs : ∀ r : SliceId, instTribs st r i = [])
    (hroom : capLen (capSections (capRecs st i [])) ≤ (rd st Reg.vimCapLen).toNat) :
    vimSave i w st =
      (let len := capLen (capSections (capRecs st i []))
       let d := draw st
       let cap := capsuleBytes d.2 i (capNodeIx st) n d.1
       vimDone w 0 (count (setF (arcDrop (exportSlots (dma (capStage d.2 cap) (capAddr (capStage d.2 cap)) cap) i) i)
         Reg.vimCapStat Fld.vimCapStat_LENGTH (capUnits len)) (Reg.vimCnt 5))) := by
  obtain ⟨hget, -⟩ := Option.filter_eq_some_iff.mp hnode
  have hcheck : nodeCheck st (capNodeIx st) = st := nodeCheck_of_good fun m hm => by
    rw [hget] at hm
    exact Option.some.inj hm ▸ hgood
  have hstaged (t : State) (bs : Bytes) (ht : t.twin = st.twin) : twinStandby (capStage t bs) = false := by
    rw [twinStandby, capStage, meeWrite_twin, ht]
    exact hstandby
  rw [vimSave, hcheck]
  dsimp only
  rw [stateCode_of_allowed hex htenant (by simp) (by simp [hfrozen]), if_neg (by simp),
    pickCode_of_no_cause st (by simp [hnode, htribs, hroom, List.any_eq_false])]
  simp only [hnode, ne_eq, not_true_eq_false, if_false, hstaged (draw st).2 _ rfl, Bool.false_eq_true]
  rfl

end Save

/-! ### RESTORE (13 R524, R525) -/

section Restore
variable {st : State} {i : InstId} {w : Word}

/-- The SLOTS records of a capsule, each with its section. -/
def slotRecs (recs : List (Nat × Nat × Bytes)) : List (Nat × Bytes) :=
  (recs.filter (fun p => p.2.1 == 4)).map (fun p => (p.1, p.2.2))

/-- The RESTORE in hand of these records. -/
def restoreOf (i : InstId) (recs : List (Nat × Nat × Bytes)) (st : State) : RestoreSt :=
  { inst := i, node := capNodeIx st, recs := recs, left := (slotRecs recs).length }

variable (hex : instExists st i = true) (htenant : i ≠ 0) (hdisabled : (inst st i).state = .disabled)
  (hnode : ∀ n, node? st (capNodeIx st) = some n → n.bad = false)
include hex htenant hdisabled hnode

theorem vimRestore_of_disabled : vimRestore i w st =
    (let st1 : State := { st with capBytes := [] }
     match restoreCheck st1 i st.capBytes with
     | .error e => vimDone w e.1 (setF (count st1 (Reg.vimCnt 7)) Reg.vimCapStat Fld.vimCapStat_SECTION e.2)
     | .ok (ck, recs) =>
       match restoreSlots i ck recs (slotRecs recs) (capStage st1 st.capBytes) with
       | .error (14, sec, s, an, ch, reason) => vimDone w 14 (setF (count
           (jnlRefused (capStage st1 st.capBytes) reason 3 s an.val ch.val) (Reg.vimCnt 7)) Reg.vimCapStat Fld.vimCapStat_SECTION sec)
       | .error (code, sec, _) => vimDone w code (setF (count (capStage st1 st.capBytes) (Reg.vimCnt 7))
           Reg.vimCapStat Fld.vimCapStat_SECTION sec)
       | .ok st2 =>
         if (slotRecs recs).isEmpty then vimDone w 0 (count (restoreBuild st2 (restoreOf i recs st2)) (Reg.vimCnt 6))
         else cmdBusy { st2 with restore := some (restoreOf i recs st2)
                                 ktr := { st2.ktr with capNode := some (capNodeIx st2) } } Reg.vimCmd Fld.vimCmd_OP w) := by
  have hcheck : nodeCheck { st with capBytes := [] } (capNodeIx st) = { st with capBytes := [] } :=
    nodeCheck_of_good (st := { st with capBytes := [] }) hnode
  have hcode : stateCode { st with capBytes := [] } i false (fun q => q == .disabled) = 0 :=
    stateCode_of_allowed (st := { st with capBytes := [] }) hex htenant (by simp) (by
      rw [show (inst { st with capBytes := [] } i).state = .disabled from hdisabled]; rfl)
  unfold vimRestore
  dsimp only
  rw [hcheck, hcode]
  rfl

theorem vimRestore_of_bad_capsule {e : Nat × Nat} (h : restoreCheck { st with capBytes := [] } i st.capBytes = .error e) :
    vimRestore i w st = vimDone w e.1
      (setF (count { st with capBytes := [] } (Reg.vimCnt 7)) Reg.vimCapStat Fld.vimCapStat_SECTION e.2) := by
  rw [vimRestore_of_disabled hex htenant hdisabled hnode]
  simp only [h]

variable {ck : Bytes} {recs : List (Nat × Nat × Bytes)}
  (h : restoreCheck { st with capBytes := [] } i st.capBytes = .ok (ck, recs))
include h

theorem vimRestore_of_no_slots (hnone : slotRecs recs = []) : vimRestore i w st = vimDone w 0 (count
    (restoreBuild (capStage { st with capBytes := [] } st.capBytes) (restoreOf i recs (capStage { st with capBytes := [] } st.capBytes)))
    (Reg.vimCnt 6)) := by
  rw [vimRestore_of_disabled hex htenant hdisabled hnode]
  simp only [h, hnone, restoreSlots, List.isEmpty_nil, if_true]

theorem vimRestore_of_slots {st2 : State} (hsome : slotRecs recs ≠ [])
    (hslots : restoreSlots i ck recs (slotRecs recs) (capStage { st with capBytes := [] } st.capBytes) = .ok st2) :
    vimRestore i w st = cmdBusy { st2 with restore := some (restoreOf i recs st2)
                                           ktr := { st2.ktr with capNode := some (capNodeIx st2) } }
      Reg.vimCmd Fld.vimCmd_OP w := by
  rw [vimRestore_of_disabled hex htenant hdisabled hnode]
  simp only [h, hslots, List.isEmpty_iff, if_neg hsome]

end Restore

/-- What VIM_CMD, which the mirror forwards, asks of a package where it is open: no halt, no package of a pair, and BUSY 0. -/
theorem of_cmdOpen_vimCmd {st : State} (h : cmdOpen st Reg.vimCmd = true) :
    st.glb.halted = false ∧ twinStandby st = false ∧ twinOwner st = false ∧ fld st Reg.vimCmd busyF = 0 := by
  have hfwd : notForwarded Reg.vimCmd = false := by decide
  simp only [cmdOpen, atOnce, hfwd, Bool.false_or, Bool.and_eq_true, Bool.not_eq_true', decide_eq_true_eq] at h
  obtain ⟨⟨⟨⟨hrun, -⟩, hstandby, howner⟩, -⟩, hbusy⟩ := h
  exact ⟨hrun, hstandby, howner, hbusy⟩

/-- VIM_CMD is forwarded, so that it is open in a package outside a pair alone. -/
theorem exec_restore_of_open {st : State} {i : InstId} {cap : Bytes} (hopen : cmdOpen st Reg.vimCmd = true) :
    exec (.restore i cap) st = .next (vimRestore i (vimWord 8 i 0) { st with capBytes := cap }) := by
  obtain ⟨hrun, hstandby, howner, hbusy⟩ := of_cmdOpen_vimCmd hopen
  have hexec : exec (.restore i cap) st = vimOp (vimWord 8 i 0) (vimRestore i) { st with capBytes := cap } := by
    simp [exec, execRestore, hrun, hstandby, hbusy, show twinOwner { st with capBytes := cap } = false from howner]
  exact hexec.trans (exec_vimOp_of_open (st := { st with capBytes := cap }) hopen)

/-! ### Function-level resets (13 R519) -/

section Flr
variable {st : State} {i : InstId}

theorem foldl_setF_insts {α : Type} (a : α → Nat) (f : Field) (v : Nat) (l : List α) (st : State) :
    (l.foldl (fun st x => setF st (a x) f v) st).insts = st.insts :=
  List.foldlRecOn (motive := fun t : State => t.insts = st.insts) l _ rfl fun _ ht _ _ => ht

/-- The reset of a function leaves the state of its instance. -/
theorem inst_flrRings_state (st : State) (i : InstId) : (inst (flrRings st i) i).state = (inst st i).state := by
  unfold flrRings
  dsimp only
  rw [inst, foldl_setF_insts, modInst_insts, NMap.getD_put_self]

variable (hvf : hasVf st i = true) (hrun : st.glb.halted = false)
include hvf hrun

theorem exec_vfFlr_of_vf : exec (.vfFlr i) st = .next (match (inst st i).state with
    | .enabled => modInst (startQuiesce (flrRings st i) i) i (fun x => { x with flrPend := true })
    | .quiescing => modInst (flrRings st i) i (fun x => { x with flrPend := true })
    | .quiesced => if tribInPage (flrRings st i) i then flrRings st i else instClear (flrRings st i) i false
    | _ => flrRings st i) := by
  refine (congrArg Host.Outcome.next (if_neg (by simp [hvf, hrun]))).trans (congrArg Host.Outcome.next ?_)
  dsimp only
  rw [inst_flrRings_state] <;> cases (inst st i).state <;> rfl

theorem exec_vfFlr_of_disabled (h : (inst st i).state = .disabled ∨ (inst st i).state = .frozen) :
    exec (.vfFlr i) st = .next (flrRings st i) := by
  rw [exec_vfFlr_of_vf hvf hrun]
  rcases h with h | h <;> simp only [h]

theorem exec_vfFlr_of_enabled (h : (inst st i).state = .enabled) :
    exec (.vfFlr i) st = .next (modInst (startQuiesce (flrRings st i) i) i (fun x => { x with flrPend := true })) := by
  rw [exec_vfFlr_of_vf hvf hrun]
  simp only [h]

theorem exec_vfFlr_of_quiescing (h : (inst st i).state = .quiescing) :
    exec (.vfFlr i) st = .next (modInst (flrRings st i) i (fun x => { x with flrPend := true })) := by
  rw [exec_vfFlr_of_vf hvf hrun]
  simp only [h]

theorem exec_vfFlr_of_quiesced (h : (inst st i).state = .quiesced) : exec (.vfFlr i) st =
    .next (if tribInPage (flrRings st i) i then flrRings st i else instClear (flrRings st i) i false) := by
  rw [exec_vfFlr_of_vf hvf hrun]
  simp only [h]

end Flr

/-- Settles O38: SHARE_WRITE, SHARE_READ, SAVE and RESTORE pass their checks, or answer the first that fails, and a reset of a
function does what the state of its instance says. -/
theorem sharesCapsulesAndFunctionResets : Obligations.SharesCapsulesAndFunctionResets := by
  intro st i s
  refine ⟨fun hopen hex => ⟨fun hquiescing hfrozen hslice hweight hfit => ?write, fun hslice => ?read,
    fun n htenant hfrozen hnode hgood htribs hroom => ?save, fun cap htenant hdisabled hnode => ?restore⟩, ?flr, rfl⟩
  case write =>
    exact (exec_vimOp_of_open hopen).trans (congrArg _ (vimShareWrite_of_fit hex hquiescing hfrozen hslice hweight hfit))
  case read =>
    refine ⟨vimDone (vimWord 10 i s) 0 (shareShown st i s),
      (exec_vimOp_of_open hopen).trans (congrArg _ (vimShareRead_of_enabled hex hslice)), ?only, ?_, ?_, ?_, ?_, ?_⟩
    case only =>
      obtain ⟨m, hm⟩ := shareShown_only st i s
      rw [hm]
      rfl
    all_goals rw [rd_vimDone_ne (by decide)]
    exacts [rd_shareShown_share0, rd_shareShown_share1, rd_shareShown_share2, rd_shareShown_share3, rd_shareShown_use3]
  case save =>
    obtain ⟨-, hstandby, -, -⟩ := of_cmdOpen_vimCmd hopen
    exact (exec_vimOp_of_open hopen).trans
      (congrArg _ (vimSave_of_frozen hex htenant hfrozen hstandby hnode hgood htribs hroom))
  case restore =>
    rw [exec_restore_of_open hopen]
    exact ⟨fun e h => congrArg _ (vimRestore_of_bad_capsule (st := { st with capBytes := cap }) hex htenant hdisabled hnode h),
      fun ck recs h =>
        ⟨fun hnone => congrArg _ (vimRestore_of_no_slots (st := { st with capBytes := cap }) hex htenant hdisabled hnode h hnone),
          fun st2 hsome hslots =>
            congrArg _ (vimRestore_of_slots (st := { st with capBytes := cap }) hex htenant hdisabled hnode h hsome hslots)⟩⟩
  case flr =>
    exact fun hvf hrun => ⟨exec_vfFlr_of_disabled hvf hrun, exec_vfFlr_of_enabled hvf hrun, exec_vfFlr_of_quiescing hvf hrun,
      fun h hpage => (exec_vfFlr_of_quiesced hvf hrun h).trans (by rw [hpage]; rfl),
      fun h hpage => (exec_vfFlr_of_quiesced hvf hrun h).trans (by rw [hpage]; rfl)⟩

end Sys2Proof.Machine
end

section
/-!
PROOFS. The symbol code of external memory (14 R535, R536): multiplication by powers of α in GF(16), the two syndromes of an error of
one symbol, and O40 put together from them.
-/
namespace Sys2Proof.Machine

/-! ### Powers of α -/

theorem gfMulPow_add (m n : Nat) (a : BitVec 4) : gfMulPow n (gfMulPow m a) = gfMulPow (m + n) a := by
  induction m generalizing a with
  | zero => rw [Nat.zero_add]; rfl
  | succ m ih => rw [Nat.succ_add]; exact ih _

/-- α has order 15. -/
theorem gfMulPow_order (a : BitVec 4) : gfMulPow 15 a = a := by
  revert a
  decide

theorem gfMulPow_mul_order (k : Nat) (a : BitVec 4) : gfMulPow (15 * k) a = a := by
  induction k with
  | zero => rfl
  | succ k ih => rw [Nat.mul_succ, ← gfMulPow_add, ih, gfMulPow_order]

theorem gfMulPow_mod (n : Nat) (a : BitVec 4) : gfMulPow (n % 15) a = gfMulPow n a := by
  conv_rhs => rw [← Nat.div_add_mod n 15, ← gfMulPow_add, gfMulPow_mul_order]

/-- No smaller power of α than the fifteenth fixes a symbol that is not 0. -/
theorem gfMulPow_eq_self : ∀ (n : Fin 15) (a : BitVec 4), a ≠ 0 → gfMulPow n a = a → n = 0 := by decide

theorem gfMulPow_zero (n : Nat) : gfMulPow n 0 = 0 := by
  induction n with
  | zero => rfl
  | succ n ih => exact ih

theorem gfMulPow_ne_zero {a : BitVec 4} (h : a ≠ 0) (n : Nat) : gfMulPow n a ≠ 0 := by
  intro hzero
  apply h
  calc a = gfMulPow (15 * n) a := (gfMulPow_mul_order n a).symm
    _ = gfMulPow (14 * n) (gfMulPow n a) := by rw [gfMulPow_add]; congr 1; omega
    _ = 0 := by rw [hzero, gfMulPow_zero]

/-- Two powers below the fifteenth that agree on a symbol that is not 0 are the same. -/
theorem gfMulPow_injective {m n : Nat} {a : BitVec 4} (hm : m < 15) (hn : n < 15) (ha : a ≠ 0)
    (h : gfMulPow m a = gfMulPow n a) : m = n := by
  have hfix : gfMulPow ((n + (15 - m)) % 15) a = a := by
    rw [gfMulPow_mod, ← gfMulPow_add, ← h, gfMulPow_add, Nat.add_sub_of_le hm.le, gfMulPow_order]
  have hzero := congrArg Fin.val (gfMulPow_eq_self ⟨_, Nat.mod_lt _ (by decide)⟩ a ha hfix)
  change (n + (15 - m)) % 15 = 0 at hzero
  omega

/-! ### An error of one symbol -/

/-- The error pattern of one symbol. -/
def oneSymbol (i : Nat) (e : BitVec 4) (j : Nat) : BitVec 4 := if j = i then e else 0

/-- A sum in which one term alone is not 0. -/
theorem foldl_xor_oneSymbol (f : Nat → BitVec 4 → BitVec 4) (hf : ∀ j, f j 0 = 0) {i : Nat} {e : BitVec 4} {l : List Nat}
    (hl : l.Nodup) (hi : i ∈ l) (s : BitVec 4) : l.foldl (fun s j => s ^^^ f j (oneSymbol i e j)) s = s ^^^ f i e := by
  have hrest : ∀ (l : List Nat) (s : BitVec 4), i ∉ l → l.foldl (fun s j => s ^^^ f j (oneSymbol i e j)) s = s := by
    intro l
    induction l with
    | nil => exact fun s _ => rfl
    | cons j l ih =>
      intro s hnot
      obtain ⟨hj, hl⟩ := not_or.mp (mt List.mem_cons.mpr hnot)
      rw [List.foldl_cons, ih _ hl, oneSymbol, if_neg (Ne.symm hj), hf]
      exact BitVec.xor_zero
  induction l generalizing s with
  | nil => simp at hi
  | cons j l ih =>
    obtain ⟨hj, hl'⟩ := List.nodup_cons.mp hl
    rw [List.foldl_cons]
    rcases List.mem_cons.mp hi with rfl | hmem
    · rw [hrest l _ hj, oneSymbol, if_pos rfl]
    · have hne : j ≠ i := fun h => hj (h ▸ hmem)
      rw [ih hl' hmem, oneSymbol, if_neg hne, hf]
      exact congrArg (· ^^^ f i e) BitVec.xor_zero

theorem syndrome_oneSymbol {i : Nat} (hi : i < 10) (b : Nat) (e : BitVec 4) :
    syndrome b (oneSymbol i e) = gfMulPow (i * b) e := by
  rw [syndrome, foldl_xor_oneSymbol (fun j => gfMulPow (j * b % 15)) (fun j => gfMulPow_zero _) List.nodup_range
    (List.mem_range.mpr hi), gfMulPow_mod]
  exact BitVec.zero_xor

theorem syndrome_none (b : Nat) : syndrome b (fun _ => 0) = 0 :=
  List.foldlRecOn (motive := fun s => s = 0) _ _ rfl fun s hs j _ => by
    rw [hs, gfMulPow_zero]
    rfl

/-- The symbol in error is the one whose power of α takes the first syndrome to the second. -/
theorem find_locator {i : Nat} (hi : i < 10) {s : BitVec 4} (hs : s ≠ 0) :
    (List.range 10).find? (fun j => gfMulPow j s == gfMulPow i s) = some i := by
  refine List.find?_range_eq_some.mpr ⟨by simp, by simpa using hi, fun j hj => ?_⟩
  have hne : gfMulPow j s ≠ gfMulPow i s := fun h => hj.ne (gfMulPow_injective (by omega) (by omega) hs h)
  simpa using hne

theorem decodeBeat_oneSymbol {i : Nat} (hi : i < 10) {e : BitVec 4} (he : e ≠ 0) :
    decodeBeat (oneSymbol i e) = some (some (i, e)) := by
  have hs0 : syndrome (Config.rsRoot % 15) (oneSymbol i e) ≠ 0 := by
    rw [syndrome_oneSymbol hi]
    exact gfMulPow_ne_zero he _
  have hs1 : syndrome (Config.rsRoot % 15 + 1) (oneSymbol i e) =
      gfMulPow i (syndrome (Config.rsRoot % 15) (oneSymbol i e)) := by
    rw [syndrome_oneSymbol hi, syndrome_oneSymbol hi, gfMulPow_add, Nat.mul_succ]
  have hback : gfMulPow ((15 - i * (Config.rsRoot % 15) % 15) % 15) (syndrome (Config.rsRoot % 15) (oneSymbol i e)) = e := by
    rw [syndrome_oneSymbol hi, gfMulPow_mod, ← gfMulPow_mod (i * _), gfMulPow_add,
      Nat.add_sub_of_le (Nat.mod_lt _ (by decide)).le, gfMulPow_order]
  unfold decodeBeat
  dsimp only
  rw [if_neg (fun h => hs0 h.1), hs1, find_locator hi hs0]
  simp only [if_neg hs0, hback]

/-- Settles O40: an error of symbol i multiplies the first syndrome by the i-th power of α, and no other of the ten powers does. -/
theorem oneSymbolOfABeatIsCorrected : Obligations.OneSymbolOfABeatIsCorrected := by
  refine ⟨?none, fun i e hi he => decodeBeat_oneSymbol hi he⟩
  case none => exact if_pos ⟨syndrome_none _, syndrome_none _⟩

end Sys2Proof.Machine
end

section
/-!
PROOFS. External memory in service (14 R533, R534, R546, R549, R551, R553, R554, R556): training and upkeep, reads of a data line by what
stands in their way, write-backs and the patrol scrub, and O39 put together from them.
-/
namespace Sys2Proof.Machine

/-! ### Training and upkeep (14 R533, R534) -/

section Training
variable {st : State}

section Untrained
variable (huntrained : st.mee.trained = false) (hrun : st.glb.halted = false) (hbooted : booted st = true)
include huntrained hrun hbooted

theorem exec_dramTrained_of_success : exec (.dramTrained 0) st =
    .next (enablePorts (modMee (draw st).2 (fun m => { m with
      trained := true, ready := true, km := (draw st).1, hm := aesEnc (draw st).1 (List.replicate 16 0xFF)
      retrainAt := elNs (draw st).2 + 100000000 }))) :=
  congrArg Host.Outcome.next ((if_neg (by simp [huntrained, hrun, hbooted])).trans (if_pos rfl))

/-- Each subchannel that failed has one more training behind it. -/
def triesCounted (f : BitVec 4) (st : State) : State :=
  modMee st (fun m => { m with tries := m.tries.mapFinIdx (fun i n _ => if f.getLsbD i then n + 1 else n) })

/-- The subchannels that have failed more than three times. -/
def subchannelsGone (st : State) : List Nat := (List.range 4).filter (fun i => decide (3 < st.mee.tries.toList.getD i 0))

variable {f : BitVec 4} (hf : f ≠ 0)
include hf

theorem exec_dramTrained_of_failure : exec (.dramTrained f) st =
    .next (if (subchannelsGone (triesCounted f st)).isEmpty then triesCounted f st
      else carmineHalt (modMee (triesCounted f st) (fun m =>
          { m with trainFail := BitVec.ofNat 4 (sumOf (fun i => 2 ^ i) (subchannelsGone (triesCounted f st))) }))
        6 0 0 0 38 (Config.detail 38 (subchannelsGone (triesCounted f st)))) :=
  congrArg Host.Outcome.next ((if_neg (by simp [huntrained, hrun, hbooted])).trans (if_neg hf))

theorem exec_dramTrained_of_retry (hnone : subchannelsGone (triesCounted f st) = []) :
    exec (.dramTrained f) st = .next (triesCounted f st) := by
  rw [exec_dramTrained_of_failure huntrained hrun hbooted hf, hnone]
  rfl

theorem exec_dramTrained_of_gone (hsome : subchannelsGone (triesCounted f st) ≠ []) : exec (.dramTrained f) st =
    .next (carmineHalt (modMee (triesCounted f st) (fun m =>
        { m with trainFail := BitVec.ofNat 4 (sumOf (fun i => 2 ^ i) (subchannelsGone (triesCounted f st))) }))
      6 0 0 0 38 (Config.detail 38 (subchannelsGone (triesCounted f st)))) := by
  rw [exec_dramTrained_of_failure huntrained hrun hbooted hf, if_neg (by simpa using hsome)]

end Untrained

section Trained
variable (htrained : st.mee.trained = true)
include htrained

theorem exec_dramTrained_of_trained (f : BitVec 4) : exec (.dramTrained f) st = .next st :=
  congrArg Host.Outcome.next (if_pos (by simp [htrained]))

theorem exec_dqsRetrain_of_due (hdue : st.mee.retrainAt ≤ elNs st) : exec .dqsRetrain st =
    .next (count (modMee st (fun m => { m with retrainAt := m.retrainAt + 100000000 })) (Reg.drcCnt 5)) :=
  congrArg Host.Outcome.next (if_pos ⟨htrained, hdue⟩)

omit htrained in
theorem exec_dqsRetrain_of_early (hearly : elNs st < st.mee.retrainAt) : exec .dqsRetrain st = .next st :=
  congrArg Host.Outcome.next (if_neg fun h => Nat.not_le.mpr hearly h.2)

theorem exec_mr4TemperatureReport_of_rank {c : Fin 4} {rank hot : Bool} (hrank : rank = false ∨ st.img.content.dramRanks = true) :
    exec (.mr4TemperatureReport c rank hot) st = .next (modMee st (fun m => { m with
      hot := if hot then m.hot ||| BitVec.ofNat 8 (2 ^ (2 * c.val + b2n rank))
        else m.hot &&& ~~~ BitVec.ofNat 8 (2 ^ (2 * c.val + b2n rank)) })) :=
  congrArg Host.Outcome.next (if_neg (by rcases hrank with h | h <;> simp [htrained, h]))

omit htrained in
theorem exec_mr4TemperatureReport_of_no_rank {c : Fin 4} {rank hot : Bool} (hrank : rank = true)
    (hno : st.img.content.dramRanks = false) : exec (.mr4TemperatureReport c rank hot) st = .next st :=
  congrArg Host.Outcome.next (if_pos (by simp [hrank, hno]))

end Trained
end Training

/-! ### Data lines (14 R546, R549, R551, R553, R554, R556) -/

section DataLine
variable {st : State} (hready : st.mee.ready = true) (hrun : st.glb.halted = false) {p i : Nat} {rank : Bool}
  (hrank : rank = false ∨ st.img.content.dramRanks = true) (hline : lineKind st p = .data i)

section Read
variable {errs : List BeatErr}
include hready hrun hrank hline

theorem exec_meeReadDone_of_data : exec (.meeReadDone p rank errs) st = .next (match fetchCtr st 0 i with
    | .error e => meeEnd st (.error e)
    | .ok st =>
      if ctrOf st 0 i = 0 then meeRelease st p (overWb st i (List.replicate 64 0))
      else
        match readBurst st p rank false errs with
        | .error e => meeEnd st (.error e)
        | .ok (c, st) =>
          match openData st i c with
          | .error e => meeEnd st (.error e)
          | .ok b => meeRelease st p (overWb st i b)) := by
  refine (congrArg Host.Outcome.next (if_neg (by rcases hrank with h | h <;> simp [hready, hrun, h]))).trans ?_
  rw [hline] <;> rfl

theorem exec_meeReadDone_of_no_counter {e : Nat × Nat} (h : fetchCtr st 0 i = .error e) :
    exec (.meeReadDone p rank errs) st = .next (meeEnd st (.error e)) := by
  rw [exec_meeReadDone_of_data hready hrun hrank hline, h]

variable {t : State} (h : fetchCtr st 0 i = .ok t)
include h

theorem exec_meeReadDone_of_unwritten (hctr : ctrOf t 0 i = 0) :
    exec (.meeReadDone p rank errs) st = .next (meeRelease t p (overWb t i (List.replicate 64 0))) := by
  rw [exec_meeReadDone_of_data hready hrun hrank hline, h]
  simp only [hctr, if_true]

variable (hctr : ctrOf t 0 i ≠ 0)
include hctr

theorem exec_meeReadDone_of_bad_burst {e : Nat × Nat} (hburst : readBurst t p rank false errs = .error e) :
    exec (.meeReadDone p rank errs) st = .next (meeEnd t (.error e)) := by
  rw [exec_meeReadDone_of_data hready hrun hrank hline, h]
  simp only [if_neg hctr, hburst]

variable {c : Bytes} {u : State} (hburst : readBurst t p rank false errs = .ok (c, u))
include hburst

theorem exec_meeReadDone_of_open {b : Bytes} (hopen : openData u i c = .ok b) :
    exec (.meeReadDone p rank errs) st = .next (meeRelease u p (overWb u i b)) := by
  rw [exec_meeReadDone_of_data hready hrun hrank hline, h]
  simp only [if_neg hctr, hburst, hopen]

theorem exec_meeReadDone_of_bad_tag {e : Nat × Nat} (hopen : openData u i c = .error e) :
    exec (.meeReadDone p rank errs) st = .next (meeEnd u (.error e)) := by
  rw [exec_meeReadDone_of_data hready hrun hrank hline, h]
  simp only [if_neg hctr, hburst, hopen]

end Read

section WriteBack
include hline

include hready hrun in
theorem exec_meeWriteBack_of_waiting {w : WbLine} {t : State} (hwait : st.mee.wb.get? i = some w) (hmay : mayWrite st p = true)
    (htags : mayWrite st (tagLine st i) = true) (hwrite : writeData st i w = .ok t) :
    exec (.meeWriteBack p) st = .next t := by
  refine congrArg Host.Outcome.next ?_
  simp [meeWriteBack, hready, hrun, hmay, hline, hwait, htags, hwrite]

theorem exec_meeWriteBack_of_none (h : st.mee.wb.get? i = none ∨ mayWrite st p = false) :
    exec (.meeWriteBack p) st = .next st := by
  refine congrArg Host.Outcome.next ?_
  rcases h with h | h <;> simp [meeWriteBack, hline, h]

end WriteBack

include hready hrun hrank hline in
theorem exec_patrolScrub_of_data {errs : List BeatErr} {t u : State} {b : Bytes} (hctr : fetchCtr st 0 i = .ok t)
    (hen : flagA st Reg.drcCtl Fld.drcCtl_PATROL_EN = true) (hwritten : st.mee.dram.has p = true)
    (hburst : readBurst (count t (Reg.drcCnt 4)) p rank true errs = .ok (b, u)) :
    exec (.patrolScrub p rank errs) st = .next u := by
  refine (congrArg Host.Outcome.next (if_neg (by
    rcases hrank with h | h <;> simp [hready, hrun, hen, hwritten, h]))).trans ?_
  simp only [patrolCtr, hline, hctr, hburst]

end DataLine

/-- Settles O39: training, upkeep, reads, write-backs and the patrol scrub each do what the memory and the line allow. -/
theorem externalMemoryIsTrainedReadAndWritten : Obligations.ExternalMemoryIsTrainedReadAndWritten := by
  intro st
  exact ⟨fun huntrained hrun hbooted => ⟨exec_dramTrained_of_success huntrained hrun hbooted,
      fun f hf => ⟨exec_dramTrained_of_retry huntrained hrun hbooted hf, exec_dramTrained_of_gone huntrained hrun hbooted hf⟩⟩,
    fun htrained => ⟨exec_dramTrained_of_trained htrained, exec_dqsRetrain_of_due htrained, exec_dqsRetrain_of_early,
      fun c rank hot => ⟨exec_mr4TemperatureReport_of_rank htrained, exec_mr4TemperatureReport_of_no_rank⟩⟩,
    fun hready hrun p rank i hrank hline => ⟨fun errs e => exec_meeReadDone_of_no_counter hready hrun hrank hline,
      fun errs t hctr => ⟨exec_meeReadDone_of_unwritten hready hrun hrank hline hctr, fun hwritten =>
        ⟨fun e => exec_meeReadDone_of_bad_burst hready hrun hrank hline hctr hwritten,
          fun c u hburst => ⟨fun b => exec_meeReadDone_of_open hready hrun hrank hline hctr hwritten hburst,
            fun e => exec_meeReadDone_of_bad_tag hready hrun hrank hline hctr hwritten hburst⟩⟩⟩,
      fun w t => exec_meeWriteBack_of_waiting hready hrun hline,
      exec_meeWriteBack_of_none hline,
      fun errs t b u => exec_patrolScrub_of_data hready hrun hrank hline⟩⟩

end Sys2Proof.Machine
end

section
/-!
PROOFS. The commands of the association archive (14 R559 to R562, Table 14-8): what each does with the slot and the entry named, and
O41 put together from them.
-/
namespace Sys2Proof.Machine

/-- The command word of MEE_ARC_CMD, and the word of MEE_ARC_SEL. -/
def arcWord (op : Nat) (e : BitVec 20) : Word := word [(Fld.meeArcCmd_OP, op), (Fld.meeArcCmd_ENTRY, e.toNat)]
def arcSelWord (s : SliceId) (ch : ChIx) (an : An) : Word :=
  word [(Fld.meeArcSel_SLICE, s.val), (Fld.meeArcSel_AN, an.val), (Fld.meeArcSel_CHANNEL, ch.val)]

theorem arcEntry_arcWord (op : Nat) (e : BitVec 20) : arcEntry (arcWord op e) = e.toNat := by
  simp (disch := decide) only [arcEntry, arcWord, word, List.foldl_cons, List.foldl_nil, getF_putF_self]
  exact Nat.mod_eq_of_lt e.isLt

/-- The fields of MEE_ARC_SEL are the slot it was made of. -/
theorem arcSelWord_fields (s : SliceId) (ch : ChIx) (an : An) :
    Fin.ofNat 4 (getF (arcSelWord s ch an) Fld.meeArcSel_SLICE) = s ∧
    Fin.ofNat 16384 (getF (arcSelWord s ch an) Fld.meeArcSel_CHANNEL) = ch ∧
    Fin.ofNat 4 (getF (arcSelWord s ch an) Fld.meeArcSel_AN) = an := by
  simp (disch := decide) only [arcSelWord, word, List.foldl_cons, List.foldl_nil, getF_putF_self, getF_putF_ne]
  exact ⟨Fin.ext ((Nat.mod_mod _ _).trans (Nat.mod_eq_of_lt s.isLt)),
    Fin.ext ((Nat.mod_mod _ _).trans (Nat.mod_eq_of_lt ch.isLt)), Fin.ext ((Nat.mod_mod _ _).trans (Nat.mod_eq_of_lt an.isLt))⟩

section Archive
variable {st : State} {e : BitVec 20} {s : SliceId} {ch : ChIx} {an : An}

/-- MEE_ARC_SEL names the slot. -/
def arcSelected (s : SliceId) (ch : ChIx) (an : An) (st : State) : State := wr st Reg.meeArcSel (arcSelWord s ch an)

/-- The slot named, after a frame boundary of its channel, without an error of its memory. -/
def arcSlotReady (s : SliceId) (ch : ChIx) (an : An) (st : State) : State :=
  slotCheck (boundary (arcSelected s ch an st) s ch none) s ch an

theorem selected_slot (s : SliceId) (ch : ChIx) (an : An) (st : State) :
    selSlice (arcSelected s ch an st) = s ∧ selCh (arcSelected s ch an st) = ch ∧ selAn (arcSelected s ch an st) = an := by
  simp only [selSlice, selCh, selAn, fld, arcSelected, rd_wr_self]
  exact arcSelWord_fields s ch an

section Commands
variable (hopen : cmdOpen st Reg.meeArcCmd = true)
include hopen

theorem exec_arcRead_of_open : exec (.arcRead e) st = .next (arcRead (arcWord 3 e) st) :=
  congrArg Host.Outcome.next (cmdPF_open st _ _ _ _ hopen)
theorem exec_arcDelete_of_open : exec (.arcDelete e) st = .next (arcDelete (arcWord 4 e) st) :=
  congrArg Host.Outcome.next (cmdPF_open st _ _ _ _ hopen)

variable (hsel : atOnce st Reg.meeArcSel = true)

omit hopen in
include hsel in
theorem arcSelect_of_atOnce : arcSelect s ch an st = arcSelected s ch an st := viaPF_atOnce st _ (arcSelWord s ch an) (fun st => arcSelected s ch an st) hsel

theorem cmdOpen_arcSelected : cmdOpen (arcSelected s ch an st) Reg.meeArcCmd = true := by
  have hfld : fld (arcSelected s ch an st) Reg.meeArcCmd busyF = fld st Reg.meeArcCmd busyF :=
    congrArg (getF · busyF) (rd_wr_ne _ _ _ _ (by decide))
  simp only [cmdOpen, hfld] at hopen ⊢
  exact hopen

include hsel

theorem exec_park_of_open : exec (.park e s ch an) st = .next (arcPark (arcWord 1 e) (arcSelected s ch an st)) := by
  change arcOp 1 e arcPark (arcSelect s ch an st) = _
  rw [arcSelect_of_atOnce hsel]
  exact congrArg Host.Outcome.next (cmdPF_open _ _ _ _ _ (cmdOpen_arcSelected hopen))

theorem exec_arcLoad_of_open : exec (.arcLoad e s ch an) st = .next (arcLoad (arcWord 2 e) (arcSelected s ch an st)) := by
  change arcOp 2 e arcLoad (arcSelect s ch an st) = _
  rw [arcSelect_of_atOnce hsel]
  exact congrArg Host.Outcome.next (cmdPF_open _ _ _ _ _ (cmdOpen_arcSelected hopen))

end Commands

/-! ### READ and DELETE (14 R562) -/

section Entry
variable (hready : st.mee.ready = true)
include hready

theorem arcRead_of_entry {y : ArcEnt} (h : st.mee.arc.get? e.toNat = some y) :
    arcRead (arcWord 3 e) st = arcDone (arcWord 3 e) 0 (wr st Reg.meeArcStat (word [(Fld.meeArcStat_VALID, 1),
      (Fld.meeArcStat_DIR, b2n y.dirRx), (Fld.meeArcStat_SUITE, y.suite.val),
      (Fld.meeArcStat_SAE_RESULT, fld st Reg.meeArcStat Fld.meeArcStat_SAE_RESULT)])) := by
  rw [arcRead, arcEntry_arcWord, h]
  dsimp only
  rw [pickCode_of_no_cause st (by simp [hready])]
  rfl

theorem arcRead_of_free (h : st.mee.arc.get? e.toNat = none) : arcRead (arcWord 3 e) st = arcDone (arcWord 3 e) 2 st := by
  rw [arcRead, arcEntry_arcWord, h]
  dsimp only
  rw [pickCode_of_one_cause st (code := 2) (by simp [hready])]

theorem arcDelete_of_entry {y : ArcEnt} (h : st.mee.arc.get? e.toNat = some y) :
    arcDelete (arcWord 4 e) st = arcDone (arcWord 4 e) 0 (arcFree st e.toNat) := by
  rw [arcDelete, arcEntry_arcWord, pickCode_of_no_cause st (by simp [hready, NMap.has, h])]
  rfl

theorem arcDelete_of_free (h : st.mee.arc.get? e.toNat = none) : arcDelete (arcWord 4 e) st = arcDone (arcWord 4 e) 2 st := by
  rw [arcDelete, arcEntry_arcWord, pickCode_of_one_cause st (code := 2) (by simp [hready, NMap.has, h])]
  rfl

end Entry

/-! ### PARK and LOAD (14 R559, R560) -/

section Slot
variable {st1 : State} (hst1 : st1 = arcSlotReady s ch an st) (hready : st.mee.ready = true) (hslice : sliceEnabled st s = true)
  (hready1 : st1.mee.ready = true) (hslice1 : sliceEnabled st1 s = true) (hinst : instRefusal st1 (chOf st1 s ch).inst = 0)
include hst1 hready hslice hready1 hslice1 hinst

theorem arcPark_of_loaded (hloaded : (slotOf st1 s ch an).state = .loaded) (hsae : (slotOf st1 s ch an).keySrc = false)
    (hfree : st1.mee.arc.has e.toNat = false) :
    arcPark (arcWord 1 e) (arcSelected s ch an st) =
      (let c := chOf st1 s ch
       let x := slotOf st1 s ch an
       arcDone (arcWord 1 e) 0 (count (slotEmpty (arcPut st1 e.toNat
         { inst := c.inst, dirRx := c.dirRx, suite := c.suite, key := x.key, salt := x.salt, ssci := x.ssci, pn := x.pn })
         s ch an) (Reg.meeCnt 4))) := by
  obtain ⟨hs, hch, han⟩ := selected_slot s ch an st
  have hon : ((arcSelected s ch an st).mee.ready && sliceOn (arcSelected s ch an st) s) = true := by
    have hon : sliceOn st s = true := (Bool.and_eq_true_iff.mp hslice).1
    exact Bool.and_eq_true_iff.mpr ⟨hready, hon⟩
  unfold arcPark
  dsimp only
  rw [hs, hch, han, arcEntry_arcWord, if_pos hon, ← arcSlotReady, ← hst1, pickCode_of_no_cause st1 (by simp [hready1, hslice1, hinst, hloaded, hsae, hfree])]
  rfl

theorem arcLoad_of_free {y : ArcEnt} (hentry : st1.mee.arc.get? e.toNat = some y) (hvalid : (chOf st1 s ch).valid = true)
    (hecc : (chOf st1 s ch).eccFail = false) (hempty : (slotOf st1 s ch an).state = .empty)
    (hepoch : (chOf st1 s ch).epochMode = false)
    (hroom : assocsOf st1 s (chOf st1 s ch).inst < (inst st1 (chOf st1 s ch).inst).shares[s].assocs)
    (hdir : (chOf st1 s ch).dirRx = y.dirRx) (hsuite : (chOf st1 s ch).suite = y.suite) (howner : (chOf st1 s ch).inst = y.inst) :
    arcLoad (arcWord 2 e) (arcSelected s ch an st) =
      startInstall (setF st1 Reg.meeArcStat Fld.meeArcStat_SAE_RESULT 0) 2 1 s ch an
        y.key y.salt y.ssci y.pn false false 0
        (fun st => cmdBusy st Reg.meeArcCmd Fld.meeArcCmd_OP (arcWord 2 e))
        (fun st => arcDone (arcWord 2 e) 6 (setF st Reg.meeArcStat Fld.meeArcStat_SAE_RESULT 12)) := by
  obtain ⟨hs, hch, han⟩ := selected_slot s ch an st
  have hon : ((arcSelected s ch an st).mee.ready && sliceOn (arcSelected s ch an st) s) = true := by
    have hon : sliceOn st s = true := (Bool.and_eq_true_iff.mp hslice).1
    exact Bool.and_eq_true_iff.mpr ⟨hready, hon⟩
  have hchecked : (if ((arcSelected s ch an st).mee.ready && sliceOn (arcSelected s ch an st) s) = true
      then slotCheck (boundary (arcSelected s ch an st) s ch none) s ch an else arcSelected s ch an st) = st1 :=
    (if_pos hon).trans hst1.symm
  simp only [arcLoad, hs, hch, han, arcEntry_arcWord, hchecked, hentry]
  rw [pickCode_of_no_cause st1 (by simpa [hvalid, hecc, hempty, hepoch, saeState, stateCauses, hinst] using hroom)]
  dsimp only
  rw [pickCode_of_no_cause st1 (by simp [hready1, hslice1, hdir, hsuite, howner])]
  rfl

end Slot
end Archive

/-- Settles O41: with MEE_ARC_CMD open each command acts on the entry, and PARK and LOAD on the slot that MEE_ARC_SEL names, when
none of the causes of Table 14-8 applies. -/
theorem archiveCommandsParkLoadReadAndDelete : Obligations.ArchiveCommandsParkLoadReadAndDelete := by
  intro st e s ch an hready
  refine ⟨fun hopen hsel hslice hready1 hslice1 hinst => ?slot, fun hopen => ?entry⟩
  case slot =>
    rw [exec_park_of_open hopen hsel, exec_arcLoad_of_open hopen hsel]
    exact ⟨fun hloaded hsae hfree => congrArg _ (arcPark_of_loaded rfl hready hslice hready1 hslice1 hinst hloaded hsae hfree),
      fun y hentry hvalid hecc hempty hepoch hroom hdir hsuite howner => congrArg _
        (arcLoad_of_free rfl hready hslice hready1 hslice1 hinst hentry hvalid hecc hempty hepoch hroom hdir hsuite howner)⟩
  case entry =>
    rw [exec_arcRead_of_open hopen, exec_arcDelete_of_open hopen]
    exact ⟨fun y h => ⟨congrArg _ (arcRead_of_entry hready h), congrArg _ (arcDelete_of_entry hready h)⟩,
      fun h => ⟨congrArg _ (arcRead_of_free hready h), congrArg _ (arcDelete_of_free hready h)⟩⟩

end Sys2Proof.Machine
end

section
/-!
PROOFS. Groups of alarms and what they leave (15 R571, R575, R576, 20 R692, R696): the frame of a group's records and events, the halt and
the Umber state that its response brings, and O45 put together from them.
-/
namespace Sys2Proof.Machine

/-! ### No frame is left (20 R692) -/

theorem sumOf_eq_zero {α : Type} {f : α → Nat} {l : List α} (h : ∀ x ∈ l, f x = 0) : sumOf f l = 0 :=
  List.foldlRecOn (motive := fun n => n = 0) l _ rfl fun n hn x hx => by rw [hn, h x hx]

theorem framesIn_settleVersions (x : SliceSt) : framesIn (settleVersions x) = framesIn x := by
  simp only [settleVersions]
  split <;> rfl

theorem framesIn_dropFrames (x : SliceSt) : framesIn (dropFrames x) = 0 := by
  have hqueue (v : Vector PortSt 8) :
      sumOf (fun p => p.queue.length) (v.map (fun p => { p with queue := [], fiHeld := [] })).toList = 0 :=
    sumOf_eq_zero (by simp)
  have hheld (v : Vector PortSt 8) :
      sumOf (fun p => p.fiHeld.length) (v.map (fun p => { p with queue := [], fiHeld := [] })).toList = 0 :=
    sumOf_eq_zero (by simp)
  simp only [framesIn, dropFrames, hqueue, hheld, List.length_nil]

theorem framesAll_discardAll (st : State) : framesAll (discardAll st) = 0 := by
  have hslices : sumOf framesIn (st.slices.map (fun x => settleVersions (dropFrames x))).toList = 0 :=
    sumOf_eq_zero (by simp [framesIn_settleVersions, framesIn_dropFrames])
  simp only [framesAll, discardAll, hslices, List.length_nil]

/-- Nothing is held and the outputs are released: no frame, no ownership, no transmitter. -/
def quiet (st : State) : Prop := framesAll st = 0 ∧ st.twin.own = false ∧ st.twin.txEn = false

theorem releaseOwn_twin (st : State) : (releaseOwn st).twin = { st.twin with
    own := false, txEn := false, sel := false, assertedAt := none, claimUntil := none, takingOver := false
    switchingUntil := none } := by
  unfold releaseOwn
  split <;> rfl

theorem quiet_discardAll_releaseOwn (st : State) : quiet (discardAll (releaseOwn st)) := by
  refine ⟨framesAll_discardAll _, ?_, ?_⟩
  · exact (congrArg TwinSt.own (releaseOwn_twin st))
  · exact (congrArg TwinSt.txEn (releaseOwn_twin st))

theorem quiet_enterUmber (st : State) : quiet (enterUmber st) := quiet_discardAll_releaseOwn st

theorem quiet_haltCore (st : State) (cause : Fin 16) (code slice ix : Nat) : quiet (haltCore st cause code slice ix) :=
  quiet_discardAll_releaseOwn st

theorem haltCore_halted (st : State) (cause : Fin 16) (code slice ix : Nat) :
    (haltCore st cause code slice ix).glb.halted = true := rfl

/-! ### What the records and events of a group leave alone -/

/-- What the response of a group has set: the halt and its clearing, the Umber state, the frames and the outputs. -/
structure SameResponse (st t : State) : Prop where
  glb : t.glb = st.glb
  squelched : t.tmp.squelched = st.tmp.squelched
  pend : t.tmp.zeroisePend = st.tmp.zeroisePend
  slices : t.slices = st.slices
  saf : t.saf = st.saf
  twin : t.twin = st.twin

namespace SameResponse
variable {st t u : State}

theorem refl (st : State) : SameResponse st st := ⟨rfl, rfl, rfl, rfl, rfl, rfl⟩

theorem trans (h : SameResponse st t) (h' : SameResponse t u) : SameResponse st u :=
  ⟨h'.glb.trans h.glb, h'.squelched.trans h.squelched, h'.pend.trans h.pend, h'.slices.trans h.slices, h'.saf.trans h.saf,
    h'.twin.trans h.twin⟩

theorem foldl {α : Type} {f : State → α → State} (hf : ∀ st x, SameResponse st (f st x)) (l : List α) (st : State) :
    SameResponse st (l.foldl f st) :=
  List.foldlRecOn (motive := SameResponse st) l _ (refl st) fun t ht x _ => ht.trans (hf t x)

theorem quiet (h : SameResponse st t) (hq : quiet st) : quiet t := by
  obtain ⟨hframes, hown, htx⟩ := hq
  exact ⟨by rw [framesAll, h.slices, h.saf]; exact hframes, by rw [h.twin, hown], by rw [h.twin, htx]⟩

theorem count (st : State) (a n : Nat) : SameResponse st (countN st a n) := ⟨rfl, rfl, rfl, rfl, rfl, rfl⟩
theorem modSrc (st : State) (n : Fin 30) (f : TmpSrc → TmpSrc) : SameResponse st (modSrc st n f) := ⟨rfl, rfl, rfl, rfl, rfl, rfl⟩

theorem raise (st : State) (e : Event) : SameResponse st (raise st e) := by
  rw [raise_only]
  exact ⟨rfl, rfl, rfl, rfl, rfl, rfl⟩

theorem logPut (st : State) (r : LogRec) : SameResponse st (logPut st r) := by
  rw [logPut_only]
  exact ⟨rfl, rfl, rfl, rfl, rfl, rfl⟩

theorem rated (st : State) (a : Alarm) : SameResponse st (rated st a).2 := by
  simp only [Machine.rated]
  repeat' split
  all_goals exact ⟨rfl, rfl, rfl, rfl, rfl, rfl⟩

theorem groupRecords (st : State) (g : List Alarm) (start : Bool) : SameResponse st (groupRecords st g start) := by
  refine trans ?rated (foldl (fun t p => logPut t _) _ _)
  case rated =>
    refine List.foldlRecOn (motive := fun p : List (Alarm × Bytes) × State => SameResponse st p.2) g _ (refl st)
      fun p hp a _ => ?_
    have hrated := rated p.2 a
    split <;> rename_i heq <;> rw [heq] at hrated <;> exact hp.trans hrated

theorem haltEvent (st : State) (cause : Fin 16) : SameResponse st (haltEvent st cause) := by
  unfold Machine.haltEvent
  split
  · exact raise ..
  · exact refl st

end SameResponse

/-! ### The response of a group (15 R571, R575, R576) -/

section Group
variable {st : State} {g : List Alarm} {start : Bool}

/-- What the strongest response of a group does. -/
def responded (st : State) (g : List Alarm) : State :=
  match strongest g with
  | 0 => st
  | 1 => squelch st g
  | 2 => tamperHalt st g false
  | 3 => tamperHalt st g true

/-- The steps of Table 15-5 after the response, in a device that was halted before it or not: records and events. -/
def restOfGroup (st : State) (was : Bool) (g : List Alarm) (start : Bool) : State :=
  let r := strongest g
  let st := if st.tmp.inForce < r then modTmp st (fun t => { t with inForce := r }) else st
  let st := if st.glb.holdup && decide (150000 ≤ heldUpFor st) then countN st (Reg.tmpCnt 3) g.length
    else groupRecords st g start
  if st.glb.halted then (if was then st else haltEvent st st.glb.cause)
  else g.foldl (fun st a => raise st { block := 6, index := 0, ps := [a.n.val, r.val] }) st

/-- After the response, the rest of the steps of Table 15-5 leave what it has set. -/
theorem sameResponse_alarmGroup (hg : g ≠ []) : SameResponse (responded st g) (alarmGroup st g start) := by
  have hne : ¬ g.isEmpty = true := by simpa using hg
  rw [show alarmGroup st g start = restOfGroup (responded st g) st.glb.halted g start from if_neg hne]
  unfold restOfGroup
  dsimp only
  refine SameResponse.trans (t := if (responded st g).tmp.inForce < strongest g
    then modTmp (responded st g) (fun t => { t with inForce := strongest g }) else responded st g) ?force ?rest
  case force => split <;> exact ⟨rfl, rfl, rfl, rfl, rfl, rfl⟩
  case rest =>
    generalize (if (responded st g).tmp.inForce < strongest g
      then modTmp (responded st g) (fun t => { t with inForce := strongest g }) else responded st g) = u
    refine SameResponse.trans (t := if u.glb.holdup && decide (150000 ≤ heldUpFor u) then countN u (Reg.tmpCnt 3) g.length
      else groupRecords u g start) ?records ?events
    case records =>
      split
      · exact .count ..
      · exact .groupRecords ..
    case events =>
      generalize (if u.glb.holdup && decide (150000 ≤ heldUpFor u) then countN u (Reg.tmpCnt 3) g.length
        else groupRecords u g start) = v
      split
      · split
        · exact .refl _
        · exact .haltEvent ..
      · exact .foldl (fun t a => .raise t _) _ _

/-- A ZEROISE waits from now on, unless the device is zeroised already. -/
def zeroiseDue (zero : Bool) (st : State) : State :=
  if zero && !st.glb.zeroised then modTmp st (fun t => { t with zeroisePend := t.zeroisePend.or (some (elNs st)) }) else st

theorem tamperHalt_eq (st : State) (g : List Alarm) (zero : Bool) : ∃ cause code,
    tamperHalt st g zero = zeroiseDue zero (if st.glb.halted then st else haltCore st cause code 0 0) := ⟨_, _, rfl⟩

theorem zeroiseDue_glb (zero : Bool) (st : State) : (zeroiseDue zero st).glb = st.glb := by
  unfold zeroiseDue
  split <;> rfl

theorem quiet_zeroiseDue (zero : Bool) {st : State} (h : quiet st) : quiet (zeroiseDue zero st) := by
  unfold zeroiseDue
  split <;> exact h

theorem tamperHalt_halted (zero : Bool) : (tamperHalt st g zero).glb.halted = true := by
  obtain ⟨cause, code, heq⟩ := tamperHalt_eq st g zero
  rw [heq, zeroiseDue_glb]
  split
  next h => exact h
  next => exact haltCore_halted st cause code 0 0

theorem quiet_tamperHalt (zero : Bool) (hrun : st.glb.halted = false) : quiet (tamperHalt st g zero) := by
  obtain ⟨cause, code, heq⟩ := tamperHalt_eq st g zero
  rw [heq, if_neg (by simp [hrun])]
  exact quiet_zeroiseDue zero (quiet_haltCore st cause code 0 0)

theorem zeroised_or_pend_of_zeroiseDue (st : State) :
    (zeroiseDue true st).glb.zeroised = true ∨ (zeroiseDue true st).tmp.zeroisePend.isSome = true := by
  unfold zeroiseDue
  split
  next => exact .inr (by cases h : st.tmp.zeroisePend <;> simp [h])
  next h => exact .inl (by simpa using h)

theorem tamperHalt_zeroise : (tamperHalt st g true).glb.zeroised = true ∨ (tamperHalt st g true).tmp.zeroisePend.isSome = true := by
  obtain ⟨cause, code, heq⟩ := tamperHalt_eq st g true
  rw [heq]
  exact zeroised_or_pend_of_zeroiseDue _

/-- The sources whose own response is SQUELCH are marked; nothing else changes. -/
theorem sameResponse_marked (st : State) (g : List Alarm) : SameResponse st (g.foldl (fun st a =>
    if a.resp = 1 then modSrc st a.n (fun x => { x with squelching := true }) else st) st) :=
  .foldl (fun t a => by split; exacts [.modSrc .., .refl t]) g st

theorem twinSquelch_glb (st : State) : (twinSquelch st).glb = st.glb := by
  have hstart : (toStart st).glb = st.glb := by
    unfold toStart dropSwitch
    split <;> rfl
  unfold twinSquelch
  split
  · rfl
  · dsimp only
    split <;> exact hstart

theorem enterUmber_glb (st : State) : (enterUmber st).glb = st.glb := by
  unfold enterUmber releaseOwn
  dsimp only
  split <;> rfl

section Squelch
variable (hrun : st.glb.halted = false) (hpower : st.glb.holdup = false)
include hrun hpower

theorem squelch_squelched : (squelch st g).tmp.squelched = true ∧ (squelch st g).glb.halted = false := by
  have hmarked := sameResponse_marked st g
  unfold squelch
  rw [if_neg (by simp [hrun, hpower])]
  dsimp only
  split
  next h => exact ⟨h, (congrArg GlbSt.halted hmarked.glb).trans hrun⟩
  next =>
    refine ⟨rfl, ?_⟩
    rw [modTmp_glb, enterUmber_glb, twinSquelch_glb, hmarked.glb]
    exact hrun

theorem quiet_squelch (hnew : st.tmp.squelched = false) : quiet (squelch st g) := by
  have hmarked := sameResponse_marked st g
  unfold squelch
  rw [if_neg (by simp [hrun, hpower])]
  dsimp only
  rw [if_neg (by rw [hmarked.squelched]; simp [hnew])]
  exact quiet_enterUmber _

end Squelch

theorem responded_of_halt (h : 2 ≤ strongest g) : ∃ zero, responded st g = tamperHalt st g zero := by
  unfold responded
  generalize strongest g = r at h
  match r, h with
  | 2, _ => exact ⟨false, rfl⟩
  | 3, _ => exact ⟨true, rfl⟩

theorem responded_of_zeroise (h : strongest g = 3) : responded st g = tamperHalt st g true := by
  simp only [responded, h]

theorem responded_of_squelch (h : strongest g = 1) : responded st g = squelch st g := by
  simp only [responded, h]

end Group

/-- Settles O45: the response of the strongest alarm halts or squelches the device, and the records and events of the group leave
what it has set. -/
theorem alarmsThatHaltStopTheDevice : Obligations.AlarmsThatHaltStopTheDevice := by
  intro st g start hg t
  have hsame : SameResponse (responded st g) t := sameResponse_alarmGroup hg
  refine ⟨fun h => ?halt, fun h => ?zeroise, fun h hrun hpower => ?squelch⟩
  case halt =>
    obtain ⟨zero, hresp⟩ := responded_of_halt (st := st) h
    rw [hresp] at hsame
    exact ⟨(congrArg GlbSt.halted hsame.glb).trans (tamperHalt_halted zero),
      fun hrun => hsame.quiet (quiet_tamperHalt zero hrun)⟩
  case zeroise =>
    rw [responded_of_zeroise h] at hsame
    rw [hsame.glb, hsame.pend]
    exact tamperHalt_zeroise
  case squelch =>
    rw [responded_of_squelch h] at hsame
    rw [hsame.squelched, hsame.glb]
    obtain ⟨hsq, hhalt⟩ := squelch_squelched (g := g) hrun hpower
    refine ⟨hsq, hhalt, fun hnew => ?_⟩
    obtain ⟨hframes, hown, -⟩ := hsame.quiet (quiet_squelch hrun hpower hnew)
    exact ⟨hframes, hown⟩

end Sys2Proof.Machine
end

section
/-!
PROOFS. Tamper sources (15 R565, R569, R570, R573, R574, R576, R582): the group that one source forms, the commands of TMP_CMD, the response
registers, the start-up check, and O43 put together from them.
-/
namespace Sys2Proof.Machine

/-! ### The group of one source (15 R576) -/

section Trips
variable {st : State}

theorem fins30_nodup : fins30.Nodup := by decide
theorem mem_fins30 : ∀ n : Fin 30, n ∈ fins30 := by decide

/-- A fold in which one element alone does something. -/
theorem foldl_of_one {α β : Type} {f : β → α → β} {a : α} (hf : ∀ p x, x ≠ a → f p x = p) {l : List α} (hl : l.Nodup) (ha : a ∈ l)
    (p : β) : l.foldl f p = f p a := by
  have hrest : ∀ l : List α, a ∉ l → ∀ p, l.foldl f p = p := by
    intro l hnot p
    refine List.foldlRecOn (motive := fun q => q = p) l _ rfl fun q hq x hx => ?_
    rw [hq, hf p x fun h => hnot (h ▸ hx)]
  induction l generalizing p with
  | nil => simp at ha
  | cons x l ih =>
    obtain ⟨hx, hl'⟩ := List.nodup_cons.mp hl
    rw [List.foldl_cons]
    rcases List.mem_cons.mp ha with rfl | hmem
    · exact hrest l hx _
    · rw [hf p x fun h => hx (h ▸ hmem), ih hl' hmem]

/-- The alarms of a tick in which one source trips. -/
theorem trips_singleton (st : State) (n : Fin 30) (resp : Fin 4) (items : List Nat) :
    trips st [(n, resp, items)] = ((tripped st n resp items).1.toList, (tripped st n resp items).2) := by
  unfold trips
  rw [foldl_of_one (a := n) (fun p x hx => by simp [hx.symm]) fins30_nodup (mem_fins30 n)]
  simp only [List.find?_cons, beq_self_eq_true, List.nil_append]
  split <;> rename_i h <;> rw [h] <;> rfl

theorem trips_nil (st : State) : trips st [] = ([], st) :=
  List.foldlRecOn (motive := fun p : List Alarm × State => p = ([], st)) fins30 _ rfl fun _ hp _ _ => hp

theorem alarmGroup_nil (st : State) (start : Bool) : alarmGroup st [] start = st := rfl

theorem tripped_of_new {n : Fin 30} {resp : Fin 4} {items : List Nat} (hpower : st.glb.holdup = false) (hwatched : tmpWatched st n = true)
    (hnew : st.tmp.src[n].present = false) : tripped st n resp items =
      (some { n := n, resp := resp, items := items }, count (modSrc st n (fun x => { x with present := true })) (Reg.tmpCnt 0)) :=
  (if_neg (by simp [hwatched, hpower])).trans (if_neg (Bool.eq_false_iff.mp hnew))

theorem tripped_of_none {n : Fin 30} {resp : Fin 4} {items : List Nat}
    (h : tmpWatched st n = false ∨ st.tmp.src[n].present = true) : tripped st n resp items = (none, st) := by
  unfold tripped
  rcases h with h | h
  · simp [h]
  · rw [if_pos h, ite_self]

end Trips

section OneSource
variable {st : State} {n : Fin 30} {det : Fin 3}

theorem modSrc_of_fixed {f : TmpSrc → TmpSrc} (h : f st.tmp.src[n] = st.tmp.src[n]) : modSrc st n f = st := by
  have hset : upd st.tmp.src n f = st.tmp.src := by
    rw [upd, h]
    exact Vector.set_getElem_self ..
  rw [modSrc, modTmp, hset]

/-- A report of a detector leaves everything but since when it has been alone. -/
theorem detReport_eq (st : State) (n : Fin 30) (det : Fin 3) :
    ∃ a, detReport st n det = modSrc st n (fun x => { x with alone := a }) := by
  unfold detReport
  split
  next => exact ⟨st.tmp.src[n].alone, (modSrc_of_fixed rfl).symm⟩
  next => exact ⟨_, rfl⟩

theorem src_modSrc_self (st : State) (n : Fin 30) (f : TmpSrc → TmpSrc) : (modSrc st n f).tmp.src[n] = f st.tmp.src[n] := by
  simp [modSrc, upd]

theorem src_modSrc_ne {m : Fin 30} (h : m ≠ n) (st : State) (f : TmpSrc → TmpSrc) :
    (modSrc st n f).tmp.src[m] = st.tmp.src[m] := by
  have hval : n.val ≠ m.val := fun e => h (Fin.ext e.symm)
  simp [modSrc, upd, hval]

theorem exec_tamperTrip_singleton : exec (.tamperTrip [(n, det)]) st = .next (alarmGroup
    (tripped (detReport st n det) n st.tmp.resp[n] [det.val]).2
    (tripped (detReport st n det) n st.tmp.resp[n] [det.val]).1.toList false) := by
  obtain ⟨a, ha⟩ := detReport_eq st n det
  have hresp : (detReport st n det).tmp.resp = st.tmp.resp := by rw [ha]; rfl
  simp only [exec, execTamperTrip, List.foldl_cons, List.foldl_nil, List.map_cons, List.map_nil, trips_singleton, hresp]

theorem exec_tamperTrip_of_new (hpower : st.glb.holdup = false) (hwatched : tmpWatched st n = true)
    (hnew : st.tmp.src[n].present = false) : exec (.tamperTrip [(n, det)]) st = .next (alarmGroup
      (count (modSrc (detReport st n det) n (fun x => { x with present := true })) (Reg.tmpCnt 0))
      [{ n := n, resp := st.tmp.resp[n], items := [det.val] }] false) := by
  obtain ⟨a, ha⟩ := detReport_eq st n det
  have hpresent : (detReport st n det).tmp.src[n].present = false := by rw [ha, src_modSrc_self]; exact hnew
  have hwatched' : tmpWatched (detReport st n det) n = true := by rw [ha]; exact hwatched
  have hpower' : (detReport st n det).glb.holdup = false := by rw [ha]; exact hpower
  rw [exec_tamperTrip_singleton, tripped_of_new hpower' hwatched' hpresent]
  rfl

theorem exec_tamperTrip_of_none (h : tmpWatched st n = false ∨ st.tmp.src[n].present = true) :
    exec (.tamperTrip [(n, det)]) st = .next (detReport st n det) := by
  obtain ⟨a, ha⟩ := detReport_eq st n det
  have h' : tmpWatched (detReport st n det) n = false ∨ (detReport st n det).tmp.src[n].present = true := by
    rw [ha, src_modSrc_self]
    exact h
  rw [exec_tamperTrip_singleton, tripped_of_none h']
  rfl

/-! One detector alone for 10 ms (15 R569). -/

theorem exec_monitor_of_agree (h : detsDisagree st n det = false) : exec (.monitor n det) st = .next st :=
  congrArg Host.Outcome.next (if_neg (by simp [h]))

theorem exec_monitor_of_disagree (hpower : st.glb.holdup = false) (h : detsDisagree st n det = true)
    (hnew : st.tmp.src[(29 : Fin 30)].present = false) (hother : n ≠ 29) : exec (.monitor n det) st = .next (alarmGroup
      (count (modSrc (count (modSrc st n (fun x => { x with alone := none })) (Reg.tmpCnt 1)) 29
        (fun x => { x with present := true })) (Reg.tmpCnt 0))
      [{ n := 29, resp := st.tmp.resp[(29 : Fin 30)], items := [n.val, det.val] }] false) := by
  have hnew' : (count (modSrc st n (fun x => { x with alone := none })) (Reg.tmpCnt 1)).tmp.src[(29 : Fin 30)].present = false :=
    (congrArg TmpSrc.present (src_modSrc_ne hother.symm st _)).trans hnew
  refine (congrArg Host.Outcome.next (if_pos h)).trans (congrArg Host.Outcome.next ?_)
  dsimp only
  rw [trips_singleton, tripped_of_new (st := count (modSrc st n (fun x => { x with alone := none })) (Reg.tmpCnt 1)) hpower rfl hnew']
  rfl

end OneSource

/-! ### LOCK and ACK (15 R574) -/

section TmpCmd
variable {st : State}

theorem lockWord_bits : ∀ other : Bool, bitW (tmpWord Fld.tmpCmd_LOCK Fld.tmpCmd_ACK other) 31 = true ∧
    bitW (tmpWord Fld.tmpCmd_LOCK Fld.tmpCmd_ACK other) 30 = other := by decide
theorem ackWord_bits : ∀ other : Bool, bitW (tmpWord Fld.tmpCmd_ACK Fld.tmpCmd_LOCK other) 31 = other ∧
    bitW (tmpWord Fld.tmpCmd_ACK Fld.tmpCmd_LOCK other) 30 = true := by decide

variable (hopen : atOnce st Reg.tmpCmd = true)
include hopen

theorem exec_lock_of_open (other : Bool) :
    exec (.lock other) st = .next (if other then tmpResult 4 st else tmpLock st) := by
  obtain ⟨hlock, hack⟩ := lockWord_bits other
  refine congrArg Host.Outcome.next ((viaPF_atOnce st _ _ _ hopen).trans ?_)
  rw [tmpCmd, hlock, hack]
  cases other <;> rfl

theorem exec_tamperAck_of_open (other : Bool) :
    exec (.tamperAck other) st = .next (if other then tmpResult 4 st else tmpAck st) := by
  obtain ⟨hlock, hack⟩ := ackWord_bits other
  refine congrArg Host.Outcome.next ((viaPF_atOnce st _ _ _ hopen).trans ?_)
  rw [tmpCmd, hlock, hack]
  cases other <;> rfl

omit hopen

theorem tmpLock_of_unlocked (h : st.tmp.locked = false) : tmpLock st =
    tmpResult 0 (logRec (modTmp st (fun t => { t with locked := true })) 41 (Config.detail 41 [])) := if_neg (by simp [h])
theorem tmpLock_of_locked (h : st.tmp.locked = true) : tmpLock st = tmpResult 3 st := if_pos h
theorem tmpAck_of_none (h : st.tmp.squelched = false) : tmpAck st = tmpResult 2 st := if_pos (by simp [h])

theorem squelch_cause_any : st.tmp.src.toList.any (fun x => x.squelching && x.present) = true ↔
    ∃ n : Fin 30, st.tmp.src[n].squelching = true ∧ st.tmp.src[n].present = true := by
  simp only [List.any_eq_true, Vector.mem_toList_iff, Bool.and_eq_true, Vector.mem_iff_getElem]
  exact ⟨fun ⟨x, ⟨i, hi, hx⟩, h⟩ => ⟨⟨i, hi⟩, hx ▸ h⟩, fun ⟨n, h⟩ => ⟨_, ⟨n.val, n.isLt, rfl⟩, h⟩⟩

variable (hsq : st.tmp.squelched = true)
include hsq

theorem tmpAck_of_cause (h : ∃ n : Fin 30, st.tmp.src[n].squelching = true ∧ st.tmp.src[n].present = true) :
    tmpAck st = tmpResult 1 st :=
  (if_neg (by simp [hsq])).trans (if_pos (squelch_cause_any.mpr h))

theorem tmpAck_of_no_cause (h : ∀ n : Fin 30, st.tmp.src[n].squelching = true → st.tmp.src[n].present = false) : tmpAck st =
    tmpResult 0 (logRec (modTmp st (fun t =>
      { t with squelched := false, src := t.src.map (fun x => { x with squelching := false }) })) 42 (Config.detail 42 [])) := by
  refine (if_neg (by simp [hsq])).trans (if_neg fun hany => ?_)
  obtain ⟨n, hsq, hpresent⟩ := squelch_cause_any.mp hany
  exact Bool.false_ne_true ((h n hsq).symm.trans hpresent)

end TmpCmd

/-! ### The response registers (15 R573) -/

theorem tmpRespSet_resp (hi : Bool) (v : Word) (st : State) (n : Fin 30) : (tmpRespSet hi v st).tmp.resp[n] =
    if hi = decide (16 ≤ n.val) then
      (let new : Fin 4 := Fin.ofNat 4 (v.toNat >>> (2 * (n.val % 16)))
       if st.tmp.locked = true ∧ new < st.tmp.resp[n] then st.tmp.resp[n] else new) else st.tmp.resp[n] := by
  simp [tmpRespSet]

/-! ### The start-up check (15 R582) -/

section StartupCheck
variable {st : State} {causes : BitVec 30} {delays : Vector (BitVec 8) 16}

theorem exec_startupCheckDone_of_none (h : booted st = false ∨ st.tmp.checked = true) :
    exec (.startupCheckDone causes delays) st = .next st :=
  congrArg Host.Outcome.next (if_pos (by rcases h with h | h <;> simp [h]))

/-- The check is made, and the delays of the loops with a PRBS are kept. -/
def startupChecked (delays : Vector (BitVec 8) 16) (st : State) : State :=
  modTmp st (fun t => { t with
    checked := true, delays := delays.mapFinIdx (fun i d _ => if prbsLoop st i then delayField d else 0) })

/-- The sources whose cause is present at the check. -/
def causesFound (causes : BitVec 30) (delays : Vector (BitVec 8) 16) (st : State) : List (Fin 30) :=
  fins30.filter (causeAt (startupChecked delays st) causes delays)

variable (hbooted : booted st = true) (hfirst : st.tmp.checked = false)
include hbooted hfirst

theorem exec_startupCheckDone_of_first : exec (.startupCheckDone causes delays) st = .next (
    let r := trips (startupChecked delays st) ((causesFound causes delays st).map (fun n => (n, st.img.content.resp[n], [2])))
    alarmGroup r.2 r.1 true) :=
  congrArg Host.Outcome.next (if_neg (by simp [hbooted, hfirst]))

theorem exec_startupCheckDone_of_clean (hnone : causesFound causes delays st = []) :
    exec (.startupCheckDone causes delays) st = .next (startupChecked delays st) := by
  rw [exec_startupCheckDone_of_first hbooted hfirst, hnone, List.map_nil, trips_nil]
  rfl

end StartupCheck

/-- Settles O43: a source that trips alone forms a group where it is watched and new; LOCK, ACK, the response registers and the
start-up check act by what the tamper unit holds. -/
theorem tamperSourcesTripAndAreCleared : Obligations.TamperSourcesTripAndAreCleared := by
  intro st
  refine ⟨fun srcs => rfl, fun n => rfl, fun hpower n det => ⟨exec_tamperTrip_of_new hpower, exec_tamperTrip_of_none,
      exec_monitor_of_disagree hpower⟩, fun n det => exec_monitor_of_agree, fun hopen => ?commands, fun hi v hat => ?resp,
    fun causes delays => ⟨exec_startupCheckDone_of_none, fun hbooted hfirst => ⟨exec_startupCheckDone_of_clean hbooted hfirst,
      exec_startupCheckDone_of_first hbooted hfirst⟩⟩⟩
  case commands =>
    rw [exec_lock_of_open hopen, exec_lock_of_open hopen, exec_tamperAck_of_open hopen, exec_tamperAck_of_open hopen]
    exact ⟨fun h => congrArg _ (tmpLock_of_unlocked h), fun h => congrArg _ (tmpLock_of_locked h), rfl, rfl,
      fun h => congrArg _ (tmpAck_of_none h),
      fun hsq => ⟨fun h => congrArg _ (tmpAck_of_cause hsq h), fun h => congrArg _ (tmpAck_of_no_cause hsq h)⟩⟩
  case resp =>
    exact ⟨_, congrArg Host.Outcome.next (viaPF_atOnce st _ v (tmpRespSet hi v) hat), rfl, tmpRespSet_resp hi v st⟩

end Sys2Proof.Machine
end

section
/-!
PROOFS. The Verdigris log (15 R586, R588, R590, R592): the record at the front of the queue, the scan, READ, APPEND and VERIFY, and
O44 put together from them.
-/
namespace Sys2Proof.Machine

/-! ### The record at the front (15 R586) -/

section Commit
variable {st : State} {r : LogRec} {rs : List LogRec}

theorem exec_evlRecordCommit_of_front (hq : st.evl.queue = r :: rs) (ok : Bool) :
    exec (.evlRecordCommit ok) st = .next (logResult ok r st) := by
  show execEvlRecordCommit ok st = _
  rw [execEvlRecordCommit, hq]

theorem exec_tamperRecordCommit_of_front (hq : st.evl.queue = r :: rs) (ok : Bool) :
    exec (.tamperRecordCommit ok) st = .next (if r.source.val < 30 then logResult ok r st else st) := by
  show execTamperRecordCommit ok st = _
  rw [execTamperRecordCommit, hq]

theorem exec_recordCommit_of_none (hq : st.evl.queue = []) (ok : Bool) :
    exec (.evlRecordCommit ok) st = .next st ∧ exec (.tamperRecordCommit ok) st = .next st := by
  constructor
  · show execEvlRecordCommit ok st = _
    rw [execEvlRecordCommit, hq]
  · show execTamperRecordCommit ok st = _
    rw [execTamperRecordCommit, hq]

theorem logResult_of_good (h : logWrites st r = true) :
    logResult true r st = logCommitted (logWrite st st.evl.head (logBytes st r)) r := by
  simp [logResult, h]

theorem logResult_of_bad (h : logWrites st r = true) : logResult false r st = logFailed st r := by simp [logResult, h]

theorem logResult_of_none (h : logWrites st r = false) (ok : Bool) : logResult ok r st = st := by simp [logResult, h]

/-- The bytes that a bad write leaves: of the old ones or of the record's, in every bit. -/
def logMix (st : State) (r : LogRec) : Bytes :=
  ((logRead st st.evl.head).zip ((logBytes st r).zip ((draw st).1 ++ (draw (draw st).2).1))).map
    (fun b => (b.1 &&& ~~~ b.2.2) ||| (b.2.1 &&& b.2.2))

theorem length_logMix : (logMix st r).length ≤ 64 := by
  have hread : (logRead st st.evl.head).length = 64 := length_memRead ..
  simp only [logMix, List.length_map, List.length_zip, hread]
  exact Nat.min_le_left _ _

/-- A bad write, before the head moves: the bytes at the head are undefined and the try is counted. -/
def logTried (st : State) (r : LogRec) : State :=
  let t := logWrite (draw (draw st).2).2 st.evl.head (logMix st r)
  { t with evl := { st.evl with tries := st.evl.tries + 1 } }

theorem logTried_evl : (logTried st r).evl = { st.evl with tries := st.evl.tries + 1 } := (rfl)

theorem logTried_regs : (logTried st r).regs = st.regs := by simp only [logTried, logWrite, draw]

theorem logTried_slices : (logTried st r).slices = st.slices := by simp only [logTried, logWrite, draw]

theorem logTried_mram : (logTried st r).mram = memWrite st.mram (logBase + 64 * st.evl.head) (logMix st r) := by
  simp only [logTried, logWrite, draw_mram]

theorem logFailed_eq : logFailed st r =
    if st.evl.tries % 2 = 1 then logAdvance (count (logTried st r) Reg.evlCnt0) else logTried st r := rfl

theorem logFailed_of_first (h : st.evl.tries % 2 = 0) : logFailed st r = logTried st r := by
  rw [logFailed_eq, if_neg (by simp [h])]

theorem logFailed_of_second (h : st.evl.tries % 2 = 1) :
    logFailed st r = logAdvance (count (logTried st r) Reg.evlCnt0) := by
  rw [logFailed_eq, if_pos h]

theorem memByte_logTried_outside {a : Nat} (h : a < logBase + 64 * st.evl.head ∨ logBase + 64 * st.evl.head + 64 ≤ a) :
    memByte (logTried st r).mram a = memByte st.mram a := by
  have hlen := length_logMix (st := st) (r := r)
  rw [logTried_mram]
  exact memByte_memWrite_outside _ _ _ _ (h.imp_right (by omega))

/-- The head moves on and another position is left. -/
theorem logAdvance_of_room {t : State} (h : t.evl.head + 1 < 65536) :
    (logAdvance t).evl = { t.evl with head := t.evl.head + 1 } ∧ (logAdvance t).slices = t.slices := by
  have hkeeps : ∀ u : State, u.evl.head < 65536 → (if u.evl.head < logSize then u else
      u.evl.queue.foldl logLose { u with evl := { u.evl with queue := [], tries := 0 } }) = u := fun u hu => if_pos hu
  unfold logAdvance
  dsimp only
  split
  · rw [raise_only]
    rw [hkeeps _ h]
    exact ⟨rfl, rfl⟩
  · rw [hkeeps _ h]
    exact ⟨rfl, rfl⟩

theorem exec_evlRecordCommit_of_first_failure (hq : st.evl.queue = r :: rs) (hmay : logWrites st r = true) (hfirst : st.evl.tries % 2 = 0) :
    ∃ t, exec (.evlRecordCommit false) st = .next t ∧ t.evl = { st.evl with tries := st.evl.tries + 1 } ∧ t.regs = st.regs ∧
      t.slices = st.slices ∧ ∀ a, (a < logBase + 64 * st.evl.head ∨ logBase + 64 * st.evl.head + 64 ≤ a) →
        memByte t.mram a = memByte st.mram a := by
  refine ⟨logTried st r, ?_, logTried_evl, logTried_regs, logTried_slices, fun a => memByte_logTried_outside⟩
  rw [exec_evlRecordCommit_of_front hq, logResult_of_bad hmay, logFailed_of_first hfirst]

theorem exec_evlRecordCommit_of_second_failure (hq : st.evl.queue = r :: rs) (hmay : logWrites st r = true)
    (hsecond : st.evl.tries % 2 = 1) (hroom : st.evl.head + 1 < 65536) :
    ∃ t, exec (.evlRecordCommit false) st = .next t ∧
      t.evl = { st.evl with tries := st.evl.tries + 1, head := st.evl.head + 1 } ∧ t.slices = st.slices := by
  have hkept : (count (logTried st r) Reg.evlCnt0).evl = { st.evl with tries := st.evl.tries + 1 } := 
    (count_evl _ _).trans logTried_evl
  obtain ⟨hevl, hslices⟩ := logAdvance_of_room (t := count (logTried st r) Reg.evlCnt0) (by rw [hkept]; exact hroom)
  refine ⟨logAdvance (count (logTried st r) Reg.evlCnt0), ?_, hevl.trans (by rw [hkept]), hslices.trans ((count_slices _ _).trans logTried_slices)⟩
  rw [exec_evlRecordCommit_of_front hq, logResult_of_bad hmay, logFailed_of_second hsecond]

end Commit

/-! ### The scan (15 R588) -/

section Scan
variable {st : State}

theorem exec_evlScanDone_of_ready (h : st.evl.ready = true) : exec .evlScanDone st = .next st :=
  congrArg Host.Outcome.next (if_pos h)

theorem exec_evlScanDone_of_empty (h : st.evl.ready = false)
    (hempty : ∀ c ∈ st.mram, ¬ (logBase ≤ c.1 ∧ c.1 < logBase + 64 * logSize)) :
    exec .evlScanDone st = .next { st with evl := { st.evl with ready := true, head := 0, nextSeq := 0 } } := by
  have hlast : st.mram.foldl (fun (m : Option Nat) c =>
      if logBase ≤ c.1 ∧ c.1 < logBase + 64 * logSize then some ((c.1 - logBase) / 64) else m) none = none :=
    List.foldlRecOn (motive := fun m => m = none) _ _ rfl fun m hm c hc => (if_neg (hempty c hc)).trans hm
  show execEvlScanDone st = _
  unfold execEvlScanDone
  rw [if_neg (by simp [h])]
  dsimp only
  rw [hlast]
  exact congrArg _ (if_pos (by decide))

end Scan

/-! ### EVL_CMD (15 R590, R592) -/

section Commands
variable {st : State} {ix : BitVec 16}

theorem evlWord_fields {op : Nat} (hop : op < 4) :
    getF (evlWord op ix) Fld.evlCmd_OP = op ∧ getF (evlWord op ix) Fld.evlCmd_INDEX = ix.toNat := by
  have hix : ix.toNat < 65536 := ix.isLt
  simp (disch := decide) only [evlWord, word, List.foldl_cons, List.foldl_nil, getF_putF_self, getF_putF_ne]
  exact ⟨Nat.mod_eq_of_lt hop, Nat.mod_eq_of_lt hix⟩

/-- READ and VERIFY are taken with EVL_CMD open, and in the halt. -/
theorem evlPF_of_read {w : Word} (hreads : getF w Fld.evlCmd_OP = 1 ∨ getF w Fld.evlCmd_OP = 3)
    (h : cmdOpen st Reg.evlCmd = true ∨ (st.glb.halted = true ∧ fld st Reg.evlCmd busyF = 0)) : evlPF w st = evlCmd w st := by
  unfold evlPF
  dsimp only
  rcases h with hopen | ⟨hhalt, hfree⟩
  · have hparts := hopen
    simp only [cmdOpen, atOnce, Bool.and_eq_true, Bool.not_eq_true', decide_eq_true_eq] at hparts
    obtain ⟨⟨⟨⟨hrun, -⟩, -⟩, hboot⟩, -⟩ := hparts
    rw [if_neg (by simp [hrun, hboot])]
    exact cmdPF_open st _ _ _ _ hopen
  · rw [if_pos (Or.inl hhalt), if_neg (by simp [hreads]), if_neg (by simp [hfree]), if_pos hreads]

theorem evlPF_of_open {w : Word} (hopen : cmdOpen st Reg.evlCmd = true) : evlPF w st = evlCmd w st := by
  have hparts := hopen
  simp only [cmdOpen, atOnce, Bool.and_eq_true, Bool.not_eq_true', decide_eq_true_eq] at hparts
  obtain ⟨⟨⟨⟨hrun, -⟩, -⟩, hboot⟩, -⟩ := hparts
  unfold evlPF
  dsimp only
  rw [if_neg (by simp [hrun, hboot])]
  exact cmdPF_open st _ _ _ _ hopen

theorem countP_map {α β : Type} (p : β → Bool) (f : α → β) (l : List α) : countP p (l.map f) = countP (fun x => p (f x)) l := by
  rw [countP, List.filter_map, List.length_map]
  rfl

section Taken
variable (h : cmdOpen st Reg.evlCmd = true ∨ (st.glb.halted = true ∧ fld st Reg.evlCmd busyF = 0)) include h

theorem exec_logRead_of_taken : exec (.logRead ix) st = .next (evlRead (evlWord 1 ix) st) := by
  obtain ⟨hop, -⟩ := evlWord_fields (ix := ix) (op := 1) (by decide)
  refine congrArg Host.Outcome.next ((evlPF_of_read (Or.inl hop) h).trans ?_)
  simp only [evlCmd, hop]

theorem exec_verify_of_taken : exec (.verify ix) st = .next (evlVerify (evlWord 3 ix) st) := by
  obtain ⟨hop, -⟩ := evlWord_fields (ix := ix) (op := 3) (by decide)
  refine congrArg Host.Outcome.next ((evlPF_of_read (Or.inr hop) h).trans ?_)
  simp only [evlCmd, hop]

variable (hready : st.evl.ready = true)
include hready

theorem exec_logRead_of_written (hix : ix.toNat < st.evl.head) : exec (.logRead ix) st = .next (evlDone (evlWord 1 ix) 0
    ((List.range 16).foldl (fun t i =>
      wr t (Reg.evlRdata i) (BitVec.ofNat 32 (leVal (sub (logRead st ix.toNat) (4 * i) 4)))) st)) := by
  rw [exec_logRead_of_taken h, evlRead]
  dsimp only
  rw [(evlWord_fields (by decide)).2, if_neg (by simp [hready]), if_neg (Nat.not_le.mpr hix)]

theorem exec_logRead_of_beyond (hix : st.evl.head ≤ ix.toNat) : exec (.logRead ix) st = .next (evlDone (evlWord 1 ix) 2 st) := by
  rw [exec_logRead_of_taken h, evlRead]
  dsimp only
  rw [(evlWord_fields (by decide)).2, if_neg (by simp [hready]), if_pos hix]

theorem exec_verify_of_beyond (hix : st.evl.head ≤ ix.toNat) : exec (.verify ix) st = .next (evlDone (evlWord 3 ix) 2 st) := by
  rw [exec_verify_of_taken h, evlVerify]
  dsimp only
  rw [(evlWord_fields (by decide)).2, if_neg (by simp [hready]), if_pos hix]

theorem exec_verify_of_written (hix : ix.toNat < st.evl.head) : ∃ t, exec (.verify ix) st = .next t ∧
    t = { st with regs := t.regs } ∧ rd t (Reg.evlVerify 3) = word [(Fld.evlVerify3_PASS,
      countP (fun k => verifyAt st (ix.toNat + k) == 0) (List.range (st.evl.head - ix.toNat)))] := by
  rw [exec_verify_of_taken h, evlVerify]
  dsimp only
  rw [(evlWord_fields (by decide)).2, if_neg (by simp [hready]), if_neg (Nat.not_le.mpr hix)]
  refine ⟨_, rfl, rfl, ?_⟩
  rw [evlDone, cmdDone, rd_wr_ne _ _ _ _ (by decide), rd_wr_self, countP_map]

end Taken

theorem exec_append_of_open (hopen : cmdOpen st Reg.evlCmd = true) : exec .append st = .next (evlAppend (evlWord 2 0) st) := by
  refine congrArg Host.Outcome.next ((evlPF_of_open hopen).trans ?_)
  simp only [evlCmd, (evlWord_fields (ix := 0) (op := 2) (by decide)).1]

end Commands

/-- Settles O44: what each commit, the scan and each command of EVL_CMD does, case by case. -/
theorem logRecordsAreWrittenReadAndVerified : Obligations.LogRecordsAreWrittenReadAndVerified := by
  intro st
  refine ⟨fun r rs hq => ⟨fun hmay => ⟨?good, fun hsource => ⟨?tamper, ?tamperBad⟩, fun hfirst => ?first, fun hsecond hroom => ?second⟩,
    fun hnot ok => ?refused, fun hother ok => ?other⟩, exec_recordCommit_of_none,
    fun hready => exec_evlScanDone_of_empty hready, exec_evlScanDone_of_ready,
    fun h hready ix => ⟨fun hix => ⟨exec_logRead_of_written h hready hix, exec_verify_of_written h hready hix⟩,
      fun hix => ⟨exec_logRead_of_beyond h hready hix, exec_verify_of_beyond h hready hix⟩⟩,
    fun hopen hready => ⟨fun hroom => ?append, fun hfull => ?full⟩⟩
  case good => rw [exec_evlRecordCommit_of_front hq, logResult_of_good hmay]
  case tamper => rw [exec_tamperRecordCommit_of_front hq, if_pos hsource, logResult_of_good hmay]
  case tamperBad => rw [exec_tamperRecordCommit_of_front hq, if_pos hsource, exec_evlRecordCommit_of_front hq]
  case first => exact exec_evlRecordCommit_of_first_failure hq hmay hfirst
  case second => exact exec_evlRecordCommit_of_second_failure hq hmay hsecond hroom
  case refused =>
    rw [exec_evlRecordCommit_of_front hq, exec_tamperRecordCommit_of_front hq, logResult_of_none hnot, ite_self]
    exact ⟨rfl, rfl⟩
  case other => rw [exec_tamperRecordCommit_of_front hq, if_neg (Nat.not_lt.mpr hother)]
  case append =>
    rw [exec_append_of_open hopen, evlAppend, if_neg (by simp [hready]), if_neg (by simp [hroom])]
  case full => rw [exec_append_of_open hopen, evlAppend, if_neg (by simp [hready]), if_pos hfull]

end Sys2Proof.Machine
end

section
/-!
PROOFS. Start-up (16 R597-R606, 17 R636): the state right after reset, the order of the image sources, and O4 and O48 put together
from them.
-/
namespace Sys2Proof.Machine

/-! ### The reset state (17 R636) -/

theorem laneOf_reset (d : Side) (s : SliceId) (k : PortIx) : (laneOf State.reset (.lane d s k)).stage = .off := by
  cases d <;> simp [laneOf, sl, State.reset]

theorem port_reset (d : Side) (s : SliceId) (k : PortIx) : (port State.reset d s k).enabled = false := by
  cases d <;> simp [port, sl, State.reset]

theorem framesAll_reset : framesAll State.reset = 0 := by decide

theorem rd_reset (a : Nat) : rd State.reset a = regReset a := rfl
theorem rdA_reset (a : Nat) : rdA State.reset a = regReset a := rfl

theorem inst_reset_of_tenant {i : InstId} (h : i ≠ 0) : (inst State.reset i).state = .disabled := by
  show (instReset i).state = .disabled
  rw [instReset, if_neg h]

/-- Settles O4: the clauses are the fields of the reset state, the lanes, ports, registers and instances by their lemmas. -/
theorem resetStateIsAsTheSpecSays : Obligations.ResetStateIsAsTheSpecSays :=
  ⟨rfl, rfl, rfl, rfl, rfl, rfl, rfl, fun s k d => ⟨laneOf_reset d s k, port_reset d s k⟩, framesAll_reset, rfl, rfl, rfl, rfl, rfl, rfl,
    fun j => by fin_cases j <;> rfl, fun a => ⟨rd_reset a, rdA_reset a⟩, rfl, fun _ => inst_reset_of_tenant⟩

/-! ### The sources of the image (16 R602, R603) -/

section Sources
variable {st : State} {p n : Fin 3}

/-- The state with the result of a try recorded. -/
def sourceChecked (st : State) (p n : Fin 3) : State :=
  modImg st (fun i => { i with res := i.res.set p.val (checkImage st st.sources[n] none) })

theorem exec_imageSourceTry_of_idle (h : st.img.state ≠ .loading ∨ st.glb.halted = true) : exec .imageSourceTry st = .next st :=
  congrArg Host.Outcome.next (if_pos h)

section Loading
variable (hload : st.img.state = .loading) (hrun : st.glb.halted = false)
include hload hrun

theorem exec_imageSourceTry_of_none (hnone : nextSource st = none) : exec .imageSourceTry st = .next st := by
  refine congrArg Host.Outcome.next ((if_neg (by simp [hload, hrun])).trans ?_)
  rw [hnone]

variable (hnext : nextSource st = some (p, n))
include hnext

theorem exec_imageSourceTry_of_next : exec .imageSourceTry st = .next
    (if checkImage st st.sources[n] none = 1 then loadImage (n.castLE (by omega)) st.sources[n] (sourceChecked st p n)
    else if p = 2 then raise (modImg (sourceChecked st p n) (fun i => { i with state := .noImage })) { block := 1, index := 0 }
    else sourceChecked st p n) := by
  refine congrArg Host.Outcome.next ((if_neg (by simp [hload, hrun])).trans ?_)
  rw [hnext]
  rfl

end Loading

/-- The sources stand in the order of their results: the preferred slot, the other one, the flash. -/
theorem nextSource_eq (st : State) : nextSource st =
    let r (p : Nat) : Fin 16 := st.img.res.toList.getD p 0
    if r 0 = 0 then some (0, (prefSlot st).castLE (by omega))
    else if r 1 = 0 then some (1, (1 - prefSlot st).castLE (by omega))
    else if r 2 = 0 then some (2, 2) else none := by
  simp only [nextSource, List.find?_cons, List.find?_nil]
  split
  case h_1 h0 => exact (if_pos (beq_iff_eq.mp h0)).symm
  case h_2 h0 =>
    refine Eq.trans ?_ (if_neg (beq_eq_false_iff_ne.mp h0)).symm
    split
    case h_1 h1 => exact (if_pos (beq_iff_eq.mp h1)).symm
    case h_2 h1 =>
      refine Eq.trans ?_ (if_neg (beq_eq_false_iff_ne.mp h1)).symm
      split
      case h_1 h2 => exact (if_pos (beq_iff_eq.mp h2)).symm
      case h_2 h2 => exact (if_neg (beq_eq_false_iff_ne.mp h2)).symm

theorem exec_bootDone_of_ready (hver : st.img.state = .verified) (hmem : st.mee.trained = true) (hjnl : st.jnl.ready = true)
    (hrun : st.glb.halted = false) : exec .bootDone st = .next
      (enablePorts (raise (modImg st (fun i => { i with state := .running })) { block := 1, index := 1 })) :=
  congrArg Host.Outcome.next (if_pos ⟨hver, by simp [devicePortsReady, hver, hmem, hjnl], by simp [hrun]⟩)

theorem exec_bootDone_of_waiting (h : st.img.state ≠ .verified ∨ st.mee.trained = false ∨ st.jnl.ready = false ∨ st.glb.halted = true) :
    exec .bootDone st = .next st := by
  refine congrArg Host.Outcome.next (if_neg ?_)
  rintro ⟨hver, hports, hrun⟩
  simp only [devicePortsReady, Bool.and_eq_true, Bool.not_eq_true'] at hports hrun
  obtain ⟨⟨-, hmem⟩, hjnl⟩ := hports
  simp [hver, hmem, hjnl, hrun] at h

end Sources

/-- Settles O48: a try by what the check answers, the order from the results recorded, step 10 from its three conditions. -/
theorem imageSourcesAreTriedInOrder : Obligations.ImageSourcesAreTriedInOrder := by
  intro st
  refine ⟨fun hload hrun => ⟨fun p n hnext => ?tries, exec_imageSourceTry_of_none hload hrun⟩, ?order, exec_imageSourceTry_of_idle,
    exec_bootDone_of_ready, exec_bootDone_of_waiting⟩
  case tries =>
    rw [exec_imageSourceTry_of_next hload hrun hnext]
    refine ⟨fun hgood => ?_, fun hbad hp => ?_, fun hbad hp => ?_⟩
    · rw [if_pos hgood]; rfl
    · rw [if_neg hbad, if_neg hp]; rfl
    · rw [if_neg hbad, if_pos hp]; rfl
  case order =>
    rw [nextSource_eq]
    exact ⟨fun h0 => if_pos h0, fun h0 h1 => (if_neg h0).trans (if_pos h1),
      fun h0 h1 h2 => (if_neg h0).trans ((if_neg h1).trans (if_pos h2)),
      fun h0 h1 h2 => (if_neg h0).trans ((if_neg h1).trans (if_neg h2))⟩

end Sys2Proof.Machine
end

section
/-!
PROOFS. The commands of the image (16 R599-R604, R608) and of a slice (16 R609-R613, 17 R637), and O50 and O51 put together from
them.
-/
namespace Sys2Proof.Machine

/-! ### The host buffer (16 R614) -/

/-- The host buffer of an image command touches what the unit has in hand, and what the partner is to be sent. -/
theorem withImage_only (part : Bool) (img : ImageSrc) (st : State) : ∃ a b q, withImage part img st =
    { st with img := { st.img with inHand := a, inHandPart := b }, twin := { st.twin with stream := q } } := by
  have hput : ∃ a b, putImage part img st = modImg st (fun i => { i with inHand := a, inHandPart := b }) := by
    cases part
    · exact ⟨img, st.img.inHandPart, rfl⟩
    · exact ⟨st.img.inHand, img, rfl⟩
  obtain ⟨a, b, hput⟩ := hput
  rw [withImage, hput]
  by_cases hheld : (st.glb.halted || twinStandby st || fld st (if part then Reg.imgSliceCmd else Reg.imgCmd) busyF != 0) = true
  · rw [if_pos hheld]
    exact ⟨st.img.inHand, st.img.inHandPart, st.twin.stream, rfl⟩
  · rw [if_neg hheld]
    dsimp only
    split
    · exact ⟨a, b, _, rfl⟩
    · exact ⟨a, b, st.twin.stream, rfl⟩

section Buffer
variable (part : Bool) (img : ImageSrc) (st : State)

theorem withImage_regs : (withImage part img st).regs = st.regs := by
  obtain ⟨a, b, q, h⟩ := withImage_only part img st
  rw [h]
theorem withImage_glb : (withImage part img st).glb = st.glb := by
  obtain ⟨a, b, q, h⟩ := withImage_only part img st
  rw [h]
theorem withImage_jnl : (withImage part img st).jnl = st.jnl := by
  obtain ⟨a, b, q, h⟩ := withImage_only part img st
  rw [h]
theorem withImage_state : (withImage part img st).img.state = st.img.state := by
  obtain ⟨a, b, q, h⟩ := withImage_only part img st
  rw [h]
theorem withImage_source : (withImage part img st).img.source = st.img.source := by
  obtain ⟨a, b, q, h⟩ := withImage_only part img st
  rw [h]
theorem withImage_sl : (withImage part img st).img.sl = st.img.sl := by
  obtain ⟨a, b, q, h⟩ := withImage_only part img st
  rw [h]
theorem booted_withImage : booted (withImage part img st) = booted st := by
  obtain ⟨a, b, q, h⟩ := withImage_only part img st
  rw [h]
  rfl
theorem fld_withImage (a : Nat) (f : Field) : fld (withImage part img st) a f = fld st a f := by
  obtain ⟨x, y, q, h⟩ := withImage_only part img st
  rw [h]
  rfl
theorem elNs_withImage : elNs (withImage part img st) = elNs st := by
  obtain ⟨a, b, q, h⟩ := withImage_only part img st
  rw [h]
  rfl
theorem cmdOpen_withImage (a : Nat) : cmdOpen (withImage part img st) a = cmdOpen st a := by
  obtain ⟨x, y, q, h⟩ := withImage_only part img st
  rw [h]
  rfl

end Buffer

/-! ### IMG_CMD (16 R599-R604, R608) -/

section ImgCmd
variable {st : State} {w : Word}

theorem imgPF_of_early_download (hrun : st.glb.halted = false) (hboot : booted st = false) (hfree : fld st Reg.imgCmd busyF = 0)
    (hop : getF w Fld.imgCmd_OP = 1) : imgPF w st = imgDownload w st := by
  rw [imgPF, if_neg (by simp [hrun]), if_pos (by simp [hboot]), if_neg (by simp [hfree]), if_pos hop]
  simp only [imgCmd, hop]

theorem imgPF_of_early (hrun : st.glb.halted = false) (hboot : booted st = false) (hfree : fld st Reg.imgCmd busyF = 0)
    (hop : getF w Fld.imgCmd_OP ≠ 1) :
    imgPF w st = wr st Reg.imgCmd (putF (cmdWord st Reg.imgCmd w) Fld.imgCmd_RESULT 8) := by
  rw [imgPF, if_neg (by simp [hrun]), if_pos (by simp [hboot]), if_neg (by simp [hfree]), if_neg hop]
  rfl

theorem imgPF_of_open (hopen : cmdOpen st Reg.imgCmd = true) : imgPF w st = imgCmd w st := by
  have hparts := hopen
  simp only [cmdOpen, atOnce, Bool.and_eq_true, Bool.not_eq_true', decide_eq_true_eq] at hparts
  obtain ⟨⟨⟨⟨hrun, -⟩, -⟩, hboot⟩, -⟩ := hparts
  rw [imgPF, if_neg (by simp [hrun]), if_neg (by simp [hboot])]
  exact cmdPF_open st _ _ _ _ hopen

/-- What the operation field of a command of IMG_CMD holds. -/
theorem imgWord_op (op : Nat) (hop : op < 8) : getF (word [(Fld.imgCmd_OP, op)]) Fld.imgCmd_OP = op := by
  simp (disch := decide) only [word, List.foldl_cons, List.foldl_nil, getF_putF_self]
  exact Nat.mod_eq_of_lt hop

theorem imgSlotWord_fields (op : Nat) (hop : op < 8) (slot : Bool) :
    getF (word [(Fld.imgCmd_OP, op), (Fld.imgCmd_SLOT, b2n slot)]) Fld.imgCmd_OP = op ∧
    getF (word [(Fld.imgCmd_OP, op), (Fld.imgCmd_SLOT, b2n slot)]) Fld.imgCmd_SLOT = b2n slot := by
  simp (disch := decide) only [word, List.foldl_cons, List.foldl_nil, getF_putF_self, getF_putF_ne]
  exact ⟨Nat.mod_eq_of_lt hop, by cases slot <;> rfl⟩

theorem imgKeyWord_fields (k : Fin 4) : getF (word [(Fld.imgCmd_OP, 6), (Fld.imgCmd_KEY, k.val)]) Fld.imgCmd_OP = 6 ∧
    getF (word [(Fld.imgCmd_OP, 6), (Fld.imgCmd_KEY, k.val)]) Fld.imgCmd_KEY = k.val := by
  simp (disch := decide) only [word, List.foldl_cons, List.foldl_nil, getF_putF_self, getF_putF_ne]
  exact ⟨rfl, Nat.mod_eq_of_lt k.isLt⟩

/-! #### What each command does -/

theorem imgDownload_of_booted (hstate : st.img.state ≠ .noImage) (hparam : imgBadParam st 0 = false) :
    imgDownload w st = imgDone w 2 st := by
  rw [imgDownload, pickCode_of_one_cause st (code := 2) (by simp [hstate, hparam])]
  exact if_pos (by decide)

theorem imgDownload_of_no_image (hstate : st.img.state = .noImage) (hparam : imgBadParam st 0 = false) :
    imgDownload w st =
      let h := hostImage st false
      let c := checkImage st h none
      let t := modImg st (fun i => { i with res := i.res.set 3 c })
      if c = 1 then imgChecked w 0 1 (loadImage 3 h t) else imgChecked w 5 c.val t := by
  rw [imgDownload, pickCode_of_no_cause st (by simp [hstate, hparam])]
  exact if_neg (by decide)

theorem imgStage_of_slot_in_use (hparam : imgBadParam st 0 = false) (hslot : st.img.source.val = getF w Fld.imgCmd_SLOT) :
    imgStage w st = imgDone w 4 st := by
  rw [imgStage]
  dsimp only
  rw [pickCode_of_one_cause st (code := 4) (by simp [hslot, hparam])]
  exact if_pos (show ¬ 4 = 0 by decide)

theorem imgStage_of_other_slot (hparam : imgBadParam st 0 = false) (hslot : st.img.source.val ≠ getF w Fld.imgCmd_SLOT) :
    imgStage w st =
      let h := hostImage st false
      let c := checkImage st h none
      if c = 1 then (if st.jnl.closed then cmdBusy st Reg.imgCmd Fld.imgCmd_OP w
        else imgChecked w 0 1 { st with sources := st.sources.set (Fin.ofNat 2 (getF w Fld.imgCmd_SLOT)).val h })
      else imgChecked w 5 c.val st := by
  rw [imgStage]
  dsimp only
  rw [pickCode_of_no_cause st (by simp [hslot, hparam])]
  exact if_neg (show ¬ ¬ 0 = 0 by decide)

theorem imgRevoke_eq (k : Fin 4) (hkey : getF w Fld.imgCmd_KEY = k.val) : imgRevoke w st =
    let keys := upd st.fuses.keys k (fun x => { x with revoked := true })
    if decide (k = st.img.keyIndex) || !keys.toList.any (fun x => x.programmed && !x.revoked) then imgDone w 7 st
    else imgDone w 0 { st with fuses := { st.fuses with keys := keys } } := by
  have hk : Fin.ofNat 4 k.val = k := Fin.ofNat_val_eq_self k
  rw [imgRevoke]
  dsimp only
  rw [hkey, hk]
  simp only [Bool.or_eq_true, decide_eq_true_eq]

section Open
variable (hopen : cmdOpen st Reg.imgCmd = true)
include hopen

theorem exec_download_of_open (img : ImageSrc) (hparam : imgBadParam (withImage false img st) 0 = false) :
    exec (.download img) st = .next (imgDone (word [(Fld.imgCmd_OP, 1)]) 2 (withImage false img st)) := by
  have hstate : (withImage false img st).img.state ≠ .noImage := by
    simp only [cmdOpen, Bool.and_eq_true] at hopen
    obtain ⟨⟨-, hboot⟩, -⟩ := hopen
    intro h
    rw [withImage_state] at h
    simp [booted, h] at hboot
  refine congrArg Host.Outcome.next ((imgPF_of_open ((cmdOpen_withImage ..).trans hopen)).trans ?_)
  simp only [imgCmd, imgWord_op 1 (by decide)]
  exact imgDownload_of_booted hstate hparam

theorem exec_stage_of_open (slot : Bool) (img : ImageSrc) : exec (.stage slot img) st =
    .next (imgStage (word [(Fld.imgCmd_OP, 2), (Fld.imgCmd_SLOT, b2n slot)]) (withImage false img st)) := by
  refine congrArg Host.Outcome.next ((imgPF_of_open ((cmdOpen_withImage ..).trans hopen)).trans ?_)
  simp only [imgCmd, (imgSlotWord_fields 2 (by decide) slot).1]

theorem exec_setPref_of_open (slot : Bool) : exec (.setPref slot) st =
    .next (imgSetPref (word [(Fld.imgCmd_OP, 3), (Fld.imgCmd_SLOT, b2n slot)]) st) := by
  refine congrArg Host.Outcome.next ((imgPF_of_open hopen).trans ?_)
  simp only [imgCmd, (imgSlotWord_fields 3 (by decide) slot).1]

theorem exec_advanceSvn_of_open : exec .advanceSvn st = .next (imgAdvance (word [(Fld.imgCmd_OP, 4)]) st) := by
  refine congrArg Host.Outcome.next ((imgPF_of_open hopen).trans ?_)
  simp only [imgCmd, imgWord_op 4 (by decide)]

theorem exec_addKeys_of_open : exec .addKeys st = .next (imgAddKeys (word [(Fld.imgCmd_OP, 5)]) st) := by
  refine congrArg Host.Outcome.next ((imgPF_of_open hopen).trans ?_)
  simp only [imgCmd, imgWord_op 5 (by decide)]

theorem exec_revokeKey_of_open (k : Fin 4) : exec (.revokeKey k) st =
    .next (imgRevoke (word [(Fld.imgCmd_OP, 6), (Fld.imgCmd_KEY, k.val)]) st) := by
  refine congrArg Host.Outcome.next ((imgPF_of_open hopen).trans ?_)
  simp only [imgCmd, (imgKeyWord_fields k).1]

end Open

end ImgCmd

/-- Settles O50: DOWNLOAD in NO_IMAGE, the refusals before step 4, and each command taken. -/
theorem imageCommandsLoadStageAndFuse : Obligations.ImageCommandsLoadStageAndFuse := by
  intro st img
  refine ⟨fun hstate hrun hfree hparam => ?noImage, fun hboot hrun hfree => ⟨fun slot => ⟨?_, ?_⟩, ?_, ?_, fun k => ?_⟩,
    fun hopen => ⟨fun hparam => ?download, fun slot hparam => ?stage, fun slot => ?pref, ?advance, ?addKeys, fun k => ?revoke⟩⟩
  case noImage =>
    have hu : (withImage false img st).img.state = .noImage := (withImage_state ..).trans hstate
    have hexec : exec (.download img) st = .next (imgDownload (word [(Fld.imgCmd_OP, 1)]) (withImage false img st)) :=
      congrArg Host.Outcome.next (imgPF_of_early_download (by rw [withImage_glb]; exact hrun)
        (by rw [booted_withImage, booted, hstate]; rfl) (by rw [fld_withImage]; exact hfree) (imgWord_op 1 (by decide)))
    rw [hexec, imgDownload_of_no_image hu hparam]
    exact ⟨fun hgood => congrArg Host.Outcome.next (if_pos hgood), fun hbad => congrArg Host.Outcome.next (if_neg hbad)⟩
  · exact congrArg Host.Outcome.next (imgPF_of_early (by rw [withImage_glb]; exact hrun) (by rw [booted_withImage]; exact hboot)
      (by rw [fld_withImage]; exact hfree) (by rw [(imgSlotWord_fields 2 (by decide) slot).1]; decide))
  · exact congrArg Host.Outcome.next (imgPF_of_early hrun hboot hfree (by rw [(imgSlotWord_fields 3 (by decide) slot).1]; decide))
  · exact congrArg Host.Outcome.next (imgPF_of_early hrun hboot hfree (by decide))
  · exact congrArg Host.Outcome.next (imgPF_of_early hrun hboot hfree (by decide))
  · exact congrArg Host.Outcome.next (imgPF_of_early hrun hboot hfree (by rw [(imgKeyWord_fields k).1]; decide))
  case download => exact exec_download_of_open hopen img hparam
  case stage =>
    obtain ⟨-, hfield⟩ := imgSlotWord_fields 2 (by decide) slot
    have hsource := withImage_source false img st
    rw [exec_stage_of_open hopen]
    refine ⟨fun hslot => congrArg _ (imgStage_of_slot_in_use hparam (by rw [hsource, hfield]; exact hslot)), fun hslot hgood => ?_,
      fun hslot hbad => ?_⟩ <;> rw [imgStage_of_other_slot hparam (by rw [hsource, hfield]; exact hslot)]
    · refine (congrArg Host.Outcome.next (if_pos hgood)).trans ?_
      simp only [hfield, withImage_jnl]
    · exact congrArg Host.Outcome.next (if_neg hbad)
  case pref =>
    rw [exec_setPref_of_open hopen, imgSetPref, mramCmd, (imgSlotWord_fields 3 (by decide) slot).2]
    cases slot <;> rfl
  case advance => exact exec_advanceSvn_of_open hopen
  case addKeys => exact exec_addKeys_of_open hopen
  case revoke =>
    rw [exec_revokeKey_of_open hopen, imgRevoke_eq k (imgKeyWord_fields k).2]
    exact ⟨fun hlast => congrArg Host.Outcome.next (if_pos hlast), fun hkept => congrArg Host.Outcome.next (if_neg (by simpa using hkept))⟩

/-! ### IMG_SLICE_CMD (16 R609-R613) -/

section SliceCmd
variable {st : State} {s : SliceId}

theorem sliceWord_fields (op : Nat) (hop : op < 4) (s : SliceId) (off : Bool) :
    getF (sliceWord op s off) Fld.imgSliceCmd_OP = op ∧ Fin.ofNat 4 (getF (sliceWord op s off) Fld.imgSliceCmd_SLICE) = s ∧
    (getF (sliceWord op s off) Fld.imgSliceCmd_POWER_OFF == 1) = off := by
  simp (disch := decide) only [sliceWord, word, List.foldl_cons, List.foldl_nil, getF_putF_self, getF_putF_ne]
  exact ⟨Nat.mod_eq_of_lt hop, by revert s; decide, by cases off <;> rfl⟩

section Open
variable (hopen : cmdOpen st Reg.imgSliceCmd = true)
include hopen

theorem exec_drain_of_open (off : Bool) : exec (.drain s off) st = .next (sliceDrain s (sliceWord 1 s off) st) := by
  obtain ⟨hop, hs, -⟩ := sliceWord_fields 1 (by decide) s off
  refine congrArg Host.Outcome.next ((cmdPF_open st _ _ _ _ hopen).trans ?_)
  simp only [sliceCmd, hop, hs]

theorem exec_sliceLoad_of_open (img : ImageSrc) : exec (.sliceLoad s img) st =
    .next (sliceLoad s (sliceWord 2 s false) (withImage true img st)) := by
  obtain ⟨hop, hs, -⟩ := sliceWord_fields 2 (by decide) s false
  refine congrArg Host.Outcome.next ((cmdPF_open _ _ _ _ _ ((cmdOpen_withImage ..).trans hopen)).trans ?_)
  simp only [sliceCmd, hop, hs]

theorem exec_resume_of_open : exec (.resume s) st = .next (sliceResume s (sliceWord 3 s false) st) := by
  obtain ⟨hop, hs, -⟩ := sliceWord_fields 3 (by decide) s false
  refine congrArg Host.Outcome.next ((cmdPF_open st _ _ _ _ hopen).trans ?_)
  simp only [sliceCmd, hop, hs]

end Open

theorem sliceDrain_of_running {off : Bool} (h : st.img.sl[s] = .running) : sliceDrain s (sliceWord 1 s off) st =
    sliceDone (sliceWord 1 s off) 0 (modImg (modImgSl (flushSlice st s) s .draining) (fun i => { i with
      drainUntil := i.drainUntil.set s (elNs st + 100000), powerOff := i.powerOff.set s off })) := by
  rw [sliceDrain, if_neg (by rw [h]; exact not_not.mpr rfl), (sliceWord_fields 1 (by decide) s off).2.2]

theorem sliceDrain_of_other {w : Word} (h : st.img.sl[s] ≠ .running) : sliceDrain s w st = sliceDone w 2 st := if_pos h

/-! #### The end of DRAINING -/

theorem exec_drainDone_of_empty (h : st.img.sl[s] = .draining) (hframes : framesIn (sl st s) = 0) (hsaf : ∀ f ∈ st.saf, f.s ≠ s) :
    exec (.drainDone s) st = .next (sliceDrained st s) :=
  congrArg Host.Outcome.next (if_pos ⟨h, hframes, by simpa using hsaf⟩)

theorem exec_drainDone_of_other (h : st.img.sl[s] ≠ .draining) : exec (.drainDone s) st = .next st :=
  congrArg Host.Outcome.next (if_neg fun hall => h hall.1)

/-- The frames that a slice still holds at the end of its drain are discarded and counted. -/
def drainCut (st : State) (s : SliceId) : State :=
  { modSl st s dropFrames with
    saf := st.saf.filter (fun f => f.s != s)
    img := { st.img with drainDiscard := BitVec.ofNat 16 (min 65535 (st.img.drainDiscard.toNat +
      (framesIn (sl st s) + countP (fun f => f.s == s) st.saf))) } }

theorem exec_drainTimeout_of_over (h : st.img.sl[s] = .draining) (hover : st.img.drainUntil[s] ≤ elNs st) :
    exec (.drainTimeout s) st = .next (sliceDrained (settle (drainCut st s) s) s) :=
  congrArg Host.Outcome.next (if_pos ⟨h, hover⟩)

theorem exec_drainTimeout_of_other (h : st.img.sl[s] ≠ .draining) : exec (.drainTimeout s) st = .next st :=
  congrArg Host.Outcome.next (if_neg fun hall => h hall.1)

/-! #### LOAD and RESUME -/

section Load
variable {w : Word}

theorem sliceLoad_of_stopped (hparam : imgBadParam st 1 = false) (h : st.img.sl[s] = .drained ∨ st.img.sl[s] = .off) :
    sliceLoad s w st = cmdBusy (modImg st (fun i => { i with
      checking := some (s, hostImage st true), loadUntil := i.loadUntil.set s (elNs st + 150000000) })) Reg.imgSliceCmd
      Fld.imgSliceCmd_OP w := by
  rw [sliceLoad]
  dsimp only
  rw [pickCode_of_no_cause st (by rcases h with h | h <;> simp [h, hparam])]
  exact if_neg (show ¬ ¬ 0 = 0 by decide)

theorem sliceLoad_of_draining (hparam : imgBadParam st 1 = false) (h : st.img.sl[s] = .draining) :
    sliceLoad s w st = sliceDone w 6 st := by
  rw [sliceLoad]
  dsimp only
  rw [pickCode_of_one_cause st (code := 6) (by simp [h, hparam])]
  exact if_pos (show ¬ 6 = 0 by decide)

theorem sliceLoad_of_bad_param (hparam : imgBadParam st 1 = true) (h : st.img.sl[s] = .drained ∨ st.img.sl[s] = .off) :
    sliceLoad s w st = sliceDone w 3 st := by
  rw [sliceLoad]
  dsimp only
  rw [pickCode_of_one_cause st (code := 3) (by rcases h with h | h <;> simp [h, hparam])]
  exact if_pos (show ¬ 3 = 0 by decide)

theorem sliceLoad_of_other (hparam : imgBadParam st 1 = false) (h6 : st.img.sl[s] ≠ .draining) (hdrained : st.img.sl[s] ≠ .drained)
    (hoff : st.img.sl[s] ≠ .off) : sliceLoad s w st = sliceDone w 2 st := by
  rw [sliceLoad]
  dsimp only
  simp only [Fin.getElem_fin] at h6 hdrained hoff
  rw [pickCode_of_one_cause st (code := 2) (by simp [h6, hdrained, hoff, hparam])]
  exact if_pos (show ¬ 2 = 0 by decide)

theorem sliceResume_of_drained (h : st.img.sl[s] = .drained) :
    sliceResume s w st = sliceDone w 0 (enablePorts (modImgSl st s .running)) := by
  rw [sliceResume, h]

theorem sliceResume_of_draining (h : st.img.sl[s] = .draining) : sliceResume s w st = sliceDone w 6 st := by
  rw [sliceResume, h]

theorem sliceResume_of_other (h : st.img.sl[s] ≠ .drained) (h6 : st.img.sl[s] ≠ .draining) :
    sliceResume s w st = sliceDone w 2 st := by
  rw [sliceResume]
  split
  case h_1 hd => exact absurd hd h6
  case h_2 hd => exact absurd hd h
  case h_3 => rfl

end Load

/-! #### The check of a partial image, and the start of its slice -/

theorem exec_sliceLoadChecked_of_none (h : st.img.checking = none) : exec .sliceLoadChecked st = .next st := by
  show execSliceLoadChecked st = _
  rw [execSliceLoadChecked, h]

/-- The state in which the check of a partial image has ended with code `c`. -/
def partChecked (st : State) (c : Fin 16) : State :=
  setF (modImg st (fun i => { i with checking := none })) Reg.imgCmd Fld.imgCmd_CHECK c.val

/-- The slice runs under the partial image `img`. -/
def partLoaded (r : State) (s : SliceId) (img : ImageSrc) : State :=
  startSlice (modImgSl (modImg { r with defaults := img.content.defaults.foldl (fun m p => m.put p.1 p.2) r.defaults } (fun i =>
    { i with
      content := { i.content with slices := i.content.slices.set s img.content.slices[s] }
      runHash := sha384 (i.runHash ++ sha384 (imgBytes img.bytes)) })) s .loading) s

theorem exec_sliceLoadChecked_of_some {img : ImageSrc} (h : st.img.checking = some (s, img)) : exec .sliceLoadChecked st = .next
    (let c := checkImage st img (some s)
     if c ≠ 1 then sliceDone (rd st Reg.imgSliceCmd) 5 (partChecked st c)
     else sliceDone (rd st Reg.imgSliceCmd) 0 (partLoaded (sliceReset (partChecked st c) s) s img)) := by
  show execSliceLoadChecked st = _
  rw [execSliceLoadChecked, h]
  rfl

theorem exec_sliceRunning_of_ready (h : st.img.sl[s] = .loading)
    (hup : (∀ d k, (portCfg st d s k).enabled = true → portUp st d s k = true) ∨ st.img.loadUntil[s] ≤ elNs st) :
    exec (.sliceRunning s) st = .next (enablePorts (modImgSl st s .running)) := by
  refine congrArg Host.Outcome.next (if_pos ⟨h, hup.imp_left fun hall => ?_⟩)
  simp only [List.all_eq_true, Bool.or_eq_true, Bool.not_eq_true']
  intro d _ k _
  rcases Bool.eq_false_or_eq_true (portCfg st d s k).enabled with hen | hen
  · exact Or.inr (hall d k hen)
  · exact Or.inl hen

theorem exec_sliceRunning_of_waiting (h : st.img.sl[s] ≠ .loading ∨
    (¬ (∀ d k, (portCfg st d s k).enabled = true → portUp st d s k = true) ∧ elNs st < st.img.loadUntil[s])) :
    exec (.sliceRunning s) st = .next st := by
  refine congrArg Host.Outcome.next (if_neg ?_)
  rintro ⟨hload, hready⟩
  rcases h with h | ⟨hdown, htime⟩
  · exact h hload
  · rcases hready with hready | hready
    · refine hdown fun d k hen => ?_
      simp only [List.all_eq_true, Bool.or_eq_true, Bool.not_eq_true'] at hready
      have hd : d ∈ sides := by cases d <;> decide
      have hk : ∀ i : PortIx, i ∈ ports8 := by decide
      simpa [hen] using hready d hd k (hk k)
    · omega

end SliceCmd

/-- Settles O51: each command by the state of its slice, then the ends of DRAINING, of a check and of LOADING. -/
theorem slicesDrainLoadAndResume : Obligations.SlicesDrainLoadAndResume := by
  intro st s
  refine ⟨fun hopen off => ?drain, fun h => ⟨exec_drainDone_of_empty h, fun hover =>
      ⟨drainCut st s, exec_drainTimeout_of_over h hover, rfl⟩⟩,
    fun h => ⟨exec_drainDone_of_other h, exec_drainTimeout_of_other h⟩, fun img hopen => ?load, exec_sliceLoadChecked_of_none,
    fun img h => ?checked, ⟨exec_sliceRunning_of_ready, exec_sliceRunning_of_waiting⟩, fun hopen => ?resume⟩
  case drain =>
    rw [exec_drain_of_open hopen]
    exact ⟨fun h => congrArg _ (sliceDrain_of_running h), fun h => congrArg _ (sliceDrain_of_other h)⟩
  case load =>
    have hsl := withImage_sl true img st
    rw [exec_sliceLoad_of_open hopen, ← hsl]
    refine ⟨fun hparam h => ?_, fun hparam h => congrArg _ (sliceLoad_of_draining hparam h),
      fun hparam h => congrArg _ (sliceLoad_of_bad_param hparam h),
      fun hparam h6 h h' => congrArg _ (sliceLoad_of_other hparam h6 h h')⟩
    rw [sliceLoad_of_stopped hparam h, elNs_withImage]
  case checked =>
    rw [exec_sliceLoadChecked_of_some h]
    exact ⟨fun hbad => congrArg Host.Outcome.next (if_pos hbad), fun hgood => congrArg Host.Outcome.next (if_neg (not_not.mpr hgood))⟩
  case resume =>
    rw [exec_resume_of_open hopen]
    exact ⟨fun h => congrArg _ (sliceResume_of_drained h), fun h => congrArg _ (sliceResume_of_draining h),
      fun h h6 => congrArg _ (sliceResume_of_other h h6)⟩

end Sys2Proof.Machine
end

section
/-!
PROOFS. The resets of the device (17 R634-R636, 16 R606, R607, 15 R568): the boot count, the seeds, what survives a reset, the halt of
a failed random source, and O47 put together from them.
-/
namespace Sys2Proof.Machine

/-! ### The boot count (16 R606) -/

theorem leVal_leBytes (n : Nat) : ∀ v : Nat, v < 256 ^ n → leVal (leBytes n v) = v := by
  induction n with
  | zero => intro v h; simp only [Nat.pow_zero, Nat.lt_one_iff] at h; simp [leBytes, leVal, h]
  | succ n ih =>
    intro v h
    have hrest : v / 256 < 256 ^ n := Nat.div_lt_of_lt_mul (by rw [Nat.pow_succ, Nat.mul_comm] at h; exact h)
    rw [leBytes, leVal, ih _ hrest, BitVec.toNat_ofNat]
    exact Nat.mod_add_div v 256

theorem length_leBytes (n : Nat) : ∀ v : Nat, (leBytes n v).length = n := by
  induction n with
  | zero => exact fun _ => rfl
  | succ n ih => exact fun v => by rw [leBytes, List.length_cons, ih]

theorem leVal_lt : ∀ bs : Bytes, leVal bs < 256 ^ bs.length
  | [] => Nat.one_pos
  | b :: bs => by
    have hb := b.isLt
    have ih := leVal_lt bs
    rw [leVal, List.length_cons, Nat.pow_succ]
    omega

/-- A persistent count goes up by one and stops at its largest value. -/
theorem leVal_mramCount (st : State) (a : Nat) (h : Memory.wf st.mram = true) :
    leVal (memRead (mramCount st a).mram a 4) = min (2 ^ 32 - 1) (leVal (memRead st.mram a 4) + 1) := by
  have hlt : leVal (memRead st.mram a 4) < 2 ^ 32 := by
    have := leVal_lt (memRead st.mram a 4)
    rwa [length_memRead] at this
  unfold mramCount
  dsimp only
  split
  case isTrue hmax => omega
  case isFalse hmax =>
    have hnext : leVal (memRead st.mram a 4) + 1 < 2 ^ 32 := by omega
    have hread := memRead_memWrite st.mram a (leBytes 4 (leVal (memRead st.mram a 4) + 1)) h
    rw [length_leBytes] at hread
    rw [hread, leVal_leBytes 4 _ hnext]
    omega

theorem memByte_mramCount_outside (st : State) (a x : Nat) (h : x < a ∨ a + 4 ≤ x) :
    memByte (mramCount st a).mram x = memByte st.mram x := by
  unfold mramCount
  dsimp only
  split
  · rfl
  · exact memByte_memWrite_outside _ _ _ _ (by rw [length_leBytes]; exact h)

/-! ### The seeds of the detectors (15 R568) -/

/-- The seed of loop `i` is drawn. -/
def drawSeed (st : State) (i : Nat) : State :=
  modTmp (draw st).2 (fun t => { t with seeds := t.seeds.mapFinIdx (fun j v _ =>
    if j = i then BitVec.ofNat 15 (beVal (draw st).1 % 32767 + 1) else v) })

theorem drawSeeds_eq (st : State) : drawSeeds st = (List.range 16).foldl drawSeed st := rfl

theorem drawSeed_only (st : State) (i : Nat) : ∃ f s, drawSeed st i =
    { st with freeCount := f, tmp := { st.tmp with seeds := s } } := ⟨_, _, rfl⟩

theorem drawSeeds_only (st : State) : ∃ f s, drawSeeds st = { st with freeCount := f, tmp := { st.tmp with seeds := s } } := by
  rw [drawSeeds_eq]
  refine List.foldlRecOn (motive := fun t : State => ∃ f s, t = { st with freeCount := f, tmp := { st.tmp with seeds := s } }) _ _
    ⟨st.freeCount, st.tmp.seeds, rfl⟩ ?_
  rintro t ⟨f, s, rfl⟩ i -
  obtain ⟨f', s', h⟩ := drawSeed_only { st with freeCount := f, tmp := { st.tmp with seeds := s } } i
  exact ⟨f', s', h⟩

theorem seed_ne_zero (v : Nat) : BitVec.ofNat 15 (v % 32767 + 1) ≠ 0 := by
  intro h
  have := congrArg BitVec.toNat h
  simp only [BitVec.toNat_ofNat, BitVec.ofNat_eq_ofNat] at this
  omega

theorem drawSeed_seeds (st : State) (i : Nat) (j : Fin 16) : (drawSeed st i).tmp.seeds[j] =
    if j.val = i then BitVec.ofNat 15 (beVal (draw st).1 % 32767 + 1) else st.tmp.seeds[j] := by
  simp [drawSeed, draw]

theorem drawSeeds_ne_zero (st : State) (j : Fin 16) : (drawSeeds st).tmp.seeds[j] ≠ 0 := by
  have hdrawn : ∀ n, j.val < n → ((List.range n).foldl drawSeed st).tmp.seeds[j] ≠ 0 := by
    intro n
    induction n with
    | zero => exact fun h => absurd h (Nat.not_lt_zero _)
    | succ n ih =>
      intro h
      rw [List.range_succ, List.foldl_append, List.foldl_cons, List.foldl_nil, drawSeed_seeds]
      split
      case isTrue => exact seed_ne_zero _
      case isFalse hne => exact ih (by omega)
  rw [drawSeeds_eq]
  exact hdrawn 16 j.isLt

/-! ### What a reset leaves (17 Table 17-5) -/

theorem requestRails_only (st : State) : ∃ o, requestRails st = { st with out := o } := by
  unfold requestRails
  refine List.foldlRecOn (motive := fun t : State => ∃ o, t = { st with out := o }) _ _ ⟨st.out, rfl⟩ ?_
  rintro t ⟨o, rfl⟩ s -
  split
  · exact ⟨_, rfl⟩
  · exact ⟨o, rfl⟩

/-- The device with everything cleared that a reset clears. -/
def cleared (st : State) (cause : Fin 4) (keys : KtrSt) : State :=
  { State.reset with
    pending := st.pending, fuses := st.fuses, sources := st.sources, mram := st.mram, out := st.out, lastRead := st.lastRead
    freeCount := st.freeCount, primary := st.primary, debugPin := st.debugPin, debug := st.debug, ktr := keys
    glb := { resetCause := cause, gpioIn := st.glb.gpioIn, pwrfailLow := st.glb.pwrfailLow }
    twin := { partnerOwn := st.twin.partnerOwn }
    jnl := { badPos := st.jnl.badPos }
    img := { sl := Vector.ofFn (fun s => if sliceExists st s then .off else .absent) }
    tap := { st.tap with driving := false } }

/-- The cleared device has counted its boot, drawn its seeds and requested its rails. -/
def started (c : State) : State := requestRails (drawSeeds (mramCount c mramBootAddr))

theorem deviceReset_eq (st : State) (cause : Fin 4) (keys : KtrSt) (trng : Bool) : deviceReset st cause keys trng =
    if trng then started (cleared st cause keys)
    else carmineHalt (started (cleared st cause keys)) 7 0 0 0 39 (Config.detail 39 [7]) := rfl

section Started
variable (c : State)

theorem started_only : ∃ m o f s, started c = { c with mram := m, out := o, freeCount := f, tmp := { c.tmp with seeds := s } } := by
  obtain ⟨f, s, hseeds⟩ := drawSeeds_only (mramCount c mramBootAddr)
  obtain ⟨o, hrails⟩ := requestRails_only (drawSeeds (mramCount c mramBootAddr))
  refine ⟨(mramCount c mramBootAddr).mram, o, f, s, ?_⟩
  rw [started, hrails, hseeds, mramCount_only]

theorem started_mram : (started c).mram = (mramCount c mramBootAddr).mram := by
  obtain ⟨f, s, hseeds⟩ := drawSeeds_only (mramCount c mramBootAddr)
  obtain ⟨o, hrails⟩ := requestRails_only (drawSeeds (mramCount c mramBootAddr))
  rw [started, hrails, hseeds]

theorem started_seeds : (started c).tmp.seeds = (drawSeeds (mramCount c mramBootAddr)).tmp.seeds := by
  obtain ⟨o, hrails⟩ := requestRails_only (drawSeeds (mramCount c mramBootAddr))
  rw [started, hrails]

end Started

/-! ### The halt of a failed random source (16 R607) -/

theorem haltEvent_evl (st : State) (c : Fin 16) : (haltEvent st c).evl = st.evl := by
  unfold haltEvent
  split
  · rw [raise_only]
  · rfl

theorem haltEvent_glb (st : State) (c : Fin 16) : (haltEvent st c).glb = st.glb := by
  unfold haltEvent
  split
  · rw [raise_only]
  · rfl

theorem haltCore_evl (st : State) (c : Fin 16) (code slice ix : Nat) : (haltCore st c code slice ix).evl = st.evl := by
  simp only [haltCore, releaseOwn, countN, count, discardAll, modGlb, modTwin, modTsu, wr, apply_ite State.evl, ite_self]

theorem logRec_glb (st : State) (n : Fin 256) (d : Bytes) : (logRec st n d).glb = st.glb := by
  rw [logRec_only]

/-- A record of a source outside alarm groups. -/
def plainRec (t : State) (n : Fin 256) (d : Bytes) : LogRec :=
  { armOf := none, bootNs := BitVec.ofNat 64 (elNs t), tsuNs := nowNs t, source := n, flags := BitVec.ofNat 8 (logFlags t + 0)
    groupSize := 1, groupIndex := 0, detail := padTo 24 d }

/-- In a log with room a record that is not of a tamper source goes to the end of the queue. -/
theorem logRec_queue {t : State} (hroom : logFull t = false) {n : Fin 256} (hn : ¬ n.val < 30) (d : Bytes) :
    (logRec t n d).evl.queue = t.evl.queue ++ [plainRec t n d] := by
  have htamper : isTamperRec (plainRec t n d) = false := decide_eq_false hn
  have hput : logRec t n d = { t with evl := { t.evl with queue := logQueue t.evl (plainRec t n d) } } := if_neg (by simp [hroom])
  rw [hput]
  exact if_neg (by simp [htamper])

theorem carmineHalt_of_start {t : State} (hrun : t.glb.halted = false) (hlog : t.evl = {}) (d : Bytes) :
    (carmineHalt t 7 0 0 0 39 d).glb.halted = true ∧ (carmineHalt t 7 0 0 0 39 d).glb.cause = 7 ∧
    ∃ r, (carmineHalt t 7 0 0 0 39 d).evl.queue = [r] ∧ r.source = 39 := by
  rw [carmineHalt, if_neg (by simp [hrun]), haltEvent_glb, haltEvent_evl, logRec_glb]
  have hevl : (haltCore t 7 0 0 0).evl = {} := (haltCore_evl ..).trans hlog
  refine ⟨rfl, rfl, plainRec (haltCore t 7 0 0 0) 39 d, ?_, rfl⟩
  rw [logRec_queue (by rw [logFull, hevl]; rfl) (by decide), hevl]
  rfl

/-- A reset of the device, with a sound source of random bits or a failed one: the start of the cleared device, or its halt. -/
theorem deviceReset_starts (u : State) (cause : Fin 4) (keys : KtrSt) (hwf : Memory.wf u.mram = true) :
    ∃ t, deviceReset u cause keys true = t ∧ deviceReset u cause keys false = carmineHalt t 7 0 0 0 39 (Config.detail 39 [7]) ∧
      (t = { cleared u cause keys with
        mram := t.mram, out := t.out, freeCount := t.freeCount, tmp := { (cleared u cause keys).tmp with seeds := t.tmp.seeds } }) ∧
      (∀ i : Fin 16, t.tmp.seeds[i] ≠ 0) ∧
      leVal (memRead t.mram mramBootAddr 4) = min (2 ^ 32 - 1) (leVal (memRead u.mram mramBootAddr 4) + 1) ∧
      ∀ a, (a < mramBootAddr ∨ mramBootAddr + 4 ≤ a) → memByte t.mram a = memByte u.mram a := by
  refine ⟨started (cleared u cause keys), rfl, rfl, ?_, fun i => ?_, ?_, fun a ha => ?_⟩
  · obtain ⟨m, o, f, s, h⟩ := started_only (cleared u cause keys)
    rw [h]
  · rw [started_seeds]
    exact drawSeeds_ne_zero _ i
  · rw [started_mram]
    exact leVal_mramCount (cleared u cause keys) _ hwf
  · rw [started_mram]
    exact memByte_mramCount_outside (cleared u cause keys) _ a ha

theorem softReset_of_resetting {st : State} (h : resetting st = true) (cause : Fin 4) (trng : Bool) : softReset cause trng st = st :=
  if_pos h

theorem softReset_of_idle {st : State} (h : resetting st = false) (cause : Fin 4) (trng : Bool) :
    softReset cause trng st = deviceReset st cause { fpKey := st.ktr.fpKey, macKey := st.ktr.macKey } trng :=
  if_neg (by simp [h])

/-- Settles O47: each of the four resets is a start of the cleared device; what a start changes is counted, drawn or requested. -/
theorem resetsStartTheDeviceAfresh : Obligations.ResetsStartTheDeviceAfresh := by
  intro st hwf
  refine ⟨fun p d => ?power, ?supply, fun hidle => ⟨?device, ?written⟩, fun h trng => ⟨?_, ?_⟩, fun key trng hkey => ?_,
    fun t hrun hlog => carmineHalt_of_start hrun hlog _⟩
  case power =>
    let u : State := { st with primary := p, debugPin := d, debug := d && !st.fuses.debugNever }
    obtain ⟨t, hgood, hbad, heq, hrest⟩ := deviceReset_starts { u with tap := {}, jnl := {} } 0 (bootKeys u) hwf
    exact ⟨t, congrArg Host.Outcome.next hgood, congrArg Host.Outcome.next hbad, heq, congrArg (fun t : State => t.img.state) heq,
      congrArg (fun t : State => t.glb.halted) heq, hrest⟩
  case supply =>
    let u : State := { st with debug := st.debugPin && !st.fuses.debugNever }
    obtain ⟨t, hgood, hbad, heq, hrest⟩ := deviceReset_starts { u with tap := {}, jnl := {} } 1 (bootKeys u) hwf
    exact ⟨t, congrArg Host.Outcome.next hgood, congrArg Host.Outcome.next hbad, heq, congrArg (fun t : State => t.img.state) heq,
      congrArg (fun t : State => t.glb.halted) heq, hrest⟩
  case device =>
    obtain ⟨t, hgood, hbad, heq, hrest⟩ := deviceReset_starts st 2 { fpKey := st.ktr.fpKey, macKey := st.ktr.macKey } hwf
    exact ⟨t, congrArg Host.Outcome.next ((softReset_of_idle hidle 2 true).trans hgood),
      congrArg Host.Outcome.next ((softReset_of_idle hidle 2 false).trans hbad), heq, congrArg (fun t : State => t.img.state) heq,
      congrArg (fun t : State => t.glb.halted) heq, hrest⟩
  case written =>
    obtain ⟨t, hgood, hbad, heq, hrest⟩ := deviceReset_starts st 3 { fpKey := st.ktr.fpKey, macKey := st.ktr.macKey } hwf
    exact ⟨t, congrArg Host.Outcome.next ((if_pos rfl).trans ((softReset_of_idle hidle 3 true).trans hgood)),
      congrArg Host.Outcome.next ((if_pos rfl).trans ((softReset_of_idle hidle 3 false).trans hbad)), heq,
      congrArg (fun t : State => t.img.state) heq, congrArg (fun t : State => t.glb.halted) heq, hrest⟩
  · exact congrArg Host.Outcome.next (softReset_of_resetting h 2 trng)
  · exact congrArg Host.Outcome.next ((if_pos rfl).trans (softReset_of_resetting h 3 trng))
  · exact congrArg Host.Outcome.next (if_neg hkey)

end Sys2Proof.Machine
end

section
/-!
PROOFS. Voltage and engine-pool loops (17 R623-R629, 01 R44-R49), and O52 put together from them.
-/
namespace Sys2Proof.Machine

/-! ### Voltage loops (17 R623-R626) -/

section Avs
variable {st : State} {s : SliceId}

theorem upd_self {α : Type} {n : Nat} (v : Vector α n) (i : Fin n) (f : α → α) : (upd v i f)[i] = f v[i] := by simp [upd]

theorem avs_modAvs (f : AvsSt → AvsSt) : (modAvs st s f).avs[s] = f st.avs[s] := upd_self ..

/-- The interval's slack and the voltage that the regulator reports are noted. -/
def avsNoted (st : State) (s : SliceId) (slack : BitVec 5) (ack : Bool) (mv : BitVec 10) : State :=
  modAvs st s (fun a => { a with slack := slack, reported := if ack then mv else a.reported })

/-- An emergency is counted and raised, and holds the loop for 1 ms. -/
def avsEmergency (st : State) (s : SliceId) : State :=
  raise (count (modAvs st s (fun a => { a with emergUntil := some (elNs st + 1000000) })) (Reg.pwrCnt 1)) { block := 2, index := 0 }

section Noted
variable (slack : BitVec 5) (ack : Bool) (mv : BitVec 10)

theorem avs_avsNoted : (avsNoted st s slack ack mv).avs[s] =
    { st.avs[s] with slack := slack, reported := if ack then mv else (st.avs[s]).reported } := avs_modAvs _

theorem requested_avsNoted : ((avsNoted st s slack ack mv).avs[s]).requested = (st.avs[s]).requested := by rw [avs_avsNoted]
theorem emergUntil_avsNoted : ((avsNoted st s slack ack mv).avs[s]).emergUntil = (st.avs[s]).emergUntil := by rw [avs_avsNoted]
theorem failUntil_avsNoted : ((avsNoted st s slack ack mv).avs[s]).failUntil = (st.avs[s]).failUntil := by rw [avs_avsNoted]

theorem avsNext_avsNoted (n : Nat) : avsNext (avsNoted st s slack ack mv) s n = avsNext st s n := by
  unfold avsNext
  rw [requested_avsNoted]
  rfl

theorem avsHeld_avsNoted : avsHeld (avsNoted st s slack ack mv) s = avsHeld st s := by
  unfold avsHeld
  rw [emergUntil_avsNoted, failUntil_avsNoted]
  rfl

theorem avsMax_avsEmergency : avsMax (avsEmergency (avsNoted st s slack ack mv) s) s = avsMax st s := by
  have happlied : (avsEmergency (avsNoted st s slack ack mv) s).applied = st.applied := by rw [avsEmergency, raise_only]; rfl
  have hdefaults : (avsEmergency (avsNoted st s slack ack mv) s).defaults = st.defaults := by rw [avsEmergency, raise_only]; rfl
  rw [avsMax, avsCfg, fldA, rdA_of_applied _ _ happlied hdefaults]
  rfl

section Running
variable (hrunning : st.img.sl[s] = .running) (hrun : st.glb.halted = false)
include hrunning hrun

theorem exec_avsInterval_of_no_emergency : exec (.avsInterval s slack false ack mv) st = .next
    (let t := avsNoted st s slack ack mv
     if avsHeld st s then t
     else if avsNext st s slack.toNat = (st.avs[s]).requested.toNat then t
     else avsRequest t s (avsNext st s slack.toNat) ack) := by
  have hexec : exec (.avsInterval s slack false ack mv) st = .next
      (let t := avsNoted st s slack ack mv
       if avsHeld t s then t
       else if avsNext t s slack.toNat = (t.avs[s]).requested.toNat then t
       else avsRequest t s (avsNext t s slack.toNat) ack) :=
    congrArg Host.Outcome.next (if_neg (by rw [hrunning, hrun]; decide))
  rw [hexec]
  dsimp only
  rw [avsHeld_avsNoted, avsNext_avsNoted, requested_avsNoted]

theorem exec_avsInterval_of_emergency : exec (.avsInterval s slack true ack mv) st = .next
    (let e := avsEmergency (avsNoted st s slack ack mv) s
     if avsCfg st s Fld.pwrAvsCfg_FRZ == 0 && (st.avs[s]).failUntil.isNone then avsRequest e s (avsMax st s) ack else e) := by
  have hexec : exec (.avsInterval s slack true ack mv) st = .next
      (let t := avsNoted st s slack ack mv
       let e := avsEmergency t s
       if avsCfg st s Fld.pwrAvsCfg_FRZ == 0 && (t.avs[s]).failUntil.isNone then avsRequest e s (avsMax e s) ack else e) :=
    congrArg Host.Outcome.next (if_neg (by rw [hrunning, hrun]; decide))
  rw [hexec]
  dsimp only
  rw [failUntil_avsNoted, avsMax_avsEmergency]

end Running
end Noted

theorem exec_avsEmergEnd_of_some {a : Nat} (h : (st.avs[s]).emergUntil = some a) : exec (.avsEmergEnd s) st =
    .next (if a ≤ elNs st then modAvs st s (fun x => { x with emergUntil := none }) else st) := by
  show execAvsEmergEnd s st = _
  rw [execAvsEmergEnd, h]

theorem exec_avsHoldEnd_of_some {a : Nat} (h : (st.avs[s]).failUntil = some a) : exec (.avsHoldEnd s) st =
    .next (if a ≤ elNs st then modAvs st s (fun x => { x with failUntil := none }) else st) := by
  show execAvsHoldEnd s st = _
  rw [execAvsHoldEnd, h]

end Avs

/-! ### Engine pools (17 R628, R629; 01 R44-R49) -/

section Pools
variable {st : State} {s : SliceId} {d : Side}

theorem poolOf_eq (st : State) (s : SliceId) (d : Side) (h : sideNum d < 2) : poolOf st s d = (sl st s).pools[sideNum d] := by
  simp [poolOf, h]

theorem sideNum_lt (d : Side) : sideNum d < 2 := by cases d <;> decide

/-- A change of a pool is what it makes of that pool. -/
theorem modPool_congr {f g : PoolSt → PoolSt} (h : f (poolOf st s d) = g (poolOf st s d)) : modPool st s d f = modPool st s d g := by
  rw [poolOf_eq st s d (sideNum_lt d)] at h
  have hpools : (sl st s).pools.mapFinIdx (fun i p _ => if i = sideNum d then f p else p) =
      (sl st s).pools.mapFinIdx (fun i p _ => if i = sideNum d then g p else p) := by
    ext i hi
    simp only [Vector.getElem_mapFinIdx]
    split
    case isTrue heq => subst heq; rw [h]
    case isFalse => rfl
  have hslice : modSl st s (fun x => { x with pools := x.pools.mapFinIdx (fun i p _ => if i = sideNum d then f p else p) }) =
      modSl st s (fun _ => { sl st s with pools := (sl st s).pools.mapFinIdx (fun i p _ => if i = sideNum d then f p else p) }) := rfl
  rw [modPool, hslice, hpools]
  rfl

theorem poolOf_modPool (f : PoolSt → PoolSt) : poolOf (modPool st s d f) s d = f (poolOf st s d) := by
  rw [poolOf_eq _ _ _ (sideNum_lt d), poolOf_eq _ _ _ (sideNum_lt d), modPool, sl_modSl_self]
  simp


/-- The pool with the load of a window, and since when it has been low. -/
def windowNoted (st : State) (s : SliceId) (d : Side) (load : BitVec 7) (since : Option Nat) : State :=
  modPool st s d (fun p => { p with load := load, lowSince := since })

/-- Since when the load has been below DOWN_THR, with the window that ends. -/
def lowSince (st : State) (s : SliceId) (d : Side) (load : BitVec 7) : Option Nat :=
  if decide (load.toNat < engDown st s d) then (poolOf st s d).lowSince.or (some (elNs st - 10000)) else none

section Window
variable {load : BitVec 7}

/-- The window, in terms of the pool before it. -/
theorem exec_engineLoopWindow_of_on (hon : sliceOn st s = true) (hrun : st.glb.halted = false) :
    exec (.engineLoopWindow s d load) st = .next
      (let p := poolOf st s d
       let t := windowNoted st s d load (lowSince st s d load)
       let long := match lowSince st s d load with | some a => decide (a + 1000000 ≤ elNs st) | none => false
       if engShort t s d then modPool t s d (fun p => { p with rising := p.rising + 1 })
       else if engFrozen st s d then t
       else if engUp st s d < load.toNat ∧ enginesOn p < engMax st s d ∧ enginesOn p + p.failed < 10 then
         modPool t s d (fun p => { p with rising := p.rising + 1 })
       else if long = true ∧ engMin st s d < p.inPool then
         modPool t s d (fun p => { p with inPool := p.inPool - 1, draining := p.draining + 1 })
       else t) := by
  have hnoted : modPool st s d (fun p => { p with
      load := load
      lowSince := if decide (load.toNat < engDown st s d) then p.lowSince.or (some (elNs st - 10000)) else none }) =
      windowNoted st s d load (lowSince st s d load) := modPool_congr rfl
  have hpool : poolOf (windowNoted st s d load (lowSince st s d load)) s d =
      { poolOf st s d with load := load, lowSince := lowSince st s d load } := poolOf_modPool _
  refine congrArg Host.Outcome.next ((if_neg (by simp [hon, hrun])).trans ?_)
  dsimp only
  rw [hnoted, hpool]
  rfl

/-- The load asks for one more engine, and the pool may have one. -/
def poolGrows (st : State) (s : SliceId) (d : Side) (load : BitVec 7) : Prop :=
  engUp st s d < load.toNat ∧ enginesOn (poolOf st s d) < engMax st s d ∧ enginesOn (poolOf st s d) + (poolOf st s d).failed < 10

section On
variable (hon : sliceOn st s = true) (hrun : st.glb.halted = false)
include hon hrun

theorem exec_engineLoopWindow_of_short (hshort : engShort (windowNoted st s d load (lowSince st s d load)) s d = true) :
    exec (.engineLoopWindow s d load) st = .next
      (modPool (windowNoted st s d load (lowSince st s d load)) s d (fun p => { p with rising := p.rising + 1 })) := by
  rw [exec_engineLoopWindow_of_on hon hrun]
  exact congrArg Host.Outcome.next (if_pos hshort)

variable (hshort : engShort (windowNoted st s d load (lowSince st s d load)) s d = false)
include hshort

theorem exec_engineLoopWindow_of_frozen (hfrozen : engFrozen st s d = true) :
    exec (.engineLoopWindow s d load) st = .next (windowNoted st s d load (lowSince st s d load)) := by
  rw [exec_engineLoopWindow_of_on hon hrun]
  exact congrArg Host.Outcome.next ((if_neg (Bool.eq_false_iff.mp hshort)).trans (if_pos hfrozen))

variable (hfrozen : engFrozen st s d = false)
include hfrozen

theorem exec_engineLoopWindow_of_growth (hgrow : poolGrows st s d load) : exec (.engineLoopWindow s d load) st = .next
    (modPool (windowNoted st s d load (lowSince st s d load)) s d (fun p => { p with rising := p.rising + 1 })) := by
  rw [exec_engineLoopWindow_of_on hon hrun]
  exact congrArg Host.Outcome.next ((if_neg (Bool.eq_false_iff.mp hshort)).trans
    ((if_neg (Bool.eq_false_iff.mp hfrozen)).trans (if_pos hgrow)))

variable (hgrow : ¬ poolGrows st s d load)
include hgrow

theorem exec_engineLoopWindow_of_long_low (a : Nat) (hsince : lowSince st s d load = some a) (hlong : a + 1000000 ≤ elNs st)
    (hmin : engMin st s d < (poolOf st s d).inPool) : exec (.engineLoopWindow s d load) st = .next
      (modPool (windowNoted st s d load (lowSince st s d load)) s d (fun p =>
        { p with inPool := p.inPool - 1, draining := p.draining + 1 })) := by
  rw [exec_engineLoopWindow_of_on hon hrun]
  refine congrArg Host.Outcome.next ((if_neg (Bool.eq_false_iff.mp hshort)).trans
    ((if_neg (Bool.eq_false_iff.mp hfrozen)).trans ((if_neg hgrow).trans (if_pos ⟨?_, hmin⟩))))
  rw [hsince]
  exact decide_eq_true hlong

theorem exec_engineLoopWindow_of_no_change (hsince : ∀ a, lowSince st s d load = some a → elNs st < a + 1000000) :
    exec (.engineLoopWindow s d load) st = .next (windowNoted st s d load (lowSince st s d load)) := by
  rw [exec_engineLoopWindow_of_on hon hrun]
  refine congrArg Host.Outcome.next ((if_neg (Bool.eq_false_iff.mp hshort)).trans
    ((if_neg (Bool.eq_false_iff.mp hfrozen)).trans ((if_neg hgrow).trans (if_neg ?_))))
  rintro ⟨hlong, -⟩
  split at hlong
  case h_1 a ha => exact absurd (of_decide_eq_true hlong) (Nat.not_le.mpr (hsince a ha))
  case h_2 => exact Bool.false_ne_true hlong

end On
end Window

theorem exec_engineDrainDone_of_draining (h : (poolOf st s d).draining ≠ 0) : exec (.engineDrainDone s d) st =
    .next (modPool st s d (fun p => { p with draining := p.draining - 1 })) :=
  congrArg Host.Outcome.next (if_neg h)

theorem exec_engineDrainDone_of_none (h : (poolOf st s d).draining = 0) : exec (.engineDrainDone s d) st = .next st :=
  congrArg Host.Outcome.next (if_pos h)

theorem exec_engineKatDone_of_rising (h : (poolOf st s d).rising ≠ 0) (ok : Bool) : exec (.engineKatDone s d ok) st = .next
    (let t := modPool st s d (fun p => { p with rising := p.rising - 1 })
     if ok then modPool t s d (fun p => { p with inPool := p.inPool + 1 }) else engFailed t s d) :=
  congrArg Host.Outcome.next (if_neg h)

theorem exec_engineKatDone_of_service (h : (poolOf st s d).rising = 0) (ok : Bool) : exec (.engineKatDone s d ok) st = .next
    (if ok || (poolOf st s d).inPool == 0 then st
     else engFailed (modPool st s d (fun p => { p with inPool := p.inPool - 1 })) s d) :=
  congrArg Host.Outcome.next (if_pos h)

end Pools

/-- Settles O52: an interval by emergency and hold of the loop, a window by the rules in their order, an engine by its test. -/
theorem powerLoopsFollowTheirTables : Obligations.PowerLoopsFollowTheirTables := by
  intro st s d
  refine ⟨fun hrunning hrun slack ack mv => ⟨fun hfree => ?free, fun hheld => ?held, fun hfrz hfail => ?emergency, fun h => ?kept⟩,
    fun h slack em ack mv => congrArg Host.Outcome.next (if_pos h),
    fun a h => ?emergEnd, fun a h => ?holdEnd, fun hon hrun load => ?window, exec_engineDrainDone_of_draining, exec_engineDrainDone_of_none,
    fun h => ⟨exec_engineKatDone_of_rising h true, exec_engineKatDone_of_rising h false⟩,
    fun h => ⟨exec_engineKatDone_of_service h true, fun hpool => ?failed, fun hnone => ?nothing⟩⟩
  case free =>
    rw [exec_avsInterval_of_no_emergency slack ack mv hrunning hrun, hfree]
    exact ⟨fun hsame => congrArg Host.Outcome.next (if_pos hsame), fun hnew => congrArg Host.Outcome.next (if_neg hnew)⟩
  case held =>
    rw [exec_avsInterval_of_no_emergency slack ack mv hrunning hrun, hheld]
    rfl
  case emergency =>
    rw [exec_avsInterval_of_emergency slack ack mv hrunning hrun]
    exact congrArg Host.Outcome.next (if_pos (by rw [hfrz, hfail]; rfl))
  case kept =>
    rw [exec_avsInterval_of_emergency slack ack mv hrunning hrun]
    refine congrArg Host.Outcome.next (if_neg ?_)
    simp only [Bool.and_eq_true, beq_iff_eq, Option.isNone_iff_eq_none, not_and_or]
    exact h
  case emergEnd =>
    rw [exec_avsEmergEnd_of_some h]
    exact ⟨fun hover => congrArg _ (if_pos hover), fun hearly => congrArg _ (if_neg (Nat.not_le.mpr hearly))⟩
  case holdEnd =>
    rw [exec_avsHoldEnd_of_some h]
    exact ⟨fun hover => congrArg _ (if_pos hover), fun hearly => congrArg _ (if_neg (Nat.not_le.mpr hearly))⟩
  case window =>
    exact ⟨exec_engineLoopWindow_of_short hon hrun, fun hshort => ⟨exec_engineLoopWindow_of_frozen hon hrun hshort, fun hfrozen =>
      ⟨exec_engineLoopWindow_of_growth hon hrun hshort hfrozen, exec_engineLoopWindow_of_long_low hon hrun hshort hfrozen,
        exec_engineLoopWindow_of_no_change hon hrun hshort hfrozen⟩⟩⟩
  case failed =>
    rw [exec_engineKatDone_of_service h]
    exact congrArg Host.Outcome.next (if_neg (by simp [hpool]))
  case nothing =>
    rw [exec_engineKatDone_of_service h]
    exact congrArg Host.Outcome.next (if_pos (by simp [hnone]))

end Sys2Proof.Machine
end

section
/-!
PROOFS. Port resets, PLLs, the hold-up and the Umber masks (17 R633, R638-R640, 09 R375, R376, 20 R693), and O53 put together from
them.
-/
namespace Sys2Proof.Machine

/-! ### Port resets (17 R638) -/

section PortReset
variable {st : State} {s : SliceId} {d : Side} {k : PortIx}

/-- The word of a port reset. -/
def portRstWord (s : SliceId) (d : Side) (k : PortIx) : Word :=
  word [(Fld.pwrPortRst_RESET, 1), (Fld.pwrPortRst_SLICE, s.val), (Fld.pwrPortRst_SIDE, sideNum d), (Fld.pwrPortRst_PORT, k.val)]

theorem portRstWord_fields (s : SliceId) (d : Side) (k : PortIx) :
    getF (portRstWord s d k) Fld.pwrPortRst_RESET = 1 ∧ Fin.ofNat 4 (getF (portRstWord s d k) Fld.pwrPortRst_SLICE) = s ∧
    (if getF (portRstWord s d k) Fld.pwrPortRst_SIDE = 0 then Side.client else .line) = d ∧
    Fin.ofNat 8 (getF (portRstWord s d k) Fld.pwrPortRst_PORT) = k := by
  simp (disch := decide) only [portRstWord, word, List.foldl_cons, List.foldl_nil, getF_putF_self, getF_putF_ne]
  exact ⟨rfl, by revert s; decide, by cases d <;> rfl, by revert k; decide⟩

theorem exec_portReset_of_open (hopen : cmdOpen st Reg.pwrPortRst = true) : exec (.portReset s d k) st = .next
    (if !sliceOn st s || !(portCfg st d s k).enabled then rstDone (portRstWord s d k) 2 st
     else cmdBusy (modGlb (portDown st s d k) (fun g => { g with portReset := some (s, d, k) })) Reg.pwrPortRst
       Fld.pwrPortRst_RESET (portRstWord s d k)) := by
  obtain ⟨hreset, hs, hd, hk⟩ := portRstWord_fields s d k
  refine congrArg Host.Outcome.next ((cmdPF_open st _ _ _ _ hopen).trans ?_)
  show portRstCmd (portRstWord s d k) st = _
  rw [portRstCmd]
  dsimp only
  rw [hreset, hs, hd, hk]
  exact if_neg (by decide)

theorem exec_portReset_of_enabled (hopen : cmdOpen st Reg.pwrPortRst = true) (hon : sliceOn st s = true)
    (hen : (portCfg st d s k).enabled = true) : exec (.portReset s d k) st = .next (cmdBusy (modGlb (portDown st s d k)
      (fun g => { g with portReset := some (s, d, k) })) Reg.pwrPortRst Fld.pwrPortRst_RESET (portRstWord s d k)) := by
  rw [exec_portReset_of_open hopen]
  exact congrArg Host.Outcome.next (if_neg (by simp [hon, hen]))

theorem exec_portReset_of_other (hopen : cmdOpen st Reg.pwrPortRst = true)
    (h : sliceOn st s = false ∨ (portCfg st d s k).enabled = false) :
    exec (.portReset s d k) st = .next (rstDone (portRstWord s d k) 2 st) := by
  rw [exec_portReset_of_open hopen]
  exact congrArg Host.Outcome.next (if_pos (by rcases h with h | h <;> simp [h]))

theorem exec_portResetDone_of_none (h : st.glb.portReset = none) : exec .portResetDone st = .next st := by
  show execPortResetDone st = _
  rw [execPortResetDone, h]

theorem exec_portResetDone_of_some (h : st.glb.portReset = some (s, d, k)) : exec .portResetDone st =
    .next (rstDone (rd st Reg.pwrPortRst) 0 (modGlb st (fun g => { g with portReset := none }))) := by
  show execPortResetDone st = _
  rw [execPortResetDone, h]

end PortReset

/-! ### PLLs (17 R633) -/

/-- A halt of a device that runs: its cause is the one given, and no frame is left. -/
theorem carmineHalt_of_running {st : State} (hrun : st.glb.halted = false) (c : Fin 16) (code slice ix : Nat) (n : Fin 256) (b : Bytes) :
    (carmineHalt st c code slice ix n b).glb.halted = true ∧ (carmineHalt st c code slice ix n b).glb.cause = c ∧
    framesAll (carmineHalt st c code slice ix n b) = 0 := by
  have hsame : SameResponse (haltCore st c code slice ix) (carmineHalt st c code slice ix n b) := by
    rw [carmineHalt, if_neg (by simp [hrun])]
    exact (SameResponse.logPut _ _).trans (SameResponse.haltEvent _ _)
  obtain ⟨hframes, -, -⟩ := hsame.quiet (quiet_haltCore st c code slice ix)
  exact ⟨by rw [hsame.glb]; rfl, by rw [hsame.glb]; rfl, hframes⟩

/-! ### The hold-up (17 R639, R640; 09 R375, R376) -/

/-- What the abandoned requests of the journal leave alone at the hold-up. -/
structure HoldUpKept (st t : State) : Prop where
  glb : t.glb = st.glb
  own : t.twin.own = st.twin.own
  closed : t.jnl.closed = st.jnl.closed
  saf : t.saf = st.saf
  evl : t.evl = st.evl

namespace HoldUpKept
variable {st t u : State}

theorem refl (st : State) : HoldUpKept st st := ⟨rfl, rfl, rfl, rfl, rfl⟩

theorem trans (h : HoldUpKept st t) (h' : HoldUpKept t u) : HoldUpKept st u :=
  ⟨h'.glb.trans h.glb, h'.own.trans h.own, h'.closed.trans h.closed, h'.saf.trans h.saf, h'.evl.trans h.evl⟩

theorem jnlRefused (st : State) (reason source : Nat) (s : SliceId) (an unit : Nat) :
    HoldUpKept st (jnlRefused st reason source s an unit) := ⟨rfl, rfl, rfl, rfl, rfl⟩

theorem preFail (s : SliceId) (ch : ChIx) (an : An) (reason : Nat) (st : State) : HoldUpKept st (preFail s ch an reason st) := by
  unfold Machine.preFail
  rw [raise_only]
  exact ⟨rfl, rfl, rfl, rfl, rfl⟩

theorem restoreFail (st : State) (code sec : Nat) : HoldUpKept st (restoreFail st code sec) := ⟨rfl, rfl, rfl, rfl, rfl⟩

theorem installFailed (st : State) (s : SliceId) (t : Nat) : HoldUpKept st (installFailed st s t) := ⟨rfl, rfl, rfl, rfl, rfl⟩

theorem pnjEnd (st : State) (code : Nat) : HoldUpKept st (pnjEnd st code) := ⟨rfl, rfl, rfl, rfl, rfl⟩

theorem cmdDone (st : State) (a : Nat) (res op : Field) (w : Word) (code : Nat) : HoldUpKept st (cmdDone st a res op w code) :=
  ⟨rfl, rfl, rfl, rfl, rfl⟩

theorem setF (st : State) (a : Nat) (f : Field) (v : Nat) : HoldUpKept st (setF st a f v) := ⟨rfl, rfl, rfl, rfl, rfl⟩

theorem installRefused (st : State) (x : JUse) : HoldUpKept st (installRefused st x) := by
  unfold Machine.installRefused
  split
  case h_1 src s ch an _ =>
    have hrefused := jnlRefused st 5 (if src = 2 then 0 else src.val) s an.val ch.val
    dsimp only
    split
    · exact hrefused.trans (cmdDone ..)
    · exact hrefused.trans (preFail ..)
    · exact hrefused.trans ((setF ..).trans (cmdDone ..))
    · exact hrefused.trans (restoreFail ..)
  case h_2 => exact installFailed ..
  case h_3 => exact refl st

end HoldUpKept

/-- The journal closes, the requests that it had being abandoned. -/
theorem jnlClose_kept (st : State) : HoldUpKept (modJnl st (fun j => { j with reqs := [], writing := none, closed := true })) (jnlClose st) := by
  refine List.foldlRecOn (motive := HoldUpKept _) _ _ (HoldUpKept.refl _) fun t ht x _ => ht.trans ?_
  split
  · exact HoldUpKept.installRefused ..
  · exact HoldUpKept.installRefused ..
  · exact HoldUpKept.pnjEnd ..
  · exact HoldUpKept.pnjEnd ..
  · exact HoldUpKept.refl _

section HoldUp
variable {st : State}

theorem exec_pwrfailNFall_of_holdup (h : st.glb.holdup = true) : exec .pwrfailNFall st = .next st :=
  congrArg Host.Outcome.next (if_pos (by simp [h]))

theorem exec_pwrfailNFall_of_high (hlow : st.glb.pwrfailLow = false) (hhold : st.glb.holdup = false) : exec .pwrfailNFall st =
    .next (modGlb st (fun g => { g with pwrfailLow := true, pwrfailAt := elNs st })) :=
  congrArg Host.Outcome.next (if_neg (by simp [hlow, hhold]))

theorem exec_pwrfailNFall_of_low (hlow : st.glb.pwrfailLow = true) : exec .pwrfailNFall st = .next st :=
  congrArg Host.Outcome.next (if_pos (by simp [hlow]))

theorem exec_pwrfailGlitch_of_short (hlow : st.glb.pwrfailLow = true) (h : elNs st < st.glb.pwrfailAt + 100) :
    exec .pwrfailGlitch st = .next (modGlb st (fun g => { g with
      pwrfailLow := false, glitches := if g.glitches = BitVec.allOnes 16 then g.glitches else g.glitches + 1 })) :=
  congrArg Host.Outcome.next (if_pos ⟨hlow, h⟩)

theorem exec_pwrfailGlitch_of_none (h : st.glb.pwrfailLow = false ∨ st.glb.pwrfailAt + 100 ≤ elNs st) :
    exec .pwrfailGlitch st = .next st := by
  refine congrArg Host.Outcome.next (if_neg ?_)
  rintro ⟨hlow, hshort⟩
  rcases h with h | h
  · rw [h] at hlow
    exact Bool.false_ne_true hlow
  · omega

theorem exec_holdUp_of_none (h : st.glb.pwrfailLow = false ∨ elNs st < st.glb.pwrfailAt + 100) : exec .holdUp st = .next st := by
  refine congrArg Host.Outcome.next (if_neg ?_)
  rintro ⟨hlow, -, hlong⟩
  rcases h with h | h
  · rw [h] at hlow
    exact Bool.false_ne_true hlow
  · omega

/-- The device-wide Umber state of the hold-up: frames and ownership are given up. -/
def heldUp (st : State) : State :=
  modTwin (modGlb (enterUmber st) (fun g => { g with holdup := true, pwrfailLow := false }))
    (fun t => { t with state := if t.state = .off then .off else .halted })

theorem exec_holdUp_of_due (hlow : st.glb.pwrfailLow = true) (hhold : st.glb.holdup = false) (h : st.glb.pwrfailAt + 100 ≤ elNs st) :
    exec .holdUp st = .next (logRec (jnlClose (heldUp st)) 32 (Config.detail 32 [])) :=
  congrArg Host.Outcome.next (if_pos ⟨hlow, by simp [hhold], h⟩)

theorem heldUp_own (st : State) : (heldUp st).twin.own = false := by
  obtain ⟨-, hown, -⟩ := quiet_enterUmber st
  exact hown

theorem enterUmber_evl (st : State) : (enterUmber st).evl = st.evl := by
  simp only [enterUmber, releaseOwn, countN, discardAll, modTwin, modTsu, wr, apply_ite State.evl, ite_self]

end HoldUp

/-- Settles O53: a port reset by its port, a PLL by its clock, PWRFAIL_N by its 100 ns, and the masks. -/
theorem portResetPllAndHoldUp : Obligations.PortResetPllAndHoldUp := by
  intro st s d k
  refine ⟨fun hopen => ⟨exec_portReset_of_enabled hopen, exec_portReset_of_other hopen⟩, exec_portResetDone_of_none,
    exec_portResetDone_of_some, fun pll hrun => ⟨_, rfl, carmineHalt_of_running hrun ..⟩, fun pll => ⟨_, rfl, rfl⟩,
    exec_pwrfailNFall_of_holdup, exec_pwrfailNFall_of_high, fun hlow => ⟨exec_pwrfailNFall_of_low hlow, fun hshort => ?short,
      fun hlong => ⟨exec_pwrfailGlitch_of_none (Or.inr hlong), fun hhold => ?long⟩⟩,
    fun hhigh => ⟨exec_pwrfailGlitch_of_none (Or.inl hhigh), exec_holdUp_of_none (Or.inl hhigh)⟩,
    fun mask hopen => congrArg Host.Outcome.next (viaPF_atOnce st _ mask _ hopen)⟩
  case short =>
    refine ⟨exec_holdUp_of_none (Or.inr hshort), fun hroom => ?_, fun hfull => ?_⟩
    · rw [exec_pwrfailGlitch_of_short hlow hshort, modGlb, if_neg hroom]
      rfl
    · rw [exec_pwrfailGlitch_of_short hlow hshort, modGlb, if_pos hfull]
      rfl
  case long =>
    obtain ⟨hglb, hown, hclosed, hsaf, hevl⟩ := jnlClose_kept (heldUp st)
    rw [exec_holdUp_of_due hlow hhold hlong, logRec_only]
    refine ⟨_, rfl, by rw [hglb]; rfl, by rw [hglb]; rfl, hown.trans (heldUp_own st), hclosed, ?_, hsaf, fun hroom => ?_⟩
    · have hholdup : (jnlClose (heldUp st)).glb.holdup = true := by rw [hglb]; rfl
      simp only [inUmber, hholdup, Bool.or_true, Bool.true_or]
    · have hroom' : logFull (jnlClose (heldUp st)) = false := by
        rw [logFull, hevl]
        exact (congrArg (fun e : EvlSt => e.ready && decide (65536 ≤ e.head)) (enterUmber_evl st)).trans hroom
      refine ⟨plainRec (jnlClose (heldUp st)) 32 (Config.detail 32 []), ?_, rfl⟩
      rw [logRec_queue hroom' (by decide)]
      exact List.mem_append_right _ (List.mem_singleton.mpr rfl)

end Sys2Proof.Machine
end

section
/-!
PROOFS. The register file (18 R644-R652, 19 R682): writes through each function, the values that an update takes and applies, and O54
put together from them.
-/
namespace Sys2Proof.Machine

/-! ### Writes (18 R644, R645) -/

section Writes
variable {st : State} {fn : InstId} {a : Nat} {v : Word}

theorem exec_registerWrite_of_bytes {be : BitVec 4} (hbe : be ≠ 0xF) :
    exec (.registerWrite fn a be v) st = .next (if st.glb.halted then st else count st (Reg.hifCnt 0)) :=
  congrArg Host.Outcome.next (if_pos hbe)

theorem exec_registerWrite_of_unaligned (ha : a % 4 ≠ 0) : exec (.registerWrite fn a 0xF v) st = .next st :=
  congrArg Host.Outcome.next ((if_neg (not_not.mpr rfl)).trans (if_pos ha))

theorem exec_registerWrite_of_beyond (ha : 0x4000000 ≤ a) : exec (.registerWrite 0 a 0xF v) st = .next st := by
  refine congrArg Host.Outcome.next ((if_neg (not_not.mpr rfl)).trans ?_)
  rw [if_pos rfl, if_neg (Nat.not_lt.mpr ha), ite_self]

theorem exec_registerWrite_of_pf (halign : a % 4 = 0) (ha : a < 0x4000000) :
    exec (.registerWrite 0 a 0xF v) st = .next (pfWrite a v st) := by
  refine congrArg Host.Outcome.next ((if_neg (not_not.mpr rfl)).trans ?_)
  rw [if_neg (not_not.mpr halign), if_pos rfl, if_pos ha]

theorem pfWrite_of_no_counters (h : noCounters st a = true) : pfWrite a v st = st := if_pos h

theorem exec_registerWrite_of_no_counters (h : noCounters st a = true) : exec (.registerWrite 0 a 0xF v) st = .next st := by
  by_cases halign : a % 4 = 0
  · by_cases ha : a < 0x4000000
    · rw [exec_registerWrite_of_pf halign ha, pfWrite_of_no_counters h]
    · exact exec_registerWrite_of_beyond (Nat.not_lt.mp ha)
  · exact exec_registerWrite_of_unaligned halign

theorem vfWrite_of_no_function (h : hasVf st fn = false ∨ 0x10000 ≤ a ∨ st.glb.halted = true) : vfWrite fn a v st = st :=
  if_pos (by rcases h with h | h | h <;> simp [h])

theorem exec_registerWrite_of_no_function (hfn : fn ≠ 0) (h : hasVf st fn = false ∨ 0x10000 ≤ a ∨ st.glb.halted = true) :
    exec (.registerWrite fn a 0xF v) st = .next st := by
  refine congrArg Host.Outcome.next ((if_neg (not_not.mpr rfl)).trans ?_)
  rw [if_neg hfn, vfWrite_of_no_function h, ite_self]

theorem pfWrite_of_plain (hc : noCounters st a = false) (hkind : wrKind a = .plain) (honce : atOnce st a = true) :
    pfWrite a v st = storePlain a v st := by
  rw [pfWrite, if_neg (by simp [hc]), hkind]
  exact viaPF_atOnce st a v _ honce

theorem exec_registerWrite_of_plain {r : RegRow} (hkind : wrKind a = .plain) (hrow : regRow? a = some r) (honce : atOnce st a = true)
    (halign : a % 4 = 0) (ha : a < 0x4000000) (hc : noCounters st a = false) : exec (.registerWrite 0 a 0xF v) st =
      .next (wr st a ((rd st a &&& ~~~ BitVec.ofNat 32 r.rw) ||| (v &&& BitVec.ofNat 32 r.rw))) := by
  rw [exec_registerWrite_of_pf halign ha, pfWrite_of_plain hc hkind honce, storePlain, hrow]

end Writes

/-! ### The update of shadowed fields (18 R648-R652) -/

section Update
variable {st : State} {mask : Word}

theorem exec_glbUpdate_of_once (honce : atOnce st Reg.glbUpdate = true) :
    exec (.glbUpdate mask) st = .next (glbUpdateTake mask st) :=
  congrArg Host.Outcome.next (viaPF_atOnce st _ mask _ honce)

theorem glbUpdateTake_of_free (hboot : booted st = true) (hfree : st.glb.update = none) : glbUpdateTake mask st =
    modGlb (setF st Reg.glbUpdateStat Fld.glbUpdateStat_RESULT 0) (fun g => { g with
      update := some (mask, st.regs.filter (fun p => groupTaken st mask p.1) ++ rcpDefaults st mask) }) :=
  if_neg (by simp [hboot, hfree])

theorem glbUpdateTake_of_refused (h : booted st = false ∨ st.glb.update ≠ none) :
    glbUpdateTake mask st = setF st Reg.glbUpdateStat Fld.glbUpdateStat_RESULT 1 :=
  if_pos (by rcases h with h | h <;> simp [h, Option.isSome_iff_ne_none])

theorem exec_updateApply_of_none (h : st.glb.update = none ∨ st.glb.halted = true) : exec .updateApply st = .next st := by
  by_cases hhalt : st.glb.halted = true
  · exact congrArg Host.Outcome.next (if_pos hhalt)
  · refine congrArg Host.Outcome.next ((if_neg hhalt).trans ?_)
    rw [updateApply, h.resolve_right hhalt]

theorem exec_updateApply_of_some {taken : NMap Word} (h : st.glb.update = some (mask, taken)) (hrun : st.glb.halted = false) :
    exec .updateApply st = .next
      (let st1 := slices4.foldl (fun st s => if bitW mask (4 + s.val) then ports8.foldl (fun st k => keepHeadroom st s k) st else st)
        (modGlb st (fun g => { g with update := none }))
       let st2 := taken.foldl (fun st p => applyReg st taken p.1 p.2) st1
       afterUpdate st1 mask
        (if bitW mask 3 && !incPairOk st1 taken then raise st2 { block := 12, index := 1 } else st2)) := by
  refine congrArg Host.Outcome.next ((if_neg (by simp [hrun])).trans ?_)
  rw [updateApply, h]

theorem rdA_wrA_self (st : State) (a : Nat) (w : Word) : rdA (wrA st a w) a = w := by simp [rdA]

theorem rdA_wrA_ne (st : State) (a b : Nat) (w : Word) (h : b ≠ a) : rdA (wrA st a w) b = rdA st b := by
  simp [rdA, NMap.get?_put_ne _ _ _ _ h, regDefault]

/-- A register without a rule of its own takes the value, and no other applied value changes. -/
theorem rdA_applyReg (st : State) (taken : NMap Word) (a : Nat) (v : Word) (hns : a ≠ Reg.tsuIncNs) (hfrac : a ≠ Reg.tsuIncFrac)
    (hsub : a ≠ Reg.pmuBwSub) (hcfg : a ≠ Reg.pmuBwCfg) (hrcp : rcpOf a = none) :
    rdA (applyReg st taken a v) a = v ∧ ∀ b, b ≠ a → rdA (applyReg st taken a v) b = rdA st b := by
  rw [applyReg, if_neg (by simp [hns, hfrac]), if_neg hsub, if_neg hcfg, hrcp]
  split
  case h_1 h => exact absurd h (by simp)
  case h_2 s i _ _ =>
    split
    case isTrue hsame => exact ⟨hsame, fun _ _ => rfl⟩
    case isFalse => exact ⟨rdA_wrA_self st a v, fun b hb => rdA_wrA_ne st a b v hb⟩
  case h_3 => exact ⟨rdA_wrA_self st a v, fun b hb => rdA_wrA_ne st a b v hb⟩

end Update

/-- Settles O54: writes by function, bytes and address, then GLB_UPDATE and its tick. -/
theorem registersAreWrittenAndUpdatedTogether : Obligations.RegistersAreWrittenAndUpdatedTogether := by
  intro st
  refine ⟨fun a v r => exec_registerWrite_of_plain, fun a v => exec_registerWrite_of_no_counters, fun fn a be v hbe => ?bytes,
    fun fn a v => exec_registerWrite_of_unaligned, fun a v => exec_registerWrite_of_beyond,
    fun fn a v => exec_registerWrite_of_no_function, fun mask honce => ?update, exec_updateApply_of_none,
    fun mask taken => exec_updateApply_of_some, rdA_applyReg st⟩
  case bytes =>
    rw [exec_registerWrite_of_bytes hbe]
    exact ⟨fun hrun => congrArg _ (if_neg (by simp [hrun])), fun hhalt => congrArg _ (if_pos hhalt)⟩
  case update =>
    rw [exec_glbUpdate_of_once honce]
    exact ⟨fun hboot hfree => congrArg _ (glbUpdateTake_of_free hboot hfree), fun h => congrArg _ (glbUpdateTake_of_refused h)⟩

end Sys2Proof.Machine
end

section
/-!
PROOFS. Event rings as software drives them, MSI-X moderation, resets of the PF, and the PCI Express link (18 R655-R658, R661, 21 R722),
and O55 put together from them.
-/
namespace Sys2Proof.Machine

/-! ### Event rings (18 R655, R656) -/

section EventRings
variable {st : State} {j : Fin 4}

theorem rings_modEvt (st : State) (j : Fin 4) (f : EvtRing → EvtRing) : (modEvt st j f).rings[j] = f st.rings[j] := by
  simp [modEvt, upd]

/-- HIF_EVT_CFG without its EN. -/
def evtKeep (v : Word) : Word :=
  word [(Fld.hifEvtCfg_SIZE_LOG2, getF v Fld.hifEvtCfg_SIZE_LOG2), (Fld.hifEvtCfg_MOD_US, getF v Fld.hifEvtCfg_MOD_US)]

/-- An event ring that starts: empty, at entry 0. -/
def evtStarted (st : State) (j : Fin 4) (v : Word) : State :=
  modEvt (wr st (Reg.hifEvtCfg j) (putF (evtKeep v) Fld.hifEvtCfg_EN 1)) j (fun r =>
    { r with en := true, run := true, head := 0, tail := 0, phase := true, held := false })

theorem exec_evtRingEnable_of_once {v : Word} (honce : atOnce st (Reg.hifEvtCfg j) = true) :
    exec (.evtRingEnable j v) st = .next (evtCfgWrite j v st) :=
  congrArg Host.Outcome.next (viaPF_atOnce st _ v _ honce)

section Cfg
variable {v : Word}

theorem evtCfgWrite_of_off (h : getF v Fld.hifEvtCfg_EN = 0) : evtCfgWrite j v st =
    modEvt (wr st (Reg.hifEvtCfg j) (evtKeep v)) j (fun r => { r with en := false, run := false }) := if_pos h

theorem evtCfgWrite_of_enabled (h : getF v Fld.hifEvtCfg_EN ≠ 0) (hen : (st.rings[j]).en = true) :
    evtCfgWrite j v st = wr st (Reg.hifEvtCfg j) (putF (evtKeep v) Fld.hifEvtCfg_EN 1) := (if_neg h).trans (if_pos hen)

theorem evtCfgWrite_of_refused (h : getF v Fld.hifEvtCfg_EN ≠ 0) (hen : (st.rings[j]).en = false)
    (hbad : (st.rings[j]).run = true ∨ getF v Fld.hifEvtCfg_SIZE_LOG2 < 6 ∨ 16 < getF v Fld.hifEvtCfg_SIZE_LOG2) :
    evtCfgWrite j v st = wr st (Reg.hifEvtCfg j) (evtKeep v) := by
  refine (if_neg h).trans ((if_neg (Bool.eq_false_iff.mp hen)).trans (if_pos ?_))
  simp only [Bool.or_eq_true, decide_eq_true_eq, or_assoc]
  exact hbad

theorem evtCfgWrite_of_start (h : getF v Fld.hifEvtCfg_EN ≠ 0) (hen : (st.rings[j]).en = false) (hrun : (st.rings[j]).run = false)
    (hlo : 6 ≤ getF v Fld.hifEvtCfg_SIZE_LOG2) (hhi : getF v Fld.hifEvtCfg_SIZE_LOG2 ≤ 16) :
    evtCfgWrite j v st = evtRecover (evtStarted st j v) j := by
  refine (if_neg h).trans ((if_neg (Bool.eq_false_iff.mp hen)).trans (if_neg ?_))
  simp only [Bool.or_eq_true, decide_eq_true_eq, not_or]
  exact ⟨⟨Bool.eq_false_iff.mp hrun, Nat.not_lt.mpr hlo⟩, Nat.not_lt.mpr hhi⟩

/-- The size that a start has written. -/
theorem evtSize_evtStarted (st : State) (j : Fin 4) (v : Word) : evtSize (evtStarted st j v) j = 2 ^ getF v Fld.hifEvtCfg_SIZE_LOG2 := by
  have hfld : fld (evtStarted st j v) (Reg.hifEvtCfg j) Fld.hifEvtCfg_SIZE_LOG2 =
      getF (putF (evtKeep v) Fld.hifEvtCfg_EN 1) Fld.hifEvtCfg_SIZE_LOG2 := congrArg (getF · _) (rd_wr_self st _ _)
  rw [evtSize, hfld, evtKeep]
  simp (disch := decide) only [word, List.foldl_cons, List.foldl_nil, getF_putF_self, getF_putF_ne]
  rw [Nat.mod_eq_of_lt (getF_lt v _)]

theorem two_le_evtFree_evtStarted (hlo : 6 ≤ getF v Fld.hifEvtCfg_SIZE_LOG2) : 2 ≤ evtFree (evtStarted st j v) j := by
  have hsize : 2 ^ 6 ≤ 2 ^ getF v Fld.hifEvtCfg_SIZE_LOG2 := Nat.pow_le_pow_right (by decide) hlo
  rw [evtFree, evtSize_evtStarted, evtStarted, rings_modEvt]
  show 2 ≤ (0 + 2 * 2 ^ getF v Fld.hifEvtCfg_SIZE_LOG2 - 0 - 1) % 2 ^ getF v Fld.hifEvtCfg_SIZE_LOG2
  generalize 2 ^ getF v Fld.hifEvtCfg_SIZE_LOG2 = n at hsize
  have hmod : (0 + 2 * n - 0 - 1) % n = n - 1 := by
    rw [show 0 + 2 * n - 0 - 1 = (n - 1) + n by omega, Nat.add_mod_right, Nat.mod_eq_of_lt (by omega)]
  omega

theorem evtStarted_ring (st : State) (j : Fin 4) (v : Word) : (evtStarted st j v).rings[j] =
    { st.rings[j] with en := true, run := true, head := 0, tail := 0, phase := true, held := false } := rings_modEvt ..

end Cfg

theorem evtRecover_of_due (hen : (st.rings[j]).en = true) (hover : (st.rings[j]).overflow = true) (hfree : 2 ≤ evtFree st j) :
    evtRecover st j = modEvt (evtPut st j { block := 3, index := 0, ps := [(st.rings[j]).lostSince] }) j
      (fun r => { r with overflow := false, lostSince := 0 }) :=
  if_pos (by rw [hen, hover]; simp [hfree])

theorem evtRecover_of_none (h : (st.rings[j]).overflow = false ∨ evtFree st j < 2) : evtRecover st j = st := by
  refine if_neg ?_
  rcases h with h | h
  · rw [h, Bool.and_false]
    simp
  · simp [Nat.not_le.mpr h]

/-- An interrupt leaves the place in the ring. -/
theorem fireEvt_tail (st : State) (j : Fin 4) : ((fireEvt st j).rings[j]).tail = (st.rings[j]).tail := by
  unfold fireEvt
  dsimp only
  split <;> simp [emit, upd]

theorem evtPut_tail (st : State) (j : Fin 4) (e : Event) :
    ((evtPut st j e).rings[j]).tail = BitVec.ofNat 16 (((st.rings[j]).tail.toNat + 1) % evtSize st j) := by
  unfold evtPut
  dsimp only
  rw [fireEvt_tail]
  simp [upd, dma, emit]
  rfl

/-- A ring that starts after lost events reports them at entry 0. -/
theorem evtRecover_evtStarted {v : Word} {t : State} (hover : (st.rings[j]).overflow = true)
    (hlo : 6 ≤ getF v Fld.hifEvtCfg_SIZE_LOG2) (ht : t = evtRecover (evtStarted st j v) j) :
    t = { evtPut (evtStarted st j v) j { block := 3, index := 0, ps := [(st.rings[j]).lostSince] } with rings := t.rings } ∧
      (t.rings[j]).overflow = false ∧ (t.rings[j]).lostSince = 0 ∧ (t.rings[j]).tail = 1 := by
  have hring := evtStarted_ring st j v
  have hsize : 2 ^ 6 ≤ 2 ^ getF v Fld.hifEvtCfg_SIZE_LOG2 := Nat.pow_le_pow_right (by decide) hlo
  rw [evtRecover_of_due (by rw [hring]) (by rw [hring]; exact hover) (two_le_evtFree_evtStarted hlo)] at ht
  subst ht
  refine ⟨?_, by rw [rings_modEvt], by rw [rings_modEvt], ?_⟩
  · rw [hring]
    rfl
  · rw [rings_modEvt]
    refine (evtPut_tail _ _ _).trans ?_
    rw [evtSize_evtStarted, hring]
    show BitVec.ofNat 16 ((0 + 1) % 2 ^ getF v Fld.hifEvtCfg_SIZE_LOG2) = 1
    rw [Nat.mod_eq_of_lt (by omega)]
    rfl

theorem exec_evtHeadWrite_of_once {h : BitVec 16} (honce : atOnce st (Reg.hifEvtHead j) = true) :
    exec (.evtHeadWrite j h) st = .next (evtRecover (modEvt st j (fun r => { r with head := h })) j) := by
  refine congrArg Host.Outcome.next ((viaPF_atOnce st _ _ _ honce).trans ?_)
  have hval : (h.setWidth 32).setWidth 16 = h := by simp
  rw [evtHeadWrite, hval]

/-! ### MSI-X moderation (18 R657) -/

theorem exec_msixModerationEnd_event (st : State) (i : InstId) (j : Fin 4) :
    exec (.msixModerationEnd true i (j.castLE (by omega))) st =
      .next (if (st.rings[j]).held && decide ((st.rings[j]).nextFire ≤ elNs st) then fireEvt st j else st) := by
  have hj : Fin.ofNat 4 (j.castLE (by omega) : Fin 16).val = j := by revert j; decide
  show execMsixModerationEnd true i (j.castLE (by omega)) st = _
  rw [execMsixModerationEnd, if_pos rfl]
  simp only [hj]

theorem exec_msixModerationEnd_ring (st : State) (i : InstId) (r : Fin 16) : exec (.msixModerationEnd false i r) st =
    .next (if (ringOf st i r).held && decide ((ringOf st i r).nextFire ≤ elNs st) then fireRing st i r else st) :=
  congrArg Host.Outcome.next (if_neg Bool.false_ne_true)

end EventRings

/-! ### Resets of the PF, and the link (18 R658, R661, 21 R722) -/

section Pcie
variable {st : State}

theorem exec_pfFlr_of_running (hrun : st.glb.halted = false) : exec .pfFlr st = .next (pfFlr st) :=
  congrArg Host.Outcome.next (if_neg (by simp [hrun]))

/-- An instance with its rings disabled. -/
def ringsOff (x : InstSt) : InstSt :=
  { x with rings := x.rings.map (fun r => { r with en := false, run := false, hand := none, held := false, err := false }) }

theorem pfFlr_rings (st : State) :
    (pfFlr st).rings = st.rings.map (fun r => { r with en := false, run := false, held := false }) := rfl

theorem pfFlr_insts (st : State) : (pfFlr st).insts = (modInst st 0 ringsOff).insts := rfl

theorem inst_modInst_self (st : State) (i : InstId) (f : InstSt → InstSt) : inst (modInst st i f) i = f (inst st i) := by
  simp [inst, modInst]

theorem inst_modInst_ne (st : State) (i k : InstId) (f : InstSt → InstSt) (h : k ≠ i) : inst (modInst st i f) k = inst st k :=
  NMap.getD_put_ne _ _ _ _ _ (fun hk => h (Fin.val_injective hk))

theorem inst_of_insts {t u : State} {i : InstId} (h : t.insts = u.insts) : inst t i = inst u i := by rw [inst, h, inst]

/-- What a reset of the PF leaves alone, and every ring that it disables. -/
theorem pfFlr_leaves (st : State) : (pfFlr st).saf = st.saf ∧ (pfFlr st).slices = st.slices ∧ (pfFlr st).mram = st.mram ∧
    (pfFlr st).pcie = st.pcie ∧ (∀ r ∈ (pfFlr st).rings.toList, r.en = false ∧ r.run = false) ∧
    (∀ r ∈ (inst (pfFlr st) 0).rings.toList, r.en = false ∧ r.run = false ∧ r.hand = none) ∧
    ∀ i : InstId, i ≠ 0 → inst (pfFlr st) i = inst st i := by
  refine ⟨rfl, rfl, rfl, rfl, ?_, ?_, fun i hi => ?_⟩
  · rw [pfFlr_rings]
    simp
  · rw [inst_of_insts (pfFlr_insts st), inst_modInst_self]
    simp [ringsOff]
  · rw [inst_of_insts (pfFlr_insts st), inst_modInst_ne st 0 i _ hi]

end Pcie

/-- Settles O55: EN, HEAD and the ends of spacing by the ring's state; a reset of the PF by what it leaves. -/
theorem eventRingsDeliverAndRecover : Obligations.EventRingsDeliverAndRecover := by
  intro st j
  refine ⟨fun v honce => ?cfg, fun h honce => ?head, fun i => ?event, fun i r => ?ring, ?resets, fun speed width => ⟨rfl, rfl⟩⟩
  case cfg =>
    rw [exec_evtRingEnable_of_once honce]
    refine ⟨fun h => congrArg _ (evtCfgWrite_of_off h), fun h hen => congrArg _ (evtCfgWrite_of_enabled h hen),
      fun h hen hrun => congrArg _ (evtCfgWrite_of_refused h hen (Or.inl hrun)), fun h hen hrun => ⟨fun hlo hhi => ?_, fun hsize =>
        congrArg _ (evtCfgWrite_of_refused h hen (Or.inr hsize))⟩⟩
    rw [evtCfgWrite_of_start h hen hrun hlo hhi]
    exact ⟨fun hover => congrArg _ (evtRecover_of_none (Or.inl (by rw [evtStarted_ring]; exact hover))),
      fun hover => ⟨_, rfl, evtRecover_evtStarted hover hlo rfl⟩⟩
  case head =>
    rw [exec_evtHeadWrite_of_once honce]
    have hring := rings_modEvt st j (fun r => { r with head := h })
    refine ⟨fun hover => congrArg _ (evtRecover_of_none (Or.inl (by rw [hring]; exact hover))), fun hover hen hfree => ?_,
      fun hfree => congrArg _ (evtRecover_of_none (Or.inr hfree))⟩
    rw [evtRecover_of_due (by rw [hring]; exact hen) (by rw [hring]; exact hover) hfree, hring]
  case event =>
    rw [exec_msixModerationEnd_event]
    refine ⟨fun hgo => congrArg _ (if_pos ?_), fun hgo => congrArg _ (if_neg ?_)⟩
    · simpa only [Bool.and_eq_true, decide_eq_true_eq] using hgo
    · simpa only [Bool.and_eq_true, decide_eq_true_eq] using hgo
  case ring =>
    rw [exec_msixModerationEnd_ring]
    refine ⟨fun hgo => congrArg _ (if_pos ?_), fun hgo => congrArg _ (if_neg ?_)⟩
    · simpa only [Bool.and_eq_true, decide_eq_true_eq] using hgo
    · simpa only [Bool.and_eq_true, decide_eq_true_eq] using hgo
  case resets =>
    refine ⟨fun hrun => ⟨⟨pfFlr st, exec_pfFlr_of_running hrun, pfFlr_leaves st⟩, congrArg Host.Outcome.next (if_neg (by simp [hrun]))⟩,
      fun hhalt => ⟨congrArg Host.Outcome.next (if_pos hhalt), congrArg Host.Outcome.next (if_pos hhalt)⟩⟩

end Sys2Proof.Machine
end

section
/-!
PROOFS. Statistics (19): snapshots and counters read whole (R670-R678, R685, R686), bandwidth windows (R679, R680) and performance
counters (R682, R688), and O57, O58 and O59 put together from them.
-/
namespace Sys2Proof.Machine

/-! ### Snapshots (19 R670-R674) -/

section Snapshots
variable {st : State}

theorem exec_snapshot_of_due (h : flagA st Reg.pmuCfg Fld.pmuCfg_SAMPLE_EN = true ∧ st.pmu.nextAt ≤ elNs st ∧ st.pmu.taking = none) :
    exec .snapshot st = .next (takeSnap (modPmu st (fun p => { p with nextAt := (elNs st / sampleNs st + 1) * sampleNs st }))) := by
  obtain ⟨hen, hdue, hfree⟩ := h
  exact congrArg Host.Outcome.next (if_pos (by simp [hen, hdue, hfree]))

theorem exec_snapshot_of_none (h : ¬ (flagA st Reg.pmuCfg Fld.pmuCfg_SAMPLE_EN = true ∧ st.pmu.nextAt ≤ elNs st ∧ st.pmu.taking = none)) :
    exec .snapshot st = .next st := by
  refine congrArg Host.Outcome.next (if_neg ?_)
  simpa only [Bool.and_eq_true, decide_eq_true_eq, Option.isNone_iff_eq_none, and_assoc] using h

theorem exec_snap_of_once (honce : atOnce st Reg.pmuSnapCmd = true) : exec .snap st = .next (snapStrobe st) :=
  congrArg Host.Outcome.next (viaPF_atOnce st _ _ _ honce)

theorem snapStrobe_of_free (hboot : booted st = true) (hfree : st.pmu.taking = none) :
    snapStrobe st = takeSnap (setF st Reg.pmuSnapCmd Fld.pmuSnapCmd_RESULT 0) := if_neg (by simp [hboot, hfree])

theorem snapStrobe_of_refused (h : booted st = false ∨ st.pmu.taking ≠ none) :
    snapStrobe st = setF st Reg.pmuSnapCmd Fld.pmuSnapCmd_RESULT 1 :=
  if_pos (by rcases h with h | h <;> simp [h, Option.isSome_iff_ne_none])

theorem exec_snapshotVisible_of_none (h : st.pmu.taking = none) : exec .snapshotVisible st = .next st := by
  show execSnapshotVisible st = _
  rw [execSnapshotVisible, h]

/-- The snapshot `x` is visible. -/
def snapShown (st : State) (x : SnapSt) : State :=
  wr (wr (wr (count (modPmu st (fun p => { p with visible := x.vals, taking := none })) Reg.pmuSnapSeq) Reg.pmuSnapNs x.ns)
    Reg.pmuSnapElLo (x.el.setWidth 32)) Reg.pmuSnapElHi ((x.el >>> 32).setWidth 32)

theorem exec_snapshotVisible_of_some {x : SnapSt} (h : st.pmu.taking = some x) : exec .snapshotVisible st = .next (snapShown st x) := by
  show execSnapshotVisible st = _
  rw [execSnapshotVisible, h]
  rfl

theorem snapShown_registers (st : State) (x : SnapSt) : rd (snapShown st x) Reg.pmuSnapSeq = rd st Reg.pmuSnapSeq + 1 ∧
    rd (snapShown st x) Reg.pmuSnapNs = x.ns ∧ rd (snapShown st x) Reg.pmuSnapElLo = x.el.setWidth 32 ∧
    rd (snapShown st x) Reg.pmuSnapElHi = (x.el >>> 32).setWidth 32 := by
  refine ⟨?_, ?_, ?_, rd_wr_self _ _ _⟩
  · rw [snapShown, rd_wr_ne _ _ _ _ (by decide), rd_wr_ne _ _ _ _ (by decide), rd_wr_ne _ _ _ _ (by decide)]
    exact rd_wr_self _ _ _
  · rw [snapShown, rd_wr_ne _ _ _ _ (by decide), rd_wr_ne _ _ _ _ (by decide), rd_wr_self]
  · rw [snapShown, rd_wr_ne _ _ _ _ (by decide), rd_wr_self]

end Snapshots

/-! ### Secure-channel and port counters (19 R675-R678) -/

section Counters
variable {st : State} {kind : Fin 4} {s : SliceId} {key : Nat}

theorem exec_counterFlush_of_small (h : ((ctrsOfKind (sl st s) kind).getD key {}).chip.toNat < 2 ^ 31) :
    exec (.counterFlush kind s key) st = .next st := congrArg Host.Outcome.next (if_pos h)

theorem exec_counterFlush_of_large (h : 2 ^ 31 ≤ ((ctrsOfKind (sl st s) kind).getD key {}).chip.toNat) :
    exec (.counterFlush kind s key) st = .next
      (let new := flushCtr (ctrsOfKind (sl st s) kind) key
       meeWrite 2 (modSl st s (fun x => setCtrs x kind new)) (statAddr kind s key) (leBytes 8 (new.getD key {}).back.toNat)) :=
  congrArg Host.Outcome.next (if_neg (Nat.not_lt.mpr h))

/-- A flush moves the on-chip part: the value stays, and so does every other counter. -/
theorem flushCtr_of_large {m : NMap Ctr} (h : 2 ^ 31 ≤ (m.getD key {}).chip.toNat) : ctrVal (flushCtr m key) key = ctrVal m key ∧
    ((flushCtr m key).getD key {}).chip = 0 ∧ ∀ k, k ≠ key → (flushCtr m key).getD k {} = m.getD k {} := by
  have hflush : flushCtr m key = m.put key { chip := 0, back := (m.getD key {}).back + (m.getD key {}).chip.setWidth 64 } := if_pos h
  rw [hflush]
  refine ⟨?_, by rw [NMap.getD_put_self], fun k hk => NMap.getD_put_ne _ _ _ _ _ hk⟩
  rw [ctrVal, NMap.getD_put_self, ctrVal]
  exact BitVec.add_zero _

/-- What the fields of a word of PMU_SC_CMD hold. -/
theorem scWord_fields (kind : Fin 4) (s : SliceId) (ch : ChIx) (an : An) : getF (scWord kind s ch an) Fld.pmuScCmd_OP = 1 ∧
    scKind (scWord kind s ch an) = kind ∧ scSlice (scWord kind s ch an) = s ∧ scCh (scWord kind s ch an) = ch ∧
    scAn (scWord kind s ch an) = an := by
  simp (disch := decide) only [scKind, scSlice, scCh, scAn, scWord, word, List.foldl_cons, List.foldl_nil, getF_putF_self, getF_putF_ne]
  refine ⟨rfl, by revert kind; decide, by revert s; decide, ?_, by revert an; decide⟩
  exact Fin.ext ((congrArg (· % 16384) (Nat.mod_eq_of_lt ch.isLt)).trans (Nat.mod_eq_of_lt ch.isLt))

section Read
variable {ch : ChIx} {an : An}

theorem exec_scRead_of_open (hopen : cmdOpen st Reg.pmuScCmd = true) : exec (.scRead kind s ch an) st = .next
    (let p := pickCode st [(scBad st kind s ch, 2), (!st.mee.ready, 4)]
     cmdDone (if p.1 = 0 then scWrite p.2 (Reg.pmuScData 0) (scVals p.2 kind s ch an) else p.2) Reg.pmuScCmd Fld.pmuScCmd_RESULT
       Fld.pmuScCmd_OP (scWord kind s ch an) p.1) := by
  obtain ⟨hop, hkind, hs, hch, han⟩ := scWord_fields kind s ch an
  refine congrArg Host.Outcome.next ((cmdPF_open st _ _ _ _ hopen).trans ((if_pos hop).trans ?_))
  rw [hkind, hs, hch, han]

theorem exec_scRead_of_good (hopen : cmdOpen st Reg.pmuScCmd = true) (hgood : scBad st kind s ch = false) (hmem : st.mee.ready = true) :
    exec (.scRead kind s ch an) st = .next (cmdDone (scWrite st (Reg.pmuScData 0) (scVals st kind s ch an)) Reg.pmuScCmd
      Fld.pmuScCmd_RESULT Fld.pmuScCmd_OP (scWord kind s ch an) 0) := by
  rw [exec_scRead_of_open hopen, pickCode_of_no_cause st (by simp [hgood, hmem])]
  rfl

theorem exec_scRead_of_cause {code : Nat} (hopen : cmdOpen st Reg.pmuScCmd = true) (hcode : code ≠ 0)
    (hcause : [(scBad st kind s ch, 2), (!st.mee.ready, 4)].filter (fun c => c.1) = [(true, code)]) :
    exec (.scRead kind s ch an) st =
      .next (cmdDone st Reg.pmuScCmd Fld.pmuScCmd_RESULT Fld.pmuScCmd_OP (scWord kind s ch an) code) := by
  rw [exec_scRead_of_open hopen, pickCode_of_one_cause st hcause]
  dsimp only
  rw [if_neg hcode]

/-- The causes for which a read of an instance's own counters is refused. -/
def vfScCauses (st : State) (i : InstId) (kind : Fin 4) (s : SliceId) (ch : ChIx) : List (Bool × Nat) :=
  let port := decide (2 ≤ kind.val)
  let c := chOf st s ch
  [(port, 2), (!port && scBad st kind s ch, 2), (!port && c.valid && c.inst != i, 3), (!st.mee.ready, 4)]

section Vf
variable {i : InstId} (hvf : hasVf st i = true) (hrun : st.glb.halted = false) (hboot : booted st = true)
include hvf hrun hboot

theorem exec_vfScRead_of_vf : exec (.vfScRead i kind s ch an) st = .next
    (let p := pickCode st (vfScCauses st i kind s ch)
     cmdDone (if p.1 = 0 then scWrite p.2 (Reg.vfScData (vfIx i) 0) (scVals p.2 kind s ch an) else p.2) (Reg.vfScCmd (vfIx i))
       Fld.pmuScCmd_RESULT Fld.pmuScCmd_OP (scWord kind s ch an) p.1) := by
  obtain ⟨hop, hkind, hs, hch, han⟩ := scWord_fields kind s ch an
  refine congrArg Host.Outcome.next ((if_neg (by simp [hvf, hrun])).trans ((if_neg (by simp [hboot])).trans ((if_pos hop).trans ?_)))
  rw [hkind, hs, hch, han]
  rfl

theorem exec_vfScRead_of_good (hgood : ∀ c ∈ vfScCauses st i kind s ch, c.1 = false) : exec (.vfScRead i kind s ch an) st =
    .next (cmdDone (scWrite st (Reg.vfScData (vfIx i) 0) (scVals st kind s ch an)) (Reg.vfScCmd (vfIx i)) Fld.pmuScCmd_RESULT
      Fld.pmuScCmd_OP (scWord kind s ch an) 0) := by
  rw [exec_vfScRead_of_vf hvf hrun hboot, pickCode_of_no_cause st hgood]
  rfl

theorem exec_vfScRead_of_cause {code : Nat} (hcode : code ≠ 0)
    (hcause : (vfScCauses st i kind s ch).filter (fun c => c.1) = [(true, code)]) : exec (.vfScRead i kind s ch an) st =
      .next (cmdDone st (Reg.vfScCmd (vfIx i)) Fld.pmuScCmd_RESULT Fld.pmuScCmd_OP (scWord kind s ch an) code) := by
  rw [exec_vfScRead_of_vf hvf hrun hboot, pickCode_of_one_cause st hcause]
  dsimp only
  rw [if_neg hcode]

end Vf

/-- The scope of a channel is good where the channel is VALID. -/
theorem valid_of_scBad (hkind : kind.val < 2) (hgood : scBad st kind s ch = false) : (chOf st s ch).valid = true := by
  simp only [scBad, Bool.or_eq_false_iff] at hgood
  obtain ⟨-, hscope⟩ := hgood
  match kind, hkind with
  | 0, _ => simpa using hscope
  | 1, _ => simpa using hscope

theorem scBad_of_not_valid (hkind : kind.val < 2) (h : (chOf st s ch).valid = false) : scBad st kind s ch = true := by
  by_contra hgood
  rw [valid_of_scBad hkind (Bool.eq_false_iff.mpr hgood)] at h
  exact Bool.false_ne_true h.symm

end Read

theorem exec_vfScRead_of_no_vf {i : InstId} {ch : ChIx} {an : An} (h : hasVf st i = false) : exec (.vfScRead i kind s ch an) st = .next st :=
  congrArg Host.Outcome.next (if_pos (by simp [h]))

end Counters

/-- Settles O57: snapshots by sampling and strobe, a flush by its on-chip part, and the reads by what refuses them. -/
theorem statisticsAreReadAsOneInstant : Obligations.StatisticsAreReadAsOneInstant := by
  intro st
  refine ⟨⟨exec_snapshot_of_due, exec_snapshot_of_none⟩, fun honce => ?strobe, exec_snapshotVisible_of_none,
    fun x h => ⟨snapShown st x, exec_snapshotVisible_of_some h, rfl, snapShown_registers st x⟩,
    fun kind s key => ⟨exec_counterFlush_of_small, fun hlarge => ⟨exec_counterFlush_of_large hlarge, flushCtr_of_large hlarge⟩⟩,
    fun hopen kind s ch an => ⟨exec_scRead_of_good hopen, fun hbad hmem => exec_scRead_of_cause hopen (by decide) (by simp [hbad, hmem]),
      fun hgood hmem => exec_scRead_of_cause hopen (by decide) (by simp [hgood, hmem])⟩,
    fun i hvf hrun hboot hmem kind s ch an => ⟨fun hport => ?port, fun hkind hvalid => ?invalid, fun hkind hgood hown => ?own,
      fun hkind hgood hother => ?other⟩,
    fun i n => ⟨fun hvf => congrArg Host.Outcome.next (if_pos hvf),
      fun hnone => ⟨congrArg Host.Outcome.next (if_neg (by simp [hnone])), fun _ _ _ _ => exec_vfScRead_of_no_vf hnone⟩⟩⟩
  case strobe =>
    rw [exec_snap_of_once honce]
    exact ⟨fun hboot hfree => congrArg _ (snapStrobe_of_free hboot hfree), fun h => congrArg _ (snapStrobe_of_refused h)⟩
  case port => exact exec_vfScRead_of_cause hvf hrun hboot (by decide) (by simp [vfScCauses, hport, hmem])
  case invalid =>
    exact exec_vfScRead_of_cause hvf hrun hboot (by decide)
      (by simp [vfScCauses, Nat.not_le.mpr hkind, scBad_of_not_valid hkind hvalid, hvalid, hmem])
  case own => exact exec_vfScRead_of_good hvf hrun hboot (by simp [vfScCauses, Nat.not_le.mpr hkind, hgood, hown, hmem])
  case other =>
    exact exec_vfScRead_of_cause hvf hrun hboot (by decide)
      (by simp [vfScCauses, Nat.not_le.mpr hkind, hgood, valid_of_scBad hkind hgood, hother, hmem])

/-! ### Performance counters (19 R682, R688) -/

section Strobes
variable {st : State} {s : SliceId}

/-- A word with two strobes acts on none. -/
theorem pcStrobe_of_two {w : Word} (h : (bitW w 31 = true ∧ bitW w 30 = true) ∨ (bitW w 31 = true ∧ bitW w 29 = true) ∨
    (bitW w 30 = true ∧ bitW w 29 = true)) : pcStrobe s w st = st := by
  unfold pcStrobe
  split
  · rfl
  · split
    case h_1 h31 h30 h29 => simp [h31, h30, h29] at h
    case h_2 h31 h30 h29 => simp [h31, h30, h29] at h
    case h_3 h31 h30 h29 => simp [h31, h30, h29] at h
    case h_4 => rfl

theorem pcStrobe_of_no_counters {w : Word} (h : st.fuses.is4832 = false) : pcStrobe s w st = st := if_pos (by simp [h])

theorem pcStrobe_of_start (h : st.fuses.is4832 = true) : pcStrobe s (pcWord Fld.pmuPcCtl_START Fld.pmuPcCtl_STOP false) st =
    modPc st s (fun c => { c with run := true }) := if_neg (by simp [h])

theorem pcStrobe_of_stop (h : st.fuses.is4832 = true) : pcStrobe s (pcWord Fld.pmuPcCtl_STOP Fld.pmuPcCtl_CLEAR false) st =
    modPc st s (fun c => { c with run := false }) := if_neg (by simp [h])

theorem pcStrobe_of_clear (h : st.fuses.is4832 = true) : pcStrobe s (pcWord Fld.pmuPcCtl_CLEAR Fld.pmuPcCtl_START false) st =
    modPc st s (fun c => { c with cyc := 0, cnt := Vector.replicate 8 0, ovf := 0 }) := if_neg (by simp [h])

section Once
variable (honce : atOnce st (Reg.pmuPcCtl s) = true)
include honce

theorem exec_pcStart_of_once (other : Bool) : exec (.pcStart s other) st =
    .next (pcStrobe s (pcWord Fld.pmuPcCtl_START Fld.pmuPcCtl_STOP other) st) :=
  congrArg Host.Outcome.next (viaPF_atOnce st _ _ _ honce)

theorem exec_pcStop_of_once (other : Bool) : exec (.pcStop s other) st =
    .next (pcStrobe s (pcWord Fld.pmuPcCtl_STOP Fld.pmuPcCtl_CLEAR other) st) :=
  congrArg Host.Outcome.next (viaPF_atOnce st _ _ _ honce)

theorem exec_pcClear_of_once (other : Bool) : exec (.pcClear s other) st =
    .next (pcStrobe s (pcWord Fld.pmuPcCtl_CLEAR Fld.pmuPcCtl_START other) st) :=
  congrArg Host.Outcome.next (viaPF_atOnce st _ _ _ honce)

end Once

theorem exec_pcWrap_of_full {i : Fin 8} (hpart : st.fuses.is4832 = true)
    (hfull : (st.pmu.pc[s]).run = true ∧ (st.pmu.pc[s]).cnt[i] = BitVec.allOnes 48) : exec (.pcWrap s i) st = .next (modPc st s (fun c =>
      { c with cnt := c.cnt.set i 0, ovf := c.ovf ||| BitVec.ofNat 8 (2 ^ i.val) })) := by
  refine congrArg Host.Outcome.next (if_pos ?_)
  simp only [Bool.and_eq_true, beq_iff_eq]
  exact ⟨⟨hpart, hfull.1⟩, hfull.2⟩

theorem exec_pcWrap_of_none {i : Fin 8} (h : st.fuses.is4832 = false ∨
    ¬ ((st.pmu.pc[s]).run = true ∧ (st.pmu.pc[s]).cnt[i] = BitVec.allOnes 48)) : exec (.pcWrap s i) st = .next st := by
  refine congrArg Host.Outcome.next (if_neg ?_)
  simp only [Bool.and_eq_true, beq_iff_eq]
  rintro ⟨⟨hpart, hrun⟩, hones⟩
  rcases h with h | h
  · rw [h] at hpart
    exact Bool.false_ne_true hpart
  · exact h ⟨hrun, hones⟩

end Strobes

/-! ### Bandwidth windows (19 R679, R680) -/

section Windows
variable {st : State}

/-- The end of a sub-interval keeps the largest counts. -/
def subEnded (st : State) : State :=
  let sub := elNs st / bwSubNs st * bwSubNs st
  if sub = st.pmu.subStart then st
  else modPmu st (fun p => { p with bw := p.bw.map (fun e => (e.1, bwPeak e.2)), subStart := sub })

theorem subEnded_only (st : State) : ∃ b t, subEnded st = { st with pmu := { st.pmu with bw := b, subStart := t } } := by
  unfold subEnded
  dsimp only
  split
  · exact ⟨st.pmu.bw, st.pmu.subStart, rfl⟩
  · exact ⟨_, _, rfl⟩

/-- Windows that have ended since the one in progress began. -/
def windowsEnded (st : State) : Nat := (elNs st - st.pmu.winStart) / bwWinNs st

theorem bwAdvance_of_off (h : ¬ (flagA st Reg.pmuBwCfg Fld.pmuBwCfg_BW_EN = true ∧ st.pmu.winStart ≤ elNs st)) : bwAdvance st = st := by
  refine if_pos ?_
  simp only [Bool.or_eq_true, Bool.not_eq_true', decide_eq_true_eq]
  rcases not_and_or.mp h with h | h
  · exact Or.inl (Bool.eq_false_iff.mpr h)
  · exact Or.inr (Nat.not_le.mp h)

theorem bwAdvance_of_on (h : flagA st Reg.pmuBwCfg Fld.pmuBwCfg_BW_EN = true ∧ st.pmu.winStart ≤ elNs st) : bwAdvance st =
    if windowsEnded st = 0 then subEnded st
    else modPmu (countN (subEnded st) Reg.pmuBwSeq (windowsEnded st)) (fun p => { p with
      bwLatched := if windowsEnded st = 1 then p.bw.map (fun e => (e.1, bwPeak e.2)) else []
      bw := [], winStart := st.pmu.winStart + windowsEnded st * bwWinNs st }) := by
  obtain ⟨hen, hstart⟩ := h
  have hended : windowsEnded (subEnded st) = windowsEnded st := by
    obtain ⟨b, t, hsub⟩ := subEnded_only st
    rw [hsub]
    rfl
  have hwin : (subEnded st).pmu.winStart + windowsEnded st * bwWinNs (subEnded st) = st.pmu.winStart + windowsEnded st * bwWinNs st := by
    obtain ⟨b, t, hsub⟩ := subEnded_only st
    rw [hsub]
    rfl
  have hdef : bwAdvance st = if windowsEnded (subEnded st) = 0 then subEnded st
      else modPmu (countN (subEnded st) Reg.pmuBwSeq (windowsEnded (subEnded st))) (fun p => { p with
        bwLatched := if windowsEnded (subEnded st) = 1 then p.bw.map (fun e => (e.1, bwPeak e.2)) else []
        bw := [], winStart := (subEnded st).pmu.winStart + windowsEnded (subEnded st) * bwWinNs (subEnded st) }) :=
    if_neg (by simp [hen, Nat.not_lt.mpr hstart])
  rw [hdef, hended, hwin]

end Windows

/-- Settles O58: the strobes by part and word, wraps and reads of a counter, and the end of a window by how many have ended. -/
theorem performanceCountersObeyTheirStrobes : Obligations.PerformanceCountersObeyTheirStrobes := by
  intro st s
  refine ⟨fun hpart honce => ?strobes, fun hpart honce other => ?none, fun i => ⟨exec_pcWrap_of_full, exec_pcWrap_of_none⟩,
    fun hpart => ⟨congrArg Host.Outcome.next (if_neg (by simp [hpart])), fun i => congrArg Host.Outcome.next (if_neg (by simp [hpart]))⟩,
    fun hpart i => congrArg Host.Outcome.next (if_pos (by simp [hpart])),
    fun hoff => congrArg Host.Outcome.next (bwAdvance_of_off hoff), fun hon hn => ?sub, fun hon hn => ?one, fun hon hn => ?more⟩
  case strobes =>
    rw [exec_pcStart_of_once honce, exec_pcStop_of_once honce, exec_pcClear_of_once honce, exec_pcStart_of_once honce,
      exec_pcStop_of_once honce, exec_pcClear_of_once honce]
    exact ⟨congrArg _ (pcStrobe_of_start hpart), congrArg _ (pcStrobe_of_stop hpart), congrArg _ (pcStrobe_of_clear hpart),
      congrArg _ (pcStrobe_of_two (by decide)), congrArg _ (pcStrobe_of_two (by decide)), congrArg _ (pcStrobe_of_two (by decide))⟩
  case none =>
    rw [exec_pcStart_of_once honce, exec_pcStop_of_once honce, exec_pcClear_of_once honce]
    exact ⟨congrArg _ (pcStrobe_of_no_counters hpart), congrArg _ (pcStrobe_of_no_counters hpart),
      congrArg _ (pcStrobe_of_no_counters hpart)⟩
  all_goals refine congrArg Host.Outcome.next ((bwAdvance_of_on hon).trans ?_)
  case sub => exact if_pos hn
  case one =>
    simp only [show windowsEnded st = 1 from hn, Nat.one_ne_zero, if_false, if_true, Nat.one_mul]
    rfl
  case more =>
    have hended : 2 ≤ windowsEnded st := hn
    simp only [if_neg (show ¬ windowsEnded st = 0 by omega), if_neg (show ¬ windowsEnded st = 1 by omega)]
    rfl

/-! ### Two strobes (19 R688) -/

/-- What the register file makes of PMU_PC_CTL. -/
theorem wrKind_pmuPcCtl (s : SliceId) : wrKind (Reg.pmuPcCtl s) = .direct (pcStrobe s) := by
  fin_cases s <;> rfl

/-- Settles O59: both paths reach the strobe, which acts on none. -/
theorem twoStrobesActOnNone : Obligations.TwoStrobesActOnNone := by
  intro st s w h
  have hfsync : mirrorFsync (Reg.pmuPcCtl s) = none := by fin_cases s <;> rfl
  have halign : Reg.pmuPcCtl s % 4 = 0 := by fin_cases s <;> rfl
  have hbar : Reg.pmuPcCtl s < 0x4000000 := by fin_cases s <;> decide
  constructor
  · rw [applyWrite, hfsync, wrKind_pmuPcCtl]
    dsimp only
    rw [pcStrobe_of_two h, ite_self]
  · intro honce
    rw [exec_registerWrite_of_pf halign hbar, pfWrite, wrKind_pmuPcCtl]
    dsimp only
    rw [viaPF_atOnce st _ _ _ honce, pcStrobe_of_two h, ite_self]

end Sys2Proof.Machine
end

section
/-!
PROOFS. Punt and inject rings (18 R654, R662-R667, 13 R509, 11 R447, R448, R458): EN, RING_CTL, descriptors read, copied and resumed, DMA
errors, and O56 put together from them.
-/
namespace Sys2Proof.Machine

section Rings
variable {st : State} {i : InstId} {r : Fin 16}

/-- A change of a ring is what it makes of that ring. -/
theorem modRing_congr {f g : RingSt → RingSt} (h : f (ringOf st i r) = g (ringOf st i r)) : modRing st i r f = modRing st i r g := by
  have hrings : upd (inst st i).rings r f = upd (inst st i).rings r g := congrArg (fun x => (inst st i).rings.set r x) h
  exact congrArg (fun rings => modInst st i (fun _ => { inst st i with rings := rings })) hrings

/-! ### RING_CTL (18 R654, R663, R664) -/

theorem viaFn_of_open {a : Nat} {v : Word} {eff : State → State} (hrun : st.glb.halted = false) (honce : i = 0 → atOnce st a = true) :
    viaFn i a v eff st = eff st := by
  unfold viaFn
  split
  case isTrue hpf => exact viaPF_atOnce st a v eff (honce hpf)
  case isFalse => exact if_neg (by simp [hrun])

section Open
variable (hrings : hasRings st i = true) (hopen : st.glb.halted = false ∧ (i = 0 → atOnce st (Reg.ringCtl r) = true))
include hrings hopen

theorem exec_ringEnable_of_open : exec (.ringEnable i r) st = .next (ringStart i r st) := by
  obtain ⟨hrun, honce⟩ := hopen
  refine congrArg Host.Outcome.next ((viaFn_of_open hrun fun hpf => ?_).trans ?_)
  · rw [ringCtlA, if_pos hpf]
    exact honce hpf
  · rw [ringCtlWrite, if_neg (by simp [hrings]), if_pos (by decide)]

theorem exec_ringDisable_of_open : exec (.ringDisable i r) st = .next (ringStop i r st) := by
  obtain ⟨hrun, honce⟩ := hopen
  refine congrArg Host.Outcome.next ((viaFn_of_open hrun fun hpf => ?_).trans ?_)
  · rw [ringCtlA, if_pos hpf]
    exact honce hpf
  · rw [ringCtlWrite, if_neg (by simp [hrings]), if_neg (by decide)]

end Open

theorem ringStart_of_enabled (h : (ringOf st i r).en = true) : ringStart i r st = st := if_pos h

theorem ringStart_of_running (h : (ringOf st i r).en = false) (hrun : (ringOf st i r).run = true) :
    ringStart i r st = modRing st i r (fun x => { x with result := 1 }) :=
  (if_neg (Bool.eq_false_iff.mp h)).trans (if_pos hrun)

section Stopped
variable (h : (ringOf st i r).en = false) (hrun : (ringOf st i r).run = false)
include h hrun

theorem ringStart_of_good_size (hlo : 6 ≤ ringSizeLog st i r) (hhi : ringSizeLog st i r ≤ 16) : ringStart i r st =
    modRing st i r (fun x => { x with en := true, run := true, result := 0, head := 0, held := false }) :=
  (if_neg (Bool.eq_false_iff.mp h)).trans ((if_neg (Bool.eq_false_iff.mp hrun)).trans
    (if_neg (by simp [ringParamBad, hlo, hhi])))

theorem ringStart_of_bad_size (hsize : ringSizeLog st i r < 6 ∨ 16 < ringSizeLog st i r) : ringStart i r st =
    modRing st i r (fun x => { x with result := 2 }) :=
  (if_neg (Bool.eq_false_iff.mp h)).trans ((if_neg (Bool.eq_false_iff.mp hrun)).trans
    (if_pos (by simpa [ringParamBad] using hsize)))

end Stopped

theorem ringStop_of_free (h : (ringOf st i r).hand = none ∨ ∃ d, (ringOf st i r).hand = some d ∧ d.phase = .held) : ringStop i r st =
    modRing st i r (fun x => { x with en := false, result := 0, err := x.err && i != 0, run := false, hand := none }) := by
  refine modRing_congr ((if_neg ?_).trans rfl)
  rcases h with h | ⟨d, h, hheld⟩
  · simp [handBusy, h]
  · simp [handBusy, h, hheld]

theorem ringStop_of_busy (d : InjHand) (h : (ringOf st i r).hand = some d) (hbusy : d.phase ≠ .held) : ringStop i r st =
    modRing st i r (fun x => { x with en := false, result := 0, err := x.err && i != 0 }) :=
  modRing_congr (if_pos (by simp [handBusy, h, hbusy]))

section None
variable (hnone : hasRings st i = false)
include hnone

theorem viaFn_ringCtlWrite_of_none (a : Nat) (v w : Word) : viaFn i a v (ringCtlWrite i r w) st = st := by
  have hpf : i ≠ 0 := by
    rintro rfl
    simp [hasRings] at hnone
  refine (if_neg hpf).trans ?_
  have hcore : ringCtlWrite i r w st = st := if_pos (by simp [hnone])
  rw [hcore, ite_self]

theorem exec_ringEnable_of_none : exec (.ringEnable i r) st = .next st :=
  congrArg Host.Outcome.next (viaFn_ringCtlWrite_of_none hnone _ _ _)

theorem exec_ringDisable_of_none : exec (.ringDisable i r) st = .next st :=
  congrArg Host.Outcome.next (viaFn_ringCtlWrite_of_none hnone _ _ _)

theorem exec_ringCtlRead_of_none : exec (.ringCtlRead i r) st = .next st := congrArg Host.Outcome.next (if_pos (by simp [hnone]))

theorem exec_dmaErr_of_none : exec (.dmaErr i r) st = .next st := congrArg Host.Outcome.next (if_pos (by simp [hnone]))

end None

theorem exec_ringStopped_of_free (hoff : (ringOf st i r).en = false) (hhand : (ringOf st i r).hand = none) :
    exec (.ringStopped i r) st = .next (modRing st i r (fun x => { x with run := false })) :=
  congrArg Host.Outcome.next (if_pos (by simp [hoff, hhand]))

theorem exec_ringStopped_of_busy (h : (ringOf st i r).en = true ∨ (ringOf st i r).hand ≠ none) : exec (.ringStopped i r) st = .next st :=
  congrArg Host.Outcome.next (if_neg (by rcases h with h | h <;> simp [h]))

theorem exec_ringCtlRead_of_rings (hrings : hasRings st i = true) : exec (.ringCtlRead i r) st = .next
    (let st' := { st with lastRead := ringCtlValue (ringOf st i r) }
     if i = 0 then st' else modRing st' i r (fun x => { x with err := false })) :=
  congrArg Host.Outcome.next (if_neg (by simp [hrings]))

/-! ### Inject descriptors (18 R665-R667, 13 R509, 11 R447, R448, R458) -/

section Descriptors
variable {y : InjDesc} {f : Bytes}

theorem exec_injectDescriptorRead_of_none (h : injReadable st i r = false) : exec (.injectDescriptorRead i r y f) st = .next st :=
  congrArg Host.Outcome.next (if_pos (by simp [h]))

/-- The ring is noted as the one served last. -/
def ringServed (st : State) (i : InstId) (r : Fin 16) : State := modInst st i (fun x => { x with injLast := r })

theorem exec_injectDescriptorRead_of_owner (h : injReadable st i r = true) (howner : twinOwner st = true) :
    exec (.injectDescriptorRead i r y f) st = .next (forwardOp (setHand (ringServed st i r) i r
      (some { desc := y, bytes := f, phase := .forwarded })) (.inject i r y f (nowNs st))) :=
  congrArg Host.Outcome.next ((if_neg (by simp [h])).trans (if_pos howner))

theorem exec_injectDescriptorRead_of_judge (h : injReadable st i r = true) (howner : twinOwner st = false) :
    exec (.injectDescriptorRead i r y f) st = .next (injJudge i r y f (nowNs st) false (ringServed st i r)) :=
  congrArg Host.Outcome.next ((if_neg (by simp [h])).trans (if_neg (Bool.eq_false_iff.mp howner)))

section Judge
variable {ns : Word}

theorem injJudge_of_code (h : injCode st i y (f.take y.length.toNat) ≠ 0) :
    injJudge i r y f ns false st = injRefuse st i r y (injCode st i y (f.take y.length.toNat)) := if_pos h

variable (hcode : injCode st i y (f.take y.length.toNat) = 0)
include hcode

theorem injJudge_of_late (hlate : (y.ltEn && launchOut ns y.launchNs) = true) :
    injJudge i r y f ns false st = injRefuse st i r y 1 := (if_neg (not_not.mpr hcode)).trans (if_pos hlate)

variable (hlate : (y.ltEn && launchOut ns y.launchNs) = false)
include hlate

theorem injJudge_of_full (hfull : (y.ltEn && safCode st i (f.take y.length.toNat) != 0) = true) :
    injJudge i r y f ns false st = injRefuse st i r y (safCode st i (f.take y.length.toNat)) :=
  (if_neg (not_not.mpr hcode)).trans ((if_neg (Bool.eq_false_iff.mp hlate)).trans (if_pos hfull))

variable (hfull : (y.ltEn && safCode st i (f.take y.length.toNat) != 0) = false)
include hfull

theorem injJudge_of_held (hheld : takesInject st i y.sliceNo = false) : injJudge i r y f ns false st =
    setHand st i r (some { desc := y, bytes := f.take y.length.toNat, phase := .held }) :=
  (if_neg (not_not.mpr hcode)).trans ((if_neg (Bool.eq_false_iff.mp hlate)).trans ((if_neg (Bool.eq_false_iff.mp hfull)).trans
    (if_pos (by simp [hheld]))))

variable (htakes : takesInject st i y.sliceNo = true)
include htakes

theorem injJudge_of_launch (hlaunch : y.ltEn = true) :
    injJudge i r y f ns false st = safAccept st i r y (f.take y.length.toNat) :=
  (if_neg (not_not.mpr hcode)).trans ((if_neg (Bool.eq_false_iff.mp hlate)).trans ((if_neg (Bool.eq_false_iff.mp hfull)).trans
    ((if_neg (by simp [htakes])).trans (if_pos hlaunch))))

theorem injJudge_of_copy (hlaunch : y.ltEn = false) : injJudge i r y f ns false st =
    setHand st i r (some { desc := y, bytes := f.take y.length.toNat, phase := .copying }) :=
  (if_neg (not_not.mpr hcode)).trans ((if_neg (Bool.eq_false_iff.mp hlate)).trans ((if_neg (Bool.eq_false_iff.mp hfull)).trans
    ((if_neg (by simp [htakes])).trans (if_neg (Bool.eq_false_iff.mp hlaunch)))))

end Judge
end Descriptors

section Hand
variable {h : InjHand} {f : Bytes}

theorem exec_injectFrameCopied_of_some (hhand : (ringOf st i r).hand = some h) : exec (.injectFrameCopied i r f) st = .next
    (if h.phase = .copying ∧ ¬ st.glb.halted then injCopied st i r h.desc (f.take h.desc.length.toNat) else st) := by
  show execInjectFrameCopied i r f st = _
  rw [execInjectFrameCopied, hhand]

theorem exec_heldDescriptorResume_of_some (hhand : (ringOf st i r).hand = some h) : exec (.heldDescriptorResume i r) st = .next
    (if h.phase ≠ .held ∨ !takesInject st i h.desc.sliceNo then st
     else if h.desc.ltEn then safAccept st i r h.desc h.bytes
     else if st.img.content.twin then injCopied st i r h.desc h.bytes
     else setHand st i r (some { h with phase := .copying })) := by
  show execHeldDescriptorResume i r st = _
  rw [execHeldDescriptorResume, hhand]

theorem exec_hand_of_none (hhand : (ringOf st i r).hand = none) :
    (∀ f, exec (.injectFrameCopied i r f) st = .next st) ∧ exec (.heldDescriptorResume i r) st = .next st := by
  refine ⟨fun f => ?_, ?_⟩
  · show execInjectFrameCopied i r f st = _
    rw [execInjectFrameCopied, hhand]
  · show execHeldDescriptorResume i r st = _
    rw [execHeldDescriptorResume, hhand]

end Hand

/-! ### DMA errors (18 R664, R666) -/

/-- The ring stops with its error shown, counted and raised. -/
def ringFailed (i : InstId) (r : Fin 16) (s : State) : State :=
  let t := modRing s i r (fun x => { x with run := false, err := true })
  let t := if i = 0 then t
    else wr t (Reg.vfRingErr (vfIx i)) (rd t (Reg.vfRingErr (vfIx i)) ||| BitVec.ofNat 32 (2 ^ r.val))
  raise (count t (Reg.hifCnt 1)) { block := 3, index := 1, ps := [i.val, r.val] }

section DmaErr
variable (hrings : hasRings st i = true) (hring : (ringOf st i r).run = true) (hrun : st.glb.halted = false)
include hrings hring hrun

theorem exec_dmaErr_of_none_in_hand (hhand : (ringOf st i r).hand = none) : exec (.dmaErr i r) st = .next (ringFailed i r st) := by
  refine congrArg Host.Outcome.next ((if_neg (by simp [hrings, hring, hrun])).trans ?_)
  rw [hhand]
  rfl

theorem exec_dmaErr_of_hand {h : InjHand} (hhand : (ringOf st i r).hand = some h) : exec (.dmaErr i r) st = .next
    (ringFailed i r (if h.phase = .copying then injRefuse st i r h.desc 7 else setHand st i r none)) := by
  refine congrArg Host.Outcome.next ((if_neg (by simp [hrings, hring, hrun])).trans ?_)
  rw [hhand]
  rfl

end DmaErr

theorem exec_dmaErr_of_stopped (h : (ringOf st i r).run = false ∨ st.glb.halted = true) : exec (.dmaErr i r) st = .next st :=
  congrArg Host.Outcome.next (if_pos (by rcases h with h | h <;> simp [h]))

end Rings

/-- Settles O56: RING_CTL by the ring's state, a descriptor by the first cause that applies, the hand by its phase. -/
theorem hostRingsRunInjectAndStop : Obligations.HostRingsRunInjectAndStop := by
  intro st i r
  refine ⟨fun hrings hopen => ?ctl, fun hnone => ⟨exec_ringEnable_of_none hnone, exec_ringDisable_of_none hnone,
      exec_ringCtlRead_of_none hnone, exec_dmaErr_of_none hnone⟩, exec_ringStopped_of_free, exec_ringStopped_of_busy,
    fun hrings => ?read, fun hvf => congrArg Host.Outcome.next (if_neg (by simp [hvf])), fun y f hread => ⟨fun howner =>
      exec_injectDescriptorRead_of_owner hread howner, fun howner => ?judge⟩, fun hnone y f => exec_injectDescriptorRead_of_none hnone,
    fun h f hhand => ?hand, exec_hand_of_none, fun hrings hring hrun => ⟨exec_dmaErr_of_none_in_hand hrings hring hrun,
      fun h hhand hcopy => ?copy, fun h hhand hother => ?other⟩, exec_dmaErr_of_stopped⟩
  case ctl =>
    rw [exec_ringEnable_of_open hrings hopen, exec_ringDisable_of_open hrings hopen]
    exact ⟨fun h => congrArg _ (ringStart_of_enabled h), fun h hrun => congrArg _ (ringStart_of_running h hrun),
      fun h hrun => ⟨fun hlo hhi => congrArg _ (ringStart_of_good_size h hrun hlo hhi),
        fun hsize => congrArg _ (ringStart_of_bad_size h hrun hsize)⟩,
      fun h => congrArg _ (ringStop_of_free h), fun d h hbusy => congrArg _ (ringStop_of_busy d h hbusy)⟩
  case read =>
    rw [exec_ringCtlRead_of_rings hrings]
    exact ⟨fun hpf => congrArg Host.Outcome.next (if_pos hpf), fun hpf => congrArg Host.Outcome.next (if_neg hpf)⟩
  case judge =>
    rw [exec_injectDescriptorRead_of_judge hread howner]
    refine ⟨fun hcode => congrArg _ (injJudge_of_code hcode), fun hcode => ⟨fun hlate => congrArg _ (injJudge_of_late hcode hlate),
      fun hlate hfull => congrArg _ (injJudge_of_full hcode hlate hfull), fun hlate hfull =>
      ⟨fun hheld => congrArg _ (injJudge_of_held hcode hlate hfull hheld),
        fun htakes hlaunch => congrArg _ (injJudge_of_launch hcode hlate hfull htakes hlaunch),
        fun htakes hlaunch => congrArg _ (injJudge_of_copy hcode hlate hfull htakes hlaunch)⟩⟩⟩
  case hand =>
    rw [exec_injectFrameCopied_of_some hhand, exec_heldDescriptorResume_of_some hhand]
    refine ⟨fun hcopy hrun => congrArg Host.Outcome.next (if_pos ⟨hcopy, by simp [hrun]⟩), fun hkept => congrArg Host.Outcome.next (if_neg ?_),
      fun hheld htakes => ?_, fun hkept => congrArg Host.Outcome.next (if_pos (by simpa using hkept))⟩
    · rintro ⟨hcopy, hrun⟩
      exact hkept.elim (fun hne => hne hcopy) hrun
    · rw [if_neg (by simp [hheld, htakes])]
      exact ⟨fun hlaunch => congrArg Host.Outcome.next (if_pos hlaunch),
        fun hlaunch htwin => congrArg Host.Outcome.next ((if_neg (Bool.eq_false_iff.mp hlaunch)).trans (if_neg (Bool.eq_false_iff.mp htwin))),
        fun hlaunch htwin => congrArg Host.Outcome.next ((if_neg (Bool.eq_false_iff.mp hlaunch)).trans (if_pos htwin))⟩
  case copy =>
    rw [exec_dmaErr_of_hand hrings hring hrun hhand, if_pos hcopy]
    rfl
  case other =>
    rw [exec_dmaErr_of_hand hrings hring hrun hhand, if_neg hother]
    rfl

end Sys2Proof.Machine
end

section
/-!
PROOFS. The management pins (21 R724, R725, R727, R728), and O60 put together from them.
-/
namespace Sys2Proof.Machine

section Pins
variable {st : State}

/-! ### SMBus (21 R724, R725) -/

theorem exec_smbusBlockRead_of_register {cmd : Byte} {a : Nat} (h : smbReg cmd.toNat = some a) (henv : a ≠ Reg.tmpEnv) :
    exec (.smbusBlockRead cmd) st = .next (emit st (.smbus ([4] ++ leBytes 4 (regRead st a).toNat))) := by
  show execSmbusBlockRead cmd st = _
  rw [execSmbusBlockRead, h]
  exact congrArg Host.Outcome.next (if_neg henv)

theorem exec_smbusBlockRead_env : exec (.smbusBlockRead 3) st = .next
    { emit st (.smbus ([4] ++ leBytes 4 (regRead st Reg.tmpEnv).toNat)) with freeCount := st.freeCount + 1 } :=
  congrArg Host.Outcome.next (if_pos rfl)

theorem smbReg_of_beyond {n : Nat} (h : 5 ≤ n) : smbReg n = none := by
  unfold smbReg
  split
  case h_6 => rfl
  all_goals omega

theorem exec_smbusBlockRead_of_beyond {cmd : Byte} (h : 5 ≤ cmd.toNat) : exec (.smbusBlockRead cmd) st = .next st := by
  show execSmbusBlockRead cmd st = _
  rw [execSmbusBlockRead, smbReg_of_beyond h]

/-! ### JTAG (21 R727, R728) -/

/-- The TAP after an instruction `i` that takes effect, with `data` shifted through. -/
def tapShifted (st : State) (i : TapInstr) (data : Bytes) : State :=
  emit { st with tap := { ir := i, cells := if scansPins i then data else st.tap.cells, driving := drivesPins i } }
    (.jtag (tapOut st i data))

theorem exec_jtagInstruction_of_taken {i : TapInstr} {low : Bool} {data : Bytes} (h : tapTaken st i low ≠ .debug) :
    exec (.jtagInstruction i low data) st = .next
      (if scansPins (tapTaken st i low) then { tapShifted st (tapTaken st i low) data with freeCount := st.freeCount + 1 }
       else tapShifted st (tapTaken st i low) data) := if_neg h

theorem tapTaken_of_low {i : TapInstr} (h : drivesPins i = true) : tapTaken st i true = i := by
  rw [tapTaken, if_neg (by simp), if_neg]
  rintro ⟨rfl, -⟩
  exact Bool.false_ne_true h

theorem tapTaken_of_high {i : TapInstr} (h : drivesPins i = true) : tapTaken st i false = .bypass := if_pos (by simp [h])

theorem tapTaken_debug_of_disabled (h : st.debug = false) (low : Bool) : tapTaken st .debug low = .bypass :=
  (if_neg Bool.false_ne_true).trans (if_pos ⟨rfl, h⟩)

theorem tapTaken_debug_of_enabled (h : st.debug = true) (low : Bool) : tapTaken st .debug low = .debug :=
  (if_neg Bool.false_ne_true).trans (if_neg (by simp [h]))

end Pins

/-- Settles O60: a block read by its code, the alert by the Umber state, an instruction by what the TAP takes it for. -/
theorem managementPinsAnswer : Obligations.ManagementPinsAnswer := by
  intro st
  refine ⟨fun cmd a => exec_smbusBlockRead_of_register, ⟨_, exec_smbusBlockRead_env, rfl, rfl⟩, fun cmd => exec_smbusBlockRead_of_beyond,
    fun halert => congrArg Host.Outcome.next (if_pos halert), fun hnone => congrArg Host.Outcome.next (if_neg (by simp [hnone])),
    fun i low data htaken => ⟨_, exec_jtagInstruction_of_taken htaken, ?_⟩, fun i hdrives => ⟨tapTaken_of_high hdrives, tapTaken_of_low hdrives⟩,
    fun low hoff => tapTaken_debug_of_disabled hoff low, fun low data hon => if_pos (tapTaken_debug_of_enabled hon low)⟩
  by_cases hscan : scansPins (tapTaken st i low) = true
  · rw [if_pos hscan]
    exact ⟨rfl, rfl, rfl⟩
  · rw [if_neg hscan]
    exact ⟨rfl, rfl, rfl⟩

end Sys2Proof.Machine
end

section
/-!
PROOFS. Command registers in the halt, while BUSY, and before step 4 of the start-up (20 R698, 16 R608, R615), and O5 put together from
them.
-/
namespace Sys2Proof.Machine

section Refused
variable {st : State} {a : Nat} {res : Field} {w : Word} {eff : State → State}

theorem cmdPF_of_halted (h : st.glb.halted = true) : cmdPF a res w eff st = st := if_pos (by simp [h])

theorem viaPF_of_halted (h : st.glb.halted = true) : viaPF a w eff st = st := if_pos (by simp [h])

section Running
variable (hrun : st.glb.halted = false) (hstandby : twinStandby st = false) (hslice : sliceGone st a = false)
include hrun hstandby hslice

theorem cmdPF_of_busy (hboot : booted st = true) (hbusy : fld st a busyF ≠ 0) : cmdPF a res w eff st = setF st a res 1 :=
  (if_neg (by simp [hrun, hslice])).trans ((if_neg (by simp [hstandby])).trans ((if_neg (by simp [hboot])).trans (if_pos hbusy)))

theorem cmdPF_of_early (hboot : booted st = false) :
    cmdPF a res w eff st = wr st a (putF (cmdWord st a w) res (earlyCode a w)) :=
  (if_neg (by simp [hrun, hslice])).trans ((if_neg (by simp [hstandby])).trans (if_pos (by simp [hboot])))

theorem viaPF_of_single (howner : twinOwner st = false) : viaPF a w eff st = eff st := by
  refine (if_neg (by simp [hrun, hslice])).trans ?_
  rw [if_neg (Bool.eq_false_iff.mp hstandby), if_neg (Bool.eq_false_iff.mp howner), ite_self]

end Running

theorem sliceGone_clsRuleCmd {s : SliceId} {d : Side} (hon : sliceOn st s = true) :
    sliceGone st (Reg.clsRuleCmd s (sideNum d)) = false := by
  have hslice : sliceOfAddr (Reg.clsRuleCmd s (sideNum d)) = some s := by fin_cases s <;> cases d <;> rfl
  simp only [sliceGone, hslice, hon, Bool.not_true]

theorem commitPF_of_halted {s : SliceId} (h : st.glb.halted = true) : commitPF s w st = st :=
  (if_pos (by simp [h])).trans (viaPF_of_halted h)

end Refused

/-- Settles O5: every command named goes through the PF, which answers for it in the halt, while BUSY and before step 4. -/
theorem haltedDeviceIgnoresCommandsAndBusyOnesAreRefused : Obligations.HaltedDeviceIgnoresCommandsAndBusyOnesAreRefused := by
  intro st s i
  refine ⟨fun hhalt => ?halted, fun hrun hstandby => ⟨fun hboot hbusy => ?busy, fun hboot hbusy e => ?arc, fun hon hboot d hbusy ix => ?rule,
    fun hboot => ?early⟩⟩
  case halted =>
    exact ⟨fun d ix => ⟨congrArg Host.Outcome.next (cmdPF_of_halted hhalt), congrArg Host.Outcome.next (cmdPF_of_halted hhalt)⟩,
      congrArg Host.Outcome.next (cmdPF_of_halted hhalt), congrArg Host.Outcome.next (cmdPF_of_halted hhalt),
      congrArg Host.Outcome.next (cmdPF_of_halted hhalt), congrArg Host.Outcome.next (cmdPF_of_halted hhalt),
      congrArg Host.Outcome.next (cmdPF_of_halted hhalt), congrArg Host.Outcome.next (cmdPF_of_halted hhalt),
      fun e => ⟨congrArg Host.Outcome.next (cmdPF_of_halted hhalt), congrArg Host.Outcome.next (cmdPF_of_halted hhalt)⟩,
      fun d k kind ch an => ⟨congrArg Host.Outcome.next (cmdPF_of_halted hhalt), congrArg Host.Outcome.next (cmdPF_of_halted hhalt)⟩,
      fun mask => congrArg Host.Outcome.next (viaPF_of_halted hhalt), congrArg Host.Outcome.next (commitPF_of_halted hhalt),
      congrArg Host.Outcome.next (viaPF_of_halted hhalt)⟩
  case busy =>
    exact ⟨congrArg Host.Outcome.next (cmdPF_of_busy hrun hstandby rfl hboot hbusy),
      congrArg Host.Outcome.next (cmdPF_of_busy hrun hstandby rfl hboot hbusy),
      congrArg Host.Outcome.next (cmdPF_of_busy hrun hstandby rfl hboot hbusy)⟩
  case arc => exact congrArg Host.Outcome.next (cmdPF_of_busy hrun hstandby rfl hboot hbusy)
  case rule => exact congrArg Host.Outcome.next (cmdPF_of_busy hrun hstandby (sliceGone_clsRuleCmd hon) hboot hbusy)
  case early =>
    exact ⟨congrArg Host.Outcome.next (cmdPF_of_early hrun hstandby rfl hboot),
      congrArg Host.Outcome.next (cmdPF_of_early hrun hstandby rfl hboot),
      congrArg Host.Outcome.next (cmdPF_of_early hrun hstandby rfl hboot),
      congrArg Host.Outcome.next (cmdPF_of_early hrun hstandby rfl hboot),
      congrArg Host.Outcome.next (cmdPF_of_early hrun hstandby rfl hboot),
      fun e => congrArg Host.Outcome.next (cmdPF_of_early hrun hstandby rfl hboot),
      fun kind ch an => congrArg Host.Outcome.next (cmdPF_of_early hrun hstandby rfl hboot),
      fun howner => congrArg Host.Outcome.next ((viaPF_of_single hrun hstandby rfl howner).trans (if_pos (by simp [hboot])))⟩

end Sys2Proof.Machine
end

section
/-!
PROOFS. The operations that leave the queue of commands alone, one lemma for each, in the order of the model: O2 says it
of every step, so every operation that a command reaches needs its own. `(rfl)` in
parentheses keeps such a lemma from being one that `simp` uses by unfolding: a proof cites it, and the kernel need not
find the fact again.
-/
namespace Sys2Proof.Machine

@[simp] theorem ite_pending (c : Prop) [Decidable c] (a b : State) :
    (if c then a else b).pending = if c then a.pending else b.pending :=
  apply_ite ..

@[simp] theorem foldl_pending {α : Type} {f : State → α → State} (hf : ∀ st x, (f st x).pending = st.pending) (l :
    List α)
    (st : State) : (l.foldl f st).pending = st.pending :=
  List.foldlRecOn (motive := fun t => t.pending = st.pending) l _ rfl fun t ht x _ => (hf t x).trans ht

theorem foldl_snd_pending {α β : Type} {f : β × State → α → β × State} (hf : ∀ a x, (f a x).2.pending = a.2.pending)
    (l : List α) (a : β × State) : (l.foldl f a).2.pending = a.2.pending :=
  List.foldlRecOn (motive := fun p => p.2.pending = a.2.pending) l _ rfl fun p hp x _ => (hf p x).trans hp

@[simp] theorem foldl_wr_pending {α : Type} (a : α → Nat) (w : State → α → Word) (l : List α) (st : State) :
    (l.foldl (fun st x => wr st (a x) (w st x)) st).pending = st.pending :=
  foldl_pending (f := fun st x => wr st (a x) (w st x)) (fun _ _ => rfl) l st

/-! ### Shared operations (18, 20) -/

@[simp] theorem modCtf_pending (st : State) (s : SliceId) (f : CtfSt → CtfSt) :
    (modCtf st s f).pending = st.pending := (rfl)

@[simp] theorem modPort_pending (st : State) (d : Side) (s : SliceId) (k : PortIx) (f : PortSt → PortSt) :
    (modPort st d s k f).pending = st.pending :=
  (rfl)

@[simp] theorem modLane_pending (st : State) (l : LaneId) (f : LaneSt → LaneSt) :
    (modLane st l f).pending = st.pending := by
  unfold modLane
  split <;> rfl

@[simp] theorem setF_pending (st : State) (a : Nat) (f : Field) (v : Nat) :
    (setF st a f v).pending = st.pending := (rfl)

@[simp] theorem storePlain_pending (a : Nat) (v : Word) (st : State) : (storePlain a v st).pending = st.pending := by
  unfold storePlain
  split <;> rfl

@[simp] theorem countN_pending (st : State) (a n : Nat) : (countN st a n).pending = st.pending := (rfl)

@[simp] theorem count_pending (st : State) (a : Nat) : (count st a).pending = st.pending := (rfl)

@[simp] theorem draw_pending (st : State) : (draw st).2.pending = st.pending := (rfl)

@[simp] theorem drawFree_pending (st : State) : (drawFree st).2.pending = st.pending := (rfl)

@[simp] theorem dma_pending (st : State) (addr : Nat) (bs : Bytes) : (dma st addr bs).pending = st.pending := (rfl)

@[simp] theorem fireEvt_pending (st : State) (j : Fin 4) : (fireEvt st j).pending = st.pending := by
  simp only [fireEvt, emit_pending, ite_pending, ite_self]

@[simp] theorem evtPut_pending (st : State) (j : Fin 4) (e : Event) : (evtPut st j e).pending = st.pending := by
  simp only [evtPut, dma_pending, fireEvt_pending]

@[simp] theorem raise_pending (st : State) (e : Event) : (raise st e).pending = st.pending := by
  simp only [raise, evtPut_pending, ite_pending, ite_self]

@[simp] theorem evtRecover_pending (st : State) (j : Fin 4) : (evtRecover st j).pending = st.pending := by
  simp only [evtRecover, evtPut_pending, ite_pending, ite_self]

@[simp] theorem versionRetire_pending (st : State) (s : SliceId) : (versionRetire st s).pending = st.pending := (rfl)

@[simp] theorem discardAll_pending (st : State) : (discardAll st).pending = st.pending := (rfl)

@[simp] theorem ppsSettle_pending (st : State) : (ppsSettle st).pending = st.pending := by
  simp only [ppsSettle, modTsu_pending, ite_pending, ite_self]

@[simp] theorem releaseOwn_pending (st : State) : (releaseOwn st).pending = st.pending := by
  simp only [releaseOwn, modTsu_pending, modTwin_pending, ite_pending, ite_self]

@[simp] theorem enterUmber_pending (st : State) : (enterUmber st).pending = st.pending := by
  simp only [enterUmber, countN_pending, discardAll_pending, releaseOwn_pending]

@[simp] theorem haltCore_pending (st : State) (cause : Fin 16) (code slice ix : Nat) :
    (haltCore st cause code slice ix).pending = st.pending := by
  simp only [haltCore, countN_pending, discardAll_pending, releaseOwn_pending, modGlb_pending, modTwin_pending,
    count_pending, modTsu_pending]

@[simp] theorem haltEvent_pending (st : State) (cause : Fin 16) : (haltEvent st cause).pending = st.pending := by
  simp only [haltEvent, raise_pending, ite_pending, ite_self]

@[simp] theorem sramUncorr_pending (st : State) : (sramUncorr st).pending = st.pending := (rfl)

@[simp] theorem sramUe_pending (st : State) (code slice entry : Nat) :
    (sramUe st code slice entry).pending = st.pending := by
  simp only [sramUe, raise_pending, sramUncorr_pending, count_pending]

@[simp] theorem pfDiscard_pending (st : State) : (pfDiscard st).pending = st.pending := by
  simp only [pfDiscard, raise_pending, count_pending]

@[simp] theorem sendPart_pending (type : Nat) (st : State) (body : Bytes) :
    (sendPart type st body).pending = st.pending :=
  (rfl)

@[simp] theorem sendMsg_pending (st : State) (type : Nat) (items : List Nat) :
    (sendMsg st type items).pending = st.pending := by
  unfold sendMsg
  split
  · rfl
  · exact foldl_pending (sendPart_pending type) _ st

@[simp] theorem forwardOp_pending (st : State) (op : MirOp) : (forwardOp st op).pending = st.pending := by
  simp only [forwardOp, sendMsg_pending, modTwin_pending]

@[simp] theorem forward_pending (st : State) (a : Nat) (w : Word) : (forward st a w).pending = st.pending :=
  forwardOp_pending ..

@[simp] theorem viaPF_pending (a : Nat) (w : Word) (eff : State → State) (st : State)
    (heff : (eff st).pending = st.pending) : (viaPF a w eff st).pending = st.pending := by
  simp only [viaPF, pfDiscard_pending, forward_pending, heff, ite_pending, ite_self]

@[simp] theorem cmdEarly_pending (st : State) (a : Nat) (res : Field) (w : Word) :
    (cmdEarly st a res w).pending = st.pending :=
  (rfl)

@[simp] theorem cmdPF_pending (a : Nat) (res : Field) (w : Word) (eff : State → State) (st : State)
    (heff : (eff st).pending = st.pending) : (cmdPF a res w eff st).pending = st.pending := by
  simp only [cmdPF, pfDiscard_pending, cmdEarly_pending, setF_pending, forward_pending, heff, ite_pending, ite_self]

@[simp] theorem cmdDone_pending (st : State) (a : Nat) (res : Field) (op : Field) (w : Word) (code : Nat) :
    (cmdDone st a res op w code).pending = st.pending :=
  (rfl)

@[simp] theorem cmdBusy_pending (st : State) (a : Nat) (op : Field) (w : Word) :
    (cmdBusy st a op w).pending = st.pending :=
  (rfl)

@[simp] theorem lastRef_pending (st : State) (reason block slice : Nat) (i : InstId) :
    (lastRef st reason block slice i).pending = st.pending :=
  (rfl)

@[simp] theorem bumpCh_pending (st : State) (s : SliceId) (ch : ChIx) (j n : Nat) :
    (bumpCh st s ch j n).pending = st.pending :=
  (rfl)

@[simp] theorem bumpSlot_pending (st : State) (s : SliceId) (ch : ChIx) (an : An) (j n : Nat) :
    (bumpSlot st s ch an j n).pending = st.pending :=
  (rfl)

@[simp] theorem bumpLp_pending (st : State) (s : SliceId) (k : PortIx) (j : Nat) :
    (bumpLp st s k j).pending = st.pending :=
  (rfl)

@[simp] theorem bumpCp_pending (st : State) (s : SliceId) (k : PortIx) : (bumpCp st s k).pending = st.pending := (rfl)

@[simp] theorem pcEvent_pending (st : State) (s : SliceId) (ev n : Nat) : (pcEvent st s ev n).pending = st.pending := by
  simp only [pcEvent, modPmu_pending, ite_pending, ite_self]

@[simp] theorem bwAdvance_pending (st : State) : (bwAdvance st).pending = st.pending := by
  simp only [bwAdvance, modPmu_pending, countN_pending, ite_pending, ite_self]

@[simp] theorem bwFrame_pending (st : State) (d : Side) (s : SliceId) (k : PortIx) (tx : Bool) (len : Nat) :
    (bwFrame st d s k tx len).pending = st.pending := by
  simp only [bwFrame, pcEvent_pending, bwAdvance_pending, modPmu_pending, ite_pending, ite_self]

/-! ### The Indigo link and the running digests (12) -/

@[simp] theorem twnDone_pending (w : Word) (code : Nat) (st : State) : (twnDone w code st).pending = st.pending := (rfl)

@[simp] theorem twnEnd_pending (code : Nat) (st : State) : (twnEnd code st).pending = st.pending := (rfl)

@[simp] theorem dropSwitch_pending (st : State) : (dropSwitch st).pending = st.pending := by
  simp only [dropSwitch, twnEnd_pending, modTwin_pending, ite_pending, ite_self]

@[simp] theorem toStart_pending (st : State) : (toStart st).pending = st.pending := by
  simp only [toStart, modTwin_pending, dropSwitch_pending]

@[simp] theorem twinSquelch_pending (st : State) : (twinSquelch st).pending = st.pending := by
  simp only [twinSquelch, modTwin_pending, toStart_pending, twnEnd_pending, ite_pending, ite_self]

@[simp] theorem endSession_pending (st : State) : (endSession st).pending = st.pending := (rfl)

@[simp] theorem twinLinkDown_pending (st : State) : (twinLinkDown st).pending = st.pending := by
  simp only [twinLinkDown, endSession_pending, twnEnd_pending, modTwin_pending, toStart_pending, ite_pending, ite_self]

@[simp] theorem hostOut_pending (st : State) (o : Output) : (hostOut st o).pending = st.pending := by
  simp only [hostOut, emit_pending, ite_pending, ite_self]

@[simp] theorem digPort_pending (st : State) (d : Side) (s : SliceId) (k : PortIx) (bs : Bytes) :
    (digPort st d s k bs).pending = st.pending := by
  simp only [digPort, modTwin_pending, ite_pending, ite_self]

@[simp] theorem digHost_pending (st : State) (s : SliceId) (bs : Bytes) : (digHost st s bs).pending = st.pending := by
  simp only [digHost, modTwin_pending, ite_pending, ite_self]

/-! ### Lanes, ports and flow control (02) -/

@[simp] theorem enablePorts_pending (st : State) : (enablePorts st).pending = st.pending := by
  simp only [enablePorts, modPort_pending, foldl_pending, implies_true, ite_pending, ite_self]

@[simp] theorem sendPort_pending (st : State) (d : Side) (s : SliceId) (k : PortIx) (bs : Bytes) (o : Output) :
    (sendPort st d s k bs o).pending = st.pending := by
  simp only [sendPort, digPort_pending, emit_pending, ite_pending, ite_self]

@[simp] theorem freezeLoops_pending (st : State) (l : LaneId) :
    (freezeLoops st l).pending = st.pending := modLane_pending ..

@[simp] theorem setStage_pending (g : LaneStage) (st : State) (l : LaneId) : (setStage g st l).pending = st.pending :=
  modLane_pending ..

@[simp] theorem startLanes_pending (st : State) (s : SliceId) : (startLanes st s).pending = st.pending := by
  simp only [startLanes, setStage_pending, foldl_pending, implies_true, ite_pending, ite_self]

@[simp] theorem portLost_pending (st : State) (y : LaneId) : (portLost st y).pending = st.pending := by
  unfold portLost
  repeat' split
  all_goals simp only [twinLinkDown_pending, modPort_pending]

@[simp] theorem fecLocked_pending (l : LaneId) (r : LockRuns) (st : State) :
    (fecLocked l r st).pending = st.pending := by
  unfold fecLocked
  split <;> simp only [setStage_pending, modLane_pending, raise_pending, ite_pending, ite_self]

@[simp] theorem pcsLocked_pending (l : LaneId) (st : State) : (pcsLocked l st).pending = st.pending := by
  simp only [pcsLocked, ite_pending]
  repeat' split
  all_goals simp only [freezeLoops_pending, modLane_pending, setStage_pending, modCtf_pending, modPort_pending,
    enablePorts_pending, foldl_pending, implies_true, ite_pending, ite_self]

@[simp] theorem laneTimedOut_pending (st : State) (l : LaneId) : (laneTimedOut st l).pending = st.pending := by
  simp only [laneTimedOut, modLane_pending, setStage_pending, raise_pending, ite_pending, ite_self]

@[simp] theorem ctfLof_pending (st : State) (y : LaneId) : (ctfLof st y).pending = st.pending := by
  unfold ctfLof
  split <;> simp only [modCtf_pending, ite_pending, ite_self]

@[simp] theorem noteHiBer_pending (st : State) (y : LaneId) : (noteHiBer st y).pending = st.pending := by
  unfold noteHiBer
  repeat' split
  all_goals simp only [modPort_pending]

@[simp] theorem laneBack_pending (st : State) (l : LaneId) (g : LaneStage) :
    (laneBack st l g).pending = st.pending := by
  simp only [laneBack, ctfLof_pending, portLost_pending, setStage_pending, ite_pending, ite_self]

@[simp] theorem laneLost_pending (st : State) (l : LaneId) (c : LockLoss) : (laneLost st l c).pending = st.pending := by
  unfold laneLost
  split <;> simp only [laneBack_pending, noteHiBer_pending, foldl_pending, implies_true, ite_pending, ite_self]

@[simp] theorem keepHeadroom_pending (st : State) (s : SliceId) (k : PortIx) :
    (keepHeadroom st s k).pending = st.pending :=
  (rfl)

@[simp] theorem sendControl_pending (st : State) (s : SliceId) (k : PortIx) (body : Bytes) :
    (sendControl st s k body).pending = st.pending := by
  simp only [sendControl, drawFree_pending, bwFrame_pending, sendPort_pending, ite_pending, ite_self]

@[simp] theorem fcUpdate_pending (st : State) (s : SliceId) (k : PortIx) : (fcUpdate st s k).pending = st.pending := by
  simp only [fcUpdate, modPort_pending, sendControl_pending, ite_pending, ite_self]

@[simp] theorem fcUpdateAll_pending (st : State) (s : SliceId) : (fcUpdateAll st s).pending = st.pending := by
  simp only [fcUpdateAll, fcUpdate_pending, foldl_pending, implies_true]

@[simp] theorem takePause_pending (d : Side) (s : SliceId) (k : PortIx) (bs : Bytes) (st : State) :
    (takePause d s k bs st).pending = st.pending := by
  simp only [takePause, modPort_pending, ite_pending, ite_self]

@[simp] theorem macDrop_pending (d : Side) (s : SliceId) (k : PortIx) (st : State) :
    (macDrop d s k st).pending = st.pending :=
  (rfl)

/-! ### Instance map, key profiles and rule tables (03, 04) -/

@[simp] theorem imapDone_pending (s : SliceId) (w : Word) (code : Nat) (st : State) :
    (imapDone s w code st).pending = st.pending :=
  (rfl)

@[simp] theorem imapCmd_pending (s : SliceId) (w : Word) (st : State) : (imapCmd s w st).pending = st.pending := by
  unfold imapCmd
  split <;> simp only [imapDone_pending, modSl_pending, ite_pending, ite_self]

@[simp] theorem modRules_pending (st : State) (s : SliceId) (d : Side) (f : NMap RuleEnt → NMap RuleEnt) :
    (modRules st s d f).pending = st.pending :=
  (rfl)

@[simp] theorem kprofWrite_pending (s : SliceId) (d : Side) (e : Nat) (v : Word) (st : State) :
    (kprofWrite s d e v st).pending = st.pending := by
  simp only [kprofWrite, wr_pending, ite_pending, ite_self]

@[simp] theorem ruleDone_pending (s : SliceId) (d : Side) (w : Word) (code : Nat) (st : State) :
    (ruleDone s d w code st).pending = st.pending :=
  (rfl)

@[simp] theorem ruleRecord_pending (s : SliceId) (code : Nat) (i : InstId) (st : State) :
    (ruleRecord s code i st).pending = st.pending := by
  simp only [ruleRecord, lastRef_pending, ite_pending, ite_self]

@[simp] theorem ruleRead_pending (s : SliceId) (d : Side) (ix : Nat) (w : Word) (st : State) :
    (ruleRead s d ix w st).pending = st.pending := by
  simp only [ruleRead, ruleDone_pending, foldl_wr_pending]

@[simp] theorem ruleWrite_pending (s : SliceId) (d : Side) (ix : Nat) (w : Word) (st : State) :
    (ruleWrite s d ix w st).pending = st.pending := by
  simp only [ruleWrite, modRules_pending, ruleRecord_pending, ruleDone_pending, ite_pending, ite_self]

@[simp] theorem ruleRetire_pending (s : SliceId) (d : Side) (ix : Nat) (w : Word) (st : State) :
    (ruleRetire s d ix w st).pending = st.pending := by
  unfold ruleRetire
  split <;> simp only [ruleDone_pending, ruleRecord_pending, modRules_pending, ite_pending, ite_self]

@[simp] theorem ruleCancel_pending (s : SliceId) (d : Side) (ix : Nat) (w : Word) (st : State) :
    (ruleCancel s d ix w st).pending = st.pending := by
  unfold ruleCancel
  split <;> simp only [ruleDone_pending, ruleRecord_pending, modRules_pending, ite_pending, ite_self]

@[simp] theorem ruleCmd_pending (s : SliceId) (d : Side) (w : Word) (st : State) :
    (ruleCmd s d w st).pending = st.pending := by
  unfold ruleCmd
  split <;> simp only [ruleRead_pending, ruleWrite_pending, ruleRetire_pending, ruleCancel_pending, ruleDone_pending]

@[simp] theorem commitStrobe_pending (s : SliceId) (w : Word) (st : State) :
    (commitStrobe s w st).pending = st.pending := by
  simp only [commitStrobe, wr_pending, modSl_pending, ite_pending, ite_self]

@[simp] theorem commitPF_pending (s : SliceId) (w : Word) (st : State) : (commitPF s w st).pending = st.pending := by
  simp only [commitPF, viaPF_pending, commitStrobe_pending, wr_pending, ite_pending, ite_self]

/-! ### Peer tables and learning (05) -/

@[simp] theorem modMac_pending (st : State) (s : SliceId) (f : NMap MacEnt → NMap MacEnt) :
    (modMac st s f).pending = st.pending :=
  (rfl)

@[simp] theorem modLpm_pending (st : State) (s : SliceId) (f : NMap LpmEnt → NMap LpmEnt) :
    (modLpm st s f).pending = st.pending :=
  (rfl)

@[simp] theorem parityError_pending (st : State) (s : SliceId) (t : Tbl) (ix : Nat) :
    (parityError st s t ix).pending = st.pending := by
  unfold parityError
  split <;> simp only [modMac_pending, modLpm_pending, raise_pending, count_pending]

@[simp] theorem macLookup_pending (st : State) (s : SliceId) (k : MacKey) :
    (macLookup st s k).2.pending = st.pending := by
  unfold macLookup
  repeat' split
  all_goals simp only [parityError_pending]

@[simp] theorem lpmLookup_pending (st : State) (s : SliceId) (i : InstId) (v4 : Bool) (addr : BitVec 128) :
    (lpmLookup st s i v4 addr).2.pending = st.pending := by
  unfold lpmLookup
  repeat' split
  all_goals simp only [parityError_pending]

@[simp] theorem macApply_pending (st : State) (s : SliceId) (c : MacChange) :
    (macApply st s c).pending = st.pending := by
  unfold macApply
  split <;> simp only [modMac_pending, ite_pending, ite_self]

@[simp] theorem macChange_pending (st : State) (s : SliceId) (c : MacChange) :
    (macChange st s c).pending = st.pending := by
  simp only [macChange, sendMsg_pending, modTwin_pending, macApply_pending, ite_pending, ite_self]

@[simp] theorem queueLearn_pending (st : State) (s : SliceId) (q : Learn) (sa : Bytes) :
    (queueLearn st s q sa).pending = st.pending := by
  simp only [queueLearn, macLookup_pending, count_pending, pcEvent_pending, modSl_pending, ite_pending, ite_self]

@[simp] theorem learnOne_pending (st : State) (s : SliceId) (q : Learn) : (learnOne st s q).pending = st.pending := by
  unfold learnOne
  repeat' split
  all_goals simp only [count_pending, macChange_pending, modMac_pending, raise_pending, ite_pending, ite_self]

@[simp] theorem restartMs_pending (st : State) : (restartMs st).pending = st.pending := (rfl)

@[simp] theorem startAges_pending (st : State) (s : SliceId) : (startAges st s).pending = st.pending := (rfl)

@[simp] theorem sweepEntry_pending (st : State) (s : SliceId) (ix : Nat) (e : MacEnt) :
    (sweepEntry st s ix e).pending = st.pending := by
  simp only [sweepEntry, parityError_pending, count_pending, macChange_pending, modMac_pending, ite_pending, ite_self]

@[simp] theorem putData_pending (st : State) (s : SliceId) (ws : List Word) : (putData st s ws).pending = st.pending :=
  foldl_wr_pending ..

@[simp] theorem tblDone_pending (s : SliceId) (w : Word) (code : Nat) (st : State) :
    (tblDone s w code st).pending = st.pending :=
  (rfl)

@[simp] theorem tblFound_pending (s : SliceId) (w : Word) (ix : Nat) (image : List Word) (st : State) :
    (tblFound s w ix image st).pending = st.pending := by
  simp only [tblFound, tblDone_pending, putData_pending]

@[simp] theorem tblRefuse_pending (s : SliceId) (w : Word) (code : Nat) (i : InstId) (st : State) :
    (tblRefuse s w code i st).pending = st.pending := by
  simp only [tblRefuse, tblDone_pending, lastRef_pending, ite_pending, ite_self]

@[simp] theorem tblRead_pending (s : SliceId) (t : Tbl) (ix : Nat) (w : Word) (st : State) :
    (tblRead s t ix w st).pending = st.pending := by
  unfold tblRead
  repeat' split
  all_goals simp only [tblDone_pending, putData_pending, parityError_pending]

@[simp] theorem lpmByKey_pending (st : State) (s : SliceId) (e : LpmEnt) :
    (lpmByKey st s e).2.pending = st.pending := by
  unfold lpmByKey
  repeat' split
  all_goals simp only [parityError_pending]

@[simp] theorem tblWrite_pending (s : SliceId) (t : Tbl) (w : Word) (st : State) :
    (tblWrite s t w st).pending = st.pending := by
  simp only [tblWrite]
  repeat' split
  all_goals simp only [tblRefuse_pending, macLookup_pending, tblDone_pending, modMac_pending, lpmByKey_pending,
    modLpm_pending]

@[simp] theorem tblInsert_pending (s : SliceId) (t : Tbl) (w : Word) (st : State) :
    (tblInsert s t w st).pending = st.pending := by
  simp only [tblInsert]
  repeat' split
  all_goals simp only [tblRefuse_pending, macLookup_pending, tblDone_pending, modMac_pending, lpmByKey_pending,
    drawFree_pending, modLpm_pending]

@[simp] theorem tblDelete_pending (s : SliceId) (t : Tbl) (w : Word) (st : State) :
    (tblDelete s t w st).pending = st.pending := by
  simp only [tblDelete]
  repeat' split
  all_goals simp only [tblRefuse_pending, macLookup_pending, tblDone_pending, modMac_pending, lpmByKey_pending,
    modLpm_pending]

@[simp] theorem tblLookup_pending (s : SliceId) (t : Tbl) (w : Word) (st : State) :
    (tblLookup s t w st).pending = st.pending := by
  simp only [tblLookup]
  repeat' split
  all_goals simp only [tblDone_pending, macLookup_pending, tblFound_pending, parityError_pending]

@[simp] theorem searchRun_pending (s : SliceId) (t : Tbl) (w : Word) (data mask : List Word) (from_ : Nat)
    (st : State) : (searchRun s t w data mask from_ st).pending = st.pending := by
  simp only [searchRun]
  split <;> simp only [parityError_pending, modSl_pending, tblFound_pending, tblDone_pending, foldl_pending,
    implies_true, ite_pending, ite_self]

@[simp] theorem tblSearch_pending (s : SliceId) (t : Tbl) (ix : Nat) (w : Word) (st : State) :
    (tblSearch s t ix w st).pending = st.pending := by
  simp only [tblSearch, tblDone_pending, searchRun_pending, ite_pending, ite_self]

@[simp] theorem tblNext_pending (s : SliceId) (t : Tbl) (w : Word) (st : State) :
    (tblNext s t w st).pending = st.pending := by
  unfold tblNext
  repeat' split
  all_goals simp only [tblDone_pending, searchRun_pending]

@[simp] theorem flushWhere_pending (s : SliceId) (t : Tbl) (static_ : Bool) (mp : MacEnt → Bool) (lp : LpmEnt → Bool)
    (w : Word) (st : State) : (flushWhere s t static_ mp lp w st).pending = st.pending := by
  unfold flushWhere
  split <;> rfl

@[simp] theorem tblFlushPort_pending (s : SliceId) (t : Tbl) (w : Word) (st : State) :
    (tblFlushPort s t w st).pending = st.pending := by
  simp only [tblFlushPort, tblDone_pending, flushWhere_pending, ite_pending, ite_self]

@[simp] theorem tblFlushInstance_pending (s : SliceId) (t : Tbl) (w : Word) (st : State) :
    (tblFlushInstance s t w st).pending = st.pending := by
  simp only [tblFlushInstance, tblDone_pending, tblRefuse_pending, flushWhere_pending, ite_pending, ite_self]

@[simp] theorem tblCmd_pending (s : SliceId) (w : Word) (st : State) : (tblCmd s w st).pending = st.pending := by
  unfold tblCmd
  split <;> simp only [tblRead_pending, tblWrite_pending, tblInsert_pending, tblDelete_pending, tblLookup_pending,
    tblSearch_pending, tblNext_pending, tblFlushPort_pending, tblFlushInstance_pending, tblDone_pending]

@[simp] theorem tblModeWrite_pending (s : SliceId) (w : Word) (st : State) :
    (tblModeWrite s w st).pending = st.pending :=
  (rfl)

/-! ### The journal's users and reservations (09) -/

@[simp] theorem modCh_pending (st : State) (s : SliceId) (ch : ChIx) (f : ChRec → ChRec) :
    (modCh st s ch f).pending = st.pending :=
  (rfl)

@[simp] theorem modSlot_pending (st : State) (s : SliceId) (ch : ChIx) (an : An) (f : Slot → Slot) :
    (modSlot st s ch an f).pending = st.pending :=
  (rfl)

@[simp] theorem evict_pending (st : State) (p : Nat × JRec) : (evict st p).pending = st.pending := by
  simp only [evict, raise_pending, count_pending, modJnl_pending]

@[simp] theorem jnlRequest_pending (st : State) (r : JReq) : (jnlRequest st r).pending = st.pending := (rfl)

@[simp] theorem jnlRefused_pending (st : State) (reason source : Nat) (s : SliceId) (an unit : Nat) :
    (jnlRefused st reason source s an unit).pending = st.pending :=
  (rfl)

@[simp] theorem dropUse_pending (gone : JUse → Bool) (st : State) : (dropUse gone st).pending = st.pending := (rfl)

@[simp] theorem leaveRecord_pending (st : State) (pos : Nat) (leaf force : Bool) :
    (leaveRecord st pos leaf force).pending = st.pending := by
  unfold leaveRecord
  split <;> simp only [jnlRequest_pending, ite_pending, ite_self]

@[simp] theorem slotLeaves_pending (st : State) (s : SliceId) (ch : ChIx) (an : An) (force : Bool) :
    (slotLeaves st s ch an force).pending = st.pending := by
  simp only [slotLeaves, dropUse_pending, leaveRecord_pending]

@[simp] theorem slotEmpty_pending (st : State) (s : SliceId) (ch : ChIx) (an : An) :
    (slotEmpty st s ch an).pending = st.pending := by
  simp only [slotEmpty, slotLeaves_pending, modSlot_pending, ite_pending, ite_self]

@[simp] theorem reserveSlot_pending (st : State) (s : SliceId) (ch : ChIx) (an : An) (req : Nat) :
    (reserveSlot st s ch an req).pending = st.pending :=
  (rfl)

@[simp] theorem checkReserve_pending (st : State) (s : SliceId) (ch : ChIx) (an : An) :
    (checkReserve st s ch an).pending = st.pending := by
  simp only [checkReserve, reserveSlot_pending, ite_pending, ite_self]

@[simp] theorem reserveAbove_pending (st : State) (s : SliceId) (ch : ChIx) (an : An) (pos : Nat) :
    (reserveAbove st s ch an pos).pending = st.pending := by
  simp only [reserveAbove, modSlot_pending, reserveSlot_pending, ite_pending, ite_self]

/-! ### Nodes of the key tree (07) -/

@[simp] theorem orphanUsers_pending (st : State) (t : List Nat) : (orphanUsers st t).pending = st.pending := by
  unfold orphanUsers
  simp only [modTwin_pending, modJnl_pending]
  exact foldl_pending (fun _ _ => modSl_pending ..) slices4 st

@[simp] theorem nodeEcc_pending (st : State) (n : Nat) : (nodeEcc st n).pending = st.pending := by
  simp only [nodeEcc, raise_pending, count_pending, sramUncorr_pending, orphanUsers_pending]

@[simp] theorem nodeCheck_pending (st : State) (n : Nat) : (nodeCheck st n).pending = st.pending := by
  unfold nodeCheck
  split <;> simp only [nodeEcc_pending, ite_pending, ite_self]

@[simp] theorem slotDrop_pending (st : State) (s : SliceId) (ch : ChIx) (an : An) :
    (slotDrop st s ch an).pending = st.pending := by
  unfold slotDrop
  split <;> simp only [raise_pending, modSlot_pending]

@[simp] theorem pickCode_pending (st : State) (causes : List (Bool × Nat)) :
    (pickCode st causes).2.pending = st.pending := by
  simp only [pickCode]
  repeat' split
  all_goals simp only [drawFree_pending]

@[simp] theorem stateRecord_pending (st : State) (code busy frozen block : Nat) (s : SliceId) (i : InstId) :
    (stateRecord st code busy frozen block s i).pending = st.pending := by
  simp only [stateRecord, lastRef_pending, ite_pending, ite_self]

/-! ### Secure channels and slots (06, 08) -/

@[simp] theorem chanEcc_pending (st : State) (s : SliceId) (ch : ChIx) : (chanEcc st s ch).pending = st.pending := by
  simp only [chanEcc, slotDrop_pending, modCh_pending, raise_pending, count_pending, sramUncorr_pending, foldl_pending,
    implies_true]

@[simp] theorem slotEcc_pending (st : State) (s : SliceId) (ch : ChIx) (an : An) :
    (slotEcc st s ch an).pending = st.pending := by
  simp only [slotEcc, slotDrop_pending, modSlot_pending, raise_pending, count_pending, sramUncorr_pending]

@[simp] theorem modHash_pending (st : State) (s : SliceId) (f : NMap SciEnt → NMap SciEnt) :
    (modHash st s f).pending = st.pending :=
  (rfl)

@[simp] theorem hashEcc_pending (st : State) (s : SliceId) (ix : Nat) : (hashEcc st s ix).pending = st.pending := by
  simp only [hashEcc, raise_pending, count_pending, sramUncorr_pending, modHash_pending]

@[simp] theorem chanCheck_pending (st : State) (s : SliceId) (ch : ChIx) :
    (chanCheck st s ch).pending = st.pending := by
  simp only [chanCheck, chanEcc_pending, ite_pending, ite_self]

@[simp] theorem slotCheck_pending (st : State) (s : SliceId) (ch : ChIx) (an : An) :
    (slotCheck st s ch an).pending = st.pending := by
  simp only [slotCheck, slotEcc_pending, ite_pending, ite_self]

@[simp] theorem enterGuard_pending (st : State) (s : SliceId) (ch : ChIx) (an : An) :
    (enterGuard st s ch an).pending = st.pending :=
  (rfl)

@[simp] theorem switchTo_pending (st : State) (s : SliceId) (ch : ChIx) (an : An) (start : Nat) :
    (switchTo st s ch an start).pending = st.pending := by
  simp only [switchTo, enterGuard_pending, modSlot_pending, modCh_pending, count_pending, foldl_pending, implies_true,
    ite_pending, ite_self]

@[simp] theorem switchMissed_pending (st : State) (s : SliceId) (ch : ChIx) (trigger : Nat) :
    (switchMissed st s ch trigger).pending = st.pending := by
  simp only [switchMissed, raise_pending, count_pending]

@[simp] theorem dueTransitions_pending (st : State) (s : SliceId) (ch : ChIx) :
    (dueTransitions st s ch).pending = st.pending := by
  unfold dueTransitions
  split
  · rfl
  · refine foldl_pending (fun st an => ?_) ans st
    dsimp only
    repeat' split
    all_goals simp only [enterGuard_pending, slotEmpty_pending]

@[simp] theorem timeSwitch_pending (st : State) (s : SliceId) (ch : ChIx) (start : Nat) :
    (timeSwitch st s ch start).2.pending = st.pending := by
  unfold timeSwitch
  repeat' split
  all_goals simp only [count_pending, switchTo_pending, switchMissed_pending]

@[simp] theorem thresholdSwitch_pending (st : State) (s : SliceId) (ch : ChIx) :
    (thresholdSwitch st s ch).2.pending = st.pending := by
  simp only [thresholdSwitch]
  repeat' split
  all_goals simp only [switchTo_pending, switchMissed_pending, modCh_pending]

@[simp] theorem applyChange_pending (s : SliceId) (ch : ChIx) (switched : Bool) (st : State) (q : SlotChange) :
    (applyChange s ch switched st q).pending = st.pending := by
  unfold applyChange
  repeat' split
  all_goals simp only [setF_pending, switchTo_pending, enterGuard_pending, slotEmpty_pending, modCh_pending]

@[simp] theorem pendingChanges_pending (st : State) (s : SliceId) (ch : ChIx) (switched : Bool) :
    (pendingChanges st s ch switched).pending = st.pending := by
  simp only [pendingChanges, applyChange_pending, modCh_pending, foldl_pending, implies_true, ite_pending, ite_self]

@[simp] theorem boundaryWith_pending (st : State) (s : SliceId) (ch : ChIx) (trigger : Option Nat) (test : Bool) :
    (boundaryWith st s ch trigger test).pending = st.pending := by
  simp only [boundaryWith, pendingChanges_pending, ite_pending]
  repeat' split
  all_goals simp only [dueTransitions_pending, chanCheck_pending, timeSwitch_pending, thresholdSwitch_pending]

@[simp] theorem boundary_pending (st : State) (s : SliceId) (ch : ChIx) (trigger : Option Nat) :
    (boundary st s ch trigger).pending = st.pending :=
  boundaryWith_pending ..

@[simp] theorem fireAll_pending (st : State) (s : SliceId) (t : Fin 8) (rx : Bool) :
    (fireAll st s t rx).pending = st.pending := by
  simp only [fireAll, boundary_pending, foldl_pending, implies_true]

@[simp] theorem modTimer_pending (st : State) (s : SliceId) (t : Fin 8) (f : SwTimer → SwTimer) :
    (modTimer st s t f).pending = st.pending :=
  (rfl)

@[simp] theorem doRxFire_pending (st : State) (s : SliceId) (t : Fin 8) : (doRxFire st s t).pending = st.pending := by
  simp only [doRxFire, fireAll_pending, modTimer_pending, ite_pending, ite_self]

@[simp] theorem timerStrobe_pending (s : SliceId) (t : Fin 8) (w : Word) (st : State) :
    (timerStrobe s t w st).pending = st.pending := by
  simp only [timerStrobe, wr_pending, modTimer_pending, setF_pending, ite_pending, ite_self]

@[simp] theorem sciRemove_pending (st : State) (s : SliceId) (ch : ChIx) :
    (sciRemove st s ch).pending = st.pending := (rfl)

@[simp] theorem saeDone_pending (s : SliceId) (w : Word) (code : Nat) (st : State) :
    (saeDone s w code st).pending = st.pending :=
  (rfl)

@[simp] theorem saeJudge_pending {s : SliceId} {w : Word} {i : InstId} {causes : List (Bool × Nat)}
    {ok : State → State} (hok : ∀ st, (ok st).pending = st.pending) (st : State) :
    (saeJudge s w i causes ok st).pending = st.pending := by
  simp only [saeJudge, hok, saeDone_pending, stateRecord_pending, pickCode_pending, ite_pending, ite_self]

@[simp] theorem chRead_pending (s : SliceId) (ch : ChIx) (w : Word) (st : State) :
    (chRead s ch w st).pending = st.pending := by
  simp only [chRead, chanCheck_pending, saeDone_pending, foldl_wr_pending]

@[simp] theorem chWrite_pending (s : SliceId) (ch : ChIx) (w : Word) (st : State) :
    (chWrite s ch w st).pending = st.pending := by
  unfold chWrite
  refine (saeJudge_pending (fun st => ?_) _).trans (boundary_pending ..)
  dsimp only
  repeat' split
  all_goals simp only [saeDone_pending, modCh_pending, modSl_pending, modHash_pending, sciRemove_pending]

@[simp] theorem chDelete_pending (s : SliceId) (ch : ChIx) (w : Word) (st : State) :
    (chDelete s ch w st).pending = st.pending := by
  unfold chDelete
  refine (saeJudge_pending (fun st => ?_) _).trans (boundary_pending ..)
  exact (saeDone_pending ..).trans ((modSl_pending ..).trans (sciRemove_pending ..))

@[simp] theorem saRead_pending (s : SliceId) (ch : ChIx) (an : An) (w : Word) (st : State) :
    (saRead s ch an w st).pending = st.pending := by
  simp only [saRead, slotCheck_pending, boundary_pending, saeJudge_pending, saeDone_pending, implies_true,
    foldl_wr_pending]

@[simp] theorem clearSaeKey_pending (st : State) (s : SliceId) : (clearSaeKey st s).pending = st.pending := (rfl)

theorem startInstall_pending {st : State} {src : Fin 4} {cls : Fin 3} {s : SliceId} {ch : ChIx} {an : An} {key : Bytes}
    {salt : BitVec 96} {ssci : Word} {req : Nat} {keySrc leaf : Bool} {node : Nat} {ok fail : State → State}
    (hok : ∀ st, (ok st).pending = st.pending) (hfail : ∀ st, (fail st).pending = st.pending) :
    (startInstall st src cls s ch an key salt ssci req keySrc leaf node ok fail).pending = st.pending := by
  unfold startInstall
  dsimp only
  repeat' split
  all_goals simp only [hok, hfail, jnlRefused_pending, jnlRequest_pending, evict_pending]

@[simp] theorem saLoad_pending (s : SliceId) (ch : ChIx) (an : An) (w : Word) (st : State) :
    (saLoad s ch an w st).pending = st.pending := by
  unfold saLoad
  refine (saeJudge_pending (fun st => ?_) _).trans ?_
  · exact startInstall_pending (fun _ => cmdBusy_pending ..) fun _ => saeDone_pending ..
  · simp only [ite_pending, nodeCheck_pending, clearSaeKey_pending, slotCheck_pending, boundary_pending, ite_self]

@[simp] theorem saChange_pending (s : SliceId) (ch : ChIx) (an : An) (w : Word) (allowed : ChRec → SlotState → Bool)
    (q : SlotChange) (st : State) : (saChange s ch an w allowed q st).pending = st.pending := by
  unfold saChange
  refine (saeJudge_pending (fun st => ?_) _).trans ((slotCheck_pending ..).trans (boundary_pending ..))
  exact (saeDone_pending ..).trans (modCh_pending ..)

@[simp] theorem saActivate_pending (s : SliceId) (ch : ChIx) (an : An) (w : Word) (st : State) :
    (saActivate s ch an w st).pending = st.pending := by
  simp only [saActivate, saChange_pending]

@[simp] theorem saRetire_pending (s : SliceId) (ch : ChIx) (an : An) (w : Word) (st : State) :
    (saRetire s ch an w st).pending = st.pending :=
  saChange_pending ..

@[simp] theorem saClear_pending (s : SliceId) (ch : ChIx) (an : An) (w : Word) (st : State) :
    (saClear s ch an w st).pending = st.pending :=
  saChange_pending ..

@[simp] theorem sciFindCmd_pending (s : SliceId) (w : Word) (st : State) :
    (sciFindCmd s w st).pending = st.pending := by
  unfold sciFindCmd
  split <;> simp only [saeDone_pending, hashEcc_pending, ite_pending, ite_self]

@[simp] theorem saeCmd_pending (s : SliceId) (w : Word) (st : State) : (saeCmd s w st).pending = st.pending := by
  unfold saeCmd
  split <;> simp only [chRead_pending, chWrite_pending, chDelete_pending, saRead_pending, saLoad_pending,
    saActivate_pending, saRetire_pending, saClear_pending, sciFindCmd_pending, setF_pending]

@[simp] theorem saePF_pending (s : SliceId) (w : Word) (st : State) : (saePF s w st).pending = st.pending := by
  simp only [saePF, cmdPF_pending, saeCmd_pending, clearSaeKey_pending, ite_pending, ite_self]

@[simp] theorem preFail_pending (s : SliceId) (ch : ChIx) (an : An) (reason : Nat) (st : State) :
    (preFail s ch an reason st).pending = st.pending := by
  simp only [preFail, raise_pending, count_pending, modCh_pending]

@[simp] theorem preInstall_pending (st : State) (s : SliceId) (ch : ChIx) :
    (preInstall st s ch).pending = st.pending := by
  have hinstall {st : State} {n req node : Nat} {src : Fin 4} {cls : Fin 3} {an : An} {key : Bytes} {salt : BitVec 96}
      {ssci : Word} {keySrc leaf : Bool} :
      (startInstall st src cls s ch an key salt ssci req keySrc leaf node id
        (preFail s ch an n)).pending = st.pending :=
    startInstall_pending (fun _ => rfl) fun _ => preFail_pending ..
  simp only [preInstall, hinstall, chanCheck_pending, nodeCheck_pending, preFail_pending, countN_pending, ite_pending,
    ite_self]

/-! ### Commands of the key tree (07) -/

@[simp] theorem ktrDone_pending (w : Word) (code : Nat) (st : State) : (ktrDone w code st).pending = st.pending := by
  simp only [ktrDone, cmdDone_pending, count_pending, ite_pending, ite_self]

@[simp] theorem putNode_pending (st : State) (n : Nat) (r : Node) : (putNode st n r).pending = st.pending := (rfl)

@[simp] theorem clearKtrKey_pending (st : State) : (clearKtrKey st).pending = st.pending := (rfl)

@[simp] theorem rootWrite_pending (w : Word) (st : State) : (rootWrite w st).pending = st.pending := by
  simp only [rootWrite, putNode_pending, clearKtrKey_pending, ktrDone_pending, ite_pending, ite_self]

@[simp] theorem derive_pending (w : Word) (st : State) : (derive w st).pending = st.pending := by
  simp only [derive, ktrDone_pending, stateRecord_pending]
  split <;> simp only [nodeCheck_pending, count_pending, putNode_pending, ite_pending, ite_self]

@[simp] theorem nodeRead_pending (w : Word) (st : State) : (nodeRead w st).pending = st.pending := by
  simp only [nodeRead, ktrDone_pending, nodeCheck_pending, foldl_wr_pending, ite_pending, ite_self]

@[simp] theorem revokeJobs_pending (st : State) (t : List Nat) : (revokeJobs st t).pending = st.pending := (rfl)

@[simp] theorem revokeUsers_pending (st : State) (t : List Nat) : (revokeUsers st t).pending = st.pending := by
  unfold revokeUsers
  refine (foldl_pending (fun st s => (modCtf_pending _ _ _).trans ?_) slices4 _).trans (revokeJobs_pending st t)
  refine foldl_pending (fun st p => foldl_pending (fun st an => ?_) ans st) _ st
  simp only [ite_pending, count_pending, slotDrop_pending, ite_self]

@[simp] theorem invalidate_pending (w : Word) (st : State) : (invalidate w st).pending = st.pending := by
  simp only [invalidate, nodeCheck_pending, orphanUsers_pending, revokeUsers_pending, ktrDone_pending,
    stateRecord_pending, ite_pending, ite_self]

@[simp] theorem ktrCmd_pending (w : Word) (st : State) : (ktrCmd w st).pending = st.pending := by
  unfold ktrCmd
  split <;> simp only [rootWrite_pending, derive_pending, nodeRead_pending, invalidate_pending, cmdDone_pending]

@[simp] theorem ktrPF_pending (w : Word) (st : State) : (ktrPF w st).pending = st.pending := by
  simp only [ktrPF, clearKtrKey_pending, count_pending, setF_pending, rootWrite_pending, cmdPF_pending, ktrCmd_pending,
    ite_pending, ite_self]

/-! ### Capsules (13) -/

@[simp] theorem instDiscard_pending (st : State) (i : InstId) : (instDiscard st i).pending = st.pending := by
  simp only [instDiscard, fcUpdateAll_pending, versionRetire_pending, foldl_pending, implies_true]

@[simp] theorem buildNode_pending (t : InstId) (st : State) (r : Bytes) : (buildNode t st r).pending = st.pending := by
  simp only [buildNode]
  repeat' split
  all_goals simp only [putNode_pending]

@[simp] theorem buildCh_pending (t : InstId) (st : State) (r : Bytes) : (buildCh t st r).pending = st.pending := by
  simp only [buildCh, modSl_pending, modCh_pending, ite_pending]
  repeat' split
  all_goals simp only [modSl_pending, modCh_pending, modHash_pending]

@[simp] theorem buildRule_pending (t : InstId) (st : State) (r : Bytes) :
    (buildRule t st r).pending = st.pending := (rfl)

@[simp] theorem buildMac_pending (t : InstId) (st : State) (r : Bytes) : (buildMac t st r).pending = st.pending := by
  simp only [buildMac]
  split <;> simp only [modMac_pending]

@[simp] theorem buildLpm_pending (t : InstId) (st : State) (r : Bytes) : (buildLpm t st r).pending = st.pending := by
  simp only [buildLpm]
  repeat' split
  all_goals simp only [drawFree_pending, modLpm_pending]

@[simp] theorem buildRcp_pending (t : InstId) (st : State) (r : Bytes) : (buildRcp t st r).pending = st.pending := (rfl)

@[simp] theorem buildCtrs_pending (st : State) (recs : List (Nat × Nat × Bytes)) :
    (buildCtrs st recs).pending = st.pending := by
  unfold buildCtrs
  exact foldl_pending (fun _ _ => modSl_pending _ _ _) _ st

@[simp] theorem slotPlaced_pending (st : State) (s : SliceId) (ch : ChIx) (an : An) :
    (slotPlaced st s ch an).pending = st.pending := by
  simp only [slotPlaced, raise_pending, ite_pending, ite_self]

@[simp] theorem restoreBuild_pending (st : State) (r : RestoreSt) : (restoreBuild st r).pending = st.pending := by
  unfold restoreBuild
  refine (modInst_pending _ _ _).trans ((buildCtrs_pending _ _).trans ((foldl_pending (fun st p => ?slot) _ _).trans
    (foldl_pending (fun st p => ?record) _ _)))
  case slot => exact (slotPlaced_pending ..).trans (modSlot_pending ..)
  case record =>
    split
    all_goals simp only [buildNode_pending, buildCh_pending, buildRule_pending, buildMac_pending, buildLpm_pending,
      buildRcp_pending]

/-! ### Tributaries (10) -/

@[simp] theorem modTrib_pending (st : State) (s : SliceId) (t : Nat) (f : TribSt → TribSt) :
    (modTrib st s t f).pending = st.pending :=
  (rfl)

@[simp] theorem modPos_pending (st : State) (s : SliceId) (t : Nat) (p : Fin 2) (f : KeyPos → KeyPos) :
    (modPos st s t p f).pending = st.pending :=
  (rfl)

@[simp] theorem modCtfLane_pending (st : State) (s : SliceId) (k : PortIx) (f : CtfLaneSt → CtfLaneSt) :
    (modCtfLane st s k f).pending = st.pending :=
  (rfl)

@[simp] theorem reserveTrib_pending (st : State) (s : SliceId) (t : Nat) (p : Fin 2) (tx : Bool) (req : Nat) :
    (reserveTrib st s t p tx req).pending = st.pending := by
  unfold reserveTrib
  split <;> simp only [modPos_pending, jnlRequest_pending, ite_pending, ite_self]

@[simp] theorem tribCheck_pending (st : State) (s : SliceId) (t : Nat) (p : Fin 2) (tx : Bool) (pos res : Nat)
    (pend : Bool) : (tribCheck st s t p tx pos res pend).pending = st.pending := by
  simp only [tribCheck, reserveTrib_pending, ite_pending, ite_self]

@[simp] theorem tribReserve_pending (st : State) (s : SliceId) (t : Nat) (fc : Nat) :
    (tribReserve st s t fc).pending = st.pending := by
  unfold tribReserve
  refine foldl_pending (fun st p => ?_) positions st
  split
  · rfl
  · simp only [ite_pending, tribCheck_pending, ite_self]

@[simp] theorem jumpDone_pending (st : State) (s : SliceId) (t : Nat) (p : Fin 2) :
    (jumpDone st s t p).pending = st.pending :=
  (rfl)

@[simp] theorem jumpReserved_pending (st : State) (s : SliceId) (t : Nat) (p : Fin 2) (res : Nat) :
    (jumpReserved st s t p res).pending = st.pending := by
  unfold jumpReserved
  split <;> simp only [jumpDone_pending, ite_pending, ite_self]

@[simp] theorem applyRes_pending (st : State) (u : JUse) : (applyRes st u).pending = st.pending := by
  unfold applyRes
  repeat' split
  all_goals simp only [modSlot_pending, reserveSlot_pending, modPos_pending, jumpReserved_pending, reserveTrib_pending,
    ite_pending, ite_self]

@[simp] theorem requestJump_pending (st : State) (s : SliceId) (t : Nat) (p : Fin 2) (start : Nat) :
    (requestJump st s t p start).pending = st.pending := by
  simp only [requestJump, reserveTrib_pending, modCtfLane_pending, foldl_pending, implies_true]

@[simp] theorem releasePos_pending (st : State) (s : SliceId) (t : Nat) (p : Fin 2) :
    (releasePos st s t p).pending = st.pending := by
  unfold releasePos
  split <;> simp only [dropUse_pending, modTrib_pending, jumpDone_pending, leaveRecord_pending]

@[simp] theorem tribDone_pending (s : SliceId) (w : Word) (code : Nat) (st : State) :
    (tribDone s w code st).pending = st.pending :=
  (rfl)

@[simp] theorem placePos_pending (st : State) (s : SliceId) (t : Nat) (p : Fin 2) (k : KeyPos) :
    (placePos st s t p k).pending = st.pending := by
  simp only [placePos, modTrib_pending, tribDone_pending, requestJump_pending, modPos_pending, ite_pending, ite_self]

@[simp] theorem installCommitted_pending (st : State) (s : SliceId) (t : Nat) (tx : Bool) (ix : Nat) :
    (installCommitted st s t tx ix).pending = st.pending := by
  unfold installCommitted
  repeat' split
  all_goals simp only [modTrib_pending, placePos_pending, ite_pending, ite_self]

@[simp] theorem installFailed_pending (st : State) (s : SliceId) (t : Nat) :
    (installFailed st s t).pending = st.pending :=
  (rfl)

@[simp] theorem markDefects_pending (st : State) (s : SliceId) : (markDefects st s).pending = st.pending := (rfl)

@[simp] theorem perfSecond_pending (st : State) : (perfSecond st).pending = st.pending := by
  simp only [perfSecond, markDefects_pending, modCtf_pending, foldl_pending, implies_true]

/-! ### The Cipher Transport Frame (10) -/

@[simp] theorem revokeLane_pending (st : State) (s : SliceId) (k : PortIx) : (revokeLane st s k).pending = st.pending :=
  (rfl)

@[simp] theorem moveTxPos_pending (st : State) (s : SliceId) (t : Nat) : (moveTxPos st s t).pending = st.pending := by
  unfold moveTxPos
  repeat' split
  all_goals simp only [modTrib_pending, releasePos_pending]

@[simp] theorem multiframe_pending (st : State) (s : SliceId) (k : PortIx) :
    (multiframe st s k).pending = st.pending := by
  unfold multiframe
  dsimp only
  split
  · rfl
  · generalize hmoved : (List.foldl _ _ _ : State) = st1
    have hst1 : st1.pending = st.pending := by
      rw [← hmoved]
      refine (foldl_pending (fun st p => ?_) _ _).trans ((modCtf_pending ..).trans ?_)
      · split
        · simp only [ite_pending, moveTxPos_pending, ite_self]
        · rfl
      · split
        · simp only [ite_pending, modCtfLane_pending, modCtf_pending, ite_self]
        · rfl
    split
    · simp only [ite_pending, count_pending, modCtfLane_pending, hst1, ite_self]
    · exact hst1

@[simp] theorem takeBlocks_pending (st : State) (s : SliceId) (t n : Nat) :
    (takeBlocks st s t n).2.pending = st.pending := by
  simp only [takeBlocks]
  repeat' split
  all_goals simp only [modCtf_pending, drawFree_pending]

@[simp] theorem sealTrib_pending (st : State) (s : SliceId) (k : PortIx) (i fc : Nat) (pt : Bytes) :
    (sealTrib st s k i fc pt).2.pending = st.pending := by
  simp only [sealTrib]
  repeat' split
  all_goals simp only [modTrib_pending, pcEvent_pending]

@[simp] theorem putTrib_pending (s : SliceId) (k : PortIx) (fc : Nat) (a : Bytes × State) (i : Nat) :
    (putTrib s k fc a i).2.pending = a.2.pending := by
  unfold putTrib
  dsimp only
  split
  · rfl
  · have hseal := sealTrib_pending (takeBlocks a.2 s (tribNo k i) (slotsOf (txPage a.2 s k) i).length).2 s k i fc
      (mapBlocks (slotsOf (txPage a.2 s k) i).length
        (takeBlocks a.2 s (tribNo k i) (slotsOf (txPage a.2 s k) i).length).1)
    rw [takeBlocks_pending] at hseal
    split
    all_goals
      next h =>
        rw [h] at hseal
        exact hseal

@[simp] theorem putTilora_pending (s : SliceId) (k : PortIx) (fc : Nat) (b : Bytes) (st : State) :
    (putTilora s k fc b st).2.pending = st.pending := by
  unfold putTilora
  dsimp only
  generalize hr : (laneTribs st s k).foldl _ (b, st) = r
  have hfold : r.2.pending = st.pending := by
    rw [← hr]
    refine foldl_snd_pending (fun a p => ?_) (laneTribs st s k) (b, st)
    simp only [apply_ite Prod.snd, ite_pending, takeBlocks_pending, ite_self]
  have hseal := (sealTrib_pending r.2 s k 0 fc (takeSlots true r.1 (List.range 120))).trans hfold
  split
  all_goals
    next h =>
      rw [h] at hseal
      exact hseal

@[simp] theorem ctfInject_pending (st : State) (s : SliceId) (k : PortIx) (b : Bytes) :
    (ctfInject st s k b).2.pending = st.pending := by
  simp only [ctfInject]
  repeat' split
  all_goals simp only [modCtfLane_pending]

@[simp] theorem reserveLane_pending (st : State) (s : SliceId) (k : PortIx) :
    (reserveLane st s k).pending = st.pending := by
  simp only [reserveLane, tribReserve_pending, foldl_pending, implies_true]

@[simp] theorem sendCtf_pending (s : SliceId) (st : State) (k : PortIx) : (sendCtf s st k).pending = st.pending := by
  have hput (st : State) (til : Bool) (fc : Nat) (b : Bytes) : (if til then putTilora s k fc b st
      else (laneTribs st s k).foldl (fun a p => putTrib s k fc a p.1) (b, st)).2.pending = st.pending := by
    split
    · exact putTilora_pending ..
    · refine foldl_snd_pending (fun a p => ?_) _ (b, st)
      exact putTrib_pending ..
  unfold sendCtf
  split
  · rfl
  · simp only [reserveLane_pending, ite_pending, emit_pending, digPort_pending, modCtfLane_pending, ctfInject_pending,
    hput, multiframe_pending, revokeLane_pending, ite_self]

@[simp] theorem faultFill_pending (st : State) (s : SliceId) (cp : PortIx) :
    (faultFill st s cp).2.pending = st.pending :=
  (rfl)

@[simp] theorem deliver_pending (s : SliceId) (t : Nat) (b : Option Bytes) (st : State) :
    (deliver s t b st).pending = st.pending := by
  simp only [deliver]
  repeat' split
  all_goals simp only [faultFill_pending, sendPort_pending]

@[simp] theorem slipRead_pending (s : SliceId) (st : State) (p : Nat × TribSt) :
    (slipRead s st p).pending = st.pending := by
  simp only [slipRead, deliver_pending, modTrib_pending, ite_pending]
  repeat' split
  all_goals simp only [deliver_pending, modTrib_pending, raise_pending]

@[simp] theorem addBlocks_pending (st : State) (s : SliceId) (bs : List (PortIx × List (Option (BitVec 66)))) :
    (addBlocks st s bs).pending = st.pending :=
  (rfl)

@[simp] theorem dropBlocks_pending (st : State) (s : SliceId) : (dropBlocks st s).pending = st.pending := (rfl)

@[simp] theorem slipPut_pending (st : State) (s : SliceId) (t : Nat) (b : Option Bytes) :
    (slipPut st s t b).pending = st.pending :=
  (rfl)

@[simp] theorem moveRxPos_pending (st : State) (s : SliceId) (t : Nat) (p : Fin 2) :
    (moveRxPos st s t p).pending = st.pending := by
  unfold moveRxPos
  repeat' split
  all_goals simp only [modTrib_pending, releasePos_pending]

@[simp] theorem openTrib_pending (st : State) (s : SliceId) (k : PortIx) (i fc : Nat) (an : An) (page : Bool)
    (ct tag : Bytes) : (openTrib st s k i fc an page ct tag).2.pending = st.pending := by
  simp only [openTrib]
  repeat' split
  all_goals simp only [modTrib_pending, pcEvent_pending, reserveTrib_pending, moveRxPos_pending, modPos_pending]

@[simp] theorem openLane_pending (st : State) (s : SliceId) (k : PortIx) (fc : Nat) (b : Bytes) :
    (openLane st s k fc b).pending = st.pending := by
  simp only [openLane, openTrib_pending, slipPut_pending, foldl_pending, implies_true, ite_pending, ite_self]

@[simp] theorem rxSwap_pending (st : State) (s : SliceId) (k : PortIx) : (rxSwap st s k).pending = st.pending := (rfl)

@[simp] theorem traceByte_pending (st : State) (s : SliceId) (k : PortIx) (b : Byte) :
    (traceByte st s k b).pending = st.pending := by
  simp only [traceByte]
  split <;> simp only [modCtfLane_pending, count_pending, ite_pending, ite_self]

@[simp] theorem labelRx_pending (st : State) (s : SliceId) (t fc : Nat) (l n : Byte) :
    (labelRx st s t fc l n).pending = st.pending :=
  (rfl)

@[simp] theorem ownerRx_pending (st : State) (s : SliceId) (k : PortIx) (j : Nat) (o : Byte) :
    (ownerRx st s k j o).pending = st.pending := by
  simp only [ownerRx, modCtfLane_pending, count_pending, ite_pending, ite_self]

@[simp] theorem fawRx_pending (st : State) (s : SliceId) (k : PortIx) (b : Bytes) :
    (fawRx st s k b).pending = st.pending := by
  simp only [fawRx, modCtfLane_pending, laneBack_pending, ite_pending, ite_self]

@[simp] theorem markerRx_pending (st : State) (s : SliceId) (k : PortIx) (m : Option Bool) :
    (markerRx st s k m).pending = st.pending := by
  unfold markerRx
  split <;> simp only [modCtfLane_pending, laneBack_pending, ite_pending, ite_self]

@[simp] theorem seekRx_pending (st : State) (s : SliceId) (k : PortIx) (b : Bytes) :
    (seekRx st s k b).pending = st.pending := by
  simp only [seekRx, modCtfLane_pending, pcsLocked_pending, ite_pending, ite_self]

@[simp] theorem bipRx_pending (st : State) (s : SliceId) (k : PortIx) (b : Bytes) :
    (bipRx st s k b).pending = st.pending := by
  simp only [bipRx, count_pending, modCtfLane_pending, ite_pending, ite_self]

@[simp] theorem fsyncApply_pending (s : SliceId) (off : Int) (st : State) :
    (fsyncApply s off st).pending = st.pending :=
  (rfl)

@[simp] theorem alignStrobe_pending (s : SliceId) (w : Word) (st : State) :
    (alignStrobe s w st).pending = st.pending := by
  simp only [alignStrobe, modCtf_pending, ite_pending, ite_self]

@[simp] theorem traceExpWrite_pending (s : SliceId) (k : PortIx) (w : Nat) (v : Word) (st : State) :
    (traceExpWrite s k w v st).pending = st.pending :=
  (rfl)

@[simp] theorem tribJudge_pending {s : SliceId} {w : Word} {i : InstId} {causes : List (Bool × Nat)}
    {ok : State → State} (hok : ∀ st, (ok st).pending = st.pending) (st : State) :
    (tribJudge s w i causes ok st).pending = st.pending := by
  simp only [tribJudge, hok, tribDone_pending, stateRecord_pending, pickCode_pending, ite_pending, ite_self]

@[simp] theorem tribRead_pending (s : SliceId) (k : PortIx) (i : Nat) (w : Word) (st : State) :
    (tribRead s k i w st).pending = st.pending := by
  simp only [tribRead, tribDone_pending, foldl_wr_pending, ite_pending, ite_self]

@[simp] theorem tribWrite_pending (s : SliceId) (k : PortIx) (i : Nat) (w : Word) (st : State) :
    (tribWrite s k i w st).pending = st.pending := by
  unfold tribWrite
  exact tribJudge_pending (fun _ => (tribDone_pending ..).trans (modCtf_pending ..)) st

theorem installRules_pending {st : State} {s : SliceId} {t : Nat} {p : Fin 2} {an : An} {x : TribSt} {n : Nat}
    {r : Node} {st' : State} (h : installRules st s t p an x n r = .ok st') : st'.pending = st.pending := by
  unfold installRules at h
  dsimp only at h
  split at h
  next => cases h
  next =>
    split at h
    next => cases h
    next =>
      cases h
      repeat' split
      all_goals simp only [modTrib_pending, jnlRequest_pending, evict_pending]

@[simp] theorem tribInstall_pending (s : SliceId) (k : PortIx) (i : Nat) (an : An) (w : Word) (st : State) :
    (tribInstall s k i an w st).pending = st.pending := by
  unfold tribInstall
  refine (tribJudge_pending (fun st => ?_) _).trans (nodeCheck_pending ..)
  split
  next =>
    split
    next => simp only [tribDone_pending, jnlRefused_pending]
    next h => exact (cmdBusy_pending ..).trans (installRules_pending h)
  next => exact tribDone_pending ..

@[simp] theorem tribSwitch_pending (s : SliceId) (k : PortIx) (i : Nat) (w : Word) (st : State) :
    (tribSwitch s k i w st).pending = st.pending := by
  unfold tribSwitch
  exact tribJudge_pending (fun _ => (tribDone_pending ..).trans (modTrib_pending ..)) st

@[simp] theorem tribClear_pending (s : SliceId) (k : PortIx) (i : Nat) (an : An) (w : Word) (st : State) :
    (tribClear s k i an w st).pending = st.pending := by
  unfold tribClear
  refine tribJudge_pending (fun st => (tribDone_pending ..).trans ?_) st
  split
  · exact releasePos_pending ..
  · rfl

@[simp] theorem tribDelete_pending (s : SliceId) (k : PortIx) (i : Nat) (w : Word) (st : State) :
    (tribDelete s k i w st).pending = st.pending := by
  unfold tribDelete
  exact tribJudge_pending (fun _ => (tribDone_pending ..).trans (modCtf_pending ..)) st

@[simp] theorem pmRead_pending (s : SliceId) (k : PortIx) (i : Nat) (w : Word) (st : State) :
    (pmRead s k i w st).pending = st.pending := by
  unfold pmRead
  repeat' split
  all_goals rfl

@[simp] theorem tribCmd_pending (s : SliceId) (w : Word) (st : State) : (tribCmd s w st).pending = st.pending := by
  unfold tribCmd
  split <;> simp only [tribRead_pending, tribWrite_pending, tribInstall_pending, tribSwitch_pending, tribClear_pending,
    tribDelete_pending, pmRead_pending, tribDone_pending]

@[simp] theorem pageDone_pending (s : SliceId) (w : Word) (code : Nat) (st : State) :
    (pageDone s w code st).pending = st.pending :=
  (rfl)

@[simp] theorem modTsi_pending (st : State) (s : SliceId) (d : Side) (k : PortIx) (f : TsiMem → TsiMem) :
    (modTsi st s d k f).pending = st.pending :=
  (rfl)

@[simp] theorem pageRead_pending (s : SliceId) (d : Side) (act : Bool) (k : PortIx) (slot : Nat) (w : Word)
    (st : State) : (pageRead s d act k slot w st).pending = st.pending := by
  simp only [pageRead, pageDone_pending, ite_pending, ite_self]

@[simp] theorem pageWrite_pending (s : SliceId) (d : Side) (k : PortIx) (slot i : Nat) (w : Word) (st : State) :
    (pageWrite s d k slot i w st).pending = st.pending := by
  simp only [pageWrite, pickCode_pending, pageDone_pending, modTsi_pending, ite_pending, ite_self]

@[simp] theorem pageCopy_pending (s : SliceId) (d : Side) (w : Word) (st : State) :
    (pageCopy s d w st).pending = st.pending := by
  simp only [pageCopy, pageDone_pending, modTsi_pending, foldl_pending, implies_true, ite_pending, ite_self]

@[simp] theorem pageSwap_pending (s : SliceId) (w : Word) (st : State) : (pageSwap s w st).pending = st.pending := by
  simp only [pageSwap, pickCode_pending, pageDone_pending, modCtfLane_pending, modCtf_pending, foldl_pending,
    implies_true, ite_pending, ite_self]

@[simp] theorem pageCmd_pending (s : SliceId) (w : Word) (st : State) : (pageCmd s w st).pending = st.pending := by
  unfold pageCmd
  split <;> simp only [pageRead_pending, pageWrite_pending, pageCopy_pending, pageSwap_pending, pageDone_pending]

/-! ### Lines and counters of external memory (14) -/

theorem cacheRoom_pending {st st' : State} (h : cacheRoom st = some st') : st'.pending = st.pending := by
  unfold cacheRoom at h
  split at h
  · cases h; rfl
  · obtain ⟨p, -, rfl⟩ := Option.map_eq_some_iff.mp h
    exact modMee_pending ..

theorem takeNode_pending {st st' : State} {l n : Nat} {b : Bytes} (h : takeNode st l n b = .ok st') :
    st'.pending = st.pending := by
  unfold takeNode at h
  dsimp only at h
  split at h
  · cases h
  · split at h
    next => cases h
    next hroom =>
      cases h
      exact (modMee_pending ..).trans ((cacheRoom_pending hroom).trans (count_pending ..))

theorem fetchNode_pending {f : Nat} {st st' : State} {l n : Nat} (h : fetchNode f st l n = .ok st') :
    st'.pending = st.pending := by
  induction f generalizing st st' l n with
  | zero => cases h; rfl
  | succ f ih =>
    unfold fetchNode at h
    split at h
    · cases h; rfl
    · split at h
      next => cases h
      next st1 hup =>
        refine (takeNode_pending h).trans ?_
        split at hup
        · cases hup; rfl
        · exact ih hup

theorem fetchCtr_pending {st st' : State} {l n : Nat} (h : fetchCtr st l n = .ok st') : st'.pending = st.pending := by
  unfold fetchCtr at h
  split at h
  · cases h; rfl
  · exact fetchNode_pending h

@[simp] theorem setCtr_pending (st : State) (l n v : Nat) : (setCtr st l n v).pending = st.pending := by
  simp only [setCtr, modMee_pending, ite_pending, ite_self]

@[simp] theorem meeWrite_pending (f : Nat) (st : State) (a : Nat) (bs : Bytes) :
    (meeWrite f st a bs).pending = st.pending := by
  induction f generalizing st a bs with
  | zero => rfl
  | succ f ih =>
    unfold meeWrite
    split
    · rfl
    · exact (ih ..).trans (modMee_pending ..)

@[simp] theorem arcPut_pending (st : State) (n : Nat) (e : ArcEnt) : (arcPut st n e).pending = st.pending :=
  (meeWrite_pending ..).trans (modMee_pending ..)

@[simp] theorem arcFree_pending (st : State) (n : Nat) : (arcFree st n).pending = st.pending :=
  (meeWrite_pending ..).trans (modMee_pending ..)

@[simp] theorem arcDrop_pending (st : State) (i : InstId) : (arcDrop st i).pending = st.pending := by
  simp only [arcDrop, arcFree_pending, foldl_pending, implies_true]

/-! ### The journal in service (09) -/

@[simp] theorem pnjDone_pending (w : Word) (code : Nat) (st : State) : (pnjDone w code st).pending = st.pending := (rfl)

@[simp] theorem pnjEnd_pending (st : State) (code : Nat) : (pnjEnd st code).pending = st.pending := (rfl)

@[simp] theorem tombEnd_pending (st : State) : (tombEnd st).pending = st.pending := by
  simp only [tombEnd, pnjEnd_pending, modJnl_pending, ite_pending, ite_self]

@[simp] theorem slotInstalled_pending (st : State) (src : Fin 4) (s : SliceId) (ch : ChIx) (an : An) (x : Slot)
    (ix : Nat) : (slotInstalled st src s ch an x ix).pending = st.pending := by
  unfold slotInstalled
  repeat' split
  all_goals simp only [count_pending, restoreBuild_pending, cmdDone_pending, modSlot_pending, modSl_pending,
    slotPlaced_pending, arcFree_pending, ite_pending, ite_self]

@[simp] theorem restoreFail_pending (st : State) (code sec : Nat) :
    (restoreFail st code sec).pending = st.pending := (rfl)

@[simp] theorem installRefused_pending (st : State) (u : JUse) : (installRefused st u).pending = st.pending := by
  unfold installRefused
  repeat' split
  all_goals simp only [jnlRefused_pending, cmdDone_pending, preFail_pending, setF_pending, restoreFail_pending,
    installFailed_pending]

@[simp] theorem committed_pending (st : State) (u : JUse) (ix : Nat) : (committed st u ix).pending = st.pending := by
  unfold committed
  split <;> simp only [count_pending, modJnl_pending, modSlot_pending, modPos_pending, jumpReserved_pending,
    slotInstalled_pending, installCommitted_pending, pnjEnd_pending, tombEnd_pending, ite_pending, ite_self]

@[simp] theorem jnlTake_pending (n : Nat) (st : State) : (jnlTake n st).2.pending = st.pending := by
  induction n generalizing st with
  | zero => rfl
  | succ n ih =>
    unfold jnlTake
    dsimp only
    split
    · rfl
    next r _ =>
      generalize (if r.tomb then _ else 0 : Nat) = code
      split
      · exact (modJnl_pending ..).trans (modJnl_pending ..)
      · refine (ih _).trans ?_
        split
        all_goals simp only [pnjEnd_pending, tombEnd_pending, modJnl_pending]

@[simp] theorem trimHeld_pending (n : Nat) (st : State) : (trimHeld n st).pending = st.pending := by
  induction n generalizing st with
  | zero => rfl
  | succ n ih =>
    unfold trimHeld
    split
    · rfl
    · split
      · rfl
      · exact (ih _).trans (evict_pending ..)

@[simp] theorem pnjRead_pending (w : Word) (st : State) : (pnjRead w st).pending = st.pending := (rfl)

@[simp] theorem pnjFind_pending (w : Word) (st : State) : (pnjFind w st).pending = st.pending := by
  unfold pnjFind
  repeat' split
  all_goals simp only [pnjDone_pending]

@[simp] theorem pnjDestroy_pending (w : Word) (st : State) : (pnjDestroy w st).pending = st.pending := by
  simp only [pnjDestroy, pnjDone_pending, ite_pending]
  repeat' split
  all_goals simp only [pnjDone_pending, jnlRequest_pending, cmdBusy_pending]

@[simp] theorem pnjTombDormant_pending (w : Word) (st : State) : (pnjTombDormant w st).pending = st.pending := by
  simp only [pnjTombDormant, pnjDone_pending, cmdBusy_pending, tombEnd_pending, modJnl_pending, ite_pending, ite_self]

@[simp] theorem pnjAckDamage_pending (w : Word) (st : State) : (pnjAckDamage w st).pending = st.pending := by
  simp only [pnjAckDamage, pnjDone_pending, modJnl_pending, ite_pending, ite_self]

@[simp] theorem pnjCmd_pending (w : Word) (st : State) : (pnjCmd w st).pending = st.pending := by
  unfold pnjCmd
  split <;> simp only [pnjDone_pending, pnjRead_pending, pnjFind_pending, pnjDestroy_pending, pnjTombDormant_pending,
    pnjAckDamage_pending, pickCode_pending]

/-! ### Statistics (19) -/

@[simp] theorem takeSnap_pending (st : State) : (takeSnap st).pending = st.pending := (rfl)

@[simp] theorem snapStrobe_pending (st : State) : (snapStrobe st).pending = st.pending := by
  simp only [snapStrobe, setF_pending, takeSnap_pending, ite_pending, ite_self]

@[simp] theorem scWrite_pending (st : State) (a : Nat) (vs : List (BitVec 64)) :
    (scWrite st a vs).pending = st.pending := by
  unfold scWrite
  exact foldl_pending (fun _ _ => (wr_pending ..).trans (wr_pending ..)) _ st

@[simp] theorem pmuScCmd_pending (w : Word) (st : State) : (pmuScCmd w st).pending = st.pending := by
  simp only [pmuScCmd, pickCode_pending, scWrite_pending, cmdDone_pending, ite_pending, ite_self]

@[simp] theorem vfScCmd_pending (i : InstId) (w : Word) (st : State) : (vfScCmd i w st).pending = st.pending := by
  simp only [vfScCmd, wr_pending, pickCode_pending, scWrite_pending, cmdDone_pending, ite_pending, ite_self]

@[simp] theorem bumpVf_pending (st : State) (i : InstId) (n : Fin 8) : (bumpVf st i n).pending = st.pending := (rfl)

@[simp] theorem bwRestart_pending (st : State) : (bwRestart st).pending = st.pending := (rfl)

@[simp] theorem modPc_pending (st : State) (s : SliceId) (f : PcSt → PcSt) :
    (modPc st s f).pending = st.pending := (rfl)

@[simp] theorem pcStrobe_pending (s : SliceId) (w : Word) (st : State) : (pcStrobe s w st).pending = st.pending := by
  unfold pcStrobe
  repeat' split
  all_goals simp only [modPc_pending]

@[simp] theorem pcClocks_pending (st : State) (s : SliceId) : (pcClocks st s).pending = st.pending := by
  simp only [pcClocks, modPc_pending, pcEvent_pending, foldl_pending, implies_true, ite_pending, ite_self]

/-! ### Virtual instances (13) -/

@[simp] theorem doorbell_pending (i : InstId) (st : State) : (doorbell i st).pending = st.pending := by
  simp only [doorbell, modInst_pending, raise_pending, count_pending, ite_pending, ite_self]

@[simp] theorem mbxDone_pending (w : Word) (code : Nat) (st : State) : (mbxDone w code st).pending = st.pending := (rfl)

@[simp] theorem mbxRead_pending (i : InstId) (w : Word) (st : State) : (mbxRead i w st).pending = st.pending := by
  simp only [mbxRead, mbxDone_pending, foldl_wr_pending, ite_pending, ite_self]

@[simp] theorem mbxRespond_pending (i : InstId) (w : Word) (st : State) : (mbxRespond i w st).pending = st.pending := by
  simp only [mbxRespond, mbxDone_pending, hostOut_pending, modInst_pending, foldl_wr_pending, ite_pending, ite_self]

@[simp] theorem mbxCmd_pending (w : Word) (st : State) : (mbxCmd w st).pending = st.pending := by
  unfold mbxCmd
  split <;> simp only [mbxRead_pending, mbxRespond_pending, mbxDone_pending]

@[simp] theorem vimDone_pending (w : Word) (code : Nat) (st : State) : (vimDone w code st).pending = st.pending := (rfl)

@[simp] theorem vimRefuse_pending (w : Word) (code : Nat) (i : InstId) (s : SliceId) (st : State) :
    (vimRefuse w code i s st).pending = st.pending := by
  simp only [vimRefuse, vimDone_pending, stateRecord_pending]

@[simp] theorem setInst_pending (st : State) (i : InstId) (q : InstState) :
    (setInst st i q).pending = st.pending := (rfl)

@[simp] theorem vimEnable_pending (i : InstId) (w : Word) (st : State) : (vimEnable i w st).pending = st.pending := by
  simp only [vimEnable, vimRefuse_pending, vimDone_pending, setInst_pending, ite_pending, ite_self]

@[simp] theorem startQuiesce_pending (st : State) (i : InstId) : (startQuiesce st i).pending = st.pending := (rfl)

@[simp] theorem vimQuiesce_pending (i : InstId) (w : Word) (st : State) : (vimQuiesce i w st).pending = st.pending := by
  simp only [vimQuiesce, vimRefuse_pending, vimDone_pending, startQuiesce_pending, ite_pending, ite_self]

@[simp] theorem vimFreeze_pending (i : InstId) (w : Word) (st : State) : (vimFreeze i w st).pending = st.pending := by
  simp only [vimFreeze, vimRefuse_pending, vimDone_pending, setInst_pending, ite_pending, ite_self]

@[simp] theorem thawSlots_pending (st : State) (i : InstId) : (thawSlots st i).pending = st.pending := by
  unfold thawSlots
  split
  · rfl
  · refine (modInst_pending ..).trans (foldl_pending (fun st s => foldl_pending (fun st c => ?_) _ st) slices4 st)
    exact foldl_pending (fun _ _ => modSlot_pending ..) ans st

@[simp] theorem vimThaw_pending (i : InstId) (w : Word) (st : State) : (vimThaw i w st).pending = st.pending := by
  simp only [vimThaw, vimRefuse_pending, vimDone_pending, setInst_pending, thawSlots_pending, ite_pending, ite_self]

@[simp] theorem dropChans_pending (i : InstId) (st : State) (s : SliceId) :
    (dropChans i st s).pending = st.pending := by
  simp only [dropChans, slotEmpty_pending, sciRemove_pending, modSl_pending, foldl_pending, implies_true]

@[simp] theorem dropRcps_pending (i : InstId) (st : State) (s : SliceId) : (dropRcps i st s).pending = st.pending := by
  unfold dropRcps
  exact foldl_pending (fun _ _ => (wrA_pending ..).trans (wr_pending ..)) _ st

@[simp] theorem dropTribs_pending (i : InstId) (st : State) (s : SliceId) :
    (dropTribs i st s).pending = st.pending := by
  simp only [dropTribs, modCtf_pending, releasePos_pending, foldl_pending, implies_true]

@[simp] theorem dropSlice_pending (i : InstId) (st : State) (s : SliceId) :
    (dropSlice i st s).pending = st.pending := by
  simp only [dropSlice, dropTribs_pending, dropRcps_pending, dropChans_pending, modRules_pending, modLpm_pending,
    modMac_pending]

@[simp] theorem dropNodes_pending (st : State) (i : InstId) :
    (dropNodes st i).pending = st.pending := revokeUsers_pending ..

@[simp] theorem clearVfPage_pending (st : State) (i : InstId) : (clearVfPage st i).pending = st.pending := by
  simp only [clearVfPage, ite_pending, ite_self]

@[simp] theorem instClear_pending (st : State) (i : InstId) (remove : Bool) :
    (instClear st i remove).pending = st.pending := by
  simp only [instClear, dropNodes_pending, dropSlice_pending, arcDrop_pending, clearVfPage_pending, modInst_pending,
    foldl_pending, implies_true]

@[simp] theorem vimReset_pending (i : InstId) (remove : Bool) (w : Word) (st : State) :
    (vimReset i remove w st).pending = st.pending := by
  simp only [vimReset, vimRefuse_pending, vimDone_pending, instClear_pending, ite_pending, ite_self]

@[simp] theorem quiesced_pending (st : State) (i : InstId) : (quiesced st i).pending = st.pending := by
  simp only [quiesced, raise_pending, modInst_pending, instClear_pending, ite_pending, ite_self]

@[simp] theorem flrRings_pending (st : State) (i : InstId) : (flrRings st i).pending = st.pending := by
  simp only [flrRings, modInst_pending, setF_pending, foldl_pending, implies_true]

@[simp] theorem vfFlr_pending (st : State) (i : InstId) : (vfFlr st i).pending = st.pending := by
  simp only [vfFlr, ite_pending]
  repeat' split
  all_goals simp only [flrRings_pending, modInst_pending, startQuiesce_pending, instClear_pending]

@[simp] theorem shareUpdate_pending (st : State) (s : SliceId) : (shareUpdate st s).pending = st.pending := by
  simp only [shareUpdate, raise_pending, modInst_pending, foldl_pending, implies_true, ite_pending, ite_self]

@[simp] theorem vimShareWrite_pending (i : InstId) (s : SliceId) (w : Word) (st : State) :
    (vimShareWrite i s w st).pending = st.pending := by
  unfold vimShareWrite
  split <;> simp only [pickCode_pending, vimRefuse_pending, modInst_pending, vimDone_pending, shareUpdate_pending,
    ite_pending, ite_self]

@[simp] theorem vimShareRead_pending (i : InstId) (s : SliceId) (w : Word) (st : State) :
    (vimShareRead i s w st).pending = st.pending := by
  simp only [vimShareRead, vimDone_pending, wr_pending, ite_pending, ite_self]

@[simp] theorem vimStateRead_pending (i : InstId) (w : Word) (st : State) :
    (vimStateRead i w st).pending = st.pending := by
  simp only [vimStateRead, vimDone_pending, setF_pending, ite_pending, ite_self]

@[simp] theorem capStage_pending (st : State) (bs : Bytes) :
    (capStage st bs).pending = st.pending := meeWrite_pending ..

@[simp] theorem exportSlots_pending (st : State) (i : InstId) : (exportSlots st i).pending = st.pending := by
  simp only [exportSlots, slotLeaves_pending, modCh_pending, modSlot_pending, foldl_pending, implies_true]

@[simp] theorem vimSave_pending (i : InstId) (w : Word) (st : State) : (vimSave i w st).pending = st.pending := by
  simp only [vimSave, nodeCheck_pending, vimRefuse_pending, ite_pending]
  repeat' split
  all_goals simp only [nodeCheck_pending, pickCode_pending, setF_pending, vimDone_pending, draw_pending,
    capStage_pending, dma_pending, arcDrop_pending, exportSlots_pending, count_pending]

theorem restoreSlot_pending {t : InstId} {st st' : State} {x : SliceId × ChIx × An × ChRec × Bytes × Slot}
    (h : restoreSlot t st x = .ok st') : st'.pending = st.pending := by
  unfold restoreSlot at h
  dsimp only at h
  split at h
  next => cases h
  next =>
    cases h
    split
    all_goals simp only [modInst_pending, jnlRequest_pending, evict_pending]

theorem restoreSlots_pending {t : InstId} {ck : Bytes} {recs : List (Nat × Nat × Bytes)} {rs : List (Nat × Bytes)}
    {st st' : State} (h : restoreSlots t ck recs rs st = .ok st') : st'.pending = st.pending := by
  induction rs generalizing st with
  | nil => cases h; rfl
  | cons r rs ih =>
    unfold restoreSlots at h
    split at h
    next => cases h
    next =>
      split at h
      next => cases h
      next hslot => exact (ih h).trans (restoreSlot_pending hslot)

@[simp] theorem vimRestore_pending (t : InstId) (w : Word) (st : State) : (vimRestore t w st).pending = st.pending := by
  unfold vimRestore
  dsimp only
  split
  · simp only [vimRefuse_pending, nodeCheck_pending]
  · split
    next => simp only [vimDone_pending, setF_pending, count_pending, nodeCheck_pending]
    next =>
      split
      next => simp only [vimDone_pending, setF_pending, count_pending, jnlRefused_pending, capStage_pending,
        nodeCheck_pending]
      next => simp only [vimDone_pending, setF_pending, count_pending, capStage_pending, nodeCheck_pending]
      next st' hslots =>
        have hst : st'.pending = st.pending := by
          rw [restoreSlots_pending hslots, capStage_pending, nodeCheck_pending]
        split
        · simp only [vimDone_pending, count_pending, restoreBuild_pending, hst]
        · exact (cmdBusy_pending ..).trans hst

@[simp] theorem vimCmd_pending (w : Word) (st : State) : (vimCmd w st).pending = st.pending := by
  unfold vimCmd
  split <;> simp only [vimEnable_pending, vimQuiesce_pending, vimFreeze_pending, vimThaw_pending, vimReset_pending,
    vimSave_pending, vimRestore_pending, vimShareWrite_pending, vimShareRead_pending, vimStateRead_pending,
      vimDone_pending]

/-! ### Punt and inject rings (18) -/

@[simp] theorem modRing_pending (st : State) (i : InstId) (r : Fin 16) (f : RingSt → RingSt) :
    (modRing st i r f).pending = st.pending :=
  (rfl)

@[simp] theorem ringAdvance_pending (st : State) (i : InstId) (r : Fin 16) :
    (ringAdvance st i r).pending = st.pending :=
  (rfl)

@[simp] theorem fireRing_pending (st : State) (i : InstId) (r : Fin 16) : (fireRing st i r).pending = st.pending := by
  simp only [fireRing, hostOut_pending, modRing_pending, ite_pending, ite_self]

@[simp] theorem ringModEnd_pending (st : State) (i : InstId) (r : Fin 16) :
    (ringModEnd st i r).pending = st.pending := by
  simp only [ringModEnd, fireRing_pending, ite_pending, ite_self]

@[simp] theorem punt_pending (st : State) (i : InstId) (q : Fin 8) (bs : Bytes) (n : PuntInfo) :
    (punt st i q bs n).pending = st.pending := by
  simp only [punt, digHost_pending, count_pending, bumpVf_pending, drawFree_pending, hostOut_pending, fireRing_pending,
    ringAdvance_pending, ite_pending, ite_self]

/-! ### A frame at a parser and classifier (03, 04) -/

@[simp] theorem prsCount_pending (st : State) (c : Pkt) (n : Nat) : (prsCount st c n).pending = st.pending := (rfl)

@[simp] theorem clsCount_pending (c : Pkt) (st : State) (n : Nat) : (clsCount c st n).pending = st.pending := (rfl)

@[simp] theorem arrive_pending (st : State) (s : SliceId) : (arrive st s).2.pending = st.pending := (rfl)

@[simp] theorem countParse_pending (st : State) (c : Pkt) (p : Parse) : (countParse st c p).pending = st.pending := by
  simp only [countParse, prsCount_pending, ite_pending, ite_self]

@[simp] theorem puntPkt_pending (st : State) (c : Pkt) (q : Fin 8) (reason code : Nat) (rule : Option Nat) :
    (puntPkt st c q reason code rule).pending = st.pending :=
  punt_pending ..

@[simp] theorem noteMal_pending (st : State) (c : Pkt) (f : Nat × Nat) : (noteMal st c f).pending = st.pending := (rfl)

@[simp] theorem malAction_pending (st : State) (c : Pkt) (f : Nat × Nat) (rule : Option Nat) :
    (malAction st c f rule).pending = st.pending := by
  simp only [malAction, puntPkt_pending, prsCount_pending, ite_pending, ite_self]

@[simp] theorem lookupRes_pending (st : State) (c : Pkt) (p : Parse) (ix : Nat) (r : RuleEnt) :
    (lookupRes st c p ix r).2.pending = st.pending := by
  simp only [lookupRes]
  repeat' split
  all_goals simp only [macLookup_pending, lpmLookup_pending]

@[simp] theorem ruleRes_pending (st : State) (c : Pkt) (p : Parse) (ix : Nat) (r : RuleEnt) :
    (ruleRes st c p ix r).2.pending = st.pending := by
  unfold ruleRes
  repeat' split
  all_goals simp only [lookupRes_pending]

@[simp] theorem matchRes_pending (st : State) (c : Pkt) (p : Parse) : (matchRes st c p).2.pending = st.pending := by
  simp only [matchRes]
  repeat' split
  all_goals simp only [sramUe_pending, modRules_pending, ruleRes_pending]

@[simp] theorem modFrags_pending (st : State) (s : SliceId) (f : List FragEnt → List FragEnt) :
    (modFrags st s f).pending = st.pending :=
  (rfl)

@[simp] theorem fragSweep_pending (st : State) (s : SliceId) : (fragSweep st s).pending = st.pending := by
  simp only [fragSweep, countN_pending, modFrags_pending, ite_pending, ite_self]

@[simp] theorem fragStore_pending (st : State) (c : Pkt) (p : Parse) (r : Res) :
    (fragStore st c p r).2.pending = st.pending := by
  simp only [fragStore]
  repeat' split
  all_goals simp only [modFrags_pending]

@[simp] theorem classifyLater_pending (st : State) (c : Pkt) (p : Parse) :
    (classifyLater st c p).2.pending = st.pending := by
  simp only [classifyLater]
  repeat' split
  all_goals simp only [matchRes_pending, sramUe_pending, modFrags_pending]

@[simp] theorem classifyPkt_pending (st : State) (c : Pkt) (p : Parse) :
    (classifyPkt st c p).2.pending = st.pending := by
  simp only [classifyPkt, clsCount_pending, foldl_pending, implies_true]
  repeat' split
  all_goals simp only [fragSweep_pending, classifyLater_pending, matchRes_pending, fragStore_pending]

/-! ### Sealing and opening a frame (06) -/

@[simp] theorem unreserved_pending (st : State) (s : SliceId) (ch : ChIx) (j : Nat) :
    (unreserved st s ch j).pending = st.pending := by
  simp only [unreserved, pcEvent_pending, bumpCh_pending]

@[simp] theorem takePn_pending (st : State) (s : SliceId) (ch : ChIx) : (takePn st s ch).2.pending = st.pending := by
  simp only [takePn]
  repeat' split
  all_goals simp only [count_pending, slotEcc_pending, bumpCh_pending, checkReserve_pending, unreserved_pending,
    modSlot_pending, raise_pending, pcEvent_pending]

@[simp] theorem protAccess_pending (st : State) (s : SliceId) (ch : ChIx) (src : Nat) (bs : Bytes) :
    (protAccess st s ch src bs).2.pending = st.pending := by
  unfold protAccess
  dsimp only
  split
  · simp only [count_pending, chanCheck_pending]
  · split
    · simp only [count_pending, chanCheck_pending]
    · split
      all_goals
        next h =>
          have htake := takePn_pending (boundaryWith (pcEvent (chanCheck st s ch) s 0x060 1) s ch none true) s ch
          rw [h] at htake
          exact htake.trans ((boundaryWith_pending ..).trans ((pcEvent_pending ..).trans (chanCheck_pending ..)))

@[simp] theorem protCount_pending (st : State) (s : SliceId) (p : Prot) (len : Nat) :
    (protCount st s p len).pending = st.pending := by
  simp only [protCount, pcEvent_pending, bumpSlot_pending, bumpCh_pending]

@[simp] theorem rxChannel_pending (st : State) (s : SliceId) (sci : BitVec 64) :
    (rxChannel st s sci).2.pending = st.pending := by
  simp only [rxChannel]
  repeat' split
  all_goals simp only [hashEcc_pending, chanCheck_pending]

@[simp] theorem notUsable_pending (st : State) (s : SliceId) (ch : ChIx) (an : An) (cBit : Bool) :
    (notUsable st s ch an cBit).pending = st.pending := by
  simp only [notUsable, bumpSlot_pending, bumpCh_pending, ite_pending, ite_self]

@[simp] theorem rxSelect_pending (st : State) (s : SliceId) (ch : ChIx) (c : Pkt) (t : SecTag) (sci : BitVec 64) :
    (rxSelect st s ch c t sci).2.pending = st.pending := by
  simp only [rxSelect]
  repeat' split
  all_goals simp only [bumpLp_pending, boundary_pending, pcEvent_pending, slotEcc_pending, bumpCh_pending,
    notUsable_pending]

@[simp] theorem icvFailed_pending (st : State) (s : SliceId) (v : VFrame) :
    (icvFailed st s v).pending = st.pending := by
  simp only [icvFailed, bumpSlot_pending, bumpCh_pending, ite_pending, ite_self]

@[simp] theorem rxOctets_pending (st : State) (s : SliceId) (v : VFrame) :
    (rxOctets st s v).pending = st.pending := (rfl)

@[simp] theorem rxPassed_pending (st : State) (s : SliceId) (v : VFrame) : (rxPassed st s v).pending = st.pending := by
  simp only [rxPassed, bumpCh_pending, bumpSlot_pending, ite_pending, ite_self]

@[simp] theorem commitFrame_pending (st : State) (s : SliceId) (v : VFrame) :
    (commitFrame st s v).2.pending = st.pending := by
  simp only [commitFrame]
  repeat' split
  all_goals simp only [boundary_pending, pcEvent_pending, slotEcc_pending, bumpCh_pending, rxOctets_pending,
    unreserved_pending, reserveAbove_pending, modSlot_pending, rxPassed_pending, checkReserve_pending]

@[simp] theorem rxCommit_pending (st : State) (s : SliceId) (v : VFrame) :
    (rxCommit st s v).2.pending = st.pending := by
  simp only [rxCommit, commitFrame_pending, boundaryWith_pending, ite_pending, ite_self]

/-! ### The way out (01, 02, 11) -/

@[simp] theorem cellUe_pending (st : State) (s : SliceId) : (cellUe st s).pending = st.pending := by
  simp only [cellUe, drawFree_pending, sramUe_pending]

@[simp] theorem settle_pending (st : State) (s : SliceId) : (settle st s).pending = st.pending := by
  simp only [settle, shareUpdate_pending, fcUpdateAll_pending, versionRetire_pending]

@[simp] theorem downDrop_pending (st : State) (d : Side) (s : SliceId) (k : PortIx) :
    (downDrop st d s k).pending = st.pending :=
  (rfl)

@[simp] theorem enqueue_pending (st : State) (d : Side) (s : SliceId) (k : PortIx) (f : EgrFrame) :
    (enqueue st d s k f).pending = st.pending := by
  simp only [enqueue, modPort_pending, downDrop_pending, ite_pending, ite_self]

@[simp] theorem dequeue_pending (st : State) (d : Side) (s : SliceId) (k : PortIx) (n : Nat) :
    (dequeue st d s k n).pending = st.pending :=
  (rfl)

@[simp] theorem sendOut_pending (st : State) (d : Side) (s : SliceId) (k : PortIx) (bs : Bytes) (fcsOk : Bool) :
    (sendOut st d s k bs fcsOk).pending = st.pending := by
  simp only [sendOut, bwFrame_pending, sendPort_pending]

@[simp] theorem untaggedOut_pending (st : State) (s : SliceId) (f : EgrFrame) :
    (untaggedOut st s f).pending = st.pending := by
  unfold untaggedOut
  split <;> simp only [bumpCp_pending, ite_pending, ite_self]

@[simp] theorem fiStep_pending (st : State) (s : SliceId) (k : PortIx) (rx : Bool) (bs : Bytes) :
    (fiStep st s k rx bs).2.pending = st.pending := by
  simp only [fiStep]
  repeat' split
  all_goals simp only [modPort_pending]

@[simp] theorem fiFurther_pending (st : State) (s : SliceId) (k : PortIx) (rx : Bool) :
    (fiFurther st s k rx).2.pending = st.pending :=
  (rfl)

@[simp] theorem fiHold_pending (st : State) (s : SliceId) (k : PortIx) (h : HeldFrame) (m : Nat) :
    (fiHold st s k h m).pending = st.pending :=
  (rfl)

@[simp] theorem tcCorrect_pending (st : State) (d : Side) (s : SliceId) (k : PortIx) (f : EgrFrame) :
    (tcCorrect st d s k f).2.pending = st.pending := by
  simp only [tcCorrect]
  repeat' split
  all_goals simp only [count_pending]

/-! ### Protect path and verify path (01) -/

@[simp] theorem instDrop_pending (st : State) (i : InstId) : (instDrop st i).pending = st.pending := (rfl)

@[simp] theorem shareDrop_pending (st : State) (i : InstId) : (shareDrop st i).pending = st.pending := (rfl)

@[simp] theorem admitInst_pending (st : State) (s : SliceId) (i : InstId) (bs : Bytes) :
    (admitInst st s i bs).2.pending = st.pending := by
  unfold admitInst
  repeat' split
  all_goals simp only [instDrop_pending, shareDrop_pending, pcEvent_pending]

@[simp] theorem parserEntry_pending (st : State) (c : Pkt) : (parserEntry st c).pending = st.pending := by
  simp only [parserEntry, pcEvent_pending, prsCount_pending, ite_pending, ite_self]

@[simp] theorem protectPkt_pending (st : State) (c : Pkt) (p : Parse) (ch : ChIx) (tc : Bool) :
    (protectPkt st c p ch tc).pending = st.pending := by
  have haccess := protAccess_pending st c.s ch (bindNo c) c.bytes
  unfold protectPkt
  split
  next h => rwa [h] at haccess
  next pr st1 h =>
    replace haccess : st1.pending = st.pending := by rwa [h] at haccess
    dsimp only
    split
    all_goals simp only [enqueue_pending, ite_pending, protCount_pending, ite_self, haccess]

@[simp] theorem doProtect_pending (st : State) (c : Pkt) (p : Parse) (r : Res) :
    (doProtect st c p r).pending = st.pending := by
  unfold doProtect
  repeat' split
  all_goals simp only [enqueue_pending, protectPkt_pending, puntPkt_pending]

@[simp] theorem waitPkt_pending (st : State) (c : Pkt) (p : Parse) (k : PortIx) (mal : Option (Nat × Nat)) (r : Res) :
    (waitPkt st c p k mal r).pending = st.pending :=
  (rfl)

@[simp] theorem protectParsed_pending (st : State) (c : Pkt) (p : Parse) :
    (protectParsed st c p).pending = st.pending := by
  simp only [protectParsed]
  repeat' split
  all_goals simp only [countParse_pending, waitPkt_pending, malAction_pending, noteMal_pending, classifyPkt_pending,
    protectPkt_pending, doProtect_pending]

@[simp] theorem fcDrop_pending (st : State) (s : SliceId) (k : PortIx) : (fcDrop st s k).pending = st.pending := (rfl)

@[simp] theorem clientPass_pending (st : State) (c : Pkt) (p : Parse) (k : PortIx) :
    (clientPass st c p k).pending = st.pending := by
  have hadmit := (admitInst_pending (parserEntry st c) c.s c.inst c.bytes).trans (parserEntry_pending st c)
  unfold clientPass
  split
  · exact fcDrop_pending ..
  · split
    · rfl
    · dsimp only
      split
      next h => rwa [h] at hadmit
      next h =>
        rw [h] at hadmit
        exact (protectParsed_pending ..).trans hadmit

@[simp] theorem clientIn_pending (st : State) (s : SliceId) (k : PortIx) (f : RxFrame) :
    (clientIn st s k f).pending = st.pending := by
  simp only [clientIn, arrive_pending, waitPkt_pending, clientPass_pending, ite_pending, ite_self]

@[simp] theorem countTrunc_pending (st : State) (c : Pkt) (f : EgrFrame) :
    (countTrunc st c f).pending = st.pending := by
  simp only [countTrunc, prsCount_pending, ite_pending, ite_self]

@[simp] theorem endWaiting_pending (st : State) (s : SliceId) (k : PortIx) (w : WaitFrame) (f : RxFrame) :
    (endWaiting st s k w f).pending = st.pending := by
  simp only [endWaiting]
  repeat' split
  all_goals simp only [macDrop_pending, clientPass_pending, countTrunc_pending, malAction_pending, noteMal_pending,
    clsCount_pending, doProtect_pending, foldl_pending, implies_true]

@[simp] theorem recirculate_pending (st : State) (c : Pkt) (rcp : Fin 16) :
    (recirculate st c rcp).pending = st.pending := by
  simp only [recirculate, count_pending, modSl_pending, ite_pending, ite_self]

@[simp] theorem doVerify_pending (st : State) (c : Pkt) (p : Parse) (r : Res) :
    (doVerify st c p r).pending = st.pending := by
  unfold doVerify
  repeat' split
  all_goals simp only [enqueue_pending, puntPkt_pending, recirculate_pending]

@[simp] theorem verifyParsed_pending (st : State) (c : Pkt) (p : Parse) :
    (verifyParsed st c p).pending = st.pending := by
  unfold verifyParsed
  split <;> simp only [countParse_pending, malAction_pending, noteMal_pending, classifyPkt_pending, doVerify_pending]

@[simp] theorem secTagIn_pending (st : State) (c : Pkt) (p : Parse) : (secTagIn st c p).pending = st.pending := by
  have hchan := rxChannel_pending st c.s (rxSci st c.s c.k (secTagAt p c.bytes) c.bytes)
  unfold secTagIn
  dsimp only
  split
  · exact bumpLp_pending ..
  · split
    next h =>
      rw [h] at hchan
      exact (bumpLp_pending ..).trans hchan
    next ch st1 h =>
      rw [h] at hchan
      have hadmit := admitInst_pending st1 c.s (chOf st1 c.s ch).inst c.bytes
      split
      next h =>
        rw [h] at hadmit
        exact hadmit.trans hchan
      next st2 h =>
        rw [h] at hadmit
        have hselect := rxSelect_pending st2 c.s ch { c with inst := (chOf st1 c.s ch).inst } (secTagAt p c.bytes)
          (rxSci st c.s c.k (secTagAt p c.bytes) c.bytes)
        split
        next h =>
          rw [h] at hselect
          exact hselect.trans (hadmit.trans hchan)
        next h =>
          rw [h] at hselect
          exact (modSl_pending ..).trans ((pcEvent_pending ..).trans (hselect.trans (hadmit.trans hchan)))

@[simp] theorem untaggedIn_pending (st : State) (c : Pkt) (p : Parse) : (untaggedIn st c p).pending = st.pending := by
  have hadmit := (admitInst_pending (bumpLp st c.s c.k (if portStrict st c.s c.k then 1 else 0)) c.s c.inst
    c.bytes).trans (bumpLp_pending ..)
  unfold untaggedIn
  dsimp only
  split
  next h => rwa [h] at hadmit
  next h =>
    rw [h] at hadmit
    exact (verifyParsed_pending ..).trans hadmit

@[simp] theorem lineIn_pending (st : State) (s : SliceId) (k : PortIx) (bs : Bytes) :
    (lineIn st s k bs).pending = st.pending := by
  simp only [lineIn, bumpLp_pending, arrive_pending, parserEntry_pending, secTagIn_pending, untaggedIn_pending,
    ite_pending, ite_self]

@[simp] theorem releaseRx_pending (s : SliceId) (k : PortIx) (st : State) (y : HeldFrame) :
    (releaseRx s k st y).pending = st.pending := by
  unfold releaseRx
  split <;> simp only [lineIn_pending, ite_pending, ite_self]

@[simp] theorem learnFrom_pending (st : State) (c : Pkt) (p : Parse) (ch : ChIx) :
    (learnFrom st c p ch).pending = st.pending := by
  unfold learnFrom
  split <;> simp only [queueLearn_pending, ite_pending, ite_self]

@[simp] theorem secondPass_pending (st : State) (s : SliceId) (v : VFrame) (bs : Bytes) :
    (secondPass st s v bs).pending = st.pending := by
  simp only [secondPass, verifyParsed_pending, learnFrom_pending, prsCount_pending]

/-! ### External memory in service (14) -/

@[simp] theorem suspect_pending (st : State) (p : Nat) (rank : Bool) (pos : Nat) :
    (suspect st p rank pos).pending = st.pending := by
  simp only [suspect, modMee_pending, raise_pending, count_pending, ite_pending, ite_self]

@[simp] theorem corrected_pending (p : Nat) (rank patrol : Bool) (st : State) (pos : Nat) :
    (corrected p rank patrol st pos).pending = st.pending := by
  simp only [corrected, count_pending, wr_pending, suspect_pending]

theorem readBurst_pending {st st' : State} {p : Nat} {rank patrol : Bool} {errs : List BeatErr} {b : Bytes}
    (h : readBurst st p rank patrol errs = .ok (b, st')) : st'.pending = st.pending := by
  unfold readBurst at h
  split at h
  next => cases h
  next =>
    cases h
    simp only [ite_pending, modMee_pending, ite_self]
    exact foldl_pending (corrected_pending p rank patrol) _ st

@[simp] theorem meeRelease_pending (st : State) (p : Nat) (bs : Bytes) : (meeRelease st p bs).pending = st.pending := by
  simp only [meeRelease, count_pending, modMee_pending, ite_pending, ite_self]

theorem tagsOk_pending {st st' : State} {k : Nat} {b : Bytes} (h : tagsOk st k b = .ok st') :
    st'.pending = st.pending := by
  unfold tagsOk at h
  split at h
  next => cases h
  next hctr =>
    split at h
    · cases h
      exact fetchCtr_pending hctr
    · cases h

theorem patrolCtr_pending {st st' : State} {p : Nat} (h : patrolCtr st p = .ok st') : st'.pending = st.pending := by
  unfold patrolCtr at h
  split at h
  next => exact fetchCtr_pending h
  next => exact fetchCtr_pending h
  next => cases h; rfl

@[simp] theorem dramWrite_pending (st : State) (p : Nat) (b : Bytes) : (dramWrite st p b).pending = st.pending := (rfl)

theorem writeData_pending {st st' : State} {i : Nat} {w : WbLine} (h : writeData st i w = .ok st') :
    st'.pending = st.pending := by
  unfold writeData at h
  split at h
  next => cases h
  next hctr =>
    dsimp only at h
    split at h
    · cases h
    · split at h
      next => cases h
      next =>
        cases h
        simp only [ite_pending, count_pending, modMee_pending, dramWrite_pending, setCtr_pending, fetchCtr_pending hctr,
          ite_self]

theorem writeNode_pending {st st' : State} {l n : Nat} {x : NodeLine} (h : writeNode st l n x = .ok st') :
    st'.pending = st.pending := by
  unfold writeNode at h
  split at h
  next => cases h
  next hctr =>
    dsimp only at h
    split at h
    · cases h
    · cases h
      simp only [modMee_pending, dramWrite_pending, setCtr_pending, fetchCtr_pending hctr]

@[simp] theorem arcDone_pending (w : Word) (code : Nat) (st : State) : (arcDone w code st).pending = st.pending := (rfl)

@[simp] theorem arcPark_pending (w : Word) (st : State) : (arcPark w st).pending = st.pending := by
  simp only [arcPark, slotCheck_pending, boundary_pending, pickCode_pending, arcDone_pending, arcPut_pending,
    count_pending, slotEmpty_pending, ite_pending, ite_self]

@[simp] theorem arcLoad_pending (w : Word) (st : State) : (arcLoad w st).pending = st.pending := by
  have hinstall {st : State} {s : SliceId} {ch : ChIx} {an : An} {key : Bytes} {salt : BitVec 96} {ssci : Word}
      {req : Nat} :
      (startInstall st 2 1 s ch an key salt ssci req false false 0
        (fun st => cmdBusy st Reg.meeArcCmd Fld.meeArcCmd_OP w)
        (fun st => arcDone w 6 (setF st Reg.meeArcStat Fld.meeArcStat_SAE_RESULT 12))).pending = st.pending :=
    startInstall_pending (fun _ => cmdBusy_pending ..) fun _ => (arcDone_pending ..).trans (setF_pending ..)
  unfold arcLoad
  extract_lets s ch an st0
  have hst0 : st0.pending = st.pending := by
    simp only [st0, ite_pending, slotCheck_pending, boundary_pending, ite_self]
  dsimp only
  split
  next => simp only [arcDone_pending, pickCode_pending, hst0]
  next => simp only [ite_pending, hinstall, arcDone_pending, stateRecord_pending, setF_pending, pickCode_pending,
    ite_self, hst0]

@[simp] theorem arcRead_pending (w : Word) (st : State) : (arcRead w st).pending = st.pending := by
  simp only [arcRead]
  split <;> simp only [pickCode_pending, arcDone_pending, wr_pending, ite_pending, ite_self]

@[simp] theorem arcDelete_pending (w : Word) (st : State) : (arcDelete w st).pending = st.pending := by
  simp only [arcDelete, pickCode_pending, arcDone_pending, arcFree_pending, ite_pending, ite_self]

@[simp] theorem arcCmd_pending (w : Word) (st : State) : (arcCmd w st).pending = st.pending := by
  unfold arcCmd
  split <;> simp only [arcPark_pending, arcLoad_pending, arcRead_pending, arcDelete_pending, arcDone_pending]

@[simp] theorem arcSelect_pending (s : SliceId) (ch : ChIx) (an : An) (st : State) :
    (arcSelect s ch an st).pending = st.pending :=
  viaPF_pending _ _ _ _ (wr_pending ..)

@[simp] theorem cellScrub_pending (st : State) (s : SliceId) (ix : Nat) : (cellScrub st s ix).pending = st.pending := by
  unfold cellScrub
  split <;> simp only [modSl_pending, sramUe_pending]

@[simp] theorem scrubCe_pending (code : Fin 14) (s : SliceId) (st : State) :
    (scrubCe code s st).pending = st.pending := by
  unfold scrubCe
  split <;> rfl

/-! ### Tamper unit and log (15) -/

@[simp] theorem modSrc_pending (st : State) (n : Fin 30) (f : TmpSrc → TmpSrc) : (modSrc st n f).pending = st.pending :=
  (rfl)

@[simp] theorem tripped_pending (st : State) (n : Fin 30) (resp : Fin 4) (items : List Nat) :
    (tripped st n resp items).2.pending = st.pending := by
  unfold tripped
  repeat' split
  all_goals simp only [count_pending, modSrc_pending]

@[simp] theorem rated_pending (st : State) (a : Alarm) : (rated st a).2.pending = st.pending := by
  simp only [rated]
  repeat' split
  all_goals simp only [count_pending, modSrc_pending]

@[simp] theorem squelch_pending (st : State) (g : List Alarm) : (squelch st g).pending = st.pending := by
  simp only [squelch, modSrc_pending, modTmp_pending, enterUmber_pending, twinSquelch_pending, foldl_pending,
    implies_true, ite_pending, ite_self]

@[simp] theorem tamperHalt_pending (st : State) (g : List Alarm) (zero : Bool) :
    (tamperHalt st g zero).pending = st.pending := by
  simp only [tamperHalt, haltCore_pending, modTmp_pending, ite_pending, ite_self]

@[simp] theorem trips_pending (st : State) (srcs : List (Fin 30 × Fin 4 × List Nat)) :
    (trips st srcs).2.pending = st.pending := by
  unfold trips
  refine foldl_snd_pending (fun p n => ?_) fins30 ([], st)
  split
  · rfl
  next x _ =>
    have htrip := tripped_pending p.2 n x.2.1 x.2.2
    split
    all_goals
      next h =>
        rw [h] at htrip
        exact htrip

@[simp] theorem detReport_pending (st : State) (n : Fin 30) (d : Fin 3) : (detReport st n d).pending = st.pending := by
  simp only [detReport, modSrc_pending, ite_pending, ite_self]

@[simp] theorem zeroKeys_pending (st : State) : (zeroKeys st).pending = st.pending := by
  unfold zeroKeys
  refine (modMee_pending ..).trans ((modTwin_pending ..).trans ((foldl_pending clearSaeKey_pending slices4 _).trans ?_))
  exact (foldl_pending (fun _ _ => (wr_pending ..).trans (wr_pending ..)) _ _).trans (modJnl_pending ..)

@[simp] theorem tmpRespSet_pending (hi : Bool) (v : Word) (st : State) :
    (tmpRespSet hi v st).pending = st.pending := (rfl)

@[simp] theorem tmpResult_pending (code : Nat) (st : State) : (tmpResult code st).pending = st.pending := (rfl)

@[simp] theorem evlDone_pending (w : Word) (code : Nat) (st : State) : (evlDone w code st).pending = st.pending := (rfl)

@[simp] theorem armRecorded_pending (st : State) (r : LogRec) : (armRecorded st r).pending = st.pending := by
  unfold armRecorded
  split <;> simp only [modCtfLane_pending, modPort_pending, ite_pending, ite_self]

@[simp] theorem evlRead_pending (w : Word) (st : State) : (evlRead w st).pending = st.pending := by
  simp only [evlRead, evlDone_pending, foldl_wr_pending, ite_pending, ite_self]

@[simp] theorem evlVerify_pending (w : Word) (st : State) : (evlVerify w st).pending = st.pending := by
  simp only [evlVerify, evlDone_pending, wr_pending, ite_pending, ite_self]

/-! ### Image, start-up and resets (16, 17) -/

@[simp] theorem drawSeeds_pending (st : State) : (drawSeeds st).pending = st.pending := by
  simp only [drawSeeds, draw_pending, modTmp_pending, foldl_pending, implies_true]

@[simp] theorem requestRails_pending (st : State) : (requestRails st).pending = st.pending := by
  simp only [requestRails, emit_pending, foldl_pending, implies_true, ite_pending, ite_self]

@[simp] theorem modImgSl_pending (st : State) (s : SliceId) (q : SliceState) : (modImgSl st s q).pending = st.pending :=
  (rfl)

@[simp] theorem startEngines_pending (st : State) (s : SliceId) : (startEngines st s).pending = st.pending := (rfl)

@[simp] theorem startSlice_pending (st : State) (s : SliceId) : (startSlice st s).pending = st.pending := by
  simp only [startSlice, startAges_pending, startEngines_pending, startLanes_pending]

@[simp] theorem loadImage_pending (src : Fin 4) (img : ImageSrc) (st : State) :
    (loadImage src img st).pending = st.pending := by
  simp only [loadImage, modImg_pending, modTmp_pending, startSlice_pending, modTwin_pending, foldl_pending,
    implies_true, ite_pending, ite_self]

@[simp] theorem sourceTry_pending (st : State) : (sourceTry st).pending = st.pending := by
  unfold sourceTry
  repeat' split
  all_goals simp only [modImg_pending, loadImage_pending, raise_pending, ite_pending, ite_self]

@[simp] theorem imgDone_pending (w : Word) (code : Nat) (st : State) : (imgDone w code st).pending = st.pending := (rfl)

@[simp] theorem imgChecked_pending (w : Word) (code check : Nat) (st : State) :
    (imgChecked w code check st).pending = st.pending :=
  (rfl)

@[simp] theorem imgDownload_pending (w : Word) (st : State) : (imgDownload w st).pending = st.pending := by
  simp only [imgDownload, pickCode_pending, imgDone_pending, modImg_pending, imgChecked_pending, loadImage_pending,
    ite_pending, ite_self]

@[simp] theorem mramCmd_pending (w : Word) (eff : State → State) (st : State) (heff : (eff st).pending = st.pending) :
    (mramCmd w eff st).pending = st.pending := by
  simp only [mramCmd, cmdBusy_pending, heff, ite_pending, ite_self]

@[simp] theorem imgStage_pending (w : Word) (st : State) : (imgStage w st).pending = st.pending := by
  simp only [imgStage, pickCode_pending, imgDone_pending, mramCmd_pending, imgChecked_pending, ite_pending, ite_self]

@[simp] theorem imgAdvance_pending (w : Word) (st : State) : (imgAdvance w st).pending = st.pending := (rfl)

@[simp] theorem imgAddKeys_pending (w : Word) (st : State) : (imgAddKeys w st).pending = st.pending := (rfl)

@[simp] theorem imgRevoke_pending (w : Word) (st : State) : (imgRevoke w st).pending = st.pending := by
  simp only [imgRevoke, imgDone_pending, ite_pending, ite_self]

@[simp] theorem putImage_pending (part : Bool) (img : ImageSrc) (st : State) :
    (putImage part img st).pending = st.pending :=
  (rfl)

@[simp] theorem withImage_pending (part : Bool) (img : ImageSrc) (st : State) :
    (withImage part img st).pending = st.pending := by
  simp only [withImage, putImage_pending, modTwin_pending, ite_pending, ite_self]

@[simp] theorem sliceDone_pending (w : Word) (code : Nat) (st : State) :
    (sliceDone w code st).pending = st.pending := (rfl)

@[simp] theorem flushSlice_pending (st : State) (s : SliceId) : (flushSlice st s).pending = st.pending := (rfl)

@[simp] theorem sliceDrain_pending (s : SliceId) (w : Word) (st : State) :
    (sliceDrain s w st).pending = st.pending := by
  simp only [sliceDrain, sliceDone_pending, modImg_pending, modImgSl_pending, flushSlice_pending, ite_pending, ite_self]

@[simp] theorem sliceDrained_pending (st : State) (s : SliceId) : (sliceDrained st s).pending = st.pending := by
  simp only [sliceDrained, modSl_pending, modImgSl_pending, ite_pending, ite_self]

@[simp] theorem sliceLoad_pending (s : SliceId) (w : Word) (st : State) : (sliceLoad s w st).pending = st.pending := by
  simp only [sliceLoad, pickCode_pending, sliceDone_pending, modImg_pending, cmdBusy_pending, ite_pending, ite_self]

@[simp] theorem dropSliceUses_pending (st : State) (s : SliceId) : (dropSliceUses st s).pending = st.pending := by
  unfold dropSliceUses
  refine (foldl_pending (fun st u => ?_) _ _).trans (dropUse_pending ..)
  split
  all_goals simp only [ite_pending, installRefused_pending, ite_self]

@[simp] theorem sliceReset_pending (st : State) (s : SliceId) : (sliceReset st s).pending = st.pending := by
  simp only [sliceReset, dropSliceUses_pending, slotEmpty_pending, releasePos_pending, modPmu_pending, modSl_pending,
    foldl_pending, implies_true]

@[simp] theorem sliceResume_pending (s : SliceId) (w : Word) (st : State) :
    (sliceResume s w st).pending = st.pending := by
  unfold sliceResume
  split <;> simp only [sliceDone_pending, enablePorts_pending, modImgSl_pending]

@[simp] theorem sliceCmd_pending (w : Word) (st : State) : (sliceCmd w st).pending = st.pending := by
  unfold sliceCmd
  split <;> simp only [sliceDrain_pending, sliceLoad_pending, sliceResume_pending, sliceDone_pending]

@[simp] theorem slicePF_pending (w : Word) (st : State) : (slicePF w st).pending = st.pending := by
  simp only [slicePF, cmdPF_pending, sliceCmd_pending]

/-! ### Fault injectors (02) -/

@[simp] theorem modFi_pending (st : State) (s : SliceId) (k : PortIx) (f : FiSt → FiSt) :
    (modFi st s k f).pending = st.pending :=
  (rfl)

@[simp] theorem disarmRelease_pending (s : SliceId) (k : PortIx) (st : State) (h : HeldFrame) :
    (disarmRelease s k st h).pending = st.pending := by
  unfold disarmRelease
  split <;> simp only [enqueue_pending, releaseRx_pending]

/-! ### The launch calendar (11) -/

@[simp] theorem safSet_pending (st : State) (n : Nat) (f : SafFrame) : (safSet st n f).pending = st.pending := (rfl)

@[simp] theorem safRemove_pending (st : State) (n : Nat) : (safRemove st n).pending = st.pending := (rfl)

@[simp] theorem safClassified_pending (st : State) (n : Nat) (f : SafFrame) (c : Pkt) (p : Parse) :
    (safClassified st n f c p).pending = st.pending := by
  have hcls := (classifyPkt_pending (countParse st c p) c p).trans (countParse_pending st c p)
  unfold safClassified
  extract_lets st0
  split
  next =>
    exact (malAction_pending ..).trans ((noteMal_pending ..).trans ((safRemove_pending ..).trans
      (countParse_pending ..)))
  next =>
    change (classifyPkt st0 c p).2.pending = st.pending at hcls
    generalize classifyPkt st0 c p = q at hcls ⊢
    obtain ⟨r, st1⟩ := q
    dsimp only
    cases r.dec
    case channel => exact (safSet_pending ..).trans hcls
    case bypass =>
      cases c.outPort
      · exact (safRemove_pending ..).trans hcls
      · exact (safSet_pending ..).trans hcls
    case timestamp =>
      cases c.outPort
      · exact (safRemove_pending ..).trans hcls
      · exact (safSet_pending ..).trans hcls
    all_goals exact (doProtect_pending ..).trans ((safRemove_pending ..).trans hcls)

/-! ### Host interface (18) -/

@[simp] theorem modEvt_pending (st : State) (j : Fin 4) (f : EvtRing → EvtRing) :
    (modEvt st j f).pending = st.pending :=
  (rfl)

@[simp] theorem evtCfgWrite_pending (j : Fin 4) (v : Word) (st : State) :
    (evtCfgWrite j v st).pending = st.pending := by
  simp only [evtCfgWrite, modEvt_pending, wr_pending, evtRecover_pending, ite_pending, ite_self]

@[simp] theorem evtHeadWrite_pending (j : Fin 4) (v : Word) (st : State) :
    (evtHeadWrite j v st).pending = st.pending := by
  simp only [evtHeadWrite, evtRecover_pending, modEvt_pending]

@[simp] theorem ringStart_pending (i : InstId) (r : Fin 16) (st : State) : (ringStart i r st).pending = st.pending := by
  simp only [ringStart, modRing_pending, ite_pending, ite_self]

@[simp] theorem ringStop_pending (i : InstId) (r : Fin 16) (st : State) :
    (ringStop i r st).pending = st.pending := (rfl)

@[simp] theorem ringCtlWrite_pending (i : InstId) (r : Fin 16) (v : Word) (st : State) :
    (ringCtlWrite i r v st).pending = st.pending := by
  simp only [ringCtlWrite, ringStart_pending, ringStop_pending, ite_pending, ite_self]

@[simp] theorem viaFn_pending (i : InstId) (a : Nat) (v : Word) (eff : State → State) (st : State)
    (heff : (eff st).pending = st.pending) : (viaFn i a v eff st).pending = st.pending := by
  simp only [viaFn, viaPF_pending, heff, ite_pending, ite_self]

@[simp] theorem injComplete_pending (st : State) (i : InstId) (r : Fin 16) (x : InjDesc) (code : Nat) :
    (injComplete st i r x code).pending = st.pending := by
  simp only [injComplete, digHost_pending, bumpVf_pending, count_pending, fireRing_pending, ringAdvance_pending,
    dma_pending, ite_pending, ite_self]

@[simp] theorem setHand_pending (st : State) (i : InstId) (r : Fin 16) (h : Option InjHand) :
    (setHand st i r h).pending = st.pending :=
  (rfl)

@[simp] theorem injRefuse_pending (st : State) (i : InstId) (r : Fin 16) (x : InjDesc) (code : Nat) :
    (injRefuse st i r x code).pending = st.pending := by
  simp only [injRefuse, count_pending, injComplete_pending, setHand_pending, ite_pending, ite_self]

@[simp] theorem safStore_pending (st : State) (g : SafFrame) : (safStore st g).pending = st.pending := by
  unfold safStore
  exact (foldl_pending (fun _ _ => meeWrite_pending ..) _ _).trans (meeWrite_pending ..)

@[simp] theorem safAccept_pending (st : State) (i : InstId) (r : Fin 16) (x : InjDesc) (f : Bytes) :
    (safAccept st i r x f).pending = st.pending := by
  simp only [safAccept, injRefuse_pending, count_pending, safStore_pending, injComplete_pending, setHand_pending,
    ite_pending, ite_self]

@[simp] theorem injEnter_pending (st : State) (x : InjDesc) (f : Bytes) : (injEnter st x f).pending = st.pending := by
  simp only [injEnter, arrive_pending, fcDrop_pending, parserEntry_pending, instDrop_pending, settle_pending,
    protectParsed_pending, pcEvent_pending, ite_pending, ite_self]

@[simp] theorem injCopied_pending (st : State) (i : InstId) (r : Fin 16) (x : InjDesc) (f : Bytes) :
    (injCopied st i r x f).pending = st.pending := by
  simp only [injCopied, injEnter_pending, injComplete_pending, setHand_pending]

@[simp] theorem injJudge_pending (i : InstId) (r : Fin 16) (x : InjDesc) (f : Bytes) (ns : Word) (copy : Bool)
    (st : State) : (injJudge i r x f ns copy st).pending = st.pending := by
  simp only [injJudge, injRefuse_pending, setHand_pending, safAccept_pending, injCopied_pending, ite_pending, ite_self]

@[simp] theorem pfFlr_pending (st : State) : (pfFlr st).pending = st.pending := (rfl)

/-! ### The twin unit (12) -/

@[simp] theorem twnBusy_pending (w : Word) (st : State) : (twnBusy w st).pending = st.pending := (rfl)

@[simp] theorem toSyncing_pending (st : State) : (toSyncing st).pending = st.pending := (rfl)

@[simp] theorem toAlone_pending (st : State) : (toAlone st).pending = st.pending := by
  simp only [toAlone, modTwin_pending, dropSwitch_pending]

@[simp] theorem claim_pending (w : Word) (st : State) : (claim w st).pending = st.pending := by
  simp only [claim, pickCode_pending, twnDone_pending, twnBusy_pending, modTwin_pending, ite_pending, ite_self]

@[simp] theorem claimExpire_pending (st : State) : (claimExpire st).pending = st.pending := by
  unfold claimExpire
  split <;> simp only [twnEnd_pending, modTwin_pending, ite_pending, ite_self]

@[simp] theorem twinSwitch_pending (w : Word) (st : State) : (twinSwitch w st).pending = st.pending := by
  simp only [twinSwitch, pickCode_pending, twnDone_pending, twnBusy_pending, modTwin_pending, ite_pending, ite_self]

@[simp] theorem leave_pending (w : Word) (st : State) : (leave w st).pending = st.pending := by
  simp only [leave, pickCode_pending, twnDone_pending, toStart_pending, ite_pending, ite_self]

@[simp] theorem sendHello_pending (st : State) : (sendHello st).pending = st.pending := (rfl)

@[simp] theorem keySession_pending (st : State) (n : Node) (h : Hello) :
    (keySession st n h).pending = st.pending := (rfl)

@[simp] theorem freshRand_pending (st : State) : (freshRand st).pending = st.pending := (rfl)

@[simp] theorem join_pending (w : Word) (st : State) : (join w st).pending = st.pending := by
  simp only [join, nodeCheck_pending, pickCode_pending, modTwin_pending, twnDone_pending, ite_pending]
  repeat' split
  all_goals simp only [nodeCheck_pending, pickCode_pending, modTwin_pending, twnDone_pending, sendHello_pending,
    toSyncing_pending, keySession_pending, freshRand_pending, endSession_pending, twnBusy_pending]

@[simp] theorem joinExpire_pending (st : State) : (joinExpire st).pending = st.pending := by
  unfold joinExpire
  split <;> simp only [twnEnd_pending, modTwin_pending, ite_pending, ite_self]

@[simp] theorem twnCmd_pending (w : Word) (st : State) : (twnCmd w st).pending = st.pending := by
  unfold twnCmd
  split <;> simp only [claim_pending, join_pending, twinSwitch_pending, leave_pending, twnDone_pending]

@[simp] theorem twnPF_pending (op : Nat) (st : State) : (twnPF op st).pending = st.pending := by
  simp only [twnPF, cmdPF_pending, twnCmd_pending]

@[simp] theorem yieldTie_pending (st : State) : (yieldTie st).pending = st.pending := by
  simp only [yieldTie, raise_pending, toStart_pending, releaseOwn_pending, twnEnd_pending, ite_pending, ite_self]

@[simp] theorem beginSwitch_pending (st : State) : (beginSwitch st).pending = st.pending := (rfl)

@[simp] theorem ownReleased_pending (st : State) : (ownReleased st).pending = st.pending := by
  simp only [ownReleased, count_pending, beginSwitch_pending, modTwin_pending, ite_pending, ite_self]

@[simp] theorem restampAges_pending (st : State) : (restampAges st).pending = st.pending := (rfl)

@[simp] theorem takeOver_pending (st : State) : (takeOver st).pending = st.pending := (rfl)

@[simp] theorem linkLost_pending (st : State) : (linkLost st).pending = st.pending := raise_pending ..

@[simp] theorem handOver_pending (st : State) : (handOver st).pending = st.pending := by
  simp only [handOver, beginSwitch_pending, toStart_pending, releaseOwn_pending]

@[simp] theorem healthCheck_pending (st : State) : (healthCheck st).pending = st.pending := by
  unfold healthCheck
  split <;> simp only [toAlone_pending, raise_pending, handOver_pending, toSyncing_pending, ite_pending, ite_self]

/-! ### Power, clocks and hold-up (17) -/

@[simp] theorem modAvs_pending (st : State) (s : SliceId) (f : AvsSt → AvsSt) :
    (modAvs st s f).pending = st.pending := (rfl)

@[simp] theorem avsRequest_pending (st : State) (s : SliceId) (mv : Nat) (ack : Bool) :
    (avsRequest st s mv ack).pending = st.pending := by
  simp only [avsRequest, emit_pending, modAvs_pending, raise_pending, count_pending, ite_pending, ite_self]

@[simp] theorem modPool_pending (st : State) (s : SliceId) (d : Side) (f : PoolSt → PoolSt) :
    (modPool st s d f).pending = st.pending :=
  (rfl)

@[simp] theorem engFailed_pending (st : State) (s : SliceId) (d : Side) : (engFailed st s d).pending = st.pending := by
  simp only [engFailed, modPool_pending, raise_pending, modTwin_pending, ite_pending, ite_self]

@[simp] theorem rstDone_pending (w : Word) (code : Nat) (st : State) : (rstDone w code st).pending = st.pending := (rfl)

@[simp] theorem jnlClose_pending (st : State) : (jnlClose st).pending = st.pending := by
  unfold jnlClose
  refine (foldl_pending (fun st u => ?_) _ _).trans (modJnl_pending ..)
  split
  all_goals simp only [installRefused_pending, pnjEnd_pending]

/-! ### Indigo messages (12) -/

@[simp] theorem takeMsg_pending (type : Nat) (m : MsgHdr) (items : List Nat) (st : State) :
    (takeMsg type m items st).2.pending = st.pending := by
  simp only [takeMsg]
  repeat' split
  all_goals simp only [count_pending, modTwin_pending]

@[simp] theorem startStream_pending (st : State) : (startStream st).pending = st.pending := (rfl)

@[simp] theorem streamCut_pending (st : State) : (streamCut st).pending = st.pending := by
  simp only [streamCut, modTwin_pending, ite_pending, ite_self]

@[simp] theorem streamStage_pending (st : State) (items : List Nat) : (streamStage st items).pending = st.pending :=
  capStage_pending ..

@[simp] theorem streamMismatch_pending (st : State) : (streamMismatch st).pending = st.pending := by
  simp only [streamMismatch, modTwin_pending, toStart_pending]

@[simp] theorem streamNode_pending (st : State) (n : Nat) (r : Node) : (streamNode st n r).pending = st.pending := by
  simp only [streamNode]
  split <;> simp only [streamMismatch_pending, putNode_pending, ite_pending, ite_self]

@[simp] theorem streamSlot_pending (st : State) (s : SliceId) (ch : ChIx) (an : An) (r : Slot) (wrapped : Bytes) :
    (streamSlot st s ch an r wrapped).pending = st.pending := by
  unfold streamSlot
  split <;> rfl

@[simp] theorem streamSetTrib_pending (st : State) (s : SliceId) (t : Nat) (x : TribSt) (ws : List Bytes) :
    (streamSetTrib st s t x ws).pending = st.pending :=
  (rfl)

@[simp] theorem adoptRec_pending (st : State) (r : JReq) : (adoptRec st r).pending = st.pending := by
  unfold adoptRec
  repeat' split
  all_goals simp only [jnlRequest_pending, evict_pending, toStart_pending]

@[simp] theorem streamMark_pending (st : State) (s : SliceId) (m : MarkOf) (res want : Nat) :
    (streamMark st s m res want).pending = st.pending := by
  unfold streamMark
  repeat' split
  all_goals simp only [modSlot_pending, adoptRec_pending, reserveSlot_pending, modPos_pending, reserveTrib_pending]

@[simp] theorem adoptTime_pending (now : BitVec 64) (el : BitVec 96) (n : Nat) (st : State) :
    (adoptTime now el n st).pending = st.pending := by
  simp only [adoptTime, restartMs_pending, modTsu_pending, modTwin_pending, bwRestart_pending, modPmu_pending,
    modCtf_pending, foldl_pending, implies_true]

@[simp] theorem applyItem_pending (st : State) (y : CapItem) : (applyItem st y).pending = st.pending := by
  simp only [applyItem]
  repeat' split
  all_goals simp only [storePlain_pending, wrA_pending, modSl_pending, modInst_pending, modCtf_pending,
    modRules_pending, modCh_pending, modHash_pending, streamNode_pending, modMac_pending, modLpm_pending,
      arcPut_pending, modTwin_pending, streamSlot_pending, streamSetTrib_pending, streamMark_pending, modPort_pending,
        modTrib_pending, modCtfLane_pending, adoptTime_pending, modTmp_pending, modTimer_pending, modImg_pending,
          modPmu_pending, modGlb_pending, putImage_pending]

@[simp] theorem lateFor_pending (e : Nat) (st : State) : (lateFor e st).pending = st.pending := by
  simp only [lateFor, toSyncing_pending, ite_pending, ite_self]

@[simp] theorem capsule_pending (e : Nat) (xs : List CapItem) (st : State) :
    (capsule e xs st).pending = st.pending := by
  simp only [capsule, streamStage_pending, lateFor_pending, applyItem_pending, foldl_pending, implies_true, ite_pending,
    ite_self]

@[simp] theorem heartbeat_pending (e : Nat) (q : TwinState) (st : State) : (heartbeat e q st).pending = st.pending := by
  simp only [heartbeat]
  split <;> simp only [modTwin_pending, toAlone_pending, toStart_pending, startStream_pending, ite_pending, ite_self]

@[simp] theorem stepTicks_pending (n ticks : Nat) (st : State) : (stepTicks n ticks st).pending = st.pending := by
  simp only [stepTicks, modTwin_pending, modTsu_pending, ite_pending, ite_self]

@[simp] theorem learned_pending (e : Nat) (s : SliceId) (cs : List MacChange) (st : State) :
    (learned e s cs st).pending = st.pending := by
  simp only [learned, lateFor_pending, modTwin_pending, ite_pending, ite_self]

@[simp] theorem mirror_pending (ws : List MirWrite) (st : State) : (mirror ws st).pending = st.pending := by
  simp only [mirror, lateFor_pending, modTwin_pending, foldl_pending, implies_true, ite_pending, ite_self]

@[simp] theorem followTime_pending (now : BitVec 64) (st : State) : (followTime now st).pending = st.pending := by
  simp only [followTime, modTwin_pending, modTsu_pending, ite_pending, ite_self]

@[simp] theorem resend_pending (missing : List Nat) (st : State) : (resend missing st).pending = st.pending := by
  unfold resend
  refine foldl_pending (fun st n => ?_) missing st
  split
  · exact (count_pending ..).trans (emit_pending ..)
  · rfl

/-! ### Time base (11) -/

@[simp] theorem slewEnd_pending (st : State) : (slewEnd st).pending = st.pending := by
  simp only [slewEnd, raise_pending, modTsu_pending]

@[simp] theorem wrapped_pending (st : State) : (wrapped st).pending = st.pending := by
  simp only [wrapped, raise_pending, count_pending]

@[simp] theorem advanceNow_pending (st : State) (inc : BitVec 64) : (advanceNow st inc).pending = st.pending := by
  simp only [advanceNow, modTsu_pending, wrapped_pending, ite_pending, ite_self]

@[simp] theorem advanceElapsed_pending (st : State) : (advanceElapsed st).pending = st.pending := by
  unfold advanceElapsed
  exact modTsu_pending ..

@[simp] theorem tickNow_pending (st : State) : (tickNow st).pending = st.pending := by
  unfold tickNow
  split <;> simp only [slewEnd_pending, modTsu_pending, advanceNow_pending, ite_pending, ite_self]

@[simp] theorem ppsLatch_pending (st : State) : (ppsLatch st).pending = st.pending := by
  simp only [ppsLatch, raise_pending, modTsu_pending, ite_pending, ite_self]

@[simp] theorem tick_pending (st : State) : (tick st).pending = st.pending := by
  simp only [tick, pcClocks_pending, ppsLatch_pending, tickNow_pending, advanceElapsed_pending, foldl_pending,
    implies_true]

@[simp] theorem clearSchedule_pending (st : State) : (clearSchedule st).pending = st.pending := by
  simp only [clearSchedule, countN_pending, raise_pending, modTimer_pending, foldl_pending, implies_true, ite_pending,
    ite_self]

@[simp] theorem doStep_pending (mode force : Bool) (st : State) : (doStep mode force st).2.pending = st.pending := by
  unfold doStep
  split <;> simp only [clearSchedule_pending, modTsu_pending, ite_pending, ite_self]

@[simp] theorem doSlew_pending (st : State) : (doSlew st).2.pending = st.pending := by
  simp only [doSlew]
  repeat' split
  all_goals simp only [modTsu_pending]

@[simp] theorem doAbort_pending (st : State) : (doAbort st).2.pending = st.pending := by
  simp only [doAbort, modTsu_pending, ite_pending, ite_self]

@[simp] theorem tsuCmd_pending (w : Word) (st : State) : (tsuCmd w st).pending = st.pending := by
  unfold tsuCmd
  repeat' split
  all_goals simp only [wr_pending, doStep_pending, doSlew_pending, doAbort_pending]

@[simp] theorem tsuCmdPF_pending (w : Word) (st : State) : (tsuCmdPF w st).pending = st.pending := by
  simp only [tsuCmdPF, setF_pending, viaPF_pending, tsuCmd_pending, ite_pending, ite_self]

/-! ### The register file (18) -/

@[simp] theorem glbUpdateTake_pending (mask : Word) (st : State) : (glbUpdateTake mask st).pending = st.pending := by
  simp only [glbUpdateTake, setF_pending, modGlb_pending, ite_pending, ite_self]

@[simp] theorem rcpApply_pending (st : State) (s : SliceId) (p a : Nat) (v : Word) :
    (rcpApply st s p a v).pending = st.pending := by
  simp only [rcpApply, raise_pending, wrA_pending, ite_pending, ite_self]

@[simp] theorem applyReg_pending (st : State) (taken : NMap Word) (a : Nat) (v : Word) :
    (applyReg st taken a v).pending = st.pending := by
  unfold applyReg
  repeat' split
  all_goals simp only [wrA_pending, rcpApply_pending, modPc_pending]

@[simp] theorem afterUpdate_pending (old : State) (mask : Word) (st : State) :
    (afterUpdate old mask st).pending = st.pending := by
  simp only [afterUpdate, bwRestart_pending, modPmu_pending, ppsSettle_pending, freezeLoops_pending, settle_pending,
    foldl_pending, implies_true, ite_pending, ite_self]

@[simp] theorem updateApply_pending (st : State) : (updateApply st).pending = st.pending := by
  unfold updateApply
  split <;> simp only [modGlb_pending, keepHeadroom_pending, applyReg_pending, raise_pending, afterUpdate_pending,
    foldl_pending, implies_true, ite_pending, ite_self]

@[simp] theorem ringRegWrite_pending (i : InstId) (r : Fin 16) (a : Nat) (v : Word) (st : State) :
    (ringRegWrite i r a v st).pending = st.pending := by
  simp only [ringRegWrite, storePlain_pending, ite_pending, ite_self]

@[simp] theorem vfWrite_pending (i : InstId) (o : Nat) (v : Word) (st : State) :
    (vfWrite i o v st).pending = st.pending := by
  simp only [vfWrite, doorbell_pending, vfScCmd_pending, wr_pending, ite_pending, ite_self]
  repeat' split
  all_goals simp only [ringCtlWrite_pending, ringRegWrite_pending, storePlain_pending]

/-! ### The start of a step epoch (12) -/

@[simp] theorem applyReservations_pending (st : State) : (applyReservations st).pending = st.pending := by
  simp only [applyReservations, applyRes_pending, modJnl_pending, foldl_pending, implies_true]

@[simp] theorem releaseHeld_pending (st : State) : (releaseHeld st).pending = st.pending := (rfl)

@[simp] theorem switchNow_pending (st : State) : (switchNow st).pending = st.pending := by
  simp only [switchNow, twnEnd_pending, beginSwitch_pending, modTwin_pending, releaseOwn_pending, ite_pending, ite_self]

@[simp] theorem setOutcome_pending (st : State) (v : Nat) : (setOutcome st v).pending = st.pending := (rfl)

@[simp] theorem diverged_pending (n : Nat) (d : Nat × Nat × Bool) (st : State) :
    (diverged n d st).pending = st.pending := by
  simp only [diverged, modTwin_pending, count_pending, raise_pending, ite_pending, ite_self]

@[simp] theorem matched_pending (st : State) : (matched st).pending = st.pending := by
  simp only [matched, modTwin_pending, ite_pending]
  repeat' split
  all_goals simp only [modTwin_pending]

@[simp] theorem compareEpoch_pending (st : State) (n : Nat) : (compareEpoch st n).pending = st.pending := by
  simp only [compareEpoch]
  repeat' split
  all_goals simp only [modTwin_pending, diverged_pending, matched_pending]

@[simp] theorem syncFail_pending (st : State) : (syncFail st).pending = st.pending := by
  unfold syncFail
  split <;> simp only [raise_pending, count_pending, toStart_pending, ite_pending, ite_self]

@[simp] theorem nextEpoch_pending (st : State) : (nextEpoch st).pending = st.pending := (rfl)

@[simp] theorem epochMsgs_pending (st : State) : (epochMsgs st).pending = st.pending := by
  simp only [epochMsgs, sendMsg_pending]

@[simp] theorem trimSets_pending (st : State) : (trimSets st).pending = st.pending := (rfl)

@[simp] theorem overdue_pending (st : State) : (overdue st).pending = st.pending := by
  simp only [overdue, modTwin_pending, drawFree_pending, toSyncing_pending, ite_pending, ite_self]

end Sys2Proof.Machine
end

section
/-!
PROOFS. The operations that may write the MRAM die, and what reaches one of them, as rules of a predicate: what waits in
the queue is handed from state to state.
-/
namespace Sys2Proof.Machine

/-- The commands `cs` wait in the queue of the state. -/
def Waits (cs : List Instr) (st : State) : Prop := st.pending = cs

section
variable {cs : List Instr}

theorem Waits.of_pending {st t : State} (h : Waits cs st) (ht : t.pending = st.pending) : Waits cs t := ht.trans h

theorem Waits.ite {c : Prop} [Decidable c] {st t : State} (hs : Waits cs st) (ht : Waits cs t) :
    Waits cs (if c then st else t) := by
  split
  · exact hs
  · exact ht

theorem Waits.foldl {α : Type} {f : State → α → State} (hf : ∀ {st} x, Waits cs st → Waits cs (f st x)) (l : List α)
    {st : State} (h : Waits cs st) : Waits cs (l.foldl f st) :=
  List.foldlRecOn (motive := Waits cs) l _ h fun _ ht x _ => hf x ht

/-- A next state of the outcome has the commands in its queue that wait in `st`. -/
def QueueKept (st : State) (o : Out) : Prop := ∀ t, o = .next t → t.pending = st.pending

theorem QueueKept.of_waits {st t : State} (h : ∀ {cs}, Waits cs st → Waits cs t) : QueueKept st (.next t) := by
  rintro _ ⟨⟩
  exact h rfl

theorem QueueKept.of_pending {st t : State} (h : t.pending = st.pending) : QueueKept st (.next t) := by
  rintro _ ⟨⟩
  exact h

/-! ### What writes the die: counts, records of the journal and of the log, the preference (15, 16) -/

theorem mramCount_waits (st : State) (a : Nat) (h : Waits cs st) : Waits cs (mramCount st a) := .ite h h

theorem ringWrite_waits {st : State} {p : Nat} {b : Bytes} (h : Waits cs st) : Waits cs (ringWrite st p b) := h

theorem logWrite_waits {st : State} {p : Nat} {b : Bytes} (h : Waits cs st) : Waits cs (logWrite st p b) := h

theorem setPrefSlot_waits {st : State} {v : Bool} (h : Waits cs st) : Waits cs (setPrefSlot st v) := h

theorem logPut_waits {st : State} {r : LogRec} (h : Waits cs st) : Waits cs (logPut st r) :=
  .ite (mramCount_waits _ _ h) h

theorem logRec_waits (st : State) (n : Fin 256) (d : Bytes) (f : Nat) (h : Waits cs st) : Waits cs (logRec st n d f) :=
  logPut_waits h

theorem fiRecord_waits {st : State} {n : Fin 256} {u : Nat} {s : SliceId} {k : PortIx} {cfg sel : Word}
    (h : Waits cs st) : Waits cs (fiRecord st n u s k cfg sel) :=
  logPut_waits h

theorem carmineHalt_waits {st : State} {c : Fin 16} {code slice ix : Nat} {n : Fin 256} {d : Bytes} (h : Waits cs st) :
    Waits cs (carmineHalt st c code slice ix n d) :=
  .ite (logRec_waits st n d 0 h)
    (Waits.of_pending (logRec_waits (haltCore st c code slice ix) n d 0 (h.of_pending (haltCore_pending ..)))
      (haltEvent_pending ..))

theorem viaPF_waits {st : State} {a : Nat} {w : Word} {eff : State → State} (h : Waits cs st) (heff :
    Waits cs (eff st)) :
    Waits cs (viaPF a w eff st) := by
  obtain hs | hs | hs | hs := viaPF_cases st a w eff <;> rw [hs]
  · exact h
  · exact h.of_pending (pfDiscard_pending ..)
  · exact h.of_pending (forward_pending ..)
  · exact heff

theorem cmdPF_waits {st : State} {a : Nat} {res : Field} {w : Word} {eff : State → State} (h : Waits cs st)
    (heff : Waits cs (eff st)) : Waits cs (cmdPF a res w eff st) := by
  obtain hs | hs | hs | hs | hs | hs := cmdPF_cases st a res w eff <;> rw [hs]
  · exact h
  · exact h.of_pending (pfDiscard_pending ..)
  · exact h.of_pending (cmdEarly_pending ..)
  · exact h.of_pending (setF_pending ..)
  · exact h.of_pending ((setF_pending ..).trans (forward_pending ..))
  · exact heff

/-! ### Fault injectors, of the lines and of the constant-rate lanes -/

theorem ctfFiStrobe_waits {s : SliceId} {k : PortIx} {w : Word} {st : State} (h : Waits cs st) :
    Waits cs (ctfFiStrobe s k w st) := by
  unfold ctfFiStrobe
  dsimp only
  split
  · exact h
  · split
    · exact h.of_pending (by simp only [setF_pending, pickCode_pending])
    · split
      all_goals exact fiRecord_waits (h.of_pending (by simp only [setF_pending, modCtfLane_pending, pickCode_pending]))

theorem ctfFiReset_waits {s : SliceId} {k : PortIx} {st : State} (h : Waits cs st) : Waits cs (ctfFiReset st s k) :=
  .ite (fiRecord_waits (h.of_pending (modCtfLane_pending ..))) (h.of_pending (modCtfLane_pending ..))

theorem fiReset_waits {s : SliceId} {k : PortIx} {st : State} (h : Waits cs st) : Waits cs (fiReset st s k) :=
  have h := (ctfFiReset_waits h).of_pending (modPort_pending ..)
  .ite (fiRecord_waits h) h

theorem fiStrobe_waits {s : SliceId} {k : PortIx} {w : Word} {st : State} (h : Waits cs st) :
    Waits cs (fiStrobe s k w st) := by
  unfold fiStrobe
  dsimp only
  split
  · exact h
  · split
    · exact h.of_pending (by simp only [setF_pending, pickCode_pending])
    · split
      · exact fiRecord_waits (h.of_pending (by simp only [setF_pending, modFi_pending, pickCode_pending]))
      · refine Waits.foldl (fun _ h => h.of_pending (disarmRelease_pending ..)) _ ?_
        exact fiRecord_waits (h.of_pending (by simp only [setF_pending, modPort_pending, pickCode_pending]))

theorem fiCmd_waits {s : SliceId} {k : PortIx} {w : Word} {st : State} (h : Waits cs st) : Waits cs (fiCmd s k w st) :=
  (fiStrobe_waits h).of_pending (settle_pending ..)

/-! ### The transmit path: a clear frame on a guarded port may halt the device -/

theorem guardTrip_waits {st : State} {s : SliceId} {k : PortIx} (h : Waits cs st) : Waits cs (guardTrip st s k) := by
  have hst : ∀ w e, Waits cs (raise (count (wr st Reg.glbGuard w) (Reg.glbFltCnt 2)) e) := fun _ _ =>
    h.of_pending (by simp only [raise_pending, count_pending, wr_pending])
  exact .ite (carmineHalt_waits (hst ..)) ((hst ..).of_pending (modPort_pending ..))

theorem transmit_waits {st : State} {d : Side} {s : SliceId} {k : PortIx} {f : EgrFrame} (h : Waits cs st) :
    Waits cs (transmit st d s k f) := by
  unfold transmit
  split
  · exact h.of_pending (downDrop_pending ..)
  · cases d with
    | client => exact h.of_pending (sendOut_pending ..)
    | line =>
      refine .ite (guardTrip_waits (h.of_pending (sendOut_pending ..))) (h.of_pending ?_)
      simp only [sendOut_pending, untaggedOut_pending]

theorem releaseTx_waits {s : SliceId} {k : PortIx} {st : State} {f : HeldFrame} (h : Waits cs st) :
    Waits cs (releaseTx s k st f) := by
  cases f with
  | tx f => exact .ite (h.of_pending (modPort_pending ..)) (transmit_waits h)
  | rx _ => exact h

theorem injectTx_waits {st : State} {s : SliceId} {k : PortIx} {f : EgrFrame} (h : Waits cs st) :
    Waits cs (injectTx st s k f) := by
  unfold injectTx
  refine Waits.foldl (fun _ h => releaseTx_waits h) _ ?_
  have hst : Waits cs (fiStep (fiFurther st s k false).2 s k false f.bytes).2 :=
    h.of_pending (by simp only [fiStep_pending, fiFurther_pending])
  split
  · exact transmit_waits hst
  · exact hst
  · exact hst.of_pending (fiHold_pending ..)

theorem finish_waits {st : State} {d : Side} {s : SliceId} {k : PortIx} {f : EgrFrame} {fcs : Bool} (h : Waits cs st) :
    Waits cs (finish st d s k f fcs) := by
  refine .ite (transmit_waits h) ?_
  cases d with
  | client => exact transmit_waits h
  | line => exact injectTx_waits h

theorem grant_waits {st : State} {d : Side} {s : SliceId} {k : PortIx} {q : Fin 8} (h : Waits cs st) :
    Waits cs (grant st d s k q) := by
  unfold grant
  dsimp only
  split
  · exact h
  · split
    · exact h
    · split
      · exact h.of_pending (by simp only [downDrop_pending, dequeue_pending])
      · split
        · exact h
        · split
          · exact h.of_pending (by simp only [cellUe_pending, dequeue_pending])
          · refine .ite (finish_waits ?_) ?_
            all_goals exact h.of_pending (by simp only [dequeue_pending, modPort_pending, tcCorrect_pending])

theorem endQueued_waits {st : State} {s : SliceId} {k lp : PortIx} {g : EgrFrame} {n : Nat} {f : RxFrame}
    (h : Waits cs st) : Waits cs (endQueued st s k lp g n f) := by
  unfold endQueued
  extract_lets bs g' c bad late judged dropped taken counted sent
  clear_value late
  have hjudged : Waits cs judged := by
    unfold judged
    split
    · exact h.of_pending (by simp only [prsCount_pending, noteMal_pending])
    · exact h.of_pending (countTrunc_pending ..)
  have hdropped : Waits cs dropped := .ite (hjudged.of_pending (macDrop_pending ..)) hjudged
  have hcounted : Waits cs counted := by
    unfold counted
    split
    · exact hdropped.of_pending (protCount_pending ..)
    · exact hdropped
  have htaken : Waits cs taken := hdropped.of_pending (dequeue_pending ..)
  have hsent : Waits cs sent := hcounted.of_pending (dequeue_pending ..)
  refine .ite (.ite (finish_waits htaken) htaken) (.ite (.ite (finish_waits ?_) (finish_waits hsent)) ?_)
  · exact hsent.of_pending (cellUe_pending ..)
  · exact hcounted.of_pending (modPort_pending ..)

theorem launchNow_waits {st : State} {n : Nat} {f : SafFrame} {k : PortIx} {e : EgrFrame} (h : Waits cs st) :
    Waits cs (launchNow st n f k e) := by
  unfold launchNow
  dsimp only
  refine .ite (h.of_pending (by simp only [downDrop_pending, safRemove_pending])) (finish_waits (h.of_pending ?_))
  simp only [modPort_pending, tcCorrect_pending, ite_pending, bumpVf_pending, count_pending, safRemove_pending,
    ite_self]

/-! ### The encrypted memory -/

theorem meeFail_waits {st : State} {cause region level p : Nat} (h : Waits cs st) :
    Waits cs (meeFail st cause region level p) :=
  (carmineHalt_waits (h.of_pending (modMee_pending ..))).of_pending (modMee_pending ..)

theorem meeEnd_waits {st : State} {r : Except (Nat × Nat) State} (h : Waits cs st)
    (hr : ∀ {t}, r = .ok t → t.pending = st.pending) : Waits cs (meeEnd st r) := by
  cases r with
  | ok t => exact h.of_pending (hr rfl)
  | error e => exact .ite h (meeFail_waits h)

theorem meeError_waits {st : State} {e : Nat × Nat} (h : Waits cs st) : Waits cs (meeEnd st (.error e)) :=
  meeEnd_waits h nofun

theorem dramTrained_waits {failed : BitVec 4} {st : State} (h : Waits cs st) : Waits cs (dramTrained failed st) := by
  unfold dramTrained
  dsimp only
  refine .ite h (.ite ?_ (.ite ?_ (carmineHalt_waits ?_)))
  · exact h.of_pending (by simp only [enablePorts_pending, modMee_pending, draw_pending])
  · exact h.of_pending (modMee_pending ..)
  · exact h.of_pending ((modMee_pending ..).trans (modMee_pending ..))

theorem meeReadDone_waits {p : Nat} {rank : Bool} {errs : List BeatErr} {st : State} (h : Waits cs st) :
    Waits cs (meeReadDone p rank errs st) := by
  unfold meeReadDone
  split
  · exact h
  · split
    case h_1 => exact h
    case h_2 i _ =>
      split
      next => exact meeError_waits h
      next st1 hctr =>
        have h1 := h.of_pending (fetchCtr_pending hctr)
        split
        · exact h1.of_pending (meeRelease_pending ..)
        · split
          next => exact meeError_waits h1
          next hread =>
            have h2 := h1.of_pending (readBurst_pending hread)
            split
            next => exact meeError_waits h2
            next => exact h2.of_pending (meeRelease_pending ..)
    case h_3 k _ =>
      split
      · exact h
      · split
        next => exact meeError_waits h
        next hread => exact meeEnd_waits (h.of_pending (readBurst_pending hread)) tagsOk_pending
    case h_4 l n _ =>
      split
      next => exact meeError_waits h
      next hctr =>
        have h1 := h.of_pending (fetchCtr_pending hctr)
        split
        · exact h1
        · split
          · exact meeEnd_waits h1 takeNode_pending
          · split
            next => exact meeError_waits h1
            next hread => exact meeEnd_waits (h1.of_pending (readBurst_pending hread)) takeNode_pending

theorem patrol_waits {p : Nat} {rank : Bool} {errs : List BeatErr} {st : State} (h : Waits cs st) :
    Waits cs (patrol p rank errs st) := by
  unfold patrol
  split
  · exact h
  · split
    next => exact meeError_waits h
    next hctr =>
      have h1 := h.of_pending (patrolCtr_pending hctr)
      split
      next => exact meeError_waits h1
      next hread => exact h1.of_pending ((readBurst_pending hread).trans (count_pending ..))

theorem meeWriteBack_waits {p : Nat} {st : State} (h : Waits cs st) : Waits cs (meeWriteBack p st) := by
  unfold meeWriteBack
  split
  · exact h
  · split
    next =>
      split
      next => exact h
      next =>
        split
        · exact h
        · split
          next hdata => exact h.of_pending (writeData_pending hdata)
          next => exact .ite h (meeFail_waits (h.of_pending (modMee_pending ..)))
    next =>
      split
      next => exact .ite (meeEnd_waits h writeNode_pending) h
      next => exact h
    next => exact h

theorem scrubUe_waits {code : Fin 14} {s : SliceId} {ix : Nat} {st : State} (h : Waits cs st) :
    Waits cs (scrubUe code s ix st) := by
  have huncorr : Waits cs (sramUncorr st) := h.of_pending (sramUncorr_pending ..)
  unfold scrubUe
  split
  case h_12 => exact carmineHalt_waits huncorr
  case h_13 => exact .ite h (meeFail_waits huncorr)
  case h_14 => exact carmineHalt_waits huncorr
  all_goals
    refine h.of_pending ?_
    simp only [slotEcc_pending, chanEcc_pending, hashEcc_pending, nodeEcc_pending, parityError_pending,
      sramUncorr_pending, sramUe_pending, modRules_pending, modFrags_pending, cellScrub_pending, modSl_pending]

/-! ### The journal -/

theorem writeOk_waits {st : State} {r : JReq} {seq : BitVec 56} (h : Waits cs st) : Waits cs (writeOk st r seq) := by
  unfold writeOk
  extract_lets p x written old held
  have hwritten : Waits cs written := ringWrite_waits h
  exact hwritten.of_pending (by simp only [committed_pending, count_pending, held, modJnl_pending])

theorem writeBad_waits {st : State} {r : JReq} {seq : BitVec 56} (h : Waits cs st) : Waits cs (writeBad st r seq) := by
  unfold writeBad
  dsimp only
  generalize hw : ringWrite _ _ _ = st1
  have h1 : Waits cs st1 := by
    rw [← hw]
    exact ringWrite_waits (h.of_pending (draw_pending ..))
  repeat' split
  all_goals
    refine h1.of_pending ?_
    simp only [pnjEnd_pending, tombEnd_pending, installRefused_pending, raise_pending, count_pending, modJnl_pending]

theorem damagedRec_waits {st : State} {p : Nat} (h : Waits cs st) : Waits cs (damagedRec st p) :=
  logRec_waits _ _ _ _ (h.of_pending (by simp only [raise_pending, count_pending, modJnl_pending]))

/-! ### Tamper responses and the log -/

theorem groupRecords_waits {st : State} {g : List Alarm} {start : Bool} (h : Waits cs st) :
    Waits cs (groupRecords st g start) := by
  unfold groupRecords
  dsimp only
  generalize hr : g.foldl _ _ = r
  have hrated : r.2.pending = st.pending := by
    rw [← hr]
    refine foldl_snd_pending (fun p a => ?_) g ([], st)
    have hrate := rated_pending p.2 a
    split
    all_goals
      next h =>
        rw [h] at hrate
        exact hrate
  exact Waits.foldl (fun _ h => logPut_waits h) _ (h.of_pending hrated)

theorem alarmGroup_waits {st : State} {g : List Alarm} {start : Bool} (h : Waits cs st) :
    Waits cs (alarmGroup st g start) := by
  unfold alarmGroup
  extract_lets r was answered inForce recorded
  clear_value r
  have hanswered : Waits cs answered := by
    unfold answered
    split
    · exact h
    · exact h.of_pending (squelch_pending ..)
    all_goals exact h.of_pending (tamperHalt_pending ..)
  have hforce : Waits cs inForce := .ite (hanswered.of_pending (modTmp_pending ..)) hanswered
  have hrecorded : Waits cs recorded := .ite (hforce.of_pending (countN_pending ..)) (groupRecords_waits hforce)
  refine .ite h (.ite (.ite hrecorded (hrecorded.of_pending (haltEvent_pending ..))) ?_)
  exact Waits.foldl (fun _ h => h.of_pending (raise_pending ..)) _ hrecorded

theorem tmpCmd_waits {w : Word} {st : State} (h : Waits cs st) : Waits cs (tmpCmd w st) := by
  have hlock : Waits cs (tmpLock st) := by
    refine .ite (h.of_pending (tmpResult_pending ..)) (Waits.of_pending ?_ (tmpResult_pending ..))
    exact logRec_waits _ _ _ _ (h.of_pending (modTmp_pending ..))
  have hack : Waits cs (tmpAck st) := by
    refine .ite (h.of_pending (tmpResult_pending ..)) (.ite (h.of_pending (tmpResult_pending ..)) ?_)
    refine Waits.of_pending ?_ (tmpResult_pending ..)
    exact logRec_waits _ _ _ _ (h.of_pending (modTmp_pending ..))
  unfold tmpCmd
  split
  · exact h.of_pending (tmpResult_pending ..)
  · exact hlock
  · exact hack
  · exact h

theorem logLose_waits {st : State} {r : LogRec} (h : Waits cs st) : Waits cs (logLose st r) :=
  have hlost : Waits cs (mramCount st mramLostAddr) := mramCount_waits _ _ h
  .ite (hlost.of_pending (evlDone_pending ..)) hlost

theorem logAdvance_waits {st : State} (h : Waits cs st) : Waits cs (logAdvance st) := by
  unfold logAdvance
  extract_lets log moved told
  have htold : Waits cs told := .ite (Waits.of_pending h (raise_pending ..)) h
  exact .ite htold (Waits.foldl (fun _ h => logLose_waits h) _ htold)

theorem logCommitted_waits {st : State} {r : LogRec} (h : Waits cs st) : Waits cs (logCommitted st r) := by
  unfold logCommitted
  refine logAdvance_waits (h.of_pending ?_)
  simp only [ite_pending, modTmp_pending, evlDone_pending, armRecorded_pending, modJnl_pending, ite_self]

theorem logFailed_waits {st : State} {r : LogRec} (h : Waits cs st) : Waits cs (logFailed st r) := by
  unfold logFailed
  dsimp only
  generalize hw : logWrite _ _ _ = written
  have hwritten : Waits cs written := by
    rw [← hw]
    exact logWrite_waits (h.of_pending ((draw_pending ..).trans (draw_pending ..)))
  exact .ite (logAdvance_waits (Waits.of_pending hwritten (count_pending ..))) hwritten

theorem logResult_waits {ok : Bool} {r : LogRec} {st : State} (h : Waits cs st) : Waits cs (logResult ok r st) :=
  .ite h (.ite (logCommitted_waits (logWrite_waits h)) (logFailed_waits h))

theorem evlCmd_waits {w : Word} {st : State} (h : Waits cs st) : Waits cs (evlCmd w st) := by
  unfold evlCmd
  split
  · exact h.of_pending (evlRead_pending ..)
  · refine .ite (h.of_pending (evlDone_pending ..)) (.ite (h.of_pending (evlDone_pending ..)) ?_)
    exact Waits.of_pending (logRec_waits _ _ _ _ h) (cmdBusy_pending ..)
  · exact h.of_pending (evlVerify_pending ..)
  · exact h.of_pending (evlDone_pending ..)

theorem evlPF_waits {w : Word} {st : State} (h : Waits cs st) : Waits cs (evlPF w st) := by
  unfold evlPF
  refine .ite (.ite h (.ite ?_ (.ite (evlCmd_waits h) ?_))) (cmdPF_waits h (evlCmd_waits h))
  · exact h.of_pending (setF_pending ..)
  · exact h.of_pending (cmdEarly_pending ..)

/-! ### Resets, images and ports -/

theorem deviceReset_waits {st : State} {cause : Fin 4} {keys : KtrSt} {trng : Bool} (h : Waits cs st) :
    Waits cs (deviceReset st cause keys trng) := by
  unfold deviceReset
  extract_lets z tap cleared started
  have hcleared : Waits cs cleared := h
  have hstarted : Waits cs started :=
    Waits.of_pending (mramCount_waits _ mramBootAddr hcleared) ((requestRails_pending ..).trans (drawSeeds_pending ..))
  exact .ite hstarted (carmineHalt_waits hstarted)

theorem powerReset_waits {cause : Fin 4} {primary debug trng : Bool} {st : State} (h : Waits cs st) :
    Waits cs (powerReset cause primary debug trng st) :=
  deviceReset_waits h

theorem softReset_waits {cause : Fin 4} {trng : Bool} {st : State} (h : Waits cs st) :
    Waits cs (softReset cause trng st) :=
  .ite h (deviceReset_waits h)

theorem imgCmd_waits {w : Word} {st : State} (h : Waits cs st) : Waits cs (imgCmd w st) := by
  unfold imgCmd
  split
  · exact h.of_pending (imgDownload_pending ..)
  · exact h.of_pending (imgStage_pending ..)
  · exact .ite (h.of_pending (cmdBusy_pending ..)) ((setPrefSlot_waits h).of_pending (imgDone_pending ..))
  · exact h.of_pending (imgAdvance_pending ..)
  · exact h.of_pending (imgAddKeys_pending ..)
  · exact h.of_pending (imgRevoke_pending ..)
  · exact h.of_pending (imgDone_pending ..)

theorem imgPF_waits {w : Word} {st : State} (h : Waits cs st) : Waits cs (imgPF w st) := by
  refine .ite h (.ite (.ite ?_ (.ite (imgCmd_waits h) ?_)) (cmdPF_waits h (imgCmd_waits h)))
  · exact h.of_pending (setF_pending ..)
  · exact h.of_pending (cmdEarly_pending ..)

theorem portDown_waits {st : State} {s : SliceId} {d : Side} {k : PortIx} (h : Waits cs st) :
    Waits cs (portDown st s d k) := by
  unfold portDown
  have hinj : Waits cs (if d = .line then fiReset st s k else st) := .ite (fiReset_waits h) h
  generalize (if d = .line then fiReset st s k else st : State) = st1 at hinj ⊢
  dsimp only
  have hlanes : Waits cs ((portLanes st1 d s k).foldl (fun st i =>
      modLane (setStage .sigWait (laneLost st (.lane d s i) .signal) (.lane d s i)) (.lane d s i) fun x =>
        { x with retries := 0, consec := 0 }) st1) :=
    Waits.foldl (fun _ h => h.of_pending (by simp only [modLane_pending, setStage_pending, laneLost_pending])) _ hinj
  cases d
  all_goals
    exact hlanes.of_pending (by simp only [settle_pending, modPmu_pending, modSl_pending, wr_pending, modPort_pending])

theorem portRstCmd_waits {w : Word} {st : State} (h : Waits cs st) : Waits cs (portRstCmd w st) := by
  refine .ite (h.of_pending (rstDone_pending ..)) (.ite (h.of_pending (rstDone_pending ..)) ?_)
  exact (portDown_waits h).of_pending ((cmdBusy_pending ..).trans (modGlb_pending ..))

/-! ### A write to a register, directly or through the mirror (12, 18) -/

/-- What a write to a register of the kind does keeps the queue of commands. -/
def WrKind.KeepsQueue : WrKind → Prop
  | .cmd _ _ core | .direct core => ∀ {cs st} v, Waits cs st → Waits cs (core v st)
  | .own _ pf core => (∀ {cs st} v, Waits cs st → Waits cs (pf v st)) ∧ ∀ {cs st} v, Waits cs st → Waits cs (core v st)
  | .plain => True

/-- A register, if the option has one, keeps the queue of commands. -/
def OptKeepsQueue (o : Option WrKind) : Prop := ∀ x, o = some x → x.KeepsQueue

theorem OptKeepsQueue.or {o p : Option WrKind} (ho : OptKeepsQueue o) (hp : OptKeepsQueue p) :
    OptKeepsQueue (o.or p) := by
  intro x hx
  obtain hx | ⟨-, hx⟩ := Option.or_eq_some_iff.mp hx
  · exact ho x hx
  · exact hp x hx

theorem OptKeepsQueue.map {α : Type} {f : α → WrKind} (hf : ∀ e, (f e).KeepsQueue) (o : Option α) :
    OptKeepsQueue (o.map f) := by
  intro x hx
  obtain ⟨e, -, rfl⟩ := Option.map_eq_some_iff.mp hx
  exact hf e

theorem OptKeepsQueue.findSome? {α : Type} {f : α → Option WrKind} (hf : ∀ e, OptKeepsQueue (f e)) (l : List α) :
    OptKeepsQueue (l.findSome? f) := by
  intro x hx
  obtain ⟨e, -, he⟩ := List.exists_of_findSome?_eq_some hx
  exact hf e x he

theorem OptKeepsQueue.find? {l : List (Nat × WrKind)} (hl : ∀ p ∈ l, p.2.KeepsQueue) {q : Nat × WrKind → Bool}
    {p : Nat × WrKind} (hp : l.find? q = some p) : p.2.KeepsQueue :=
  hl p (List.mem_of_find?_eq_some hp)

theorem OptKeepsQueue.getD {o : Option WrKind} (ho : OptKeepsQueue o) : (o.getD .plain).KeepsQueue := by
  cases o with
  | none => trivial
  | some x => exact ho x rfl

theorem sliceCmds_keepsQueue (s : SliceId) : ∀ p ∈ sliceCmds s, p.2.KeepsQueue := by
  simp only [sliceCmds, List.forall_mem_cons, WrKind.KeepsQueue]
  refine ⟨?imap, ?ruleClient, ?ruleLine, ⟨?commitPF, ?commit⟩, ⟨?tblPF, ?tbl⟩, ?mode, ⟨?saePF, ?sae⟩, ?align, ?trib,
    ?page, nofun⟩
  case imap => exact fun _ h => h.of_pending (imapCmd_pending ..)
  case ruleClient => exact fun _ h => h.of_pending (ruleCmd_pending ..)
  case ruleLine => exact fun _ h => h.of_pending (ruleCmd_pending ..)
  case commitPF => exact fun _ h => h.of_pending (commitPF_pending ..)
  case commit => exact fun _ h => h.of_pending (commitStrobe_pending ..)
  case tblPF => exact fun _ h => cmdPF_waits h (h.of_pending (tblCmd_pending ..))
  case tbl => exact fun _ h => h.of_pending (tblCmd_pending ..)
  case mode => exact fun _ h => h.of_pending (tblModeWrite_pending ..)
  case saePF => exact fun _ h => h.of_pending (saePF_pending ..)
  case sae => exact fun _ h => h.of_pending (saeCmd_pending ..)
  case align => exact fun _ h => h.of_pending (alignStrobe_pending ..)
  case trib => exact fun _ h => h.of_pending (tribCmd_pending ..)
  case page => exact fun _ h => h.of_pending (pageCmd_pending ..)

theorem sliceKind_keepsQueue (s : SliceId) (o : Nat) : (sliceKind s o).KeepsQueue := by
  unfold sliceKind
  split
  next hp => exact OptKeepsQueue.find? (sliceCmds_keepsQueue s) hp
  next =>
    refine OptKeepsQueue.getD (.or (.findSome? (fun d => .map (fun e => ?kprof) _) _) (.or (.map (fun t => ?timer) _)
      (.or (.map (fun k => ?inject) _) (.or (.map (fun k => ?lane) _)
        (.findSome? (fun k => .map (fun w => ?trace) _) _)))))
    case kprof => exact fun _ h => h.of_pending (kprofWrite_pending ..)
    case timer => exact fun _ h => h.of_pending (timerStrobe_pending ..)
    case inject => exact fun _ h => fiCmd_waits h
    case lane => exact fun _ h => ctfFiStrobe_waits h
    case trace => exact fun _ h => h.of_pending (traceExpWrite_pending ..)

theorem deviceCmds_keepsQueue : ∀ p ∈ deviceCmds, p.2.KeepsQueue := by
  have hreset {cs} {st : State} {v : Word} (h : Waits cs st) :
      Waits cs (if v.setWidth 8 = (0xD1 : Byte) then softReset 3 true st else st) := .ite (softReset_waits h) h
  simp only [deviceCmds, List.forall_mem_cons, WrKind.KeepsQueue]
  refine ⟨?update, ⟨fun _ => hreset, fun _ => hreset⟩, ⟨fun _ => imgPF_waits, fun _ => imgCmd_waits⟩, ?slice,
    fun _ => portRstCmd_waits, ?vim, ?mbx, ?twn, ?resp0, ?resp1, fun _ => tmpCmd_waits,
    ⟨fun _ => evlPF_waits, fun _ => evlCmd_waits⟩, ⟨?ktrPF, ?ktr⟩, ?pnj, ?arc, ⟨?tsuPF, ?tsu⟩, ?snap, ?sc, nofun⟩
  case update => exact fun _ h => h.of_pending (glbUpdateTake_pending ..)
  case slice => exact fun _ h => h.of_pending (sliceCmd_pending ..)
  case vim => exact fun _ h => h.of_pending (vimCmd_pending ..)
  case mbx => exact fun _ h => h.of_pending (mbxCmd_pending ..)
  case twn => exact fun _ h => h.of_pending (twnCmd_pending ..)
  case resp0 => exact fun _ h => h.of_pending (tmpRespSet_pending ..)
  case resp1 => exact fun _ h => h.of_pending (tmpRespSet_pending ..)
  case ktrPF => exact fun _ h => h.of_pending (ktrPF_pending ..)
  case ktr => exact fun _ h => h.of_pending (ktrCmd_pending ..)
  case pnj => exact fun _ h => h.of_pending (pnjCmd_pending ..)
  case arc => exact fun _ h => h.of_pending (arcCmd_pending ..)
  case tsuPF => exact fun _ h => h.of_pending (tsuCmdPF_pending ..)
  case tsu => exact fun _ h => h.of_pending (tsuCmd_pending ..)
  case snap => exact fun _ h => .ite (h.of_pending (snapStrobe_pending ..)) h
  case sc => exact fun _ h => h.of_pending (pmuScCmd_pending ..)

theorem deviceArrays_keepsQueue (a : Nat) : OptKeepsQueue (deviceArrays a) := by
  refine .or (.map (fun j => ?cfg) _) (.or (.map (fun j => ?head) _) (.or (.map (fun r => ?ctl) _) (.or
    (.findSome? (fun b => .map (fun r => ?ring) _) _) (.map (fun s => ?pc) _))))
  case cfg => exact fun _ h => h.of_pending (evtCfgWrite_pending ..)
  case head => exact fun _ h => h.of_pending (evtHeadWrite_pending ..)
  case ctl => exact fun _ h => h.of_pending (ringCtlWrite_pending ..)
  case ring => exact fun _ h => h.of_pending (ringRegWrite_pending ..)
  case pc => exact fun _ h => h.of_pending (pcStrobe_pending ..)

theorem wrKind_keepsQueue (a : Nat) : (wrKind a).KeepsQueue := by
  unfold wrKind
  split
  next => exact sliceKind_keepsQueue ..
  next =>
    split
    next hp => exact OptKeepsQueue.find? deviceCmds_keepsQueue hp
    next =>
      split
      · exact fun _ h => h.of_pending (wr_pending ..)
      · exact (deviceArrays_keepsQueue a).getD

theorem applyWrite_waits {a : Nat} {v : Word} {st : State} (h : Waits cs st) : Waits cs (applyWrite a v st) := by
  have hkind := wrKind_keepsQueue a
  unfold applyWrite
  split
  · exact h.of_pending (fsyncApply_pending ..)
  · refine .ite h ?_
    generalize wrKind a = kind at hkind
    cases kind with
    | cmd _ _ core => exact hkind v h
    | direct core => exact hkind v h
    | own _ _ core => exact hkind.2 v h
    | plain => exact h.of_pending (storePlain_pending ..)

theorem opNone_waits {a : Nat} {v : Word} {core : State → State} {st : State} (h : Waits cs st)
    (hcore : Waits cs (core st)) : Waits cs (opNone a v core st) :=
  .ite h (viaPF_waits h hcore)

theorem pfWrite_waits {a : Nat} {v : Word} {st : State} (h : Waits cs st) : Waits cs (pfWrite a v st) := by
  have hkind := wrKind_keepsQueue a
  unfold pfWrite
  refine .ite h ?_
  generalize wrKind a = kind at hkind
  cases kind with
  | cmd op res core => exact .ite (opNone_waits h (hkind v h)) (cmdPF_waits h (hkind v h))
  | direct core => exact viaPF_waits h (hkind v h)
  | own op pf core =>
    cases op with
    | none => exact hkind.1 v h
    | some op => exact .ite (opNone_waits h (hkind.2 v h)) (hkind.1 v h)
  | plain => exact viaPF_waits h (h.of_pending (storePlain_pending ..))

theorem applyMir_waits {st : State} {w : MirWrite} (h : Waits cs st) : Waits cs (applyMir st w) := by
  unfold applyMir
  split
  · exact .ite h (applyWrite_waits h)
  · exact h.of_pending ((injJudge_pending ..).trans (setHand_pending ..))

theorem applyDue_waits {st : State} (h : Waits cs st) : Waits cs (applyDue st) :=
  Waits.foldl (fun _ h => h.of_pending (macApply_pending ..)) _
    (Waits.foldl (fun _ h => applyMir_waits h) _ (h.of_pending (modTwin_pending ..)))

theorem epochStart_waits {st : State} (h : Waits cs st) : Waits cs (epochStart st) := by
  have hdue : Waits cs (releaseHeld (applyDue (applyReservations (nextEpoch st)))) :=
    (applyDue_waits (h.of_pending ((applyReservations_pending ..).trans (nextEpoch_pending ..)))).of_pending
      (releaseHeld_pending ..)
  refine .ite hdue (hdue.of_pending ?_)
  simp only [trimSets_pending, syncFail_pending, healthCheck_pending, epochMsgs_pending, streamCut_pending,
    joinExpire_pending, claimExpire_pending, switchNow_pending, foldl_pending, compareEpoch_pending, overdue_pending,
      implies_true]

end
end Sys2Proof.Machine
end

section
/-!
PROOFS. Every command leaves the queue as it is, and O2 put together from them.
-/
namespace Sys2Proof.Machine
/-! ### Lanes, ports and flow control (02) -/

theorem execLaneSignalDetect_queue {l : LaneId} {st : State} : QueueKept st (execLaneSignalDetect l st) := by
  refine .of_pending ?_
  split <;> simp only [modLane_pending, setStage_pending]

theorem execLaneStepDone_queue {l : LaneId} {r : LockRuns} {st : State} : QueueKept st (execLaneStepDone l r st) := by
  refine .of_pending ?_
  split <;> simp only [setStage_pending, fecLocked_pending, pcsLocked_pending]

theorem execPrecoderTryTimeout_queue {l : LaneId} {st : State} : QueueKept st (execPrecoderTryTimeout l st) :=
  .of_pending (by simp only [modLane_pending, ite_pending, ite_self])

theorem execLaneTimeout_queue {l : LaneId} {st : State} : QueueKept st (execLaneTimeout l st) := by
  refine .of_pending ?_
  split <;> simp only [laneTimedOut_pending, foldl_pending, implies_true, ite_pending, ite_self]

theorem execLossOfLock_queue {l : LaneId} {c : LockLoss} {st : State} : QueueKept st (execLossOfLock l c st) :=
  .of_pending (by simp only [laneLost_pending, modLane_pending, ite_pending, ite_self])

theorem execEqAtLimit_queue {l : LaneId} {on : Bool} {st : State} : QueueKept st (execEqAtLimit l on st) :=
  .of_pending (by simp only [modLane_pending, ite_pending, ite_self])

theorem execLinkFaultSignallingRx_queue {d : Side} {s : SliceId} {k : PortIx} {lf rf : Bool} {st : State} :
    QueueKept st (execLinkFaultSignallingRx d s k lf rf st) :=
  .of_pending (by simp only [modPort_pending, ite_pending, ite_self])

theorem execPauseRepeat_queue {s : SliceId} {k : PortIx} {st : State} : QueueKept st (execPauseRepeat s k st) :=
  .of_pending (by simp only [modPort_pending, sendControl_pending, ite_pending, ite_self])

theorem execHeadroomMeasure_queue {s : SliceId} {k : PortIx} {ns : Nat} {st : State} :
    QueueKept st (execHeadroomMeasure s k ns st) :=
  .of_pending (by simp only [modPort_pending, fcUpdate_pending, keepHeadroom_pending, ite_pending, ite_self])

theorem execRxPauseFrame_queue {d : Side} {s : SliceId} {k : PortIx} {f : RxFrame} {st : State} :
    QueueKept st (execRxPauseFrame d s k f st) :=
  .of_pending (by simp only [bwFrame_pending, macDrop_pending, takePause_pending, ite_pending, ite_self])

theorem execPauseHoldEnd_queue {d : Side} {s : SliceId} {k : PortIx} {q : Fin 8} {st : State} :
    QueueKept st (execPauseHoldEnd d s k q st) :=
  .of_pending rfl

/-! ### Instance map, key profiles and rule tables (03, 04) -/

theorem execPrsImapRead_queue {s : SliceId} {d : Side} {k : PortIx} {vid : BitVec 12} {st : State} :
    QueueKept st (execPrsImapRead s d k vid st) :=
  .of_pending (by simp only [cmdPF_pending, imapCmd_pending])

theorem execPrsImapWrite_queue {s : SliceId} {d : Side} {k : PortIx} {vid : BitVec 12} {i : InstId} {st : State} :
    QueueKept st (execPrsImapWrite s d k vid i st) :=
  .of_pending (by simp only [cmdPF_pending, imapCmd_pending])

theorem execClsKprofWrite_queue {s : SliceId} {d : Side} {e : Fin 14} {v : Word} {st : State} :
    QueueKept st (execClsKprofWrite s d e v st) :=
  .of_pending (by simp only [viaPF_pending, kprofWrite_pending])

theorem ruleOp_queue {op : Nat} {s : SliceId} {d : Side} {ix : BitVec 13} {eff : Word → State → State} {st : State}
    (heff : ∀ w st, (eff w st).pending = st.pending) : QueueKept st (ruleOp op s d ix eff st) :=
  .of_pending (by simp only [cmdPF_pending, heff])

theorem execRuleRead_queue {s : SliceId} {d : Side} {ix : BitVec 13} {st : State} :
    QueueKept st (execRuleRead s d ix st) :=
  ruleOp_queue fun _ _ => ruleRead_pending ..

theorem execRuleWrite_queue {s : SliceId} {d : Side} {ix : BitVec 13} {st : State} :
    QueueKept st (execRuleWrite s d ix st) :=
  ruleOp_queue fun _ _ => ruleWrite_pending ..

theorem execRuleRetire_queue {s : SliceId} {d : Side} {ix : BitVec 13} {st : State} :
    QueueKept st (execRuleRetire s d ix st) :=
  ruleOp_queue fun _ _ => ruleRetire_pending ..

theorem execRuleCancel_queue {s : SliceId} {d : Side} {ix : BitVec 13} {st : State} :
    QueueKept st (execRuleCancel s d ix st) :=
  ruleOp_queue fun _ _ => ruleCancel_pending ..

theorem execCommit_queue {s : SliceId} {st : State} :
    QueueKept st (execCommit s st) := .of_pending (commitPF_pending ..)

theorem execCommitApply_queue {s : SliceId} {st : State} : QueueKept st (execCommitApply s st) :=
  .of_pending (by simp only [versionRetire_pending, modSl_pending, ite_pending, ite_self])

/-! ### Peer tables and learning (05) -/

theorem execLearn_queue {s : SliceId} {st : State} : QueueKept st (execLearn s st) := by
  refine .of_pending ?_
  split <;> simp only [modSl_pending, learnOne_pending, macLookup_pending, ite_pending, ite_self]

theorem execMsCounterAdvance_queue {s : SliceId} {st : State} : QueueKept st (execMsCounterAdvance s st) :=
  .of_pending (by simp only [modSl_pending, ite_pending, ite_self])

theorem execAgeTick_queue {s : SliceId} {st : State} : QueueKept st (execAgeTick s st) :=
  .of_pending (by simp only [modSl_pending, ite_pending, ite_self])

theorem execSweepVisit_queue {s : SliceId} {ix : BitVec 18} {st : State} : QueueKept st (execSweepVisit s ix st) := by
  refine .of_pending ?_
  split <;> simp only [sweepEntry_pending]

theorem execLpmScrub_queue {s : SliceId} {ix : BitVec 14} {keyBad : Bool} {st : State} :
    QueueKept st (execLpmScrub s ix keyBad st) := by
  refine .of_pending ?_
  split <;> simp only [parityError_pending, ite_pending, ite_self]

theorem tblOp_queue {s : SliceId} {w : Word} {eff : Word → State → State} {st : State}
    (heff : ∀ w st, (eff w st).pending = st.pending) : QueueKept st (tblOp s w eff st) :=
  .of_pending (by simp only [cmdPF_pending, heff])

theorem execTblRead_queue {s : SliceId} {t : Tbl} {ix : BitVec 18} {st : State} :
    QueueKept st (execTblRead s t ix st) :=
  tblOp_queue fun _ _ => tblRead_pending ..

theorem execTblWrite_queue {s : SliceId} {t : Tbl} {st : State} : QueueKept st (execTblWrite s t st) :=
  tblOp_queue fun _ _ => tblWrite_pending ..

theorem execTblInsert_queue {s : SliceId} {t : Tbl} {st : State} : QueueKept st (execTblInsert s t st) :=
  tblOp_queue fun _ _ => tblInsert_pending ..

theorem execTblDelete_queue {s : SliceId} {t : Tbl} {st : State} : QueueKept st (execTblDelete s t st) :=
  tblOp_queue fun _ _ => tblDelete_pending ..

theorem execTblLookup_queue {s : SliceId} {t : Tbl} {st : State} : QueueKept st (execTblLookup s t st) :=
  tblOp_queue fun _ _ => tblLookup_pending ..

theorem execSearch_queue {s : SliceId} {t : Tbl} {ix : BitVec 18} {st : State} :
    QueueKept st (execSearch s t ix st) :=
  tblOp_queue fun _ _ => tblSearch_pending ..

theorem execNext_queue {s : SliceId} {t : Tbl} {st : State} : QueueKept st (execNext s t st) :=
  tblOp_queue fun _ _ => tblNext_pending ..

theorem execFlushPort_queue {s : SliceId} {t : Tbl} {static_ : Bool} {st : State} :
    QueueKept st (execFlushPort s t static_ st) :=
  tblOp_queue fun _ _ => tblFlushPort_pending ..

theorem execFlushInstance_queue {s : SliceId} {t : Tbl} {static_ : Bool} {st : State} :
    QueueKept st (execFlushInstance s t static_ st) :=
  tblOp_queue fun _ _ => tblFlushInstance_pending ..

theorem execFwdTblModeWrite_queue {s : SliceId} {m l : Bool} {st : State} :
    QueueKept st (execFwdTblModeWrite s m l st) :=
  .of_pending (by simp only [viaPF_pending, tblModeWrite_pending])

theorem execMaintEnter_queue {s : SliceId} {t : Tbl} {st : State} : QueueKept st (execMaintEnter s t st) :=
  .of_pending (by simp only [modSl_pending, ite_pending, ite_self])

/-! ### Secure channels and slots (06, 08) -/

theorem execSlotChangeApply_queue {s : SliceId} {ch : ChIx} {st : State} :
    QueueKept st (execSlotChangeApply s ch st) :=
  .of_pending (boundary_pending ..)

theorem execLifecycleSweep_queue {s : SliceId} {ch : ChIx} {st : State} :
    QueueKept st (execLifecycleSweep s ch st) :=
  .of_pending (boundary_pending ..)

theorem execRxFire_queue {s : SliceId} {t : Fin 8} {st : State} : QueueKept st (execRxFire s t st) :=
  .of_pending (doRxFire_pending ..)

theorem execTimerFired_queue {s : SliceId} {t : Fin 8} {st : State} : QueueKept st (execTimerFired s t st) :=
  .of_pending (by simp only [doRxFire_pending, fireAll_pending, modTimer_pending, raise_pending, ite_pending, ite_self])

theorem execTimerArm_queue {s : SliceId} {t : Fin 8} {other : Bool} {lead : BitVec 16} {st : State} :
    QueueKept st (execTimerArm s t other lead st) :=
  .of_pending (by simp only [viaPF_pending, timerStrobe_pending])

theorem execTimerDisarm_queue {s : SliceId} {t : Fin 8} {other : Bool} {lead : BitVec 16} {st : State} :
    QueueKept st (execTimerDisarm s t other lead st) :=
  .of_pending (by simp only [viaPF_pending, timerStrobe_pending])

theorem saeOp_queue {s : SliceId} {w : Word} {eff : Word → State → State} {st : State}
    (heff : ∀ w st, (eff w st).pending = st.pending) : QueueKept st (saeOp s w eff st) :=
  .of_pending (by simp only [cmdPF_pending, heff])

theorem execChRead_queue {s : SliceId} {ch : ChIx} {st : State} : QueueKept st (execChRead s ch st) :=
  saeOp_queue fun _ _ => chRead_pending ..

theorem execChWrite_queue {s : SliceId} {ch : ChIx} {st : State} : QueueKept st (execChWrite s ch st) :=
  saeOp_queue fun _ _ => chWrite_pending ..

theorem execChDelete_queue {s : SliceId} {ch : ChIx} {st : State} : QueueKept st (execChDelete s ch st) :=
  saeOp_queue fun _ _ => chDelete_pending ..

theorem execSaRead_queue {s : SliceId} {ch : ChIx} {an : An} {st : State} : QueueKept st (execSaRead s ch an st) :=
  saeOp_queue fun _ _ => saRead_pending ..

theorem execSaActivate_queue {s : SliceId} {ch : ChIx} {an : An} {st : State} :
    QueueKept st (execSaActivate s ch an st) :=
  saeOp_queue fun _ _ => saActivate_pending ..

theorem execSaRetire_queue {s : SliceId} {ch : ChIx} {an : An} {st : State} :
    QueueKept st (execSaRetire s ch an st) :=
  saeOp_queue fun _ _ => saRetire_pending ..

theorem execSaClear_queue {s : SliceId} {ch : ChIx} {an : An} {st : State} :
    QueueKept st (execSaClear s ch an st) :=
  saeOp_queue fun _ _ => saClear_pending ..

theorem execSciFind_queue {s : SliceId} {st : State} : QueueKept st (execSciFind s st) :=
  saeOp_queue fun _ _ => sciFindCmd_pending ..

theorem execSaLoad_queue {s : SliceId} {ch : ChIx} {an : An} {st : State} : QueueKept st (execSaLoad s ch an st) :=
  .of_pending (saePF_pending ..)

theorem execPreInstall_queue {s : SliceId} {ch : ChIx} {st : State} : QueueKept st (execPreInstall s ch st) :=
  .of_pending (preInstall_pending ..)

/-! ### Commands of the key tree (07) -/

theorem execRootWrite_queue {n : BitVec 17} {st : State} : QueueKept st (execRootWrite n st) :=
  .of_pending (ktrPF_pending ..)

theorem execDerive_queue {n : BitVec 17} {st : State} : QueueKept st (execDerive n st) := .of_pending (ktrPF_pending ..)

theorem execNodeRead_queue {n : BitVec 17} {st : State} :
    QueueKept st (execNodeRead n st) := .of_pending (ktrPF_pending ..)

theorem execInvalidate_queue {n : BitVec 17} {force : Bool} {st : State} :
    QueueKept st (execInvalidate n force st) :=
  .of_pending (ktrPF_pending ..)

/-! ### Tributaries (10) -/

theorem execPerfSecond_queue {st : State} : QueueKept st (execPerfSecond st) :=
  .of_pending (by simp only [perfSecond_pending, ite_pending, ite_self])

theorem execPerfSecondClassify_queue {st : State} : QueueKept st (execPerfSecondClassify st) :=
  .of_pending (by simp only [modCtfLane_pending, countN_pending, modCtf_pending, foldl_pending, implies_true])

/-! ### The Cipher Transport Frame (10) -/

theorem execCtfFrameBoundary_queue {s : SliceId} {blocks : List (PortIx × List (Option (BitVec 66)))} {st : State} :
    QueueKept st (execCtfFrameBoundary s blocks st) :=
  .of_pending (by simp only [modCtf_pending, addBlocks_pending, dropBlocks_pending, sendCtf_pending,
    markDefects_pending, slipRead_pending, foldl_pending, implies_true, ite_pending, ite_self])

theorem execCtfFrameRx_queue {s : SliceId} {k : PortIx} {f : CtfRx} {st : State} :
    QueueKept st (execCtfFrameRx s k f st) :=
  .of_pending (by simp only [seekRx_pending, markerRx_pending, revokeLane_pending, fawRx_pending, markDefects_pending,
    bipRx_pending, modCtfLane_pending, rxSwap_pending, count_pending, ownerRx_pending, traceByte_pending,
      labelRx_pending, reserveLane_pending, openLane_pending, ite_pending, ite_self])

theorem execFsyncEdge_queue {s : SliceId} {off : Int} {st : State} : QueueKept st (execFsyncEdge s off st) :=
  .of_pending (by simp only [modCtf_pending, forward_pending, fsyncApply_pending, ite_pending, ite_self])

theorem execAlign_queue {s : SliceId} {st : State} : QueueKept st (execAlign s st) :=
  .of_pending (by simp only [viaPF_pending, alignStrobe_pending])

theorem execTraceExpWrite_queue {s : SliceId} {k : PortIx} {w : Fin 4} {v : Word} {st : State} :
    QueueKept st (execTraceExpWrite s k w v st) :=
  .of_pending (by simp only [viaPF_pending, traceExpWrite_pending])

theorem execCtfFcRead_queue {s : SliceId} {k : PortIx} {rx : Bool} {st : State} :
    QueueKept st (execCtfFcRead s k rx st) :=
  .of_pending (by simp only [modCtfLane_pending, ite_pending, ite_self])

theorem execCtfFiArm_queue {s : SliceId} {k : PortIx} {other : Bool} {st : State} :
    QueueKept st (execCtfFiArm s k other st) :=
  .of_waits fun h => viaPF_waits h (ctfFiStrobe_waits h)

theorem execCtfFiDisarm_queue {s : SliceId} {k : PortIx} {other : Bool} {st : State} :
    QueueKept st (execCtfFiDisarm s k other st) :=
  .of_waits fun h => viaPF_waits h (ctfFiStrobe_waits h)

theorem tribOp_queue {s : SliceId} {w : Word} {eff : Word → State → State} {st : State}
    (heff : ∀ w st, (eff w st).pending = st.pending) : QueueKept st (tribOp s w eff st) :=
  .of_pending (by simp only [cmdPF_pending, heff])

theorem execTribRead_queue {s : SliceId} {k : PortIx} {i : Byte} {st : State} :
    QueueKept st (execTribRead s k i st) :=
  tribOp_queue fun _ _ => tribRead_pending ..

theorem execTribWrite_queue {s : SliceId} {k : PortIx} {i : Byte} {st : State} :
    QueueKept st (execTribWrite s k i st) :=
  tribOp_queue fun _ _ => tribWrite_pending ..

theorem execInstall_queue {s : SliceId} {k : PortIx} {i : Byte} {an : An} {st : State} :
    QueueKept st (execInstall s k i an st) :=
  tribOp_queue fun _ _ => tribInstall_pending ..

theorem execTribSwitch_queue {s : SliceId} {k : PortIx} {i : Byte} {st : State} :
    QueueKept st (execTribSwitch s k i st) :=
  tribOp_queue fun _ _ => tribSwitch_pending ..

theorem execTribClear_queue {s : SliceId} {k : PortIx} {i : Byte} {an : An} {st : State} :
    QueueKept st (execTribClear s k i an st) :=
  tribOp_queue fun _ _ => tribClear_pending ..

theorem execTribDelete_queue {s : SliceId} {k : PortIx} {i : Byte} {st : State} :
    QueueKept st (execTribDelete s k i st) :=
  tribOp_queue fun _ _ => tribDelete_pending ..

theorem execPmRead_queue {s : SliceId} {k : PortIx} {i : Byte} {st : State} : QueueKept st (execPmRead s k i st) :=
  tribOp_queue fun _ _ => pmRead_pending ..

theorem pageOp_queue {s : SliceId} {w : Word} {eff : Word → State → State} {st : State}
    (heff : ∀ w st, (eff w st).pending = st.pending) : QueueKept st (pageOp s w eff st) :=
  .of_pending (by simp only [cmdPF_pending, heff])

theorem execPageRead_queue {s : SliceId} {d : Side} {act : Bool} {k : PortIx} {slot : Byte} {st : State} :
    QueueKept st (execPageRead s d act k slot st) :=
  pageOp_queue fun _ _ => pageRead_pending ..

theorem execPageWrite_queue {s : SliceId} {d : Side} {k : PortIx} {slot i : Byte} {st : State} :
    QueueKept st (execPageWrite s d k slot i st) :=
  pageOp_queue fun _ _ => pageWrite_pending ..

theorem execCopy_queue {s : SliceId} {d : Side} {st : State} : QueueKept st (execCopy s d st) :=
  pageOp_queue fun _ _ => pageCopy_pending ..

theorem execSwap_queue {s : SliceId} {st : State} : QueueKept st (execSwap s st) :=
  pageOp_queue fun _ _ => pageSwap_pending ..

/-! ### The journal in service (09) -/

theorem execJournalCommit_queue {ok : Bool} {st : State} : QueueKept st (execJournalCommit ok st) := by
  unfold execJournalCommit
  refine .of_waits @fun cs h => .ite h ?_
  extract_lets marked taken
  have htaken : Waits cs taken.2 := by
    unfold taken
    split
    · exact h.of_pending (modJnl_pending ..)
    · exact h.of_pending ((jnlTake_pending ..).trans (modJnl_pending ..))
  clear_value taken
  obtain ⟨w, st1⟩ := taken
  cases w with
  | none => exact htaken
  | some w => exact .ite (writeOk_waits htaken) (writeBad_waits htaken)

theorem execJournalHaltTimeout_queue {st : State} : QueueKept st (execJournalHaltTimeout st) := by
  refine .of_waits fun h => ?_
  split
  · exact .ite (carmineHalt_waits h) h
  · exact h

theorem execJournalScanDone_queue {bad : List Nat} {st : State} : QueueKept st (execJournalScanDone bad st) := by
  unfold execJournalScanDone
  refine .of_waits @fun cs h => .ite h ?_
  extract_lets ps good index newest p torn scanned fail
  have hscanned : Waits cs scanned := h.of_pending (modJnl_pending ..)
  clear_value scanned fail
  have hreported : Waits cs (fail.foldl damagedRec scanned) := Waits.foldl (fun _ h => damagedRec_waits h) _ hscanned
  exact hreported.of_pending ((enablePorts_pending ..).trans (trimHeld_pending ..))

theorem pnjOp_queue {w : Word} {eff : Word → State → State} {st : State} (heff :
    ∀ w st, (eff w st).pending = st.pending) :
    QueueKept st (pnjOp w eff st) :=
  .of_pending (by simp only [cmdPF_pending, heff])

theorem execPnjRead_queue {ix : BitVec 18} {st : State} :
    QueueKept st (execPnjRead ix st) := pnjOp_queue pnjRead_pending

theorem execFind_queue {st : State} : QueueKept st (execFind st) := pnjOp_queue pnjFind_pending

theorem execDestroy_queue {st : State} : QueueKept st (execDestroy st) := pnjOp_queue pnjDestroy_pending

theorem execTombDormant_queue {st : State} : QueueKept st (execTombDormant st) := pnjOp_queue pnjTombDormant_pending

theorem execAckDamage_queue {st : State} : QueueKept st (execAckDamage st) := pnjOp_queue pnjAckDamage_pending

/-! ### Statistics (19) -/

theorem execSnapshot_queue {st : State} : QueueKept st (execSnapshot st) :=
  .of_pending (by simp only [takeSnap_pending, modPmu_pending, ite_pending, ite_self])

theorem execSnap_queue {st : State} : QueueKept st (execSnap st) :=
  .of_pending (by simp only [viaPF_pending, snapStrobe_pending])

theorem execSnapshotVisible_queue {st : State} : QueueKept st (execSnapshotVisible st) := by
  refine .of_pending ?_
  split <;> simp only [modPmu_pending, wr_pending, count_pending]

theorem execCounterFlush_queue {kind : Fin 4} {s : SliceId} {key : Nat} {st : State} :
    QueueKept st (execCounterFlush kind s key st) :=
  .of_pending (by simp only [meeWrite_pending, modSl_pending, ite_pending, ite_self])

theorem execScRead_queue {kind : Fin 4} {s : SliceId} {ch : ChIx} {an : An} {st : State} :
    QueueKept st (execScRead kind s ch an st) :=
  .of_pending (by simp only [cmdPF_pending, pmuScCmd_pending])

theorem execVfScRead_queue {i : InstId} {kind : Fin 4} {s : SliceId} {ch : ChIx} {an : An} {st : State} :
    QueueKept st (execVfScRead i kind s ch an st) :=
  .of_pending (vfScCmd_pending ..)

theorem execVfStatRead_queue {i : InstId} {n : Fin 8} {st : State} : QueueKept st (execVfStatRead i n st) :=
  .of_pending (by simp only [modInst_pending, ite_pending, ite_self])

theorem execBwWindowEnd_queue {st : State} : QueueKept st (execBwWindowEnd st) := .of_pending (bwAdvance_pending ..)

theorem execPcStart_queue {s : SliceId} {other : Bool} {st : State} : QueueKept st (execPcStart s other st) :=
  .of_pending (by simp only [viaPF_pending, pcStrobe_pending])

theorem execPcStop_queue {s : SliceId} {other : Bool} {st : State} : QueueKept st (execPcStop s other st) :=
  .of_pending (by simp only [viaPF_pending, pcStrobe_pending])

theorem execPcClear_queue {s : SliceId} {other : Bool} {st : State} : QueueKept st (execPcClear s other st) :=
  .of_pending (by simp only [viaPF_pending, pcStrobe_pending])

theorem execPcWrap_queue {s : SliceId} {i : Fin 8} {st : State} : QueueKept st (execPcWrap s i st) :=
  .of_pending (by simp only [modPc_pending, ite_pending, ite_self])

theorem execPmuCounterRead_queue {s : SliceId} {i : Option (Fin 8)} {st : State} :
    QueueKept st (execPmuCounterRead s i st) := by
  refine .of_pending ?_
  repeat' split
  all_goals simp only [modPc_pending]

/-! ### Virtual instances (13) -/

theorem execDoorbell_queue {i : InstId} {st : State} :
    QueueKept st (execDoorbell i st) := .of_pending (doorbell_pending ..)

theorem execVfMbxCtlRead_queue {i : InstId} {st : State} : QueueKept st (execVfMbxCtlRead i st) :=
  .of_pending (by simp only [modInst_pending, ite_pending, ite_self])

theorem execMbxRead_queue {i : InstId} {st : State} : QueueKept st (execMbxRead i st) :=
  .of_pending (by simp only [cmdPF_pending, mbxRead_pending])

theorem execRespond_queue {i : InstId} {st : State} : QueueKept st (execRespond i st) :=
  .of_pending (by simp only [cmdPF_pending, mbxRespond_pending])

theorem execQuiesceDone_queue {i : InstId} {st : State} : QueueKept st (execQuiesceDone i st) :=
  .of_pending (by simp only [quiesced_pending, ite_pending, ite_self])

theorem execQuiesceTimeout_queue {i : InstId} {st : State} : QueueKept st (execQuiesceTimeout i st) :=
  .of_pending (by simp only [quiesced_pending, countN_pending, instDiscard_pending, ite_pending, ite_self])

theorem execVfFlr_queue {i : InstId} {st : State} : QueueKept st (execVfFlr i st) := .of_pending (vfFlr_pending ..)

theorem execVfEnableClear_queue {st : State} : QueueKept st (execVfEnableClear st) :=
  .of_pending (by simp only [vfFlr_pending, foldl_pending, implies_true])

theorem vimOp_queue {w : Word} {eff : Word → State → State} {st : State} (heff :
    ∀ w st, (eff w st).pending = st.pending) :
    QueueKept st (vimOp w eff st) :=
  .of_pending (by simp only [cmdPF_pending, heff])

theorem execEnable_queue {i : InstId} {st : State} : QueueKept st (execEnable i st) :=
  vimOp_queue fun _ _ => vimEnable_pending ..

theorem execQuiesce_queue {i : InstId} {st : State} : QueueKept st (execQuiesce i st) :=
  vimOp_queue fun _ _ => vimQuiesce_pending ..

theorem execFreeze_queue {i : InstId} {st : State} : QueueKept st (execFreeze i st) :=
  vimOp_queue fun _ _ => vimFreeze_pending ..

theorem execThaw_queue {i : InstId} {st : State} : QueueKept st (execThaw i st) :=
  vimOp_queue fun _ _ => vimThaw_pending ..

theorem execInstanceReset_queue {i : InstId} {st : State} : QueueKept st (execInstanceReset i st) :=
  vimOp_queue fun _ _ => vimReset_pending ..

theorem execRemove_queue {i : InstId} {st : State} : QueueKept st (execRemove i st) :=
  vimOp_queue fun _ _ => vimReset_pending ..

theorem execSave_queue {i : InstId} {st : State} : QueueKept st (execSave i st) :=
  vimOp_queue fun _ _ => vimSave_pending ..

theorem execShareWrite_queue {i : InstId} {s : SliceId} {st : State} : QueueKept st (execShareWrite i s st) :=
  vimOp_queue fun _ _ => vimShareWrite_pending ..

theorem execShareRead_queue {i : InstId} {s : SliceId} {st : State} : QueueKept st (execShareRead i s st) :=
  vimOp_queue fun _ _ => vimShareRead_pending ..

theorem execStateRead_queue {i : InstId} {st : State} : QueueKept st (execStateRead i st) :=
  vimOp_queue fun _ _ => vimStateRead_pending ..

theorem execRestore_queue {i : InstId} {cap : Bytes} {st : State} : QueueKept st (execRestore i cap st) := by
  refine .of_pending ?_
  simp only [cmdPF_pending, vimRestore_pending, modTwin_pending, ite_pending, ite_self]

/-! ### A frame at a parser and classifier (03, 04) -/

theorem execFragAged_queue {s : SliceId} {ix : Nat} {st : State} : QueueKept st (execFragAged s ix st) := by
  refine .of_pending ?_
  split <;> simp only [count_pending, modFrags_pending, ite_pending, ite_self]

/-! ### The way out (01, 02, 11) -/

theorem execFrameEgressGrant_queue {d : Side} {s : SliceId} {k : PortIx} {q : Fin 8} {st : State} :
    QueueKept st (execFrameEgressGrant d s k q st) :=
  .of_waits fun h => .ite ((grant_waits h).of_pending (settle_pending ..)) h

/-! ### Protect path and verify path (01) -/

theorem execClientFrameRx_queue {s : SliceId} {k : PortIx} {f : RxFrame} {st : State} :
    QueueKept st (execClientFrameRx s k f st) :=
  .of_pending (by simp only [bwFrame_pending, macDrop_pending, takePause_pending, settle_pending, clientIn_pending,
    ite_pending, ite_self])

theorem execProtectFrameEnd_queue {s : SliceId} {k : PortIx} {f : RxFrame} {st : State} :
    QueueKept st (execProtectFrameEnd s k f st) := by
  unfold execProtectFrameEnd
  refine .of_waits @fun cs h => ?_
  have hbw : Waits cs (if rxOn st .client s k then bwFrame st .client s k false (f.bytes.length + 4) else st) :=
    .ite (h.of_pending (bwFrame_pending ..)) h
  generalize (if rxOn st .client s k then bwFrame st .client s k false (f.bytes.length + 4) else st : State) = counted
    at hbw
  dsimp only
  split
  · exact hbw.of_pending (by simp only [settle_pending, endWaiting_pending, modSl_pending])
  · split
    · exact hbw
    · split
      · exact hbw
      · exact (endQueued_waits hbw).of_pending (settle_pending ..)

theorem execLineFrameRx_queue {s : SliceId} {k : PortIx} {f : RxFrame} {st : State} :
    QueueKept st (execLineFrameRx s k f st) := by
  unfold execLineFrameRx
  dsimp only
  refine .of_pending ?_
  repeat' split
  all_goals simp only [bwFrame_pending, macDrop_pending, takePause_pending, fiFurther_pending, fiStep_pending,
    lineIn_pending, fiHold_pending, settle_pending, releaseRx_pending, foldl_pending, implies_true]

theorem execFinalReplayCommit_queue {s : SliceId} {ch : ChIx} {st : State} :
    QueueKept st (execFinalReplayCommit s ch st) := by
  refine .of_pending ?_
  split
  · rfl
  next v _ =>
    refine (settle_pending ..).trans ?_
    have hcommit := (rxCommit_pending
      (modSl st s fun x => { x with engine := x.engine.eraseP (fun v => v.ch == ch) }) s v).trans
      (modSl_pending st s fun x => { x with engine := x.engine.eraseP (fun v => v.ch == ch) })
    split
    · exact (cellUe_pending ..).trans (modSl_pending ..)
    · split
      · exact (icvFailed_pending ..).trans (modSl_pending ..)
      · split
        next h => rwa [h] at hcommit
        next h =>
          rw [h] at hcommit
          exact (secondPass_pending ..).trans hcommit

theorem execRecircEntry_queue {s : SliceId} {st : State} : QueueKept st (execRecircEntry s st) := by
  refine .of_pending ?_
  split <;> simp only [modSl_pending, settle_pending, protectParsed_pending, parserEntry_pending]

/-! ### External memory in service (14) -/

theorem execDramTrained_queue {failed : BitVec 4} {st : State} : QueueKept st (execDramTrained failed st) :=
  .of_waits dramTrained_waits

theorem execDqsRetrain_queue {st : State} : QueueKept st (execDqsRetrain st) :=
  .of_pending (by simp only [count_pending, modMee_pending, ite_pending, ite_self])

theorem execMr4TemperatureReport_queue {c : Fin 4} {rank hot : Bool} {st : State} :
    QueueKept st (execMr4TemperatureReport c rank hot st) :=
  .of_pending (by simp only [modMee_pending, ite_pending, ite_self])

theorem execMeeReadDone_queue {p : Nat} {rank : Bool} {errs : List BeatErr} {st : State} :
    QueueKept st (execMeeReadDone p rank errs st) :=
  .of_waits meeReadDone_waits

theorem execPatrolScrub_queue {p : Nat} {rank : Bool} {errs : List BeatErr} {st : State} :
    QueueKept st (execPatrolScrub p rank errs st) :=
  .of_waits patrol_waits

theorem execMeeWriteBack_queue {p : Nat} {st : State} :
    QueueKept st (execMeeWriteBack p st) := .of_waits meeWriteBack_waits

theorem arcOp_queue {op : Nat} {e : BitVec 20} {eff : Word → State → State} {st : State}
    (heff : ∀ w st, (eff w st).pending = st.pending) : QueueKept st (arcOp op e eff st) :=
  .of_pending (by simp only [cmdPF_pending, heff])

theorem execPark_queue {e : BitVec 20} {s : SliceId} {ch : ChIx} {an : An} {st : State} :
    QueueKept st (execPark e s ch an st) :=
  .of_pending ((cmdPF_pending _ _ _ _ _ (arcPark_pending ..)).trans (arcSelect_pending ..))

theorem execArcLoad_queue {e : BitVec 20} {s : SliceId} {ch : ChIx} {an : An} {st : State} :
    QueueKept st (execArcLoad e s ch an st) :=
  .of_pending ((cmdPF_pending _ _ _ _ _ (arcLoad_pending ..)).trans (arcSelect_pending ..))

theorem execArcRead_queue {e : BitVec 20} {st : State} : QueueKept st (execArcRead e st) := arcOp_queue arcRead_pending

theorem execArcDelete_queue {e : BitVec 20} {st : State} : QueueKept st (execArcDelete e st) :=
  arcOp_queue arcDelete_pending

theorem execSramScrub_queue {code : Fin 14} {s : SliceId} {ix : Nat} {ue : Bool} {st : State} :
    QueueKept st (execSramScrub code s ix ue st) :=
  .of_waits fun h => .ite h (.ite (scrubUe_waits h) (.ite h (h.of_pending (scrubCe_pending ..))))

/-! ### Tamper unit and log (15) -/

theorem execTamperTrip_queue {srcs : List (Fin 30 × Fin 3)} {st : State} : QueueKept st (execTamperTrip srcs st) := by
  unfold execTamperTrip
  dsimp only
  refine .of_waits fun h => alarmGroup_waits (h.of_pending ((trips_pending ..).trans ?_))
  exact foldl_pending (fun _ _ => detReport_pending ..) _ _

theorem execMonitor_queue {n : Fin 30} {det : Fin 3} {st : State} : QueueKept st (execMonitor n det st) := by
  unfold execMonitor
  dsimp only
  refine .of_waits fun h => .ite (alarmGroup_waits (h.of_pending ?_)) h
  simp only [trips_pending, count_pending, modSrc_pending]

theorem execCauseCleared_queue {n : Fin 30} {st : State} : QueueKept st (execCauseCleared n st) :=
  .of_pending (modSrc_pending ..)

theorem execZeroiseDone_queue {st : State} : QueueKept st (execZeroiseDone st) :=
  .of_pending (by simp only [modGlb_pending, modTmp_pending, zeroKeys_pending, ite_pending, ite_self])

theorem execStartupCheckDone_queue {causes : BitVec 30} {delays : Vector (BitVec 8) 16} {st : State} :
    QueueKept st (execStartupCheckDone causes delays st) := by
  unfold execStartupCheckDone
  dsimp only
  refine .of_waits fun h => .ite h (alarmGroup_waits (h.of_pending ?_))
  simp only [trips_pending, modTmp_pending]

theorem execTmpRespWrite_queue {hi : Bool} {v : Word} {st : State} : QueueKept st (execTmpRespWrite hi v st) :=
  .of_pending (by simp only [viaPF_pending, tmpRespSet_pending])

theorem execLock_queue {other : Bool} {st : State} : QueueKept st (execLock other st) :=
  .of_waits fun h => viaPF_waits h (tmpCmd_waits h)

theorem execTamperAck_queue {other : Bool} {st : State} : QueueKept st (execTamperAck other st) :=
  .of_waits fun h => viaPF_waits h (tmpCmd_waits h)

theorem execEvlRecordCommit_queue {ok : Bool} {st : State} : QueueKept st (execEvlRecordCommit ok st) := by
  refine .of_waits fun h => ?_
  split
  · exact h
  · exact logResult_waits h

theorem execTamperRecordCommit_queue {ok : Bool} {st : State} : QueueKept st (execTamperRecordCommit ok st) := by
  refine .of_waits fun h => ?_
  split
  · exact h
  · exact .ite (logResult_waits h) h

theorem execEvlScanDone_queue {st : State} : QueueKept st (execEvlScanDone st) :=
  .of_waits fun h => .ite h (.ite h (Waits.foldl (fun _ h => logLose_waits h) _ h))

theorem execLogRead_queue {ix : BitVec 16} {st : State} : QueueKept st (execLogRead ix st) := .of_waits evlPF_waits

theorem execAppend_queue {st : State} : QueueKept st (execAppend st) := .of_waits evlPF_waits

theorem execVerify_queue {ix : BitVec 16} {st : State} : QueueKept st (execVerify ix st) := .of_waits evlPF_waits

/-! ### Image, start-up and resets (16, 17) -/

theorem execPowerOnReset_queue {primary debug trng : Bool} {st : State} :
    QueueKept st (execPowerOnReset primary debug trng st) :=
  .of_waits powerReset_waits

theorem execSupplyMonitorReset_queue {trng : Bool} {st : State} : QueueKept st (execSupplyMonitorReset trng st) :=
  .of_waits powerReset_waits

theorem execDeviceReset_queue {trng : Bool} {st : State} : QueueKept st (execDeviceReset trng st) :=
  .of_waits softReset_waits

theorem execGlbReset_queue {key : Byte} {trng : Bool} {st : State} : QueueKept st (execGlbReset key trng st) :=
  .of_waits fun h => .ite (softReset_waits h) h

theorem execImageSourceTry_queue {st : State} :
    QueueKept st (execImageSourceTry st) := .of_pending (sourceTry_pending ..)

theorem execBootDone_queue {st : State} : QueueKept st (execBootDone st) :=
  .of_pending (by simp only [enablePorts_pending, raise_pending, modImg_pending, ite_pending, ite_self])

theorem execDownload_queue {img : ImageSrc} {st : State} : QueueKept st (execDownload img st) :=
  .of_waits fun h => imgPF_waits (h.of_pending (withImage_pending ..))

theorem execStage_queue {slot : Bool} {img : ImageSrc} {st : State} : QueueKept st (execStage slot img st) :=
  .of_waits fun h => imgPF_waits (h.of_pending (withImage_pending ..))

theorem execSetPref_queue {slot : Bool} {st : State} : QueueKept st (execSetPref slot st) := .of_waits imgPF_waits

theorem execAdvanceSvn_queue {st : State} : QueueKept st (execAdvanceSvn st) := .of_waits imgPF_waits

theorem execAddKeys_queue {st : State} : QueueKept st (execAddKeys st) := .of_waits imgPF_waits

theorem execRevokeKey_queue {k : Fin 4} {st : State} : QueueKept st (execRevokeKey k st) := .of_waits imgPF_waits

theorem execDrainDone_queue {s : SliceId} {st : State} : QueueKept st (execDrainDone s st) :=
  .of_pending (by simp only [sliceDrained_pending, ite_pending, ite_self])

theorem execDrainTimeout_queue {s : SliceId} {st : State} : QueueKept st (execDrainTimeout s st) :=
  .of_pending (by simp only [modImg_pending, modSl_pending, sliceDrained_pending, settle_pending, ite_pending,
    ite_self])

theorem execSliceLoadChecked_queue {st : State} : QueueKept st (execSliceLoadChecked st) := by
  refine .of_pending ?_
  split <;> simp only [modImg_pending, setF_pending, sliceDone_pending, sliceReset_pending, startSlice_pending,
    modImgSl_pending, ite_pending, ite_self]

theorem execSliceRunning_queue {s : SliceId} {st : State} : QueueKept st (execSliceRunning s st) :=
  .of_pending (by simp only [enablePorts_pending, modImgSl_pending, ite_pending, ite_self])

theorem execDrain_queue {s : SliceId} {off : Bool} {st : State} : QueueKept st (execDrain s off st) :=
  .of_pending (slicePF_pending ..)

theorem execSliceLoad_queue {s : SliceId} {img : ImageSrc} {st : State} : QueueKept st (execSliceLoad s img st) :=
  .of_pending (by simp only [slicePF_pending, withImage_pending])

theorem execResume_queue {s : SliceId} {st : State} : QueueKept st (execResume s st) := .of_pending (slicePF_pending ..)

/-! ### Fault injectors (02) -/

theorem execFiArm_queue {s : SliceId} {k : PortIx} {other : Bool} {st : State} :
    QueueKept st (execFiArm s k other st) :=
  .of_waits fun h => viaPF_waits h (fiCmd_waits h)

theorem execFiDisarm_queue {s : SliceId} {k : PortIx} {other : Bool} {st : State} :
    QueueKept st (execFiDisarm s k other st) :=
  .of_waits fun h => viaPF_waits h (fiCmd_waits h)

theorem execFiHoldRelease_queue {s : SliceId} {k : PortIx} {st : State} : QueueKept st (execFiHoldRelease s k st) := by
  refine .of_waits fun h => ?_
  split
  · exact h
  · refine Waits.of_pending ?_ (settle_pending ..)
    split
    · exact releaseTx_waits (h.of_pending (modPort_pending ..))
    · exact h.of_pending ((releaseRx_pending ..).trans (modPort_pending ..))

/-! ### The launch calendar (11) -/

theorem execSaffronStage_queue {s : SliceId} {st : State} : QueueKept st (execSaffronStage s st) := by
  unfold execSaffronStage
  dsimp only
  refine .of_pending ?_
  repeat' split
  all_goals simp only [safSet_pending]

theorem execSaffronParserEntry_queue {s : SliceId} {st : State} : QueueKept st (execSaffronParserEntry s st) := by
  refine .of_pending ?_
  split
  · rfl
  next f n _ =>
    split
    · refine (settle_pending ..).trans ?_
      split
      next h =>
        have hadmit := congrArg (fun r => r.2.pending) h
        dsimp only at hadmit
        rw [safRemove_pending, ← hadmit, admitInst_pending, parserEntry_pending]
      next h =>
        have hadmit := congrArg (fun r => r.2.pending) h
        dsimp only at hadmit
        rw [safClassified_pending, ← hadmit, admitInst_pending, parserEntry_pending]
    · rfl

theorem execSaffronSlotAccess_queue {s : SliceId} {st : State} : QueueKept st (execSaffronSlotAccess s st) := by
  refine .of_pending ?_
  split
  · rfl
  next f n _ =>
    split
    · extract_lets p c
      split
      · exact safRemove_pending ..
      next ch tc _ =>
        have haccess := protAccess_pending st s ch (bindNo (safPkt st f (parse (prsCfg st s) f.bytes))) f.bytes
        split
        next h =>
          rw [h] at haccess
          exact (safRemove_pending ..).trans haccess
        next h =>
          rw [h] at haccess
          split
          · exact (safSet_pending ..).trans ((protCount_pending ..).trans haccess)
          · exact (safRemove_pending ..).trans ((protCount_pending ..).trans haccess)
    · rfl

theorem execSaffronLaunch_queue {s : SliceId} {k : PortIx} {st : State} : QueueKept st (execSaffronLaunch s k st) := by
  refine .of_waits fun h => ?_
  split
  · exact h
  · split
    · exact h
    · exact .ite ((launchNow_waits h).of_pending (settle_pending ..)) h

theorem execLate_queue {n : Nat} {st : State} : QueueKept st (execLate n st) := by
  refine .of_pending ?_
  split
  · rfl
  next f _ =>
    split
    · rfl
    · dsimp only
      split
      · simp only [raise_pending, bumpVf_pending, count_pending, safRemove_pending]
      · split
        · simp only [settle_pending, protectPkt_pending, arrive_pending, count_pending, safRemove_pending]
        · split
          · simp only [arrive_pending, count_pending, safRemove_pending]
          · refine (settle_pending ..).trans ?_
            split
            next h =>
              have hadmit := congrArg (fun r => r.2.pending) h
              dsimp only at hadmit
              rw [← hadmit, admitInst_pending, parserEntry_pending, arrive_pending, count_pending, safRemove_pending]
            next h =>
              have hadmit := congrArg (fun r => r.2.pending) h
              dsimp only at hadmit
              rw [protectParsed_pending, ← hadmit, admitInst_pending, parserEntry_pending, arrive_pending,
                count_pending, safRemove_pending]

/-! ### Host interface (18) -/

theorem execEvtRingEnable_queue {j : Fin 4} {v : Word} {st : State} : QueueKept st (execEvtRingEnable j v st) :=
  .of_pending (by simp only [viaPF_pending, evtCfgWrite_pending])

theorem execEvtHeadWrite_queue {j : Fin 4} {h : BitVec 16} {st : State} : QueueKept st (execEvtHeadWrite j h st) :=
  .of_pending (by simp only [viaPF_pending, evtHeadWrite_pending])

theorem execMsixModerationEnd_queue {evt : Bool} {i : InstId} {r : Fin 16} {st : State} :
    QueueKept st (execMsixModerationEnd evt i r st) :=
  .of_pending (by simp only [fireEvt_pending, ringModEnd_pending, ite_pending, ite_self])

theorem execRingEnable_queue {i : InstId} {r : Fin 16} {st : State} : QueueKept st (execRingEnable i r st) :=
  .of_pending (by simp only [viaFn_pending, ringCtlWrite_pending])

theorem execRingDisable_queue {i : InstId} {r : Fin 16} {st : State} : QueueKept st (execRingDisable i r st) :=
  .of_pending (by simp only [viaFn_pending, ringCtlWrite_pending])

theorem execRingStopped_queue {i : InstId} {r : Fin 16} {st : State} : QueueKept st (execRingStopped i r st) :=
  .of_pending (by simp only [modRing_pending, ite_pending, ite_self])

theorem execRingCtlRead_queue {i : InstId} {r : Fin 16} {st : State} : QueueKept st (execRingCtlRead i r st) :=
  .of_pending (by simp only [modRing_pending, ite_pending, ite_self])

theorem execVfRingErrRead_queue {i : InstId} {st : State} : QueueKept st (execVfRingErrRead i st) :=
  .of_pending (by simp only [wr_pending, ite_pending, ite_self])

theorem execInjectDescriptorRead_queue {i : InstId} {r : Fin 16} {x : InjDesc} {f : Bytes} {st : State} :
    QueueKept st (execInjectDescriptorRead i r x f st) :=
  .of_pending (by simp only [modInst_pending, forwardOp_pending, setHand_pending, injJudge_pending, ite_pending,
    ite_self])

theorem execInjectFrameCopied_queue {i : InstId} {r : Fin 16} {f : Bytes} {st : State} :
    QueueKept st (execInjectFrameCopied i r f st) := by
  refine .of_pending ?_
  split <;> simp only [injCopied_pending, ite_pending, ite_self]

theorem execHeldDescriptorResume_queue {i : InstId} {r : Fin 16} {st : State} :
    QueueKept st (execHeldDescriptorResume i r st) := by
  refine .of_pending ?_
  split <;> simp only [safAccept_pending, injCopied_pending, setHand_pending, ite_pending, ite_self]

theorem execDmaErr_queue {i : InstId} {r : Fin 16} {st : State} : QueueKept st (execDmaErr i r st) := by
  refine .of_pending ?_
  repeat' split
  all_goals simp only [injRefuse_pending, setHand_pending, modRing_pending, wr_pending, raise_pending, count_pending]

theorem execPfFlr_queue {st : State} : QueueKept st (execPfFlr st) :=
  .of_pending (by simp only [pfFlr_pending, ite_pending, ite_self])

theorem execPciePerst_queue {st : State} : QueueKept st (execPciePerst st) :=
  .of_pending (by simp only [vfFlr_pending, pfFlr_pending, foldl_pending, implies_true, ite_pending, ite_self])

theorem execPcieLinkTraining_queue {up : Bool} {speed : Fin 8} {width : Fin 16} {st : State} :
    QueueKept st (execPcieLinkTraining up speed width st) :=
  .of_pending rfl

/-! ### The twin unit (12) -/

theorem execClaim_queue {st : State} : QueueKept st (execClaim st) := .of_pending (twnPF_pending ..)

theorem execJoin_queue {st : State} : QueueKept st (execJoin st) := .of_pending (twnPF_pending ..)

theorem execTwinSwitch_queue {st : State} : QueueKept st (execTwinSwitch st) := .of_pending (twnPF_pending ..)

theorem execLeave_queue {st : State} : QueueKept st (execLeave st) := .of_pending (twnPF_pending ..)

theorem execOwnLineChange_queue {on : Bool} {st : State} : QueueKept st (execOwnLineChange on st) :=
  .of_pending (by simp only [modTwin_pending, yieldTie_pending, ownReleased_pending, ite_pending, ite_self])

theorem execOwnAssert_queue {st : State} : QueueKept st (execOwnAssert st) := by
  refine .of_pending ?_
  repeat' split
  all_goals simp only [claimExpire_pending, twnEnd_pending, modTwin_pending, restampAges_pending, takeOver_pending]

theorem execOwnTxEnable_queue {st : State} : QueueKept st (execOwnTxEnable st) := by
  refine .of_pending ?_
  split <;> simp only [modTwin_pending, ite_pending, ite_self]

theorem execHbLost_queue {st : State} : QueueKept st (execHbLost st) := by
  refine .of_pending ?_
  repeat' split
  all_goals simp only [linkLost_pending, toAlone_pending, count_pending, modTwin_pending, toStart_pending,
    ownReleased_pending, ite_pending, ite_self]

theorem execCandidacyEnd_queue {st : State} : QueueKept st (execCandidacyEnd st) := by
  refine .of_pending ?_
  split <;> simp only [toStart_pending, ite_pending, ite_self]

/-! ### Power, clocks and hold-up (17) -/

theorem execAvsInterval_queue {s : SliceId} {slack : BitVec 5} {emerg ack : Bool} {mv : BitVec 10} {st : State} :
    QueueKept st (execAvsInterval s slack emerg ack mv st) :=
  .of_pending (by simp only [modAvs_pending, raise_pending, count_pending, avsRequest_pending, ite_pending, ite_self])

theorem execAvsEmergEnd_queue {s : SliceId} {st : State} : QueueKept st (execAvsEmergEnd s st) := by
  refine .of_pending ?_
  split <;> simp only [modAvs_pending, ite_pending, ite_self]

theorem execAvsHoldEnd_queue {s : SliceId} {st : State} : QueueKept st (execAvsHoldEnd s st) := by
  refine .of_pending ?_
  split <;> simp only [modAvs_pending, ite_pending, ite_self]

theorem execEngineLoopWindow_queue {s : SliceId} {d : Side} {load : BitVec 7} {st : State} :
    QueueKept st (execEngineLoopWindow s d load st) :=
  .of_pending (by simp only [modPool_pending, ite_pending, ite_self])

theorem execEngineDrainDone_queue {s : SliceId} {d : Side} {st : State} :
    QueueKept st (execEngineDrainDone s d st) :=
  .of_pending (by simp only [modPool_pending, ite_pending, ite_self])

theorem execEngineKatDone_queue {s : SliceId} {d : Side} {ok : Bool} {st : State} :
    QueueKept st (execEngineKatDone s d ok st) :=
  .of_pending (by simp only [engFailed_pending, modPool_pending, ite_pending, ite_self])

theorem execPortReset_queue {s : SliceId} {d : Side} {k : PortIx} {st : State} :
    QueueKept st (execPortReset s d k st) :=
  .of_waits fun h => cmdPF_waits h (portRstCmd_waits h)

theorem execPortResetDone_queue {st : State} : QueueKept st (execPortResetDone st) := by
  refine .of_pending ?_
  split <;> simp only [rstDone_pending, modGlb_pending]

theorem execPllUnlock_queue {pll : Nat} {lanes : Option (SliceId × Side)} {st : State} :
    QueueKept st (execPllUnlock pll lanes st) := by
  refine .of_waits fun h => ?_
  split
  · exact carmineHalt_waits h
  · refine h.of_pending ?_
    simp only [raise_pending, count_pending, foldl_pending, laneLost_pending, implies_true]

theorem execPwrfailNFall_queue {st : State} : QueueKept st (execPwrfailNFall st) :=
  .of_pending (by simp only [modGlb_pending, ite_pending, ite_self])

theorem execPwrfailGlitch_queue {st : State} : QueueKept st (execPwrfailGlitch st) :=
  .of_pending (by simp only [modGlb_pending, ite_pending, ite_self])

theorem execHoldUp_queue {st : State} : QueueKept st (execHoldUp st) := by
  refine .of_waits fun h => .ite (logRec_waits _ _ _ _ (h.of_pending ?_)) h
  simp only [jnlClose_pending, modTwin_pending, modGlb_pending, enterUmber_pending]

theorem execGlbUmberWrite_queue {d : Side} {mask : Word} {st : State} :
    QueueKept st (execGlbUmberWrite d mask st) :=
  .of_pending (viaPF_pending _ _ _ _ (wr_pending ..))

/-! ### Indigo messages (12) -/

theorem onMsg_queue {type : Nat} {m : MsgHdr} {items : List Nat} {eff : State → State} {st : State}
    (heff : ∀ st, (eff st).pending = st.pending) : QueueKept st (onMsg type m items eff st) := by
  have htake := takeMsg_pending type m items st
  refine .of_pending ?_
  split
  next h =>
    rw [h] at htake
    exact (heff _).trans htake
  next h => rwa [h] at htake

theorem execCapsuleStreamSend_queue {n : Nat} {st : State} : QueueKept st (execCapsuleStreamSend n st) :=
  .of_pending (by simp only [sendMsg_pending, streamStage_pending, modTwin_pending, ite_pending, ite_self])

theorem execCapsule_queue {m : MsgHdr} {xs : List CapItem} {st : State} : QueueKept st (execCapsule m xs st) :=
  onMsg_queue fun _ => capsule_pending ..

theorem execHello_queue {h : Hello} {st : State} : QueueKept st (execHello h st) := by
  unfold execHello
  dsimp only
  refine .of_pending ?_
  repeat' split
  all_goals simp only [modTwin_pending, join_pending, startStream_pending, keySession_pending, endSession_pending]

theorem execHeartbeat_queue {m : MsgHdr} {q : TwinState} {seen : Bool} {st : State} :
    QueueKept st (execHeartbeat m q seen st) :=
  onMsg_queue fun _ => heartbeat_pending ..

theorem execIndigoStep_queue {m : MsgHdr} {ticks : Nat} {st : State} : QueueKept st (execIndigoStep m ticks st) :=
  onMsg_queue fun _ => stepTicks_pending ..

theorem execDigest_queue {m : MsgHdr} {x : DigestSet} {st : State} : QueueKept st (execDigest m x st) :=
  onMsg_queue fun _ => modTwin_pending ..

theorem execHealth_queue {m : MsgHdr} {w : Word} {ready : BitVec 64} {st : State} :
    QueueKept st (execHealth m w ready st) :=
  onMsg_queue fun _ => modTwin_pending ..

theorem execLearnMessage_queue {m : MsgHdr} {s : SliceId} {cs : List MacChange} {st : State} :
    QueueKept st (execLearnMessage m s cs st) :=
  onMsg_queue fun _ => learned_pending ..

theorem execMirror_queue {m : MsgHdr} {ws : List MirWrite} {st : State} : QueueKept st (execMirror m ws st) :=
  onMsg_queue fun _ => mirror_pending ..

theorem execTimeMessage_queue {m : MsgHdr} {ns frac : Word} {st : State} :
    QueueKept st (execTimeMessage m ns frac st) :=
  onMsg_queue fun _ => followTime_pending ..

theorem execAckMessage_queue {m : MsgHdr} {high : BitVec 64} {missing : List Nat} {st : State} :
    QueueKept st (execAckMessage m high missing st) :=
  onMsg_queue fun _ => resend_pending ..

theorem execHelloSend_queue {st : State} : QueueKept st (execHelloSend st) :=
  .of_pending (by simp only [sendHello_pending, freshRand_pending, ite_pending, ite_self])

theorem everyUs_queue {last : TwinSt → Nat} {set : TwinSt → Nat → TwinSt} {type : Nat} {items : List Nat}
    {st : State} : QueueKept st (everyUs last set type items st) :=
  .of_pending (by simp only [sendMsg_pending, modTwin_pending, ite_pending, ite_self])

theorem execHeartbeatSend_queue {st : State} : QueueKept st (execHeartbeatSend st) := everyUs_queue

theorem execTimeSend_queue {st : State} : QueueKept st (execTimeSend st) := everyUs_queue

theorem execAckSend_queue {st : State} : QueueKept st (execAckSend st) := everyUs_queue

/-! ### Time base (11) -/

theorem execWrap_queue {st : State} : QueueKept st (execWrap st) :=
  .of_pending (by simp only [tick_pending, ite_pending, ite_self])

theorem execSlewDone_queue {st : State} : QueueKept st (execSlewDone st) :=
  .of_pending (by simp only [tick_pending, ite_pending, ite_self])

theorem execTsuNowRead_queue {st : State} : QueueKept st (execTsuNowRead st) := .of_pending rfl

theorem execStep_queue {mode force other : Bool} {st : State} : QueueKept st (execStep mode force other st) :=
  .of_pending (tsuCmdPF_pending ..)

theorem execSlew_queue {other : Bool} {st : State} :
    QueueKept st (execSlew other st) := .of_pending (tsuCmdPF_pending ..)

theorem execAbort_queue {other : Bool} {st : State} :
    QueueKept st (execAbort other st) := .of_pending (tsuCmdPF_pending ..)

theorem execPpsIn_queue {st : State} : QueueKept st (execPpsIn st) :=
  .of_pending (by simp only [modTsu_pending, perfSecond_pending, ite_pending, ite_self])

theorem execPpsOutRise_queue {st : State} : QueueKept st (execPpsOutRise st) :=
  .of_pending (by simp only [modTsu_pending, wr_pending, ite_pending, ite_self])

theorem execPpsOutFall_queue {st : State} : QueueKept st (execPpsOutFall st) :=
  .of_pending (by simp only [modTsu_pending, ite_pending, ite_self])

/-! ### The register file (18) -/

theorem execGlbUpdate_queue {mask : Word} {st : State} : QueueKept st (execGlbUpdate mask st) :=
  .of_pending (by simp only [viaPF_pending, glbUpdateTake_pending])

theorem execUpdateApply_queue {st : State} : QueueKept st (execUpdateApply st) :=
  .of_pending (by simp only [updateApply_pending, ite_pending, ite_self])

theorem execRegisterWrite_queue {fn : InstId} {a : Nat} {be : BitVec 4} {v : Word} {st : State} :
    QueueKept st (execRegisterWrite fn a be v st) :=
  .of_waits fun h => .ite (.ite h (h.of_pending (count_pending ..)))
    (.ite h (.ite (.ite (pfWrite_waits h) h) (h.of_pending (vfWrite_pending ..))))

/-! ### The start of a step epoch (12) -/

theorem execStepEpochBoundary_queue {st : State} : QueueKept st (execStepEpochBoundary st) :=
  .of_waits fun h => .ite (epochStart_waits h) h

theorem execDivergenceTestDone_queue {own partner : Bool} {st : State} :
    QueueKept st (execDivergenceTestDone own partner st) := by
  unfold execDivergenceTestDone
  dsimp only
  refine .of_pending ?_
  repeat' split
  all_goals simp only [modTwin_pending, setOutcome_pending, handOver_pending, toAlone_pending, raise_pending,
    toSyncing_pending]

/-! ### Management pins (21) -/

theorem execSmbusBlockRead_queue {cmd : Byte} {st : State} : QueueKept st (execSmbusBlockRead cmd st) := by
  refine .of_pending ?_
  split <;> simp only [emit_pending, ite_pending, ite_self]

theorem execAlertResponse_queue {st : State} : QueueKept st (execAlertResponse st) :=
  .of_pending (by simp only [emit_pending, ite_pending, ite_self])

theorem execJtagInstruction_queue {i : TapInstr} {rstLow : Bool} {data : Bytes} {st : State} :
    QueueKept st (execJtagInstruction i rstLow data st) := by
  unfold execJtagInstruction
  dsimp only
  split
  · rintro _ ⟨⟩
  · refine .of_pending ?_
    split <;> rfl

/-! ### One step -/

theorem exec_queue (c : Instr) (st : State) : QueueKept st (exec c st) := by
  cases c with
  | clientFrameRx => exact execClientFrameRx_queue
  | protectFrameEnd => exact execProtectFrameEnd_queue
  | frameEgressGrant => exact execFrameEgressGrant_queue
  | lineFrameRx => exact execLineFrameRx_queue
  | finalReplayCommit => exact execFinalReplayCommit_queue
  | recircEntry => exact execRecircEntry_queue
  | learn => exact execLearn_queue
  | rxPauseFrame => exact execRxPauseFrame_queue
  | pauseHoldEnd => exact execPauseHoldEnd_queue
  | pauseRepeat => exact execPauseRepeat_queue
  | headroomMeasure => exact execHeadroomMeasure_queue
  | fragAged => exact execFragAged_queue
  | fiHoldRelease => exact execFiHoldRelease_queue
  | fiArm => exact execFiArm_queue
  | fiDisarm => exact execFiDisarm_queue
  | laneSignalDetect => exact execLaneSignalDetect_queue
  | laneStepDone => exact execLaneStepDone_queue
  | precoderTryTimeout => exact execPrecoderTryTimeout_queue
  | laneTimeout => exact execLaneTimeout_queue
  | lossOfLock => exact execLossOfLock_queue
  | eqAtLimit => exact execEqAtLimit_queue
  | prsImapRead => exact execPrsImapRead_queue
  | prsImapWrite => exact execPrsImapWrite_queue
  | clsKprofWrite => exact execClsKprofWrite_queue
  | ruleRead => exact execRuleRead_queue
  | ruleWrite => exact execRuleWrite_queue
  | ruleRetire => exact execRuleRetire_queue
  | ruleCancel => exact execRuleCancel_queue
  | commit => exact execCommit_queue
  | commitApply => exact execCommitApply_queue
  | tblRead => exact execTblRead_queue
  | tblWrite => exact execTblWrite_queue
  | tblInsert => exact execTblInsert_queue
  | tblDelete => exact execTblDelete_queue
  | tblLookup => exact execTblLookup_queue
  | search => exact execSearch_queue
  | next => exact execNext_queue
  | flushPort => exact execFlushPort_queue
  | flushInstance => exact execFlushInstance_queue
  | fwdTblModeWrite => exact execFwdTblModeWrite_queue
  | maintEnter => exact execMaintEnter_queue
  | msCounterAdvance => exact execMsCounterAdvance_queue
  | ageTick => exact execAgeTick_queue
  | sweepVisit => exact execSweepVisit_queue
  | lpmScrub => exact execLpmScrub_queue
  | chRead => exact execChRead_queue
  | chWrite => exact execChWrite_queue
  | chDelete => exact execChDelete_queue
  | saRead => exact execSaRead_queue
  | saLoad => exact execSaLoad_queue
  | saActivate => exact execSaActivate_queue
  | saRetire => exact execSaRetire_queue
  | saClear => exact execSaClear_queue
  | sciFind => exact execSciFind_queue
  | slotChangeApply => exact execSlotChangeApply_queue
  | rootWrite => exact execRootWrite_queue
  | derive => exact execDerive_queue
  | nodeRead => exact execNodeRead_queue
  | invalidate => exact execInvalidate_queue
  | timerArm => exact execTimerArm_queue
  | timerDisarm => exact execTimerDisarm_queue
  | rxFire => exact execRxFire_queue
  | timerFired => exact execTimerFired_queue
  | lifecycleSweep => exact execLifecycleSweep_queue
  | preInstall => exact execPreInstall_queue
  | journalCommit => exact execJournalCommit_queue
  | journalHaltTimeout => exact execJournalHaltTimeout_queue
  | journalScanDone => exact execJournalScanDone_queue
  | pnjRead => exact execPnjRead_queue
  | find => exact execFind_queue
  | destroy => exact execDestroy_queue
  | tombDormant => exact execTombDormant_queue
  | ackDamage => exact execAckDamage_queue
  | ctfFrameBoundary => exact execCtfFrameBoundary_queue
  | ctfFrameRx => exact execCtfFrameRx_queue
  | fsyncEdge => exact execFsyncEdge_queue
  | align => exact execAlign_queue
  | perfSecond => exact execPerfSecond_queue
  | perfSecondClassify => exact execPerfSecondClassify_queue
  | traceExpWrite => exact execTraceExpWrite_queue
  | ctfFiArm => exact execCtfFiArm_queue
  | ctfFiDisarm => exact execCtfFiDisarm_queue
  | tribRead => exact execTribRead_queue
  | tribWrite => exact execTribWrite_queue
  | install => exact execInstall_queue
  | tribSwitch => exact execTribSwitch_queue
  | tribClear => exact execTribClear_queue
  | tribDelete => exact execTribDelete_queue
  | pmRead => exact execPmRead_queue
  | pageRead => exact execPageRead_queue
  | pageWrite => exact execPageWrite_queue
  | copy => exact execCopy_queue
  | swap => exact execSwap_queue
  | wrap => exact execWrap_queue
  | tsuNowRead => exact execTsuNowRead_queue
  | step => exact execStep_queue
  | slew => exact execSlew_queue
  | abort => exact execAbort_queue
  | slewDone => exact execSlewDone_queue
  | ppsIn => exact execPpsIn_queue
  | ppsOutRise => exact execPpsOutRise_queue
  | ppsOutFall => exact execPpsOutFall_queue
  | saffronStage => exact execSaffronStage_queue
  | saffronParserEntry => exact execSaffronParserEntry_queue
  | saffronSlotAccess => exact execSaffronSlotAccess_queue
  | saffronLaunch => exact execSaffronLaunch_queue
  | late => exact execLate_queue
  | claim => exact execClaim_queue
  | join => exact execJoin_queue
  | twinSwitch => exact execTwinSwitch_queue
  | leave => exact execLeave_queue
  | ownLineChange => exact execOwnLineChange_queue
  | ownAssert => exact execOwnAssert_queue
  | ownTxEnable => exact execOwnTxEnable_queue
  | stepEpochBoundary => exact execStepEpochBoundary_queue
  | divergenceTestDone => exact execDivergenceTestDone_queue
  | hello => exact execHello_queue
  | heartbeat => exact execHeartbeat_queue
  | indigoStep => exact execIndigoStep_queue
  | digest => exact execDigest_queue
  | health => exact execHealth_queue
  | mirror => exact execMirror_queue
  | learnMessage => exact execLearnMessage_queue
  | timeMessage => exact execTimeMessage_queue
  | capsule => exact execCapsule_queue
  | ackMessage => exact execAckMessage_queue
  | helloSend => exact execHelloSend_queue
  | heartbeatSend => exact execHeartbeatSend_queue
  | timeSend => exact execTimeSend_queue
  | ackSend => exact execAckSend_queue
  | capsuleStreamSend => exact execCapsuleStreamSend_queue
  | hbLost => exact execHbLost_queue
  | candidacyEnd => exact execCandidacyEnd_queue
  | doorbell => exact execDoorbell_queue
  | mbxRead => exact execMbxRead_queue
  | respond => exact execRespond_queue
  | vfMbxCtlRead => exact execVfMbxCtlRead_queue
  | enable => exact execEnable_queue
  | quiesce => exact execQuiesce_queue
  | quiesceDone => exact execQuiesceDone_queue
  | quiesceTimeout => exact execQuiesceTimeout_queue
  | freeze => exact execFreeze_queue
  | thaw => exact execThaw_queue
  | instanceReset => exact execInstanceReset_queue
  | remove => exact execRemove_queue
  | save => exact execSave_queue
  | restore => exact execRestore_queue
  | shareWrite => exact execShareWrite_queue
  | shareRead => exact execShareRead_queue
  | stateRead => exact execStateRead_queue
  | vfFlr => exact execVfFlr_queue
  | heldDescriptorResume => exact execHeldDescriptorResume_queue
  | park => exact execPark_queue
  | arcLoad => exact execArcLoad_queue
  | arcRead => exact execArcRead_queue
  | arcDelete => exact execArcDelete_queue
  | dramTrained => exact execDramTrained_queue
  | dqsRetrain => exact execDqsRetrain_queue
  | meeReadDone => exact execMeeReadDone_queue
  | patrolScrub => exact execPatrolScrub_queue
  | tamperTrip => exact execTamperTrip_queue
  | tamperRecordCommit => exact execTamperRecordCommit_queue
  | zeroiseDone => exact execZeroiseDone_queue
  | monitor => exact execMonitor_queue
  | causeCleared => exact execCauseCleared_queue
  | lock => exact execLock_queue
  | tamperAck => exact execTamperAck_queue
  | tmpRespWrite => exact execTmpRespWrite_queue
  | startupCheckDone => exact execStartupCheckDone_queue
  | logRead => exact execLogRead_queue
  | append => exact execAppend_queue
  | verify => exact execVerify_queue
  | evlRecordCommit => exact execEvlRecordCommit_queue
  | evlScanDone => exact execEvlScanDone_queue
  | powerOnReset => exact execPowerOnReset_queue
  | supplyMonitorReset => exact execSupplyMonitorReset_queue
  | deviceReset => exact execDeviceReset_queue
  | glbReset => exact execGlbReset_queue
  | imageSourceTry => exact execImageSourceTry_queue
  | bootDone => exact execBootDone_queue
  | download => exact execDownload_queue
  | stage => exact execStage_queue
  | setPref => exact execSetPref_queue
  | advanceSvn => exact execAdvanceSvn_queue
  | addKeys => exact execAddKeys_queue
  | revokeKey => exact execRevokeKey_queue
  | drain => exact execDrain_queue
  | drainDone => exact execDrainDone_queue
  | drainTimeout => exact execDrainTimeout_queue
  | sliceLoad => exact execSliceLoad_queue
  | sliceLoadChecked => exact execSliceLoadChecked_queue
  | sliceRunning => exact execSliceRunning_queue
  | resume => exact execResume_queue
  | avsInterval => exact execAvsInterval_queue
  | avsEmergEnd => exact execAvsEmergEnd_queue
  | avsHoldEnd => exact execAvsHoldEnd_queue
  | engineLoopWindow => exact execEngineLoopWindow_queue
  | engineDrainDone => exact execEngineDrainDone_queue
  | engineKatDone => exact execEngineKatDone_queue
  | portReset => exact execPortReset_queue
  | portResetDone => exact execPortResetDone_queue
  | pllUnlock => exact execPllUnlock_queue
  | pwrfailNFall => exact execPwrfailNFall_queue
  | pwrfailGlitch => exact execPwrfailGlitch_queue
  | holdUp => exact execHoldUp_queue
  | registerWrite => exact execRegisterWrite_queue
  | glbUpdate => exact execGlbUpdate_queue
  | updateApply => exact execUpdateApply_queue
  | evtRingEnable => exact execEvtRingEnable_queue
  | evtHeadWrite => exact execEvtHeadWrite_queue
  | msixModerationEnd => exact execMsixModerationEnd_queue
  | ringEnable => exact execRingEnable_queue
  | ringDisable => exact execRingDisable_queue
  | ringStopped => exact execRingStopped_queue
  | ringCtlRead => exact execRingCtlRead_queue
  | vfRingErrRead => exact execVfRingErrRead_queue
  | injectDescriptorRead => exact execInjectDescriptorRead_queue
  | injectFrameCopied => exact execInjectFrameCopied_queue
  | dmaErr => exact execDmaErr_queue
  | pfFlr => exact execPfFlr_queue
  | pciePerst => exact execPciePerst_queue
  | ctfFcRead => exact execCtfFcRead_queue
  | snapshot => exact execSnapshot_queue
  | snap => exact execSnap_queue
  | snapshotVisible => exact execSnapshotVisible_queue
  | counterFlush => exact execCounterFlush_queue
  | scRead => exact execScRead_queue
  | vfScRead => exact execVfScRead_queue
  | vfStatRead => exact execVfStatRead_queue
  | bwWindowEnd => exact execBwWindowEnd_queue
  | pcStart => exact execPcStart_queue
  | pcStop => exact execPcStop_queue
  | pcClear => exact execPcClear_queue
  | pcWrap => exact execPcWrap_queue
  | pmuCounterRead => exact execPmuCounterRead_queue
  | glbUmberWrite => exact execGlbUmberWrite_queue
  | sramScrub => exact execSramScrub_queue
  | smbusBlockRead => exact execSmbusBlockRead_queue
  | alertResponse => exact execAlertResponse_queue
  | jtagInstruction => exact execJtagInstruction_queue
  | meeWriteBack => exact execMeeWriteBack_queue
  | mr4TemperatureReport => exact execMr4TemperatureReport_queue
  | vfEnableClear => exact execVfEnableClear_queue
  | pcieLinkTraining => exact execPcieLinkTraining_queue
  | linkFaultSignallingRx => exact execLinkFaultSignallingRx_queue

/-- Settles O2: no operation of the model writes the queue of commands, the resets and a tick among them, so what a step
leaves in it is what waited behind the command taken. -/
theorem everyStepTakesOneCommandAndAddsNone : Obligations.EveryStepTakesOneCommandAndAddsNone := by
  unfold Obligations.EveryStepTakesOneCommandAndAddsNone
  intro s t ht
  unfold step at ht
  split at ht
  next hq =>
    cases ht
    rw [tick_pending, hq, List.tail_nil]
  next c rest hq =>
    rw [hq, List.tail_cons]
    exact exec_queue c { s with pending := rest } t ht

end Sys2Proof.Machine
end
